-- ==== Sys2Proof/Word.lean ====
section
/-!
DEFINITION. The 32-bit word of the control space and of the engines (R26, R65), the byte, and the plainest
conversions between them, natural numbers and integers.
-/
namespace Sys2Proof

/-- A 32-bit word: a control-space word (R26), a general register of an engine (R65). -/
abbrev Word := BitVec 32

/-- One byte of a memory. -/
abbrev Byte := BitVec 8

/-- The natural number `v` as a word, modulo 2^32. -/
def word (v : Nat) : Word := BitVec.ofNat 32 v

/-- A truth value as one bit. -/
def bit (b : Bool) : Nat := if b then 1 else 0

/-- A natural number clipped to the largest value of an `n`-bit field. -/
def satN (n v : Nat) : Nat := min v (2 ^ n - 1)

/-- The two's complement reading of the low `n` bits of `v`. -/
def signed (n v : Nat) : Int :=
  let w := v % 2 ^ n
  if 2 ^ (n - 1) ≤ w then (w : Int) - (2 ^ n : Nat) else w

/-- An integer as an `n`-bit two's complement field, modulo 2^n. -/
def toField (n : Nat) (v : Int) : Nat := (v % ((2 ^ n : Nat) : Int)).toNat

/-- An integer clipped to `[lo, hi]`. -/
def clampInt (lo hi v : Int) : Int := if v < lo then lo else if hi < v then hi else v

/-- The signed 32-bit reading of an integer, clipped. -/
def clip32 (v : Int) : Int := clampInt (-2147483648) 2147483647 v

/-- An integer as a word, modulo 2^32. -/
def wordOfInt (v : Int) : Word := BitVec.ofInt 32 v

end Sys2Proof
end

