-- ==== Sys2Proof/Syntax.lean ====
section
/-!
DEFINITION. The commands of the TH-9600: one constructor of `Instr` per row of the command table, with the row's
operands. A command is something that reaches the block from outside or that falls due inside it: a write or read of
a register, a packet on the link, an instruction that an engine issues, an edge on a pin, a reading of a converter,
the expiry of a timer.
-/
namespace Sys2Proof

/-- Who makes an access to the address space: host context `ctx` by a packet on lane group `grp` (0 A, 1 B; R387),
or engine number `e` (R67, R90). -/
inductive Src
  | link (ctx grp : Nat)
  | eng (e : Nat)
deriving DecidableEq, Repr

/-- There are 8 contexts, 2 groups and 282 engines (R67, R357, R387). -/
def Src.wf : Src → Bool
  | .link c g => decide (c < 8) && decide (g < 2)
  | .eng e => decide (e < 282)

/-- A register page (R27): block window number in the order of R25, and instance. -/
structure Page where
  blk  : Nat
  inst : Nat
deriving DecidableEq, Repr

/-- How many register pages a block window has: one per instance (R25, R27); the erg data window and the queue
descriptors have none. -/
def pageCount (b : Nat) : Nat :=
  match b with
  | 8 => 16 | 11 => 8 | 12 => 96 | 16 => 0 | 17 => 256 | 23 => 0 | 27 => 2
  | n => if n < 28 then 1 else 0

/-- The page exists. -/
def Page.wf (p : Page) : Bool := decide (p.inst < pageCount p.blk)

/-- Format A fields (R68): rd, rs, rt, PS, pd, cond, reserved [7:6]. The operation is the command's row. -/
structure FA where
  rd   : BitVec 4
  rs   : BitVec 4
  rt   : BitVec 4
  ps   : Bool
  pd   : BitVec 2
  cond : BitVec 3
  resv : BitVec 2
deriving DecidableEq, Repr

/-- Format A as wait, msnd and mrcv use it: rd, rs, rt and the whole func field. -/
structure FW where
  rd   : BitVec 4
  rs   : BitVec 4
  rt   : BitVec 4
  func : BitVec 14
deriving DecidableEq, Repr

/-- Format I fields (R68): rd, rs, reserved [17:16], imm16. -/
structure FI where
  rd   : BitVec 4
  rs   : BitVec 4
  resv : BitVec 2
  imm  : BitVec 16
deriving DecidableEq, Repr

/-- Format M fields (R68): rd, rs, rt, imm14. -/
structure FM where
  rd  : BitVec 4
  rs  : BitVec 4
  rt  : BitVec 4
  imm : BitVec 14
deriving DecidableEq, Repr

/-- Format B fields (R68): reserved [25:24], sense, pd, offset21. -/
structure FB where
  resv  : BitVec 2
  sense : Bool
  pd    : BitVec 2
  off   : BitVec 21
deriving DecidableEq, Repr

/-- Format X fields (R68): rd, rs, rt, xi. Opcode and xf are the command's row. -/
structure FX where
  rd : BitVec 4
  rs : BitVec 4
  rt : BitVec 4
  xi : BitVec 10
deriving DecidableEq, Repr

/-- Format S fields (R68): rd, rs, rt, imm8. The sfunc is the command's row. -/
structure FS where
  rd  : BitVec 4
  rs  : BitVec 4
  rt  : BitVec 4
  imm : BitVec 8
deriving DecidableEq, Repr

/-- What raises an engine fault: the fault instruction (R84), a word that no instruction of the engine's class
encodes (R69, R73), a fetch outside program memory (R97), an uncorrectable error in a local memory (R97). -/
inductive FaultIns
  | program (i : FS)
  | badWord (w : Word)
  | fetch
  | ecc
deriving DecidableEq, Repr

/-- Why a received packet is discarded (R369, R370). -/
inductive Discard
  | marker (lane : Nat)
  | stuffing (lane : Nat)
  | hchk
  | header
  | crc
  | duplicate
  | gap
deriving DecidableEq, Repr

/-- Why a bonded lane is lost (R381). -/
inductive LaneFault | clock | marker | stuffing
deriving DecidableEq, Repr

/-- The payload of a TRAIN packet (R375). -/
structure TrainPkt where
  group   : Nat
  lane    : Nat
  locked  : Bool
  aligned : Bool
  fresh   : Bool
  rung    : Nat
  maxRung : Nat
  nextSeq : Nat
  /-- Its marker arrived with inverted polarity (R366). -/
  inverted : Bool
deriving DecidableEq, Repr

/-- Field ranges of R375. -/
def TrainPkt.wf (t : TrainPkt) : Bool :=
  decide (t.group < 2) && decide (t.lane < 4) && decide (t.rung < 8) && decide (t.maxRung < 8) && decide (t.nextSeq < 65536)

/-- The header of a READ or WRITE (R393): context, address, number of words. -/
structure ReqHdr where
  ctx  : Nat
  addr : Nat
  nw   : Nat
deriving DecidableEq, Repr

/-- Field ranges of R393. -/
def ReqHdr.wf (h : ReqHdr) : Bool :=
  decide (h.ctx < 8) && decide (h.addr < 2 ^ 40) && decide (1 ≤ h.nw) && decide (h.nw ≤ 1024)

/-- The two forms of a CREDIT packet (R396). -/
inductive CreditPkt
  | one (q : Nat) (add : Nat) (set : Bool)
  | list (entries : List (Nat × Nat))
deriving DecidableEq, Repr

/-- Field ranges of R396. -/
def CreditPkt.wf : CreditPkt → Bool
  | .one q a _ => decide (q < 32768) && decide (a < 2 ^ 32)
  | .list es => es.all (fun e => decide (e.1 < 32768) && decide (e.2 < 2 ^ 17)) && decide (es.length ≤ 1024)

/-- The commands. -/
inductive Instr
  /-- A write to a register that has no row of its own updates its shadow or active copy, or is ignored, according to its access type and commit group (R28). -/
  | registerWrite (src : Src) (a : Nat) (v : Word)
  /-- A write of BLOCK_COMMIT requests commits of the groups whose bits are set; a request for a group already pending merges into it, and TRIG_EN and TRIG are taken at the request (R34). -/
  | commitRequest (src : Src) (page : Page) (groups : Word)
  /-- A write of BLOCK_CABORT cancels the pending commits of the groups whose bits are set, and the shadow keeps its values (R34). -/
  | commitCancel (src : Src) (page : Page) (groups : Word)
  /-- A commit requested while the instance is idle, or of an immediate group, applies within 4 core cycles (R32). -/
  | idleCommitApply (page : Page)
  /-- The supplies rise and the device goes from OFF to RESET, where it stays while PORST_N is low (R39). -/
  | supplyRise
  /-- The supplies are removed and the device goes to OFF from any state (R53). -/
  | supplyRemove
  /-- PORST_N goes low, which resets the device with cause COLD, reloads OTP and loses DRAM contents (R48). -/
  | porstAssert
  /-- PORST_N is released and the root PLL starts to lock (R45). -/
  | porstRelease
  /-- The root PLL locks, and the OTP load begins (R45). -/
  | rootPllLock
  /-- The root PLL has not locked within 200 µs after a reset and retries every 1 ms, while the device stays in RESET (R47). -/
  | pllLockRetry
  /-- The OTP load completes and the device goes from RESET to BOOT, where BIST starts (R53). -/
  | otpLoadDone
  /-- BIST ends, whether it passed or failed, and link training starts on both groups (R536). -/
  | bistDone (pass : Bool)
  /-- During BOOT after a host reset with KEEP_DRAM, the controllers restore the kept settings, leave self-refresh and set READY and KEPT_DRAM, or set TRAINERR on a failing channel (R49). -/
  | dramRestore (failing : Nat)
  /-- A supply stays below 92 % of nominal for longer than 1 µs; the device applies the supply's response within 2 µs, the most severe when several trip together, and sets its TRIP bit (R43). -/
  | supplyMonitorTrip (which : Nat)
  /-- A tripped supply rises above 95 % of nominal and its monitor releases; after a VDD_LANE trip both link groups retrain from rung 0 (R43). -/
  | supplyMonitorRelease (i : Nat)
  /-- A window of 500 guard cycles ends, and the core-cycle count is compared with 7,360 to 8,640 (R47). -/
  | clockMonitorWindow (count : Nat) (oscRunning : Bool)
  /-- The root PLL loses lock (R47). -/
  | rootPllUnlock
  /-- A GLB_STATE_REQ write with TARGET 0x3 requests LINKED, and is judged by context, key, transition and the clearing of OASIS causes (R54). -/
  | requestLinked (ctx : Nat) (key : Nat)
  /-- A GLB_STATE_REQ write with TARGET 0x4 requests LOADED and applies the load checks; from ARMED or RUNNING, the sequencers stop after their current shot (R54). -/
  | requestLoaded (ctx : Nat) (key : Nat)
  /-- A GLB_STATE_REQ write with TARGET 0x5 requests ARMED and is refused unless all four arming conditions hold (R54). -/
  | requestArmed (ctx : Nat) (key : Nat)
  /-- A GLB_STATE_REQ write with TARGET 0x6 requests RUNNING from ARMED (R54). -/
  | requestRunning (ctx : Nat) (key : Nat)
  /-- A GLB_STATE_REQ write with TARGET 0x7 from the Owner or the Safety context requests OASIS with cause 0x01 (R54). -/
  | requestOasis (ctx : Nat) (key : Nat)
  /-- 400,000 peripheral cycles after the reference buffer was enabled, HKREF_OK sets and held conversions start (R58). -/
  | hkrefOkSet
  /-- An Owner write of PWR_RESET_REQ with GO and the correct key is acknowledged on the link, and schedules a reset (R64). -/
  | hostReset (ctx : Nat) (v : Word)
  /-- 10 µs after the acknowledgement leaves, the device resets, after placing DRAM in self-refresh when KEEP_DRAM is 1 (R49). -/
  | hostResetStart
  /-- START of an engine is accepted or refused; an accepted START clears the program state and the engine runs from ENTRY within 8 cycles (R104). -/
  | start (src : Src) (e : Nat) (v : Word)
  /-- STOP halts an engine at the next instruction boundary, ends any wait, aborts an open record and returns a held handle (R105). -/
  | stop (src : Src) (e : Nat) (v : Word)
  /-- VERIFY starts a CRC-32C over the first 4 × LEN bytes of program memory or pool store, or is refused with REQ_ERR 0x4 (R107). -/
  | verify (src : Src) (e : Nat) (v : Word)
  /-- The CRC computation ends, and VERIFIED is set or cleared on the engine, or on the members of the pool (R107). -/
  | verifyDone (e : Nat)
  /-- A write of MBCLR empties the engine's receive mailbox (R89). -/
  | mbclr (src : Src) (e : Nat) (v : Word)
  /-- A host write of MBOX_IN appends a word with sender 511, or is refused while the mailbox holds 16 words (R89). -/
  | mboxIn (src : Src) (e : Nat) (w : Word)
  /-- A write to program memory or a pool store is refused while the engine or pool runs, and otherwise clears VERIFIED (R103). -/
  | programMemoryWrite (src : Src) (e : Nat) (off : Nat) (w : Word)
  /-- A host write to an engine's data memory is served after any engine access to the same word, within 2 cycles (R80). -/
  | dataMemoryWrite (src : Src) (e : Nat) (off : Nat) (w : Word)
  /-- An Owner write of GLB_SEM_n sets the count, and units then pass to waiters (R87). -/
  | semaphoreWrite (src : Src) (n : Nat) (v : Word)
  /-- add computes rd = (rs + rt) mod 2^32, and sets OVF when the signed sum does not fit (R74). -/
  | add (e : Nat) (i : FA)
  /-- sub computes rd = (rs − rt) mod 2^32, and sets OVF when the signed difference does not fit (R74). -/
  | sub (e : Nat) (i : FA)
  /-- and computes rd = rs and rt (R74). -/
  | and (e : Nat) (i : FA)
  /-- or computes rd = rs or rt (R74). -/
  | or (e : Nat) (i : FA)
  /-- xor computes rd = rs xor rt (R74). -/
  | xor (e : Nat) (i : FA)
  /-- shl shifts rs left by rt[4:0], with zeros in (R74). -/
  | shl (e : Nat) (i : FA)
  /-- shr shifts rs right by rt[4:0], with zeros in (R74). -/
  | shr (e : Nat) (i : FA)
  /-- sra shifts rs right by rt[4:0], with the sign in (R74). -/
  | sra (e : Nat) (i : FA)
  /-- mul writes the low 32 bits of the signed product, and sets OVF when it does not fit (R74). -/
  | mul (e : Nat) (i : FA)
  /-- mulh writes the high 32 bits of the signed 64-bit product (R74). -/
  | mulh (e : Nat) (i : FA)
  /-- adds computes a saturating signed sum, and sets SAT when it clips (R74). -/
  | adds (e : Nat) (i : FA)
  /-- subs computes a saturating signed difference, and sets SAT when it clips (R74). -/
  | subs (e : Nat) (i : FA)
  /-- min writes the signed minimum of rs and rt (R74). -/
  | min (e : Nat) (i : FA)
  /-- max writes the signed maximum of rs and rt (R74). -/
  | max (e : Nat) (i : FA)
  /-- abs writes the absolute value of rs, saturating 0x8000_0000 to 0x7FFF_FFFF with SAT (R74). -/
  | abs (e : Nat) (i : FA)
  /-- add (immediate) adds the sign-extended imm16 to rs (R76). -/
  | addImm (e : Nat) (i : FI)
  /-- and (immediate) ands rs with the zero-extended imm16 (R76). -/
  | andImm (e : Nat) (i : FI)
  /-- or (immediate) ors rs with the zero-extended imm16 (R76). -/
  | orImm (e : Nat) (i : FI)
  /-- xor (immediate) xors rs with the zero-extended imm16 (R76). -/
  | xorImm (e : Nat) (i : FI)
  /-- shl (immediate) shifts rs left by imm16[4:0] (R76). -/
  | shlImm (e : Nat) (i : FI)
  /-- shr (immediate) shifts rs right by imm16[4:0], with zeros in (R76). -/
  | shrImm (e : Nat) (i : FI)
  /-- sra (immediate) shifts rs right by imm16[4:0], with the sign in (R76). -/
  | sraImm (e : Nat) (i : FI)
  /-- mul (immediate) multiplies rs by the sign-extended imm16 (R76). -/
  | mulImm (e : Nat) (i : FI)
  /-- adds (immediate) adds the sign-extended imm16 with saturation (R76). -/
  | addsImm (e : Nat) (i : FI)
  /-- min (immediate) writes the signed minimum of rs and the sign-extended imm16 (R76). -/
  | minImm (e : Nat) (i : FI)
  /-- max (immediate) writes the signed maximum of rs and the sign-extended imm16 (R76). -/
  | maxImm (e : Nat) (i : FI)
  /-- li sets rd to the sign-extended imm16 (R77). -/
  | li (e : Nat) (i : FI)
  /-- lui sets the high half of rd to imm16 and keeps its low half (R77). -/
  | lui (e : Nat) (i : FI)
  /-- ld.w loads a word from local memory (R79). -/
  | ldW (e : Nat) (i : FM)
  /-- ld.h loads a sign-extended half-word from local memory (R79). -/
  | ldH (e : Nat) (i : FM)
  /-- ld.hu loads a zero-extended half-word from local memory (R79). -/
  | ldHu (e : Nat) (i : FM)
  /-- ld.b loads a sign-extended byte from local memory (R79). -/
  | ldB (e : Nat) (i : FM)
  /-- ld.bu loads a zero-extended byte from local memory (R79). -/
  | ldBu (e : Nat) (i : FM)
  /-- st.w stores the word rt to local memory (R79). -/
  | stW (e : Nat) (i : FM)
  /-- st.h stores rt[15:0] to local memory (R79). -/
  | stH (e : Nat) (i : FM)
  /-- st.b stores rt[7:0] to local memory (R79). -/
  | stB (e : Nat) (i : FM)
  /-- ldx checks its operands and starts a copy of len bytes from DRAM to data memory (R92). -/
  | ldx (e : Nat) (i : FM)
  /-- stx checks its operands and starts a copy of len bytes from data memory to DRAM (R92). -/
  | stx (e : Nat) (i : FM)
  /-- An ldx or stx completes with rd 0, 1 or 2, or ends with rd 2 when a channel on its path fails (R412). -/
  | ldxStxCompletion (e : Nat) (bad : Option Nat) (moved : Nat)
  /-- rdcs on control space checks alignment and permission and starts a read of the word (R90). -/
  | rdcsControl (e : Nat) (i : FM)
  /-- wrcs on control space checks alignment and permission and starts a write of the word (R90). -/
  | wrcsControl (e : Nat) (i : FM)
  /-- A control-space access of an engine completes, and rd takes the data or the acceptance status (R90). -/
  | controlSpaceCompletion (e : Nat)
  /-- rdcs reads a local control register (R94). -/
  | rdcsLocal (e : Nat) (i : FI)
  /-- wrcs writes a local control register, and a write of wdog restarts the watchdog (R94). -/
  | wrcsLocal (e : Nat) (i : FI)
  /-- b branches to PC + 4 × offset21 (R81). -/
  | b (e : Nat) (i : FB)
  /-- bc branches when p[pd] equals sense (R81). -/
  | bc (e : Nat) (i : FB)
  /-- call pushes the return address and branches, or raises stack overflow (R82). -/
  | call (e : Nat) (i : FB)
  /-- ret pops the return address, or raises stack overflow when the stack is empty (R82). -/
  | ret (e : Nat) (i : FS)
  /-- loop pushes a level that repeats the next n instructions rs times (R83). -/
  | loop (e : Nat) (i : FI)
  /-- nop does nothing (R81). -/
  | nop (e : Nat) (i : FS)
  /-- halt stops the engine in HALTED, or raises ORDER while it holds a handle or an open record (R85). -/
  | halt (e : Nat) (i : FS)
  /-- fault raises an engine fault carrying the program's code (R84). -/
  | fault (e : Nat) (i : FaultIns)
  /-- The watchdog count reaches LIMIT, and the engine faults with code 0x07 (R97). -/
  | watchdog (e : Nat)
  /-- The two cores of a supervisor disagree, and the pair stops in FAULTED with STOP_CAUSE 0x3 and CODE 0x28 (R101). -/
  | lockstepMismatch (n : Nat)
  /-- trap enters the supervisor's trap handler with a software cause (R100). -/
  | trap (e : Nat) (i : FX)
  /-- eret returns from the trap handler to epc (R100). -/
  | eret (e : Nat) (i : FX)
  /-- wait takes a unit of a semaphore at once, looks once when the timeout is 0, or joins the semaphore's queue (R86). -/
  | wait (e : Nat) (i : FW)
  /-- A semaphore wait's timeout expires; the engine leaves the queue with rd = 1, unless a unit passes to it in the same cycle (R88). -/
  | waitTimeout (e : Nat)
  /-- sig adds n to a semaphore's count, saturating at 0xFFFF (R86). -/
  | sig (e : Nat) (i : FI)
  /-- wtime begins waiting for the first firing of a time trigger after its issue (R535). -/
  | wtime (e : Nat) (i : FI)
  /-- A wtime's timeout expires before the firing, and rd = 1 (R535). -/
  | wtimeTimeout (e : Nat)
  /-- msnd sends a word to an engine's mailbox, or returns 1 when it is full or 2 for a bad engine number (R89). -/
  | msnd (e : Nat) (i : FW)
  /-- A sent word arrives in the receiving mailbox, at most 24 cycles after msnd (R89). -/
  | mailboxWordArrival (sender : Nat) (e : Nat)
  /-- mrcv takes the oldest mailbox word, or waits up to rs cycles for one (R535). -/
  | mrcv (e : Nat) (i : FW)
  /-- An mrcv's timeout expires with no word, and p[pd] = 0 (R535). -/
  | mrcvTimeout (e : Nat)
  /-- emit appends bytes to a queue record and, unless MORE is set, offers the record to the queue (R91). -/
  | emit (e : Nat) (i : FM)
  /-- An emit waiting for queue space passes EMIT_TMO cycles, returns rd = 1, and DROPS counts the record (R402). -/
  | emitTimeout (e : Nat)
  /-- fire builds a shot descriptor, advances the code step when coded, and presents a request; in shadow it only returns 0 (R139). -/
  | fire (e : Nat) (i : FX)
  /-- At t_I + 8, the string arbiter and the pattern-bus scheduler pass a request or deny it with status 2, 3 or 4 (R127). -/
  | stringArbitration
  /-- By the decision instant D, the guard grants or denies a request against state, faults, motion, sectors, temperatures and budgets, and the fire retires with its status (R202). -/
  | guardDecision (n : Nat) (late : Bool)
  /-- A granted shot's 64-bit frame shifts out on the pattern bus, and EMP_LATCH rises 2.5 ns after it ends (R148). -/
  | patternFrame
  /-- A granted shot's FIRE edge leaves at t_E through the guard's gate (R128). -/
  | fireEdge
  /-- An edge on an optical-start channel is accepted as time zero when it falls within the window or its 5 ns tolerance (R155). -/
  | opticalStart (s : Nat) (t : Nat)
  /-- No start has arrived 5 ns after the start window closes, and the shot is NOSTART (R155). -/
  | noStart (s : Nat)
  /-- proof requests a proof shot on a string and reports whether a start was seen (R139). -/
  | proof (e : Nat) (i : FX)
  /-- proof with WALK starts an isolation walk over the string's emitters (R161). -/
  | proofWalk (e : Nat) (i : FX)
  /-- The GAP between walk shots expires, and the next single-emitter or final proof shot is requested; the walk ends after the final shot (R161). -/
  | walkShot (s : Nat)
  /-- An enabled string goes 101 ms without a granted shot; PROOF_LATE sets and one report goes out (R159). -/
  | proofLate (s : Nat)
  /-- arm sets ARMSET to the owned ports of a port set, with N and HCTX (R135). -/
  | arm (e : Nat) (i : FX)
  /-- arm close closes the open cells of the owned ports of a port set (R135). -/
  | armClose (e : Nat) (i : FX)
  /-- wangle starts waiting for a published angle to cross the target, or returns 3 when the axis is not running (R132). -/
  | wangle (e : Nat) (i : FX)
  /-- Every 8 cycles, a waiting wangle judges crossing, timeout and staleness, and ends with the lowest rd that applies (R133). -/
  | wangleEvaluation (e : Nat)
  /-- code selects a firing code and length, closes the open cells of ARMSET, and sets STEP to 0 (R134). -/
  | code (e : Nat) (i : FX)
  /-- code off closes the open cells of ARMSET and turns coding off (R134). -/
  | codeOff (e : Nat) (i : FX)
  /-- pat sets the emitter pattern PAT and returns the unheld part in series mode (R131). -/
  | pat (e : Nat) (i : FX)
  /-- zoom places barchan window WIN of the open cell at START for later shots, restarting a window already placed (R138). -/
  | zoom (e : Nat) (i : FX)
  /-- zoom off stops collection in a window and keeps its bins (R261). -/
  | zoomOff (e : Nat) (i : FX)
  /-- When the fault manager hands a caravan over, EMT copies SQCFG, rewrites the port owners, closes their cells and sets LIVE in one cycle (R172). -/
  | sequencerHandover (p : Nat)
  /-- macs multiplies rs by an effective coefficient and accumulates into acc[A] with saturation (R181). -/
  | macs (e : Nat) (i : FX)
  /-- lim clips an accumulator to 32 bits, limits it to [rs, rt] and writes rd, optionally setting a predicate and clearing the accumulator (R65). -/
  | lim (e : Nat) (i : FX)
  /-- ferr checks a following error against LIM and marks the drive holder's cycle over (R187). -/
  | ferr (e : Nat) (i : FX)
  /-- xfade requests a cross-fade to bank B over rs control cycles (R183). -/
  | xfade (e : Nat) (i : FX)
  /-- pub publishes angle, rate and time for the axis, or records them for comparison (R196). -/
  | pub (e : Nat) (i : FX)
  /-- dacw clamps a code to DMIN and DMAX and drives it, or records it for comparison (R193). -/
  | dacw (e : Nat) (i : FX)
  /-- adcr reads the position average, the encoder count, the index capture or the latest sample (R194). -/
  | adcr (e : Nat) (i : FX)
  /-- A valid change of ENC_A or ENC_B moves the axis count and the guard's count, or a double change counts in QERR (R195). -/
  | encoderEdge (axis : Nat) (a b : Bool)
  /-- A rising edge of ENC_Z captures the axis count, and the guard resets its count and judges its azimuth (R212). -/
  | encoderIndex (axis : Nat)
  /-- No encoder edge for STALL_GAP, or too little position change over STALL_WIN; the guard declares a stall, closes the gate and reports (R214). -/
  | stall (h : Nat)
  /-- A write to a coefficient table is refused while its bank is in use, and BANKREF counts it (R186). -/
  | coefficientWrite (src : Src) (axis bank k : Nat) (second : Bool) (v : Word)
  /-- A read of AXS_PUBA latches W and T of the same publication (R196). -/
  | pubRead (src : Src) (axis : Nat)
  /-- Clearing FE_TRIP zeroes FE_TIMER and lets drive resume at the next dacw (R188). -/
  | feTripClear (src : Src) (axis : Nat)
  /-- A write to the guard staging image is refused while the commit is pending (R217). -/
  | guardStagingWrite (src : Src) (off : Nat) (w : Word)
  /-- A Safety-context write to GRD_REQ_A over group A, or GRD_REQ_B over group B, builds a request record (R217). -/
  | requestRecordWrite (ctx grp : Nat) (off : Nat) (w : Word)
  /-- Guard verification ends within 5 ms; the image becomes active with GRD_OK, or VERR records the first failed check (R217). -/
  | guardVerifyDone
  /-- The guard faults: it closes the gate, denies with FAULT, clears GRD_OK, reports, and the device enters OASIS (R218). -/
  | guardFault
  /-- A module temperature reading becomes older than 100 ms, and requests for its strings are denied with MODTEMP (R215). -/
  | moduleStale (k : Nat)
  /-- A port's listening interval opens at t_E − 40 ns, cutting the previous shot's interval if it is still open (R230). -/
  | listenOpen (p : Nat)
  /-- A port's listening interval closes at the range gate or at the latest acceptance of a NOSTART (R230). -/
  | listenClose (p : Nat)
  /-- A comparator edge is timestamped and, after blanking, dead-time and pre-start rules, becomes an event for the erg (R235). -/
  | comparatorEdge (p c : Nat) (rising : Bool) (t : Nat)
  /-- The port's overload detector trips at the upper clamp level, and OVL counts it (R243). -/
  | overloadTrip (p : Nat) (t : Nat)
  /-- The overload detector releases, and the own and tile spans are recorded (R244). -/
  | overloadRelease (p : Nat) (t : Nat)
  /-- A BLANK pin changes, and pin blanking starts or ends 5 ns later (R232). -/
  | blankPin (i : Nat) (level : Bool) (t : Nat)
  /-- Every 100 µs the port records its averaged input current as IBIAS (R227). -/
  | ibiasReading (p pA : Nat) (high : Bool)
  /-- A write of REQ to TDC_DLL starts locking in every DLL pair (R246). -/
  | dllLockRequest (src : Src)
  /-- A DLL locks, and DLL_OK sets once every in-service DLL is locked (R246). -/
  | dllLock (pair d : Nat)
  /-- A DLL loses lock; the shot in flight loses its events, DLLERR sets, and one report goes out (R247). -/
  | dllLockLoss (pair d : Nat)
  /-- A pair swaps to its standby DLL at the next shot boundary of the tile (R247). -/
  | dllSwap (pair : Nat)
  /-- A channel's CAL_STEP calibration ends, building its bin-edge table and CHOFS, or failing it (R248). -/
  | channelCalibrationDone (i : Nat) (ok : Bool) (dnlmax : Nat) (chofs : Int)
  /-- After HO_SHOTS overlap shots, the rotation hands a slot between the spare and its channel at a shot boundary (R249). -/
  | rotationHandover (t : Nat) (diff : Nat)
  /-- Each channel times an internal test edge before its port's interval, or every 10 µs, and each slice converts the reference level (R251). -/
  | testEdge (i : Nat) (off : Nat)
  /-- The spare takes over a failed channel's slot at the next shot boundary, and rotation stops (R252). -/
  | spareTakeover (t : Nat)
  /-- All increments of a shot are written within 16 cycles of its settle instant, and CSHOTS counts it (R267). -/
  | shotSettle (p : Nat)
  /-- A closed cell swaps: the header is written, GEN increments, the bank becomes DONE, its handle is queued, and the port's next cell opens (R268). -/
  | cellSwap (p : Nat)
  /-- A write of EN or PORT in ERG_BANK_b assigns or unassigns the bank, or is ignored and counted in ALLOC_REF (R265). -/
  | bankAssign (src : Src) (b : Nat) (v : Word)
  /-- FLUSH returns every DONE bank to FREE, in LINKED, LOADED and OASIS only (R271). -/
  | flush (src : Src)
  /-- An Owner write to the erg data window is accepted for an UNASSIGNED or FREE bank, and answered with ADDR otherwise (R255). -/
  | ergWindowWrite (src : Src) (b off : Nat) (w : Word)
  /-- An uncorrectable erg error sets ECCERR in the cell, and the bank becomes FAILED at release, with one report (R274). -/
  | ergEccError (b : Nat)
  /-- take holds a handle of the own pool, or waits up to rs cycles for one (R283). -/
  | take (e : Nat) (i : FX)
  /-- take look maps a port's ACTIVE bank read-only, acquiring nothing (R284). -/
  | takeLook (e : Nat) (i : FX)
  /-- A take's wait expires without a handle, and rd = 0x1_0000 (R283). -/
  | takeTimeout (e : Nat)
  /-- A queued handle goes to the pool member that has waited longest in take, within 16 cycles of the swap (R276). -/
  | handleDispatch (p : Nat)
  /-- rel waits for PTS to accept a group of up to 8 sorted returns, posts it, and releases the bank (R287). -/
  | rel (e : Nat) (i : FX)
  /-- bgest estimates a trimmed background mean and variance over a vector (R281). -/
  | bgest (e : Nat) (i : FX)
  /-- bscan finds runs above threshold and writes dune entries with SIG, OVL and CLIP (R290). -/
  | bscan (e : Nat) (i : FX)
  /-- corr correlates a vector with a kernel, or with the cell's own code template in CODE mode (R294). -/
  | corr (e : Nat) (i : FX)
  /-- fit computes a centroid or Gaussian sub-bin position, area and width (R281). -/
  | fit (e : Nat) (i : FX)
  /-- wfpk finds the waveform peak, amplitude and FWHM in the accumulator (R295). -/
  | wfpk (e : Nat) (i : FX)
  /-- poly subtracts the walk and temperature correction of a coefficient set (R296). -/
  | poly (e : Nat) (i : FX)
  /-- cls returns the first rule entry matched by a feature vector (R298). -/
  | cls (e : Nat) (i : FX)
  /-- A write of POOL moves an engine to another pool, clearing VERIFIED, or is refused while it runs (R275). -/
  | poolWrite (src : Src) (n : Nat) (v : Word)
  /-- A write of a port's pool entry applies at the port's next bank swap (R275). -/
  | portPoolWrite (src : Src) (k : Nat) (v : Word)
  /-- PTS accepts a posted group whole; streams, SAF channel A, REJ and the colour port see it in that cycle (R325). -/
  | groupAccept (e : Nat)
  /-- A sun-map line fetched from DRAM arrives in the port's cache (R308). -/
  | mapLineFetch (p : Nat)
  /-- A density condition has held for HOLD × 10 ms, and HABOOB changes with MODEGEN (R312). -/
  | haboobSwitch
  /-- The detector processes one queued observation, matching, creating or evicting a table entry (R320). -/
  | mirageObservation
  /-- An entry older than AGE seconds is freed (R322). -/
  | mirageEntryAge (i : Nat)
  /-- CLR invalidates every mirage-table entry within 5 µs (R324). -/
  | mirageClear (src : Src)
  /-- A write of FRAME to PTS_CTRL requests a frame boundary within 4 core cycles (R334). -/
  | frameRequest (src : Src)
  /-- A frame boundary from azimuth, trigger, host or age applies a TIME step and frame commits, takes the epoch and writes frame headers (R333). -/
  | frameBoundary (cause : Nat)
  /-- The published azimuth crosses a slice boundary, and slice headers go to every enabled stream (R335). -/
  | sliceBoundary
  /-- A running time trigger reaches its compare time and fires for one core cycle, then advances by its period or stops (R119). -/
  | timeTriggerFire (t : Nat)
  /-- NS reaches 1,000,000,000 and carries into SEC, starting a PPS_OUT pulse with SRC = 0 (R109). -/
  | secondCarry
  /-- A PPS_OUT pulse ends after WIDTH ms (R125). -/
  | ppsOutPulseEnd
  /-- An edge of PPS_IN, SYNC_IN or CAM_VS is stamped and captured, or counted in MISSED while VALID is set (R117). -/
  | edgeCapture (n : Nat) (rising half : Bool)
  /-- A read of TIME_CAP_NS_n returns the held capture and clears VALID (R117). -/
  | captureRead (src : Src) (n : Nat)
  /-- A read of TIME_NOW_NS latches SEC and FRAC of the same cycle (R118). -/
  | timeNowRead (src : Src)
  /-- An active VS edge closes the previous frame, opens a new one with its stamp, and applies held camera commits (R345). -/
  | camVsEdge (half : Bool)
  /-- A bus line of pixels passes the pipeline, padded or truncated, or dropped after the last configured line (R346). -/
  | busLine (pixels : List Nat)
  /-- A frame closes after 1 s without another VS edge (R345). -/
  | camFrameTimeout
  /-- An I²C transfer ends, setting when SETID takes effect, or NACK on failure (R353). -/
  | i2cTransferDone (nack : Bool) (rd : Word)
  /-- TRIG_DLY after a trigger firing, CAM_TRIG goes active (R354). -/
  | camTrigActive
  /-- CAM_TRIG returns inactive after TRIG_W µs (R354). -/
  | camTrigInactive
  /-- An IDLE packet arrives and carries nothing but its marker (R364). -/
  | idle (g : Nat)
  /-- A lane sends a marker at least once per microsecond, beginning an IDLE packet when no packet is due (R364). -/
  | markerTimer (l : Nat)
  /-- A received packet fails a framing, header, length, CRC or sequence check, is discarded and counted, and a NAK follows (R369). -/
  | packetDiscard (g : Nat) (why : Discard)
  /-- An ACK acknowledges sequenced packets up to ACKSEQ (R371). -/
  | ack (g : Nat) (seq : Nat)
  /-- A NAK starts a replay of every unacknowledged packet from ACKSEQ + 1 (R372). -/
  | nak (g : Nat) (seq : Nat)
  /-- 0.5 µs after an unacknowledged acceptance, the receiver sends an ACK (R371). -/
  | ackTimer (g : Nat)
  /-- No ACK has advanced for REPLAY_TMO µs, and replay starts (R372). -/
  | replayTimeout (g : Nat)
  /-- A TRAIN packet arrives on a lane, moving it toward LOCKED and ALIGNED and mapping its lane number (R375). -/
  | train (l : Nat) (t : TrainPkt)
  /-- A group bonds its ALIGNED lanes, deskews them, and resumes from the far end's NEXTSEQ or restarts on FRESH (R377). -/
  | groupBond (g : Nat) (skewed : Nat)
  /-- 100 µs after the first lane reached ALIGNED, bonding proceeds and lanes not ready stay out (R375). -/
  | bondTimeout (g : Nat) (skewed : Nat)
  /-- Training above rung 0 has not bonded within 1 ms, and the group tries one rung lower (R380). -/
  | trainingTimeout (g : Nat)
  /-- A write of LNK_RATE_g with GO requests a change of rung, or is refused with REQ_ERR (R379). -/
  | rateChangeRequest (src : Src) (g : Nat) (v : Word)
  /-- A RATE packet, or its REPLY, makes both ends stop sequenced traffic and retrain at the target rung (R379). -/
  | rate (g : Nat) (reply : Bool) (target : Nat)
  /-- A bonded lane is lost, and the device stops accepting striped data and sends REBOND (R381). -/
  | laneLoss (l : Nat) (why : LaneFault)
  /-- A REBOND, or its REPLY, makes both ends bond the intersection of the masks and replay, or take the group DOWN (R382). -/
  | rebond (g : Nat) (reply : Bool) (mask : Nat)
  /-- Every 1 ms, a lane that has left its group retrains alone at the group's rung (R383). -/
  | laneRetrain (l : Nat)
  /-- A re-aligned lane rejoins its group in a rebond once the other group's conditions allow (R383). -/
  | laneRejoin (l : Nat)
  /-- A READ packet reads up to 1,024 words, each checked on its own, and is answered by a COMPL with data (R393). -/
  | read (g : Nat) (h : ReqHdr) (ecc : List (Nat × Bool))
  /-- A WRITE packet writes up to 1,024 words, each checked on its own, and is answered by a COMPL (R393). -/
  | write (g : Nat) (h : ReqHdr) (ws : List Word)
  /-- A sequenced packet of a reserved or device-only type, or a malformed READ or WRITE, is answered with BADTYPE and does nothing (R392). -/
  | badtype (g : Nat) (ctx ty : Nat)
  /-- A CREDIT packet adds or sets credit on one queue or on a list of queues (R396). -/
  | credit (g : Nat) (ctx : Nat) (c : CreditPkt)
  /-- A host TSYNC is stamped at ingress and echoed at once with ECHO = 1, stamped at egress (R397). -/
  | tsync (g : Nat) (ctx : Nat) (tsid : Word) (echo rpl : Bool) (phase : Nat)
  /-- A group's egress arbiter grants one packet, by type order and then queue priority (R415). -/
  | egressGrant (g phase : Nat)
  /-- A queue with GROUP 2 moves to the other group after its group has not been BONDED for 10 µs (R404). -/
  | queueGroupChange (q : Nat)
  /-- An Owner write of QMG_ROLES with the key reassigns the Owner or Safety role, or is refused (R388). -/
  | rolesWrite (src : Src) (v : Word)
  /-- A write of a queue descriptor is applied or refused; setting EN resets WR and RD, and clearing it discards records (R401). -/
  | descriptorWrite (src : Src) (q k : Nat) (v : Word)
  /-- A record waiting under BLOCK is accepted once room has been made (R402). -/
  | blockedRecordAccept (q : Nat)
  /-- GO of QMG_FREEZE triggers the freeze of every recorder ring with ON_HOST set (R405). -/
  | hostFreeze (src : Src) (v : Word)
  /-- After POST × 4 KB more, FROZEN sets, the header is written, and cause 3 is raised (R405). -/
  | recorderFrozen (q : Nat)
  /-- The device rewrites a recorder ring's header at least once per millisecond (R405). -/
  | ringHeaderRewrite (q : Nat)
  /-- Writing 1 to FROZEN resumes recording (R405). -/
  | frozenResume (src : Src) (q : Nat)
  /-- GO of MEM_INIT starts initialisation and training of the enabled channels (R408). -/
  | dramInit (src : Src)
  /-- Initialisation ends; READY sets, or TRAINERR marks channels failed (R408). -/
  | dramReady (failing : Nat)
  /-- At a free slot, a channel's arbiter grants one burst to the chosen class and requester (R414). -/
  | dramBurstGrant (ch : Nat)
  /-- A DRAM channel fails: its accesses return NODRAM, its queues set DEGR, and its rings freeze (R412). -/
  | dramChannelFail (ch : Nat)
  /-- The patrol scrub reads each DRAM word once every SCRUB hours (R410). -/
  | patrolScrub (ch : Nat) (corrected uncorrectable : Bool)
  /-- A refresh command is issued at the rate set by temperature and band (R411). -/
  | refresh (ch : Nat)
  /-- Every 32 ms the controller reads the DRAM temperature from MR4 (R407). -/
  | mr4Read (ch : Nat) (quarters : Nat)
  /-- A DRAM request has waited longer than DSTARVE; its class's STARVE bit sets, raising cause 2 (R417). -/
  | dramStarve (k : Nat)
  /-- A queue's packet has been eligible longer than QSTARVE; its group's STARVE bit sets (R417). -/
  | queueStarve (q : Nat)
  /-- A Safety-context write to the safety staging image is refused while the commit is pending (R423). -/
  | safetyStagingWrite (src : Src) (off : Nat) (w : Word)
  /-- A Safety-context write to SAF_REQ_A over group A, or SAF_REQ_B over group B, builds a request record (R423). -/
  | safetyRecordWrite (ctx grp : Nat) (off : Nat) (w : Word)
  /-- Safety verification passes and the image is copied into both active copies with SAF_ICRC written, or VERR records the failure (R424). -/
  | safetyVerifyDone
  /-- Channel B writes SAF_BCONF, and SAF_OK sets when it matches SAF_ICRC (R424). -/
  | bconfWrite (src : Src) (v : Word)
  /-- Channel B's confirmation is missing 1 ms after SAF_ICRC; no configuration is active and VERR is 7 (R424). -/
  | bconfTimeout
  /-- A T_EVAL period ends; channel A decides each pair's verdict and updates VCNT and CCNT (R429). -/
  | periodEnd
  /-- Channel B writes its verdict and EN for a period to SAF_BRES_p; EN = 0 switches LS_p off (R433). -/
  | bresWrite (src : Src) (p : Nat) (v : Word)
  /-- T_BLAT after a period end without a valid channel B write, LS_p switches off, a safety fault (R433). -/
  | blatDeadline (p : Nat)
  /-- A safety-input channel takes a new level after FILT, and its input changes state (R440). -/
  | inputLevel (k : Nat) (level : Bool) (evs : Nat)
  /-- DISC elapses in PART or DROP, and the input enters FAULT (R441). -/
  | discrepancyExpiry (i : Nat)
  /-- 0.5 s passes in ONE without the second button, and the function returns to WAIT (R442). -/
  | twoHandTimeout (k : Nat)
  /-- Evaluators A and B differ for one input for more than 1 ms, a safety fault (R440). -/
  | evaluatorDisagree (i : Nat)
  /-- Every TPP ms, SAF_TP_0 or SAF_TP_1 goes low for TPW µs (R444). -/
  | testPulse (k : Nat)
  /-- At the end of a test-pulse window, each channel fed by it is judged, and two failures in a row set TPERR (R444). -/
  | testPulseJudge (k : Nat) (failed : Nat)
  /-- No valid selection code has held for FSW_T; both pairs are demanded off (R438). -/
  | fswerr
  /-- With every condition of R447 holding, a pair starts its switch-on sequence with HS on (R448). -/
  | switchOn (p : Nat)
  /-- FBT expires in a switch-on step or test, and the readback is judged (R448). -/
  | fbCheck (p : Nat) (fb : Bool)
  /-- Every OFFP ms while ON, LS is switched off for OFFT µs (R448). -/
  | offpTest (p : Nat)
  /-- OFFT ends; LS returns if FB read 1 (R448). -/
  | offtTestEnd (p : Nat) (fb : Bool)
  /-- A SAFE packet copy is checked, held, matched with its twin or discarded (R452). -/
  | safe (g : Nat) (ctx : Nat) (spec payload : List Byte)
  /-- A held copy's twin has not come within MSG_SKEW; it is discarded as LONE (R452). -/
  | safeCopyTimeout (g : Nat)
  /-- A matched HEARTBEAT message counts for the heartbeat (R452). -/
  | heartbeat
  /-- A matched FIELDSEL message supplies the selection code (R437). -/
  | fieldsel
  /-- A matched RESTART message releases the restart interlock of the named pairs (R449). -/
  | restart
  /-- A matched FAULT_ACK takes named pairs from LOCKOUT to OFF and clears TPERR and DISCERR (R450). -/
  | faultAck
  /-- A matched OASIS message makes the device enter OASIS with cause 0x01 (R452). -/
  | oasis
  /-- No matched message for MSG_TMO ms; both pairs are demanded off (R453). -/
  | heartbeatTimeout
  /-- A write of REF_EN enables the reference buffer and starts the 2 ms, or clears HKREF_OK and holds conversions (R464). -/
  | hkRefEn (src : Src) (on : Bool)
  /-- A write of GO runs one pass in MODE 2 (R463). -/
  | hkGo (src : Src)
  /-- A write of SYNC requests a synchronising reset of every filter at the next pass start (R472). -/
  | hkSync (src : Src)
  /-- A sequence pass starts, continuously, on a trigger firing or on GO (R463). -/
  | hkPassStart
  /-- An entry's sampling time ends and its result is formed (R461). -/
  | hkEntryDone (codes : List Int)
  /-- 2 µs after the sampling time, a filter output word is written to HK_OUT_e and optionally offered (R470). -/
  | outputWord (e : Nat)
  /-- Every 5 ms a 280 µs fixed-pair block falls due and runs at the next entry boundary (R465). -/
  | fixedPairBlock
  /-- A fixed pair's temperature is delivered to HK_FIX_m and the guard, or 0x7FFF with FIXERR (R469). -/
  | fixedPairResult (k : Nat) (sum : Int) (ovl : Bool)
  /-- Every HKCAL_S seconds a slot calibrates the converter at one gain (R487). -/
  | hkCalibrationSlot (zero full : Int)
  /-- Every 50 µs the 24 die sensors are read and JMAX and JMIN formed (R474). -/
  | dieSensorRead (temps : List Int)
  /-- Every 200 µs each valid calibration set is interpolated to its destination (R483). -/
  | calSetEvaluation
  /-- A record's 10 µs window ends and the record enters the fault log (R490). -/
  | faultRecordClose (root : Nat)
  /-- GO starts a probe capture (R500). -/
  | captureGo (src : Src) (v : Word)
  /-- STOP ends a capture in DONE (R500). -/
  | captureStop (src : Src)
  /-- Every 2^DIV core cycles the four probe words are sampled and stored (R498). -/
  | probeSample (lost : Bool)
  /-- POST samples after the trigger, the capture stops in DONE (R500). -/
  | captureDone
  /-- GO of TST_INJECT creates one report marked INJ and runs its failover (R504). -/
  | inject (src : Src) (v : Word)
  /-- FUS_PROG OP 1 programs a key slot from FUS_KSTAGE (R508). -/
  | programSlot (src : Src) (v : Word)
  /-- FUS_PROG OP 2 revokes a key slot (R508). -/
  | revokeSlot (src : Src) (v : Word)
  /-- FUS_PROG OP 3 raises GMINVER (R508). -/
  | raiseGminver (src : Src) (v : Word)
  /-- FUS_PROG OP 4 raises SMINVER (R508). -/
  | raiseSminver (src : Src) (v : Word)
  /-- Fuse programming ends and is verified, or PROGERR sets (R508). -/
  | fuseProgramDone (ok : Bool)
  /-- TRST_N resets only the test access port (R48). -/
  | tapReset
  /-- The BYPASS instruction selects the bypass register (R505). -/
  | bypass (ir : Nat)
  /-- SAMPLE/PRELOAD samples or preloads the boundary cells (R505). -/
  | samplePreload (cells : List (Nat × Nat))
  /-- EXTEST holds the device in RESET with guarded outputs clamped (R506). -/
  | extest
  /-- A waveform slice takes a sample, which adds into its accumulator bin, marks CLIPPED or BLANK, and feeds the trackers (R240). -/
  | waveformSample (p : Nat) (odd : Bool) (k : Nat) (adc : Nat)
  /-- The axis position converter samples AXS_P_a/AXS_N_a at 10 MS/s, counting over-range samples in OVR and feeding the average and adcr SRC 3 (R194). -/
  | positionConverterSample (axis : Nat) (adc : Int) (ovl : Bool)
  /-- The position-converter average of a control-cycle start becomes available, at most 400 ns after the start, and an adcr with SRC 0 waiting on it retires (R194). -/
  | positionAverageReady (axis : Nat)
  /-- The guard's 12-bit converter samples each position-sourced axis once per microsecond, updating sensed azimuth and row and the motion test (R210). -/
  | guardPositionSample (axis : Nat) (adc : Nat)
  /-- After a band change, the receiver equaliser preset moves one step toward the new band's value every 10 µs (R360). -/
  | equaliserPresetStep (l : Nat)
  /-- OSSD_FB_p reads 1 for longer than FBT while both switches are off, or while the pair is ON outside a test, and the pair enters LOCKOUT with FBERR 4 or 5 (R448). -/
  | fbHighTimeout (p : Nat)
deriving DecidableEq, Repr

end Sys2Proof
end

