-- ==== Sys2Proof/Config.lean ====
section
/-!
DEFINITION. What the spec leaves open, as constants without a body: nothing in Lean can evaluate them or prove a value
of them. `freeWord` and `freeBool` are applied to the counter `Mach.free`, which every use advances.
-/
namespace Sys2Proof

/-- A word the spec calls undefined, one per use (R80, R285). -/
opaque Config.freeWord : Nat → Word

/-- A truth value the spec leaves open, one per use (R80). -/
opaque Config.freeBool : Nat → Bool

/-- The equaliser preset of each temperature band, which the spec does not list (R360). -/
opaque Config.eqPreset : Nat → BitVec 4

/-- The direction in which the encoder of an axis counts when A leads B, which the spec does not give (R195). -/
opaque Config.encoderUp : Nat → Bool

/-- Whether a coordinate goes to the integer above the exact value or to the one below: it is only within 1 unit of it (R339). The
argument is the exact value in 2^-20 units. -/
opaque Config.coordUp : Int → Bool

/-- How far the image coordinate of a point is computed from its exact value, in 2^-16 pixels; used within 1/16 pixel (R350). -/
opaque Config.pixelOff : Int → Int

/-- A colour that no neighbour of a pixel has, for which the spec gives no value (R347). -/
opaque Config.absentColour : Nat

end Sys2Proof
end

