-- ==== Sys2Proof/Machine/Bits.lean ====
section
/-!
DEFINITION. Bit, byte and check-code helpers: little-endian bytes (R8), sign extension, CRC-32C (R368), CRC-8 (R147),
rounding.
-/
namespace Sys2Proof.Machine

/-- The `n` low bytes of a number, least significant first (R8). -/
def leBytes : Nat → Nat → List Byte
  | 0, _ => []
  | n + 1, v => BitVec.ofNat 8 v :: leBytes n (v / 256)

/-- The number spelt by bytes, least significant first (R8). -/
def leNat : List Byte → Nat
  | [] => 0
  | b :: t => b.toNat + 256 * leNat t

/-- The number spelt by bytes, most significant first. -/
def beNat (l : List Byte) : Nat := l.foldl (fun a b => 256 * a + b.toNat) 0

/-- The number of one bits among the low `n` bits. -/
def popCount : Nat → Nat → Nat
  | 0, _ => 0
  | n + 1, v => v % 2 + popCount n (v / 2)

/-- The positions of the one bits among the low `n` bits, ascending. -/
def bitsOf (n v : Nat) : List Nat := (List.range n).filter (fun i => v.testBit i)

/-- The number with exactly the listed bits set. -/
def ofBits (l : List Nat) : Nat := l.foldl (fun a i => a ||| 2 ^ i) 0

/-- Division rounded to the nearest, halves up. -/
def divRound (a b : Int) : Int := if b = 0 then 0 else (2 * a + b) / (2 * b)

/-- A quotient rounded to nearest, halves away from zero. -/
def divAway (a : Int) (b : Nat) : Int :=
  if a < 0 then -((2 * (-a) + b) / (2 * b)) else (2 * a + b) / (2 * b)

/-- Division rounded up. -/
def divCeil (a b : Nat) : Nat := if b = 0 then 0 else (a + b - 1) / b

/-- One bit of the reflected CRC-32C register. -/
def crcBit (c : Nat) : Nat := if c % 2 = 1 then (c / 2) ^^^ 0x82F63B78 else c / 2

/-- The reflected CRC-32C register after one byte. -/
def crcByte (c : Nat) (b : Byte) : Nat :=
  crcBit (crcBit (crcBit (crcBit (crcBit (crcBit (crcBit (crcBit (c ^^^ b.toNat))))))))

/-- CRC-32C: polynomial 0x1EDC6F41 reflected, initial value and final exclusive-or 0xFFFFFFFF (R368). -/
def crc32c (l : List Byte) : Nat := (l.foldl crcByte 0xFFFFFFFF) ^^^ 0xFFFFFFFF

/-- CRC-8 with polynomial x^8 + x^2 + x + 1 and initial value 0 over `n` bits of `v`, most significant first (R147). -/
def crc8 : Nat → Nat → Nat → Nat
  | 0, _, c => c
  | n + 1, v, c =>
    let fb := (c / 128 + v / 2 ^ n) % 2
    crc8 n v (((2 * c) % 256) ^^^ (if fb = 1 then 0x07 else 0))

end Sys2Proof.Machine
end

