-- ==== Sys2Proof/Machine/Map.lean ====
section
/-!
DEFINITION. The one representation of sparse data by key: a list of (key, value) pairs in canonical form, with
keys strictly rising and no entry equal to the value an unlisted key reads as. Memory (`Host.Cell` pairs), the
register copies and the per-instance records all use it.
-/
namespace Sys2Proof.Machine

/-- The value at key `k`; an unlisted key reads as `d`. -/
def mapGet {β : Type} (d : β) : List (Nat × β) → Nat → β
  | [], _ => d
  | (k', v) :: t, k => if k = k' then v else mapGet d t k

/-- The pairs of all keys but `k`. -/
def mapErase {β : Type} : List (Nat × β) → Nat → List (Nat × β)
  | [], _ => []
  | (k', v) :: t, k => if k = k' then mapErase t k else (k', v) :: mapErase t k

/-- `(k, v)` placed before the first greater key. -/
def mapInsert {β : Type} : List (Nat × β) → Nat → β → List (Nat × β)
  | [], k, v => [(k, v)]
  | (k', v') :: t, k, v => if k < k' then (k, v) :: (k', v') :: t else (k', v') :: mapInsert t k v

/-- Key `k` set to `v`; writing the value an unlisted key reads as removes the entry. -/
def mapPut {β : Type} [DecidableEq β] (d : β) (m : List (Nat × β)) (k : Nat) (v : β) : List (Nat × β) :=
  if v = d then mapErase m k else mapInsert (mapErase m k) k v

/-- The canonical form: keys strictly rising, no entry at the default. -/
def mapWf {β : Type} [DecidableEq β] (d : β) : List (Nat × β) → Bool
  | [] => true
  | [(_, v)] => decide (v ≠ d)
  | (k, v) :: (k', v') :: t => decide (v ≠ d) && decide (k < k') && mapWf d ((k', v') :: t)

end Sys2Proof.Machine
end

