-- ==== Sys2Proof/Machine/RegMap.lean ====
section
/-!
DEFINITION. The shape of a register table entry: bit fields, access types (R9, R10), commit groups (R30), and the
block windows of the control space (R25).
-/
namespace Sys2Proof.Machine

/-- A bit field, from bit `lo` to bit `hi`. -/
structure Fld where
  hi : Nat
  lo : Nat
deriving DecidableEq, Repr

/-- The access types of a field (R9, R10). -/
inductive Acc | rw | ro | wo | w1c | rc
deriving DecidableEq, Repr

/-- One field of a register: place, access type, reset value. -/
structure RegField where
  fld : Fld
  acc : Acc
  rst : Nat
deriving DecidableEq, Repr

/-- A family of registers: the address of the first, the counts and strides of its instances, its commit group as
`(base, coefficient of the first index)`, and its fields. A field is committed when the register has a group and
the field is RW; every other field is one that hardware updates or an action and is immediate (R28). -/
structure RegDef where
  base   : Nat
  dims   : List (Nat × Nat)
  group  : Option (Nat × Nat)
  fields : List RegField
deriving DecidableEq, Repr

/-- The block windows of the control space (R25). -/
inductive Blk
  | glb | clkpwr | time | flt | thm | cal | hk | tstfus | seq | emt | grd | axs | prt | tdc | wcv | erg | ergdata
  | rng | rej | pts | cam | lnk | qmg | qdesc | mem | arb | saf | sup
deriving DecidableEq, Repr

/-- The width of a field. -/
def Fld.width (f : Fld) : Nat := f.hi + 1 - f.lo

/-- A field's value in a word. -/
def Fld.get (f : Fld) (w : Word) : Nat := (w.toNat >>> f.lo) % 2 ^ f.width

/-- The mask of a field. -/
def Fld.mask (f : Fld) : Word := word ((2 ^ f.width - 1) <<< f.lo)

/-- A word with one field set to `v`, modulo the field's width. -/
def Fld.set (f : Fld) (w : Word) (v : Nat) : Word :=
  (w &&& ~~~ f.mask) ||| word ((v % 2 ^ f.width) <<< f.lo)

/-- The first and last byte address of each block window (R25). -/
def Blk.window : Blk → Nat × Nat
  | .glb => (0x0000000, 0x00FFFFF) | .clkpwr => (0x0100000, 0x01FFFFF) | .time => (0x0200000, 0x02FFFFF)
  | .flt => (0x0300000, 0x03FFFFF) | .thm => (0x0400000, 0x04FFFFF) | .cal => (0x0500000, 0x05FFFFF)
  | .hk => (0x0600000, 0x06FFFFF) | .tstfus => (0x0700000, 0x07FFFFF) | .seq => (0x1000000, 0x10FFFFF)
  | .emt => (0x1100000, 0x11FFFFF) | .grd => (0x1200000, 0x12FFFFF) | .axs => (0x1300000, 0x13FFFFF)
  | .prt => (0x2000000, 0x20FFFFF) | .tdc => (0x2100000, 0x21FFFFF) | .wcv => (0x2200000, 0x22FFFFF)
  | .erg => (0x3000000, 0x30FFFFF) | .ergdata => (0x4000000, 0x4FFFFFF) | .rng => (0x5000000, 0x5FFFFFF)
  | .rej => (0x6000000, 0x60FFFFF) | .pts => (0x7000000, 0x70FFFFF) | .cam => (0x7100000, 0x71FFFFF)
  | .lnk => (0x8000000, 0x80FFFFF) | .qmg => (0x8100000, 0x81FFFFF) | .qdesc => (0x8200000, 0x83FFFFF)
  | .mem => (0x9000000, 0x90FFFFF) | .arb => (0x9100000, 0x91FFFFF) | .saf => (0xA000000, 0xA0FFFFF)
  | .sup => (0xB000000, 0xB0FFFFF)

/-- The windows in the order of R25. -/
def Blk.all : List Blk :=
  [.glb, .clkpwr, .time, .flt, .thm, .cal, .hk, .tstfus, .seq, .emt, .grd, .axs, .prt, .tdc, .wcv, .erg, .ergdata,
   .rng, .rej, .pts, .cam, .lnk, .qmg, .qdesc, .mem, .arb, .saf, .sup]

/-- The block whose window holds a control-space address; none is a reserved address (R25, R26). -/
def blkOf (a : Nat) : Option Blk :=
  Blk.all.find? (fun b => decide (b.window.1 ≤ a) && decide (a ≤ b.window.2))

/-- The distance between the instance windows of a block, 0 for a block without instances (R25, R102). -/
def Blk.stride : Blk → Nat
  | .seq | .axs | .rng | .ergdata => 0x10000
  | .prt => 0x1000
  | .sup => 0x80000
  | .qdesc => 0x40
  | _ => 0

/-- How many instance windows a block has. -/
def Blk.count : Blk → Nat
  | .seq => 16 | .axs => 8 | .rng => 256 | .prt => 96 | .sup => 2 | .ergdata => 192 | .qdesc => 32768
  | _ => 1

/-- The instance an address of a block lies in, and its offset in the instance window. -/
def Blk.locate (b : Blk) (a : Nat) : Nat × Nat :=
  let o := a - b.window.1
  if b.stride = 0 then (0, o) else (o / b.stride, o % b.stride)

/-- The start of the register page of instance `n` of a block (R27). -/
def Blk.page (b : Blk) (n : Nat) : Nat := b.window.1 + b.stride * n

/-- The index list of an offset in nested strides, when it names an instance exactly. -/
def dimIndex : List (Nat × Nat) → Nat → Option (List Nat)
  | [], o => if o = 0 then some [] else none
  | (c, st) :: ds, o =>
    let i := if st = 0 then 0 else min (o / st) (c - 1)
    (dimIndex ds (o - st * i)).map (fun l => i :: l)

/-- Whether a register family has a register at an address, with its indices. -/
def RegDef.index (r : RegDef) (a : Nat) : Option (List Nat) :=
  if a < r.base then none else dimIndex r.dims (a - r.base)

/-- The commit group of a register with the given indices. -/
def RegDef.groupOf (r : RegDef) (ix : List Nat) : Option Nat :=
  r.group.map (fun (b, c) => b + c * ix.headD 0)

end Sys2Proof.Machine
end

