-- ==== Sys2Proof/Machine/RegTable.lean ====
section
/-!
DEFINITION. The registers of the control space: the address of every register the manual's register
headings name (R25, R27, R30), the bit places of its fields, and the table of all registers block by block
with access type (R9, R10), reset value (R36) and commit group (R30). Addresses are block window (R25) plus offset.
Reset values that the tables of the manual write as depending on the instance (RNG_POOL_n, RNG_PORTPOOL_k,
PTS_EXT_h_j, CAM_CCM_j, CAM_EXT_h_j, ARB_PRI_k, QMG_CTX_c) are spelled out row by row.
-/
namespace Sys2Proof.Machine

def aGLB_ID : Nat := 0x0000000
def aGLB_STATE : Nat := 0x0000004
def aGLB_STATE_REQ : Nat := 0x0000008
def aGLB_ARM_COND : Nat := 0x000000C
def aGLB_SEM (i : Nat) : Nat := 0x0001000 + 0x4 * i
def aPWR_RST_CAUSE : Nat := 0x0100000
def aPWR_SUPPLY_STAT : Nat := 0x0100004
def aCLK_STAT : Nat := 0x0100010
def aPWR_RESET_REQ : Nat := 0x0100020
def aRNG_CTRL (i : Nat) : Nat := 0x5000000 + 0x10000 * i
def aRNG_STAT (i : Nat) : Nat := 0x5000004 + 0x10000 * i
def aRNG_ENTRY (i : Nat) : Nat := 0x5000008 + 0x10000 * i
def aRNG_IMG (i : Nat) : Nat := 0x500000C + 0x10000 * i
def aRNG_IMGCRC (i : Nat) : Nat := 0x5000010 + 0x10000 * i
def aRNG_WDOG (i : Nat) : Nat := 0x5000014 + 0x10000 * i
def aRNG_FAULT (i : Nat) : Nat := 0x5000018 + 0x10000 * i
def aRNG_FPC (i : Nat) : Nat := 0x500001C + 0x10000 * i
def aRNG_FINSN (i : Nat) : Nat := 0x5000020 + 0x10000 * i
def aRNG_PC (i : Nat) : Nat := 0x5000024 + 0x10000 * i
def aRNG_MBOX_IN (i : Nat) : Nat := 0x5000028 + 0x10000 * i
def aRNG_MBOX_STAT (i : Nat) : Nat := 0x500002C + 0x10000 * i
def aRNG_QWIN (i : Nat) : Nat := 0x5000030 + 0x10000 * i
def aRNG_CYCLES (i : Nat) : Nat := 0x5000034 + 0x10000 * i
def aRNG_WAITCYC (i : Nat) : Nat := 0x5000038 + 0x10000 * i
def aRNG_G (i : Nat) (j : Nat) : Nat := 0x5000100 + 0x10000 * i + 0x4 * j
def aSEQ_CTRL (i : Nat) : Nat := 0x1000000 + 0x10000 * i
def aSEQ_STAT (i : Nat) : Nat := 0x1000004 + 0x10000 * i
def aSEQ_ENTRY (i : Nat) : Nat := 0x1000008 + 0x10000 * i
def aSEQ_IMG (i : Nat) : Nat := 0x100000C + 0x10000 * i
def aSEQ_IMGCRC (i : Nat) : Nat := 0x1000010 + 0x10000 * i
def aSEQ_WDOG (i : Nat) : Nat := 0x1000014 + 0x10000 * i
def aSEQ_FAULT (i : Nat) : Nat := 0x1000018 + 0x10000 * i
def aSEQ_FPC (i : Nat) : Nat := 0x100001C + 0x10000 * i
def aSEQ_FINSN (i : Nat) : Nat := 0x1000020 + 0x10000 * i
def aSEQ_PC (i : Nat) : Nat := 0x1000024 + 0x10000 * i
def aSEQ_MBOX_IN (i : Nat) : Nat := 0x1000028 + 0x10000 * i
def aSEQ_MBOX_STAT (i : Nat) : Nat := 0x100002C + 0x10000 * i
def aSEQ_QWIN (i : Nat) : Nat := 0x1000030 + 0x10000 * i
def aSEQ_CYCLES (i : Nat) : Nat := 0x1000034 + 0x10000 * i
def aSEQ_WAITCYC (i : Nat) : Nat := 0x1000038 + 0x10000 * i
def aSEQ_G (i : Nat) (j : Nat) : Nat := 0x1000100 + 0x10000 * i + 0x4 * j
def aAXS_CTRL (i : Nat) : Nat := 0x1300000 + 0x10000 * i
def aAXS_STAT (i : Nat) : Nat := 0x1300004 + 0x10000 * i
def aAXS_ENTRY (i : Nat) : Nat := 0x1300008 + 0x10000 * i
def aAXS_IMG (i : Nat) : Nat := 0x130000C + 0x10000 * i
def aAXS_IMGCRC (i : Nat) : Nat := 0x1300010 + 0x10000 * i
def aAXS_WDOG (i : Nat) : Nat := 0x1300014 + 0x10000 * i
def aAXS_FAULT (i : Nat) : Nat := 0x1300018 + 0x10000 * i
def aAXS_FPC (i : Nat) : Nat := 0x130001C + 0x10000 * i
def aAXS_FINSN (i : Nat) : Nat := 0x1300020 + 0x10000 * i
def aAXS_PC (i : Nat) : Nat := 0x1300024 + 0x10000 * i
def aAXS_MBOX_IN (i : Nat) : Nat := 0x1300028 + 0x10000 * i
def aAXS_MBOX_STAT (i : Nat) : Nat := 0x130002C + 0x10000 * i
def aAXS_QWIN (i : Nat) : Nat := 0x1300030 + 0x10000 * i
def aAXS_CYCLES (i : Nat) : Nat := 0x1300034 + 0x10000 * i
def aAXS_WAITCYC (i : Nat) : Nat := 0x1300038 + 0x10000 * i
def aAXS_G (i : Nat) (j : Nat) : Nat := 0x1300100 + 0x10000 * i + 0x4 * j
def aSUP_CTRL (i : Nat) : Nat := 0xB000000 + 0x80000 * i
def aSUP_STAT (i : Nat) : Nat := 0xB000004 + 0x80000 * i
def aSUP_ENTRY (i : Nat) : Nat := 0xB000008 + 0x80000 * i
def aSUP_IMG (i : Nat) : Nat := 0xB00000C + 0x80000 * i
def aSUP_IMGCRC (i : Nat) : Nat := 0xB000010 + 0x80000 * i
def aSUP_WDOG (i : Nat) : Nat := 0xB000014 + 0x80000 * i
def aSUP_FAULT (i : Nat) : Nat := 0xB000018 + 0x80000 * i
def aSUP_FPC (i : Nat) : Nat := 0xB00001C + 0x80000 * i
def aSUP_FINSN (i : Nat) : Nat := 0xB000020 + 0x80000 * i
def aSUP_PC (i : Nat) : Nat := 0xB000024 + 0x80000 * i
def aSUP_MBOX_IN (i : Nat) : Nat := 0xB000028 + 0x80000 * i
def aSUP_MBOX_STAT (i : Nat) : Nat := 0xB00002C + 0x80000 * i
def aSUP_QWIN (i : Nat) : Nat := 0xB000030 + 0x80000 * i
def aSUP_CYCLES (i : Nat) : Nat := 0xB000034 + 0x80000 * i
def aSUP_WAITCYC (i : Nat) : Nat := 0xB000038 + 0x80000 * i
def aSUP_G (i : Nat) (j : Nat) : Nat := 0xB000100 + 0x80000 * i + 0x4 * j
def aRNG_PSWIN (i : Nat) : Nat := 0x500003C + 0x10000 * i
def aTIME_NOW_NS : Nat := 0x0200000
def aTIME_NOW_SEC_LO : Nat := 0x0200004
def aTIME_NOW_SEC_HI : Nat := 0x0200008
def aTIME_NOW_FRAC : Nat := 0x020000C
def aTIME_INC_LO : Nat := 0x0200010
def aTIME_INC_HI : Nat := 0x0200014
def aTIME_STEP_CTRL : Nat := 0x0200018
def aTIME_STEP_SEC_LO : Nat := 0x020001C
def aTIME_STEP_SEC_HI : Nat := 0x0200020
def aTIME_STAT : Nat := 0x0200024
def aTIME_LAT (i : Nat) : Nat := 0x0200030 + 0x4 * i
def aTIME_PPSO : Nat := 0x0200040
def aTIME_CAP_CTRL (i : Nat) : Nat := 0x0200050 + 0x10 * i
def aTIME_CAP_SEC_LO (i : Nat) : Nat := 0x0200054 + 0x10 * i
def aTIME_CAP_SEC_HI (i : Nat) : Nat := 0x0200058 + 0x10 * i
def aTIME_CAP_NS (i : Nat) : Nat := 0x020005C + 0x10 * i
def aTIME_TRIG_CTRL (i : Nat) : Nat := 0x0200100 + 0x20 * i
def aTIME_TRIG_SEC_LO (i : Nat) : Nat := 0x0200104 + 0x20 * i
def aTIME_TRIG_NS (i : Nat) : Nat := 0x0200108 + 0x20 * i
def aTIME_TRIG_PER_NS (i : Nat) : Nat := 0x020010C + 0x20 * i
def aTIME_TRIG_PER_FRAC (i : Nat) : Nat := 0x0200110 + 0x20 * i
def aTIME_TRIG_STAT (i : Nat) : Nat := 0x0200118 + 0x20 * i
def aSEQ_FIRECFG (i : Nat) : Nat := 0x1000200 + 0x10000 * i
def aSEQ_STBY (i : Nat) : Nat := 0x1000210 + 0x10000 * i
def aSEQ_ARMST (i : Nat) : Nat := 0x1000220 + 0x10000 * i
def aSEQ_CODE (i : Nat) : Nat := 0x1000224 + 0x10000 * i
def aSEQ_SHOTS (i : Nat) : Nat := 0x1000230 + 0x10000 * i
def aSEQ_DENY (i : Nat) : Nat := 0x1000234 + 0x10000 * i
def aSEQ_SKIP (i : Nat) : Nat := 0x1000238 + 0x10000 * i
def aSEQ_PSET (i : Nat) (j : Nat) (k : Nat) : Nat := 0x1000300 + 0x10000 * i + 0x10 * j + 0x4 * k
def aEMT_MODE : Nat := 0x1100000
def aEMT_BUS : Nat := 0x1100004
def aEMT_PROOF : Nat := 0x1100010
def aEMT_STARVE : Nat := 0x1100014
def aEMT_ARBSTAT : Nat := 0x1100018
def aEMT_STAT : Nat := 0x110001C
def aEMT_GRANTS : Nat := 0x1100020
def aEMT_SQCFG (i : Nat) : Nat := 0x1100040 + 0x4 * i
def aEMT_PORTOWN (i : Nat) : Nat := 0x1100080 + 0x4 * i
def aEMT_STR_CFG0 (i : Nat) : Nat := 0x1100100 + 0x10 * i
def aEMT_STR_CFG1 (i : Nat) : Nat := 0x1100104 + 0x10 * i
def aEMT_STR_STAT (i : Nat) : Nat := 0x1100108 + 0x10 * i
def aEMT_STR_DIAG (i : Nat) : Nat := 0x110010C + 0x10 * i
def aEMT_HOLD (i : Nat) : Nat := 0x1100200 + 0x4 * i
def aEMT_TRIM (i : Nat) : Nat := 0x1101000 + 0x4 * i
def aEMT_PW0 (i : Nat) : Nat := 0x1101400 + 0x8 * i
def aEMT_PW1 (i : Nat) : Nat := 0x1101404 + 0x8 * i
def aAXS_CFG (i : Nat) : Nat := 0x1300200 + 0x20000 * i
def aAXS_TOFS (i : Nat) : Nat := 0x1300204 + 0x20000 * i
def aAXS_DLIM (i : Nat) : Nat := 0x1300208 + 0x20000 * i
def aAXS_SAFE (i : Nat) : Nat := 0x130020C + 0x20000 * i
def aAXS_FELIM (i : Nat) : Nat := 0x1300210 + 0x20000 * i
def aAXS_FETIME (i : Nat) : Nat := 0x1300214 + 0x20000 * i
def aAXS_MON (i : Nat) : Nat := 0x1300218 + 0x20000 * i
def aAXS_ATOL (i : Nat) : Nat := 0x130021C + 0x20000 * i
def aAXS_ASTAT (i : Nat) : Nat := 0x1300220 + 0x20000 * i
def aAXS_FADE (i : Nat) : Nat := 0x1300224 + 0x20000 * i
def aAXS_CNT (i : Nat) : Nat := 0x1300228 + 0x20000 * i
def aAXS_PUBA (i : Nat) : Nat := 0x1300230 + 0x20000 * i
def aAXS_PUBW (i : Nat) : Nat := 0x1300234 + 0x20000 * i
def aAXS_PUBT (i : Nat) : Nat := 0x1300238 + 0x20000 * i
def aAXS_CYC (i : Nat) : Nat := 0x130023C + 0x20000 * i
def aAXS_COEFV (i : Nat) (j : Nat) (k : Nat) : Nat := 0x1301000 + 0x20000 * i + 0x100 * j + 0x8 * k
def aAXS_COEFS (i : Nat) (j : Nat) (k : Nat) : Nat := 0x1301004 + 0x20000 * i + 0x100 * j + 0x8 * k
def aAXS_SNAPLO (i : Nat) (j : Nat) : Nat := 0x1301400 + 0x20000 * i + 0x8 * j
def aAXS_SNAPHI (i : Nat) (j : Nat) : Nat := 0x1301404 + 0x20000 * i + 0x8 * j
def aGRD_STAT : Nat := 0x1200000
def aGRD_VSTAT : Nat := 0x1200004
def aGRD_CFGID : Nat := 0x1200008
def aGRD_SEQNO : Nat := 0x120000C
def aGRD_LASTDENY : Nat := 0x1200010
def aGRD_SENSE (i : Nat) : Nat := 0x1200020 + 0x4 * i
def aGRD_DENY (i : Nat) : Nat := 0x1200040 + 0x4 * i
def aPRT_CTRL (i : Nat) : Nat := 0x2000000 + 0x1000 * i
def aPRT_FE (i : Nat) : Nat := 0x2000004 + 0x1000 * i
def aPRT_THR01 (i : Nat) : Nat := 0x2000008 + 0x1000 * i
def aPRT_THR23 (i : Nat) : Nat := 0x200000C + 0x1000 * i
def aPRT_BLANK (i : Nat) : Nat := 0x2000010 + 0x1000 * i
def aPRT_BLKSEL (i : Nat) : Nat := 0x2000014 + 0x1000 * i
def aPRT_BIAS (i : Nat) : Nat := 0x2000018 + 0x1000 * i
def aPRT_THRA01 (i : Nat) : Nat := 0x2000020 + 0x1000 * i
def aPRT_THRA23 (i : Nat) : Nat := 0x2000024 + 0x1000 * i
def aPRT_IMON (i : Nat) : Nat := 0x2000030 + 0x1000 * i
def aPRT_STAT (i : Nat) : Nat := 0x2000034 + 0x1000 * i
def aPRT_SHOTS (i : Nat) : Nat := 0x2000040 + 0x1000 * i
def aPRT_LOST0 (i : Nat) : Nat := 0x2000044 + 0x1000 * i
def aPRT_LOST1 (i : Nat) : Nat := 0x2000048 + 0x1000 * i
def aPRT_LOST2 (i : Nat) : Nat := 0x200004C + 0x1000 * i
def aPRT_LOST3 (i : Nat) : Nat := 0x2000050 + 0x1000 * i
def aPRT_OVL (i : Nat) : Nat := 0x2000054 + 0x1000 * i
def aTDC_DLL : Nat := 0x2100000
def aTDC_DLLSTAT : Nat := 0x2100004
def aTDC_ROT : Nat := 0x2100008
def aTDC_BPIN : Nat := 0x210000C
def aTDC_TILE (i : Nat) : Nat := 0x2100100 + 0x4 * i
def aTDC_START (i : Nat) : Nat := 0x2100200 + 0x4 * i
def aTDC_STSTAT : Nat := 0x2100240
def aTDC_CHCAL (i : Nat) : Nat := 0x2101000 + 0x4 * i
def aTDC_POFS (i : Nat) : Nat := 0x2102000 + 0x4 * i
def aWCV_CTRL : Nat := 0x2200000
def aWCV_PORT (i : Nat) : Nat := 0x2200100 + 0x4 * i
def aWCV_SCAL (i : Nat) (j : Nat) : Nat := 0x2201000 + 0x10 * i + 0x4 * j
def aERG_CTRL : Nat := 0x3000000
def aERG_STAT : Nat := 0x3000004
def aERG_CELLS : Nat := 0x3000008
def aERG_WAITS : Nat := 0x300000C
def aERG_HCTX_CFG (i : Nat) : Nat := 0x3000080 + 0x10 * i
def aERG_HCTX_GATE (i : Nat) : Nat := 0x3000084 + 0x10 * i
def aERG_HCTX_ASPAN (i : Nat) : Nat := 0x3000088 + 0x10 * i
def aERG_PSTAT (i : Nat) : Nat := 0x3000100 + 0x4 * i
def aERG_PCNT (i : Nat) : Nat := 0x3000280 + 0x4 * i
def aERG_BANK (i : Nat) : Nat := 0x3000400 + 0x4 * i
def aRNG_POOL (i : Nat) : Nat := 0x5000200 + 0x10000 * i
def aRNG_HOLD (i : Nat) : Nat := 0x5000204 + 0x10000 * i
def aRNG_RELS (i : Nat) : Nat := 0x5000208 + 0x10000 * i
def aRNG_RETS (i : Nat) : Nat := 0x500020C + 0x10000 * i
def aRNG_LOSS (i : Nat) : Nat := 0x5000210 + 0x10000 * i
def aRNG_PORTPOOL (i : Nat) : Nat := 0x5002000 + 4 * i
def aRNG_DCFG : Nat := 0x5002040
def aRNG_DQ (i : Nat) : Nat := 0x5002080 + 0x4 * i
def aRNG_DCNT (i : Nat) : Nat := 0x50020C0 + 0x4 * i
def aREJ_BGWIN : Nat := 0x6000000
def aREJ_BGTGT : Nat := 0x6000004
def aREJ_BGLIM : Nat := 0x6000008
def aREJ_BGCFG : Nat := 0x600000C
def aREJ_SUNCFG : Nat := 0x6000018
def aREJ_SUNBASE : Nat := 0x600001C
def aREJ_MAPSTAT : Nat := 0x6000020
def aREJ_MODE : Nat := 0x6000040
def aREJ_HBCFG : Nat := 0x6000044
def aREJ_HBSTAT : Nat := 0x6000048
def aREJ_PLAN : Nat := 0x6000060
def aREJ_PLANSTAT : Nat := 0x6000064
def aREJ_MIRCTRL : Nat := 0x6000114
def aREJ_SUN (i : Nat) : Nat := 0x6000010 + 0x4 * i
def aREJ_ASSIGN (i : Nat) : Nat := 0x6000080 + 0x4 * i
def aREJ_MIRCFG : Nat := 0x6000100
def aREJ_MIRCFG2 : Nat := 0x6000104
def aREJ_MIRSTAT : Nat := 0x6000108
def aREJ_MIRCNT0 : Nat := 0x600010C
def aREJ_MIRCNT1 : Nat := 0x6000110
def aREJ_PBG (i : Nat) : Nat := 0x6000200 + 0x4 * i
def aPTS_FRAMECFG : Nat := 0x7000000
def aPTS_FRAMEAZ : Nat := 0x7000004
def aPTS_TSEL : Nat := 0x7000008
def aPTS_CTRL : Nat := 0x700000C
def aPTS_FSEQ : Nat := 0x7000010
def aPTS_GROUPS : Nat := 0x7000014
def aPTS_EXT (i j : Nat) : Nat := 0x7000100 + 0x40 * i + 4 * j
def aPTS_SCFG (i : Nat) : Nat := 0x7000200 + 0x20 * i
def aPTS_SQ (i : Nat) : Nat := 0x7000204 + 0x20 * i
def aPTS_SPORT (i : Nat) (j : Nat) : Nat := 0x7000208 + 0x20 * i + 0x4 * j
def aPTS_SCNT (i : Nat) : Nat := 0x7000300 + 0x4 * i
def aPTS_ELEV (i : Nat) (j : Nat) : Nat := 0x7001000 + 0x200 * i + 0x4 * j
def aCAM_CTRL : Nat := 0x7100000
def aCAM_SIZE : Nat := 0x7100004
def aCAM_MERGE : Nat := 0x7100008
def aCAM_BLACK01 : Nat := 0x710000C
def aCAM_BLACK23 : Nat := 0x7100010
def aCAM_WB0 : Nat := 0x7100014
def aCAM_WB1 : Nat := 0x7100018
def aCAM_CCM (i : Nat) : Nat := 0x7100020 + 4 * i
def aCAM_PSEL : Nat := 0x7100044
def aCAM_TRIG : Nat := 0x7100060
def aCAM_I2C : Nat := 0x7100080
def aCAM_SET : Nat := 0x7100084
def aCAM_I2CSTAT : Nat := 0x7100088
def aCAM_I2CRD : Nat := 0x710008C
def aCAM_COL : Nat := 0x71000A0
def aCAM_RS_LINE : Nat := 0x71000A4
def aCAM_RS_OFS : Nat := 0x71000A8
def aCAM_INTR (i : Nat) : Nat := 0x71000C0 + 0x4 * i
def aCAM_EXT (i j : Nat) : Nat := 0x7100100 + 0x40 * i + 4 * j
def aCAM_STRM (i : Nat) : Nat := 0x71001A0 + 0x4 * i
def aCAM_STATQ : Nat := 0x71001B0
def aCAM_FSTAT : Nat := 0x7100180
def aCAM_FCNT : Nat := 0x7100184
def aLNK_GCFG (i : Nat) : Nat := 0x8000000 + 0x40 * i
def aLNK_RATE (i : Nat) : Nat := 0x8000004 + 0x40 * i
def aLNK_GSTAT (i : Nat) : Nat := 0x8000008 + 0x40 * i
def aLNK_GCNT0 (i : Nat) : Nat := 0x800000C + 0x40 * i
def aLNK_GCNT1 (i : Nat) : Nat := 0x8000010 + 0x40 * i
def aLNK_GCNT2 (i : Nat) : Nat := 0x8000014 + 0x40 * i
def aLNK_GCNT3 (i : Nat) : Nat := 0x8000018 + 0x40 * i
def aLNK_OUTST (i : Nat) : Nat := 0x800001C + 0x40 * i
def aLNK_LSTAT (i : Nat) : Nat := 0x8000100 + 0x4 * i
def aLNK_LCNT (i : Nat) : Nat := 0x8000120 + 0x4 * i
def aLNK_TMO : Nat := 0x8000200
def aQMG_ROLES : Nat := 0x8100000
def aQMG_CTX (i : Nat) : Nat := 0x8100010 + 4 * i
def aQMG_NSTAT (i : Nat) : Nat := 0x8100030 + 0x4 * i
def aQMG_FREEZE : Nat := 0x8100050
def aQMG_CFG : Nat := 0x8100054
def aQMG_WIN0 (i : Nat) (j : Nat) : Nat := 0x8100100 + 0x20 * i + 0x8 * j
def aQMG_WIN1 (i : Nat) (j : Nat) : Nat := 0x8100104 + 0x20 * i + 0x8 * j
def aMEM_CFG : Nat := 0x9000000
def aMEM_INIT : Nat := 0x9000004
def aMEM_STAT : Nat := 0x9000008
def aMEM_REF : Nat := 0x900000C
def aMEM_ECC (i : Nat) : Nat := 0x9000010 + 0x4 * i
def aARB_PRI (i : Nat) : Nat := 0x9100000 + 4 * i
def aARB_STARVE : Nat := 0x9100020
def aARB_STAT : Nat := 0x9100024
def aARB_WAIT (i : Nat) : Nat := 0x9100040 + 0x4 * i
def aSAF_STAT : Nat := 0xA000000
def aSAF_VSTAT : Nat := 0xA000004
def aSAF_CFGID : Nat := 0xA000008
def aSAF_SEQNO : Nat := 0xA00000C
def aSAF_ICRC : Nat := 0xA000010
def aSAF_BCONF : Nat := 0xA000014
def aSAF_PERIOD : Nat := 0xA000018
def aSAF_FIELD : Nat := 0xA00001C
def aSAF_OSSD (i : Nat) : Nat := 0xA000020 + 0x4 * i
def aSAF_VIOL (i : Nat) : Nat := 0xA000028 + 0x4 * i
def aSAF_BRES (i : Nat) : Nat := 0xA000030 + 0x4 * i
def aSAF_BRING : Nat := 0xA000038
def aSAF_IN (i : Nat) : Nat := 0xA000040 + 0x4 * i
def aSAF_MSG : Nat := 0xA000060
def aSAF_MSGCNT : Nat := 0xA000064
def aHK_CTRL : Nat := 0x0600000
def aHK_SEQCFG : Nat := 0x0600004
def aHK_STAT : Nat := 0x0600008
def aHK_QCFG : Nat := 0x060000C
def aHK_ENTA (i : Nat) : Nat := 0x0600100 + 0x10 * i
def aHK_ENTB (i : Nat) : Nat := 0x0600104 + 0x10 * i
def aHK_ENTF (i : Nat) : Nat := 0x0600108 + 0x10 * i
def aHK_OUT (i : Nat) : Nat := 0x0600400 + 0x4 * i
def aHK_EST (i : Nat) : Nat := 0x0600440 + 0x4 * i
def aHK_FIX (i : Nat) : Nat := 0x0600480 + 0x4 * i
def aTHM_STAT : Nat := 0x0400000
def aTHM_JT : Nat := 0x0400004
def aTHM_CFG : Nat := 0x0400008
def aTHM_CNT : Nat := 0x040000C
def aTHM_TEMP (i : Nat) : Nat := 0x0400100 + 0x4 * i
def aCAL_CFG : Nat := 0x0500000
def aCAL_STAT : Nat := 0x0500004
def aCAL_SETERR (i : Nat) : Nat := 0x0500040 + 0x4 * i
def aCAL_OUT (i : Nat) : Nat := 0x0500200 + 0x4 * i
def aFLT_STAT : Nat := 0x0300000
def aFLT_LOG : Nat := 0x0300004
def aFLT_OASISMASK : Nat := 0x0300008
def aPRB_CTRL : Nat := 0x0700000
def aPRB_DEPTH : Nat := 0x0700004
def aPRB_DEST : Nat := 0x0700008
def aPRB_SIZE : Nat := 0x070000C
def aPRB_SEL (i : Nat) : Nat := 0x0700010 + 0x4 * i
def aPRB_TRIG (i : Nat) : Nat := 0x0700020 + 0x4 * i
def aPRB_LVL (i : Nat) : Nat := 0x0700030 + 0x4 * i
def aPRB_STAT : Nat := 0x0700040
def aPRB_TSTAT : Nat := 0x0700044
def aPRB_TIDX : Nat := 0x0700048
def aTST_PERT0 : Nat := 0x0700100
def aTST_PERT1 : Nat := 0x0700104
def aTST_PERT2 : Nat := 0x0700108
def aTST_INJECT : Nat := 0x070010C
def aFUS_STAT : Nat := 0x0700200
def aFUS_PROG : Nat := 0x0700204
def aFUS_KSTAGE (i : Nat) : Nat := 0x0700220 + 0x4 * i
def aPRB_STAMP (i : Nat) : Nat := 0x070004C + 0x4 * i

def fGLB_ID_PART : Fld := ⟨31, 16⟩
def fGLB_ID_GRADE : Fld := ⟨15, 8⟩
def fGLB_ID_STEPPING : Fld := ⟨7, 0⟩
def fGLB_STATE_PREV : Fld := ⟨27, 24⟩
def fGLB_STATE_OASIS_CAUSE : Fld := ⟨23, 16⟩
def fGLB_STATE_TRANS_CNT : Fld := ⟨15, 8⟩
def fGLB_STATE_REQ_ERR : Fld := ⟨7, 4⟩
def fGLB_STATE_STATE : Fld := ⟨3, 0⟩
def fGLB_STATE_REQ_KEY : Fld := ⟨31, 16⟩
def fGLB_STATE_REQ_TARGET : Fld := ⟨3, 0⟩
def fGLB_ARM_COND_HKREF_OK : Fld := ⟨4, 4⟩
def fGLB_ARM_COND_DLL_OK : Fld := ⟨3, 3⟩
def fGLB_ARM_COND_SAF_OK : Fld := ⟨2, 2⟩
def fGLB_ARM_COND_GRD_OK : Fld := ⟨1, 1⟩
def fGLB_ARM_COND_ALL_OK : Fld := ⟨0, 0⟩
def fGLB_SEM_OVF : Fld := ⟨17, 17⟩
def fGLB_SEM_WAITERS : Fld := ⟨16, 16⟩
def fGLB_SEM_COUNT : Fld := ⟨15, 0⟩
def fPWR_RST_CAUSE_KEPT_DRAM : Fld := ⟨4, 4⟩
def fPWR_RST_CAUSE_HOST : Fld := ⟨3, 3⟩
def fPWR_RST_CAUSE_CLOCK : Fld := ⟨2, 2⟩
def fPWR_RST_CAUSE_SUPPLY : Fld := ⟨1, 1⟩
def fPWR_RST_CAUSE_COLD : Fld := ⟨0, 0⟩
def fPWR_SUPPLY_STAT_TRIP : Fld := ⟨24, 16⟩
def fPWR_SUPPLY_STAT_OK : Fld := ⟨8, 0⟩
def fCLK_STAT_GOSC_KHZ : Fld := ⟨31, 16⟩
def fCLK_STAT_GOSC_FAIL : Fld := ⟨3, 3⟩
def fCLK_STAT_ROOT_UNLOCK : Fld := ⟨2, 2⟩
def fCLK_STAT_GOSC_OK : Fld := ⟨1, 1⟩
def fCLK_STAT_ROOT_LOCK : Fld := ⟨0, 0⟩
def fPWR_RESET_REQ_KEY : Fld := ⟨31, 16⟩
def fPWR_RESET_REQ_BIST_SKIP : Fld := ⟨2, 2⟩
def fPWR_RESET_REQ_KEEP_DRAM : Fld := ⟨1, 1⟩
def fPWR_RESET_REQ_GO : Fld := ⟨0, 0⟩
def fRNG_CTRL_MBCLR : Fld := ⟨7, 7⟩
def fRNG_CTRL_VERIFY : Fld := ⟨6, 6⟩
def fRNG_CTRL_STOP : Fld := ⟨3, 3⟩
def fRNG_CTRL_START : Fld := ⟨2, 2⟩
def fRNG_CTRL_ENABLE : Fld := ⟨0, 0⟩
def fRNG_STAT_REQ_ERR : Fld := ⟨23, 20⟩
def fRNG_STAT_STOP_CAUSE : Fld := ⟨19, 16⟩
def fRNG_STAT_WAITKIND : Fld := ⟨15, 12⟩
def fRNG_STAT_VERIFY_BUSY : Fld := ⟨9, 9⟩
def fRNG_STAT_VERIFIED : Fld := ⟨8, 8⟩
def fRNG_STAT_STATE : Fld := ⟨2, 0⟩
def fRNG_ENTRY_ENTRY : Fld := ⟨17, 2⟩
def fRNG_IMG_LEN : Fld := ⟨18, 2⟩
def fRNG_IMGCRC_CRC : Fld := ⟨31, 0⟩
def fRNG_WDOG_LIMIT : Fld := ⟨23, 0⟩
def fRNG_FAULT_VALID : Fld := ⟨31, 31⟩
def fRNG_FAULT_CODE : Fld := ⟨23, 16⟩
def fRNG_FAULT_COUNT : Fld := ⟨15, 0⟩
def fRNG_FPC_FPC : Fld := ⟨17, 0⟩
def fRNG_FINSN_INSN : Fld := ⟨31, 0⟩
def fRNG_PC_PC : Fld := ⟨17, 0⟩
def fRNG_MBOX_IN_WORD : Fld := ⟨31, 0⟩
def fRNG_MBOX_STAT_FULLCNT : Fld := ⟨31, 16⟩
def fRNG_MBOX_STAT_LEVEL : Fld := ⟨4, 0⟩
def fRNG_QWIN_FIRST : Fld := ⟨30, 16⟩
def fRNG_QWIN_LAST : Fld := ⟨14, 0⟩
def fRNG_CYCLES_CYCLES : Fld := ⟨31, 0⟩
def fRNG_WAITCYC_WAITCYC : Fld := ⟨31, 0⟩
def fRNG_G_VALUE : Fld := ⟨31, 0⟩
def fSEQ_CTRL_MBCLR : Fld := ⟨7, 7⟩
def fSEQ_CTRL_VERIFY : Fld := ⟨6, 6⟩
def fSEQ_CTRL_STOP : Fld := ⟨3, 3⟩
def fSEQ_CTRL_START : Fld := ⟨2, 2⟩
def fSEQ_CTRL_ENABLE : Fld := ⟨0, 0⟩
def fSEQ_STAT_REQ_ERR : Fld := ⟨23, 20⟩
def fSEQ_STAT_STOP_CAUSE : Fld := ⟨19, 16⟩
def fSEQ_STAT_WAITKIND : Fld := ⟨15, 12⟩
def fSEQ_STAT_VERIFY_BUSY : Fld := ⟨9, 9⟩
def fSEQ_STAT_VERIFIED : Fld := ⟨8, 8⟩
def fSEQ_STAT_STATE : Fld := ⟨2, 0⟩
def fSEQ_ENTRY_ENTRY : Fld := ⟨17, 2⟩
def fSEQ_IMG_LEN : Fld := ⟨18, 2⟩
def fSEQ_IMGCRC_CRC : Fld := ⟨31, 0⟩
def fSEQ_WDOG_LIMIT : Fld := ⟨23, 0⟩
def fSEQ_FAULT_VALID : Fld := ⟨31, 31⟩
def fSEQ_FAULT_CODE : Fld := ⟨23, 16⟩
def fSEQ_FAULT_COUNT : Fld := ⟨15, 0⟩
def fSEQ_FPC_FPC : Fld := ⟨17, 0⟩
def fSEQ_FINSN_INSN : Fld := ⟨31, 0⟩
def fSEQ_PC_PC : Fld := ⟨17, 0⟩
def fSEQ_MBOX_IN_WORD : Fld := ⟨31, 0⟩
def fSEQ_MBOX_STAT_FULLCNT : Fld := ⟨31, 16⟩
def fSEQ_MBOX_STAT_LEVEL : Fld := ⟨4, 0⟩
def fSEQ_QWIN_FIRST : Fld := ⟨30, 16⟩
def fSEQ_QWIN_LAST : Fld := ⟨14, 0⟩
def fSEQ_CYCLES_CYCLES : Fld := ⟨31, 0⟩
def fSEQ_WAITCYC_WAITCYC : Fld := ⟨31, 0⟩
def fSEQ_G_VALUE : Fld := ⟨31, 0⟩
def fAXS_CTRL_MBCLR : Fld := ⟨7, 7⟩
def fAXS_CTRL_VERIFY : Fld := ⟨6, 6⟩
def fAXS_CTRL_STOP : Fld := ⟨3, 3⟩
def fAXS_CTRL_START : Fld := ⟨2, 2⟩
def fAXS_CTRL_ENABLE : Fld := ⟨0, 0⟩
def fAXS_STAT_REQ_ERR : Fld := ⟨23, 20⟩
def fAXS_STAT_STOP_CAUSE : Fld := ⟨19, 16⟩
def fAXS_STAT_WAITKIND : Fld := ⟨15, 12⟩
def fAXS_STAT_VERIFY_BUSY : Fld := ⟨9, 9⟩
def fAXS_STAT_VERIFIED : Fld := ⟨8, 8⟩
def fAXS_STAT_STATE : Fld := ⟨2, 0⟩
def fAXS_ENTRY_ENTRY : Fld := ⟨17, 2⟩
def fAXS_IMG_LEN : Fld := ⟨18, 2⟩
def fAXS_IMGCRC_CRC : Fld := ⟨31, 0⟩
def fAXS_WDOG_LIMIT : Fld := ⟨23, 0⟩
def fAXS_FAULT_VALID : Fld := ⟨31, 31⟩
def fAXS_FAULT_CODE : Fld := ⟨23, 16⟩
def fAXS_FAULT_COUNT : Fld := ⟨15, 0⟩
def fAXS_FPC_FPC : Fld := ⟨17, 0⟩
def fAXS_FINSN_INSN : Fld := ⟨31, 0⟩
def fAXS_PC_PC : Fld := ⟨17, 0⟩
def fAXS_MBOX_IN_WORD : Fld := ⟨31, 0⟩
def fAXS_MBOX_STAT_FULLCNT : Fld := ⟨31, 16⟩
def fAXS_MBOX_STAT_LEVEL : Fld := ⟨4, 0⟩
def fAXS_QWIN_FIRST : Fld := ⟨30, 16⟩
def fAXS_QWIN_LAST : Fld := ⟨14, 0⟩
def fAXS_CYCLES_CYCLES : Fld := ⟨31, 0⟩
def fAXS_WAITCYC_WAITCYC : Fld := ⟨31, 0⟩
def fAXS_G_VALUE : Fld := ⟨31, 0⟩
def fSUP_CTRL_MBCLR : Fld := ⟨7, 7⟩
def fSUP_CTRL_VERIFY : Fld := ⟨6, 6⟩
def fSUP_CTRL_STOP : Fld := ⟨3, 3⟩
def fSUP_CTRL_START : Fld := ⟨2, 2⟩
def fSUP_CTRL_ENABLE : Fld := ⟨0, 0⟩
def fSUP_STAT_REQ_ERR : Fld := ⟨23, 20⟩
def fSUP_STAT_STOP_CAUSE : Fld := ⟨19, 16⟩
def fSUP_STAT_WAITKIND : Fld := ⟨15, 12⟩
def fSUP_STAT_VERIFY_BUSY : Fld := ⟨9, 9⟩
def fSUP_STAT_VERIFIED : Fld := ⟨8, 8⟩
def fSUP_STAT_STATE : Fld := ⟨2, 0⟩
def fSUP_ENTRY_ENTRY : Fld := ⟨17, 2⟩
def fSUP_IMG_LEN : Fld := ⟨18, 2⟩
def fSUP_IMGCRC_CRC : Fld := ⟨31, 0⟩
def fSUP_WDOG_LIMIT : Fld := ⟨23, 0⟩
def fSUP_FAULT_VALID : Fld := ⟨31, 31⟩
def fSUP_FAULT_CODE : Fld := ⟨23, 16⟩
def fSUP_FAULT_COUNT : Fld := ⟨15, 0⟩
def fSUP_FPC_FPC : Fld := ⟨17, 0⟩
def fSUP_FINSN_INSN : Fld := ⟨31, 0⟩
def fSUP_PC_PC : Fld := ⟨17, 0⟩
def fSUP_MBOX_IN_WORD : Fld := ⟨31, 0⟩
def fSUP_MBOX_STAT_FULLCNT : Fld := ⟨31, 16⟩
def fSUP_MBOX_STAT_LEVEL : Fld := ⟨4, 0⟩
def fSUP_QWIN_FIRST : Fld := ⟨30, 16⟩
def fSUP_QWIN_LAST : Fld := ⟨14, 0⟩
def fSUP_CYCLES_CYCLES : Fld := ⟨31, 0⟩
def fSUP_WAITCYC_WAITCYC : Fld := ⟨31, 0⟩
def fSUP_G_VALUE : Fld := ⟨31, 0⟩
def fRNG_PSWIN_PAGE : Fld := ⟨1, 0⟩
def fTIME_NOW_NS_NS : Fld := ⟨29, 0⟩
def fTIME_NOW_SEC_LO_SEC_LO : Fld := ⟨31, 0⟩
def fTIME_NOW_SEC_HI_SEC_HI : Fld := ⟨15, 0⟩
def fTIME_NOW_FRAC_FRAC : Fld := ⟨31, 0⟩
def fTIME_INC_LO_INC_LO : Fld := ⟨31, 0⟩
def fTIME_INC_HI_INC_HI : Fld := ⟨3, 0⟩
def fTIME_STEP_CTRL_SET : Fld := ⟨31, 31⟩
def fTIME_STEP_CTRL_NEG : Fld := ⟨30, 30⟩
def fTIME_STEP_CTRL_NS : Fld := ⟨29, 0⟩
def fTIME_STEP_SEC_LO_SEC_LO : Fld := ⟨31, 0⟩
def fTIME_STEP_SEC_HI_SEC_HI : Fld := ⟨15, 0⟩
def fTIME_STAT_STEPSEQ : Fld := ⟨31, 28⟩
def fTIME_STAT_STEP_ERR : Fld := ⟨1, 1⟩
def fTIME_STAT_INC_ERR : Fld := ⟨0, 0⟩
def fTIME_LAT_EGR_PS : Fld := ⟨31, 16⟩
def fTIME_LAT_ING_PS : Fld := ⟨15, 0⟩
def fTIME_PPSO_EN : Fld := ⟨31, 31⟩
def fTIME_PPSO_SRC : Fld := ⟨30, 30⟩
def fTIME_PPSO_POL : Fld := ⟨29, 29⟩
def fTIME_PPSO_WIDTH : Fld := ⟨9, 0⟩
def fTIME_CAP_CTRL_VALID : Fld := ⟨31, 31⟩
def fTIME_CAP_CTRL_EN : Fld := ⟨30, 30⟩
def fTIME_CAP_CTRL_EDGE : Fld := ⟨29, 28⟩
def fTIME_CAP_CTRL_STEPSEQ : Fld := ⟨27, 24⟩
def fTIME_CAP_CTRL_MISSED : Fld := ⟨15, 0⟩
def fTIME_CAP_SEC_LO_SEC_LO : Fld := ⟨31, 0⟩
def fTIME_CAP_SEC_HI_SEC_HI : Fld := ⟨15, 0⟩
def fTIME_CAP_NS_NS : Fld := ⟨29, 0⟩
def fTIME_TRIG_CTRL_EN : Fld := ⟨31, 31⟩
def fTIME_TRIG_CTRL_MODE : Fld := ⟨30, 30⟩
def fTIME_TRIG_CTRL_FOLLOW : Fld := ⟨29, 29⟩
def fTIME_TRIG_CTRL_COUNT : Fld := ⟨28, 16⟩
def fTIME_TRIG_CTRL_SEC_HI : Fld := ⟨15, 0⟩
def fTIME_TRIG_SEC_LO_SEC_LO : Fld := ⟨31, 0⟩
def fTIME_TRIG_NS_NS : Fld := ⟨29, 0⟩
def fTIME_TRIG_PER_NS_PER_NS : Fld := ⟨31, 0⟩
def fTIME_TRIG_PER_FRAC_PER_FRAC : Fld := ⟨31, 0⟩
def fTIME_TRIG_STAT_RUN : Fld := ⟨31, 31⟩
def fTIME_TRIG_STAT_LATE : Fld := ⟨30, 30⟩
def fTIME_TRIG_STAT_MISSED : Fld := ⟨23, 16⟩
def fTIME_TRIG_STAT_FIRED : Fld := ⟨15, 0⟩
def fSEQ_FIRECFG_STALE : Fld := ⟨31, 24⟩
def fSEQ_FIRECFG_LEAD : Fld := ⟨10, 0⟩
def fSEQ_STBY_LIVE : Fld := ⟨31, 31⟩
def fSEQ_STBY_EN : Fld := ⟨4, 4⟩
def fSEQ_STBY_FOR : Fld := ⟨3, 0⟩
def fSEQ_ARMST_SET : Fld := ⟨15, 12⟩
def fSEQ_ARMST_HCTX : Fld := ⟨11, 9⟩
def fSEQ_ARMST_NM1 : Fld := ⟨8, 3⟩
def fSEQ_ARMST_ARMED : Fld := ⟨0, 0⟩
def fSEQ_CODE_ON : Fld := ⟨31, 31⟩
def fSEQ_CODE_INDEX : Fld := ⟨29, 16⟩
def fSEQ_CODE_LM1 : Fld := ⟨13, 8⟩
def fSEQ_CODE_STEP : Fld := ⟨5, 0⟩
def fSEQ_SHOTS_SHOTS : Fld := ⟨31, 0⟩
def fSEQ_DENY_GUARD : Fld := ⟨31, 24⟩
def fSEQ_DENY_BUSY : Fld := ⟨23, 16⟩
def fSEQ_DENY_LATE : Fld := ⟨15, 8⟩
def fSEQ_DENY_NOTPERM : Fld := ⟨7, 0⟩
def fSEQ_SKIP_CODE_ALIGN : Fld := ⟨31, 16⟩
def fSEQ_SKIP_UNOWNED : Fld := ⟨15, 0⟩
def fSEQ_PSET_PORTS : Fld := ⟨31, 0⟩
def fEMT_MODE_PRE : Fld := ⟨7, 2⟩
def fEMT_MODE_MATRIX : Fld := ⟨0, 0⟩
def fEMT_BUS_LATCH_LEAD : Fld := ⟨7, 0⟩
def fEMT_PROOF_GAP : Fld := ⟨23, 16⟩
def fEMT_PROOF_PROOF_CHG : Fld := ⟨9, 0⟩
def fEMT_STARVE_LIMIT : Fld := ⟨15, 0⟩
def fEMT_ARBSTAT_STARVE : Fld := ⟨15, 0⟩
def fEMT_STAT_LATECNT : Fld := ⟨31, 16⟩
def fEMT_STAT_ALLOFF : Fld := ⟨0, 0⟩
def fEMT_GRANTS_GRANTS : Fld := ⟨31, 0⟩
def fEMT_SQCFG_PRI : Fld := ⟨18, 16⟩
def fEMT_SQCFG_STRMASK : Fld := ⟨15, 0⟩
def fEMT_PORTOWN_EN_0 : Fld := ⟨4, 4⟩
def fEMT_PORTOWN_SQ_0 : Fld := ⟨3, 0⟩
def fEMT_PORTOWN_EN_1 : Fld := ⟨9, 9⟩
def fEMT_PORTOWN_SQ_1 : Fld := ⟨8, 5⟩
def fEMT_PORTOWN_EN_2 : Fld := ⟨14, 14⟩
def fEMT_PORTOWN_SQ_2 : Fld := ⟨13, 10⟩
def fEMT_PORTOWN_EN_3 : Fld := ⟨19, 19⟩
def fEMT_PORTOWN_SQ_3 : Fld := ⟨18, 15⟩
def fEMT_PORTOWN_EN_4 : Fld := ⟨24, 24⟩
def fEMT_PORTOWN_SQ_4 : Fld := ⟨23, 20⟩
def fEMT_PORTOWN_EN_5 : Fld := ⟨29, 29⟩
def fEMT_PORTOWN_SQ_5 : Fld := ⟨28, 25⟩
def fEMT_STR_CFG0_EN : Fld := ⟨31, 31⟩
def fEMT_STR_CFG0_OST_DLY : Fld := ⟨25, 16⟩
def fEMT_STR_CFG0_OST_WIN : Fld := ⟨15, 8⟩
def fEMT_STR_CFG0_MINREP : Fld := ⟨7, 0⟩
def fEMT_STR_CFG1_FDLY : Fld := ⟨11, 6⟩
def fEMT_STR_CFG1_NLAST : Fld := ⟨3, 0⟩
def fEMT_STR_STAT_PROOF_LATE : Fld := ⟨31, 31⟩
def fEMT_STR_STAT_DEAD : Fld := ⟨30, 30⟩
def fEMT_STR_STAT_FLAG : Fld := ⟨29, 29⟩
def fEMT_STR_STAT_WALK : Fld := ⟨28, 28⟩
def fEMT_STR_STAT_NOSTART : Fld := ⟨15, 0⟩
def fEMT_STR_DIAG_SKEWCNT : Fld := ⟨31, 16⟩
def fEMT_STR_DIAG_LASTDLY : Fld := ⟨9, 0⟩
def fEMT_HOLD_HOLD : Fld := ⟨15, 0⟩
def fEMT_TRIM_PTRIM : Fld := ⟨15, 8⟩
def fEMT_TRIM_WBIN : Fld := ⟨1, 0⟩
def fEMT_PW0_W3 : Fld := ⟨31, 24⟩
def fEMT_PW0_W2 : Fld := ⟨23, 16⟩
def fEMT_PW0_W1 : Fld := ⟨15, 8⟩
def fEMT_PW0_W0 : Fld := ⟨7, 0⟩
def fEMT_PW1_W5 : Fld := ⟨15, 8⟩
def fEMT_PW1_W4 : Fld := ⟨7, 0⟩
def fAXS_CFG_EN : Fld := ⟨31, 31⟩
def fAXS_CFG_TAKEOVER : Fld := ⟨30, 30⟩
def fAXS_CFG_ROLE : Fld := ⟨29, 28⟩
def fAXS_CFG_HEAD : Fld := ⟨27, 27⟩
def fAXS_CFG_FE_EN : Fld := ⟨26, 26⟩
def fAXS_CFG_ENC_EN : Fld := ⟨25, 25⟩
def fAXS_CFG_ZRST : Fld := ⟨24, 24⟩
def fAXS_CFG_AVG : Fld := ⟨18, 16⟩
def fAXS_CFG_CC_TRIG : Fld := ⟨3, 0⟩
def fAXS_TOFS_TOFS : Fld := ⟨15, 0⟩
def fAXS_DLIM_DMAX : Fld := ⟨31, 16⟩
def fAXS_DLIM_DMIN : Fld := ⟨15, 0⟩
def fAXS_SAFE_SAFE : Fld := ⟨15, 0⟩
def fAXS_FELIM_LIM : Fld := ⟨31, 0⟩
def fAXS_FETIME_TIME : Fld := ⟨15, 0⟩
def fAXS_MON_DTOL : Fld := ⟨31, 16⟩
def fAXS_MON_MISCNT : Fld := ⟨3, 0⟩
def fAXS_ATOL_ATOL : Fld := ⟨31, 0⟩
def fAXS_ASTAT_RUN : Fld := ⟨31, 31⟩
def fAXS_ASTAT_DRIVE : Fld := ⟨30, 30⟩
def fAXS_ASTAT_FAILED : Fld := ⟨29, 29⟩
def fAXS_ASTAT_FE_TRIP : Fld := ⟨28, 28⟩
def fAXS_ASTAT_MISM : Fld := ⟨27, 27⟩
def fAXS_ASTAT_MON_FAIL : Fld := ⟨26, 26⟩
def fAXS_ASTAT_ROLECONF : Fld := ⟨25, 25⟩
def fAXS_ASTAT_FADING : Fld := ⟨24, 24⟩
def fAXS_ASTAT_FROM : Fld := ⟨23, 21⟩
def fAXS_ASTAT_TO : Fld := ⟨20, 19⟩
def fAXS_ASTAT_FE_TIMER : Fld := ⟨15, 0⟩
def fAXS_FADE_LEN : Fld := ⟨29, 17⟩
def fAXS_FADE_F : Fld := ⟨16, 0⟩
def fAXS_CNT_CC_SKIP : Fld := ⟨31, 24⟩
def fAXS_CNT_QERR : Fld := ⟨23, 16⟩
def fAXS_CNT_BANKREF : Fld := ⟨15, 8⟩
def fAXS_CNT_OVR : Fld := ⟨7, 0⟩
def fAXS_PUBA_A : Fld := ⟨31, 0⟩
def fAXS_PUBW_W : Fld := ⟨31, 0⟩
def fAXS_PUBT_T : Fld := ⟨31, 0⟩
def fAXS_CYC_CYC : Fld := ⟨31, 0⟩
def fAXS_COEFV_VALUE : Fld := ⟨31, 0⟩
def fAXS_COEFS_SHIFT : Fld := ⟨4, 0⟩
def fAXS_SNAPLO_E_LO : Fld := ⟨31, 0⟩
def fAXS_SNAPHI_E_HI : Fld := ⟨31, 0⟩
def fGRD_STAT_ACTIVE : Fld := ⟨31, 31⟩
def fGRD_STAT_FAULT : Fld := ⟨30, 30⟩
def fGRD_STAT_GATE : Fld := ⟨29, 29⟩
def fGRD_STAT_COLD : Fld := ⟨28, 28⟩
def fGRD_STAT_MODHOT : Fld := ⟨27, 24⟩
def fGRD_STAT_MOTION : Fld := ⟨23, 22⟩
def fGRD_STAT_STALL : Fld := ⟨21, 20⟩
def fGRD_STAT_IDXERR : Fld := ⟨19, 18⟩
def fGRD_STAT_BLOCKED : Fld := ⟨15, 0⟩
def fGRD_VSTAT_BUSY : Fld := ⟨31, 31⟩
def fGRD_VSTAT_REQ_A : Fld := ⟨30, 30⟩
def fGRD_VSTAT_REQ_B : Fld := ⟨29, 29⟩
def fGRD_VSTAT_VERR : Fld := ⟨23, 20⟩
def fGRD_VSTAT_ECC_CORR : Fld := ⟨15, 0⟩
def fGRD_CFGID_CFGVER : Fld := ⟨31, 0⟩
def fGRD_SEQNO_SEQNO : Fld := ⟨31, 0⟩
def fGRD_LASTDENY_REASON : Fld := ⟨31, 28⟩
def fGRD_LASTDENY_SQ : Fld := ⟨27, 24⟩
def fGRD_LASTDENY_INDEX : Fld := ⟨23, 19⟩
def fGRD_LASTDENY_SECTOR : Fld := ⟨13, 0⟩
def fGRD_SENSE_VALID : Fld := ⟨31, 31⟩
def fGRD_SENSE_EL : Fld := ⟨21, 16⟩
def fGRD_SENSE_AZ : Fld := ⟨15, 8⟩
def fGRD_DENY_COUNT : Fld := ⟨31, 0⟩
def fPRT_CTRL_WF_EN : Fld := ⟨1, 1⟩
def fPRT_CTRL_EN : Fld := ⟨0, 0⟩
def fPRT_FE_ADAPT : Fld := ⟨12, 12⟩
def fPRT_FE_COMP_EN : Fld := ⟨11, 8⟩
def fPRT_FE_HYST : Fld := ⟨6, 4⟩
def fPRT_FE_GAIN : Fld := ⟨2, 0⟩
def fPRT_THR01_THR1 : Fld := ⟨25, 16⟩
def fPRT_THR01_THR0 : Fld := ⟨9, 0⟩
def fPRT_THR23_THR3 : Fld := ⟨25, 16⟩
def fPRT_THR23_THR2 : Fld := ⟨9, 0⟩
def fPRT_BLANK_BLK_LEN : Fld := ⟨15, 8⟩
def fPRT_BLANK_BLK_START : Fld := ⟨7, 0⟩
def fPRT_BLKSEL_PINMASK : Fld := ⟨19, 16⟩
def fPRT_BLKSEL_STRMASK : Fld := ⟨15, 0⟩
def fPRT_BIAS_ILIM : Fld := ⟨31, 16⟩
def fPRT_BIAS_VCM : Fld := ⟨7, 0⟩
def fPRT_THRA01_A1 : Fld := ⟨25, 16⟩
def fPRT_THRA01_A0 : Fld := ⟨9, 0⟩
def fPRT_THRA23_A3 : Fld := ⟨25, 16⟩
def fPRT_THRA23_A2 : Fld := ⟨9, 0⟩
def fPRT_IMON_OPEN : Fld := ⟨18, 18⟩
def fPRT_IMON_HIGH : Fld := ⟨17, 17⟩
def fPRT_IMON_LOW : Fld := ⟨16, 16⟩
def fPRT_IMON_IBIAS : Fld := ⟨15, 0⟩
def fPRT_STAT_CHFAIL : Fld := ⟨11, 8⟩
def fPRT_STAT_OPEN_SEEN : Fld := ⟨6, 6⟩
def fPRT_STAT_OVERCUR : Fld := ⟨5, 5⟩
def fPRT_STAT_DLLERR : Fld := ⟨4, 4⟩
def fPRT_STAT_WF_OFF : Fld := ⟨3, 3⟩
def fPRT_STAT_SLICE_DEG : Fld := ⟨2, 2⟩
def fPRT_SHOTS_SHOTS : Fld := ⟨31, 0⟩
def fPRT_LOST0_DEAD_LOST : Fld := ⟨31, 16⟩
def fPRT_LOST0_PRE_LOST : Fld := ⟨15, 0⟩
def fPRT_LOST1_EVT_CAP : Fld := ⟨31, 16⟩
def fPRT_LOST1_BLANKED : Fld := ⟨15, 0⟩
def fPRT_LOST2_SETTLE_LOST : Fld := ⟨31, 16⟩
def fPRT_LOST2_GATE_CUT : Fld := ⟨15, 0⟩
def fPRT_LOST3_OFF_SHOTS : Fld := ⟨31, 16⟩
def fPRT_LOST3_NOSTART : Fld := ⟨15, 0⟩
def fPRT_OVL_OVL : Fld := ⟨31, 16⟩
def fPRT_OVL_COINC : Fld := ⟨15, 0⟩
def fTDC_DLL_REQ : Fld := ⟨0, 0⟩
def fTDC_DLLSTAT_ALL_LOCK : Fld := ⟨31, 31⟩
def fTDC_DLLSTAT_START_LOCK : Fld := ⟨30, 30⟩
def fTDC_DLLSTAT_TILE_LOCK : Fld := ⟨23, 0⟩
def fTDC_ROT_ROT_EN : Fld := ⟨31, 31⟩
def fTDC_ROT_CAL_STEP : Fld := ⟨23, 16⟩
def fTDC_ROT_HO_SHOTS : Fld := ⟨15, 12⟩
def fTDC_ROT_HO_TOL : Fld := ⟨11, 6⟩
def fTDC_ROT_TEST_TOL : Fld := ⟨5, 0⟩
def fTDC_BPIN_POL : Fld := ⟨3, 0⟩
def fTDC_TILE_DLL_SEL : Fld := ⟨31, 31⟩
def fTDC_TILE_LOCK1 : Fld := ⟨30, 30⟩
def fTDC_TILE_LOCK0 : Fld := ⟨29, 29⟩
def fTDC_TILE_DLLERR : Fld := ⟨28, 28⟩
def fTDC_TILE_HOERR : Fld := ⟨27, 27⟩
def fTDC_TILE_ROT_STOP : Fld := ⟨26, 26⟩
def fTDC_TILE_SUBST_V : Fld := ⟨25, 25⟩
def fTDC_TILE_SUBST : Fld := ⟨24, 21⟩
def fTDC_TILE_FAIL : Fld := ⟨16, 0⟩
def fTDC_START_THR : Fld := ⟨9, 0⟩
def fTDC_STSTAT_FAIL : Fld := ⟨15, 0⟩
def fTDC_CHCAL_DNLMAX : Fld := ⟨31, 24⟩
def fTDC_CHCAL_CHOFS : Fld := ⟨15, 0⟩
def fTDC_POFS_POFS : Fld := ⟨15, 0⟩
def fWCV_CTRL_ROT_EN : Fld := ⟨31, 31⟩
def fWCV_CTRL_CAL_STEP : Fld := ⟨7, 0⟩
def fWCV_PORT_FAIL : Fld := ⟨10, 8⟩
def fWCV_PORT_EVEN : Fld := ⟨7, 6⟩
def fWCV_PORT_ODD : Fld := ⟨5, 4⟩
def fWCV_PORT_OUT : Fld := ⟨3, 2⟩
def fWCV_PORT_HOERR : Fld := ⟨1, 1⟩
def fWCV_SCAL_SKEW : Fld := ⟨23, 18⟩
def fWCV_SCAL_GAIN : Fld := ⟨17, 8⟩
def fWCV_SCAL_OFS : Fld := ⟨7, 0⟩
def fERG_CTRL_FLUSH : Fld := ⟨0, 0⟩
def fERG_STAT_ALLOC_REF : Fld := ⟨31, 24⟩
def fERG_STAT_STALE_REL : Fld := ⟨23, 16⟩
def fERG_STAT_ECC_CORR : Fld := ⟨15, 0⟩
def fERG_CELLS_CELLS : Fld := ⟨31, 0⟩
def fERG_WAITS_ADMWAIT : Fld := ⟨31, 16⟩
def fERG_WAITS_FLUSHED : Fld := ⟨15, 0⟩
def fERG_HCTX_CFG_W3 : Fld := ⟨23, 22⟩
def fERG_HCTX_CFG_W2 : Fld := ⟨21, 20⟩
def fERG_HCTX_CFG_W1 : Fld := ⟨19, 18⟩
def fERG_HCTX_CFG_W0 : Fld := ⟨17, 16⟩
def fERG_HCTX_CFG_PRE_EN : Fld := ⟨9, 9⟩
def fERG_HCTX_CFG_NARROW_EXCL : Fld := ⟨8, 8⟩
def fERG_HCTX_CFG_LOG2NB : Fld := ⟨7, 4⟩
def fERG_HCTX_CFG_K : Fld := ⟨2, 0⟩
def fERG_HCTX_GATE_GATE : Fld := ⟨21, 0⟩
def fERG_HCTX_ASPAN_ALEN : Fld := ⟨28, 16⟩
def fERG_HCTX_ASPAN_ASTART : Fld := ⟨15, 0⟩
def fERG_PSTAT_OPEN : Fld := ⟨31, 31⟩
def fERG_PSTAT_CSHOTS : Fld := ⟨22, 16⟩
def fERG_PSTAT_NBANKS : Fld := ⟨15, 8⟩
def fERG_PSTAT_ACTIVE : Fld := ⟨7, 0⟩
def fERG_PCNT_BANK_MISS : Fld := ⟨31, 16⟩
def fERG_PCNT_GAINDROP : Fld := ⟨15, 8⟩
def fERG_PCNT_SHORTCELLS : Fld := ⟨7, 0⟩
def fERG_BANK_EN : Fld := ⟨31, 31⟩
def fERG_BANK_STATE : Fld := ⟨30, 28⟩
def fERG_BANK_GEN : Fld := ⟨23, 16⟩
def fERG_BANK_PORT : Fld := ⟨6, 0⟩
def fRNG_POOL_POOL : Fld := ⟨2, 0⟩
def fRNG_HOLD_HELD : Fld := ⟨31, 31⟩
def fRNG_HOLD_LOOKV : Fld := ⟨30, 30⟩
def fRNG_HOLD_LPORT : Fld := ⟨22, 16⟩
def fRNG_HOLD_HANDLE : Fld := ⟨15, 0⟩
def fRNG_RELS_RELS : Fld := ⟨31, 0⟩
def fRNG_RETS_RETURNS : Fld := ⟨31, 0⟩
def fRNG_LOSS_LOST : Fld := ⟨31, 16⟩
def fRNG_LOSS_STALE : Fld := ⟨15, 0⟩
def fRNG_PORTPOOL_POOL_0 : Fld := ⟨2, 0⟩
def fRNG_PORTPOOL_POOL_1 : Fld := ⟨6, 4⟩
def fRNG_PORTPOOL_POOL_2 : Fld := ⟨10, 8⟩
def fRNG_PORTPOOL_POOL_3 : Fld := ⟨14, 12⟩
def fRNG_PORTPOOL_POOL_4 : Fld := ⟨18, 16⟩
def fRNG_PORTPOOL_POOL_5 : Fld := ⟨22, 20⟩
def fRNG_PORTPOOL_POOL_6 : Fld := ⟨26, 24⟩
def fRNG_PORTPOOL_POOL_7 : Fld := ⟨30, 28⟩
def fRNG_DCFG_REDISP_MAX : Fld := ⟨1, 0⟩
def fRNG_DQ_HWM : Fld := ⟨31, 24⟩
def fRNG_DQ_WAITERS : Fld := ⟨23, 15⟩
def fRNG_DQ_DEPTH : Fld := ⟨7, 0⟩
def fRNG_DCNT_REDISP : Fld := ⟨31, 16⟩
def fRNG_DCNT_ABANDON : Fld := ⟨15, 0⟩
def fREJ_BGWIN_BG_LEN : Fld := ⟨31, 16⟩
def fREJ_BGWIN_BG_START : Fld := ⟨15, 0⟩
def fREJ_BGTGT_HI : Fld := ⟨31, 16⟩
def fREJ_BGTGT_LO : Fld := ⟨15, 0⟩
def fREJ_BGLIM_OFSMAX : Fld := ⟨25, 16⟩
def fREJ_BGLIM_OFSMIN : Fld := ⟨9, 0⟩
def fREJ_BGCFG_STEP : Fld := ⟨19, 16⟩
def fREJ_BGCFG_TAU : Fld := ⟨11, 8⟩
def fREJ_BGCFG_EN : Fld := ⟨0, 0⟩
def fREJ_SUNCFG_VALID : Fld := ⟨31, 31⟩
def fREJ_SUNCFG_MAP_EN : Fld := ⟨30, 30⟩
def fREJ_SUNCFG_LEARN_EN : Fld := ⟨29, 29⟩
def fREJ_SUNCFG_MAPGAIN : Fld := ⟨26, 24⟩
def fREJ_SUNCFG_LRATE : Fld := ⟨23, 20⟩
def fREJ_SUNCFG_DISK_R : Fld := ⟨7, 0⟩
def fREJ_SUNBASE_BASE : Fld := ⟨12, 0⟩
def fREJ_MAPSTAT_MAPFAIL : Fld := ⟨31, 31⟩
def fREJ_MAPSTAT_MAP_LATE : Fld := ⟨15, 0⟩
def fREJ_MODE_HABOOB : Fld := ⟨31, 31⟩
def fREJ_MODE_QUAL : Fld := ⟨29, 28⟩
def fREJ_MODE_MODEGEN : Fld := ⟨15, 8⟩
def fREJ_MODE_CTL : Fld := ⟨1, 0⟩
def fREJ_HBCFG_ON : Fld := ⟨31, 24⟩
def fREJ_HBCFG_OFF : Fld := ⟨23, 16⟩
def fREJ_HBCFG_HOLD : Fld := ⟨15, 8⟩
def fREJ_HBCFG_NEAR : Fld := ⟨7, 0⟩
def fREJ_HBSTAT_D1 : Fld := ⟨31, 16⟩
def fREJ_HBSTAT_D0 : Fld := ⟨15, 0⟩
def fREJ_PLAN_LOCK : Fld := ⟨31, 31⟩
def fREJ_PLAN_SLOTSM1 : Fld := ⟨27, 24⟩
def fREJ_PLAN_SLOT : Fld := ⟨23, 20⟩
def fREJ_PLAN_SLOT_US : Fld := ⟨19, 0⟩
def fREJ_PLANSTAT_PLANERR : Fld := ⟨31, 31⟩
def fREJ_PLANSTAT_PLANSEQ : Fld := ⟨7, 0⟩
def fREJ_MIRCTRL_CLR : Fld := ⟨0, 0⟩
def fREJ_SUN_SUN_AZ : Fld := ⟨31, 16⟩
def fREJ_SUN_SUN_EL : Fld := ⟨15, 0⟩
def fREJ_ASSIGN_V : Fld := ⟨31, 31⟩
def fREJ_ASSIGN_CODE : Fld := ⟨13, 0⟩
def fREJ_MIRCFG_EN : Fld := ⟨31, 31⟩
def fREJ_MIRCFG_AZTOL : Fld := ⟨27, 24⟩
def fREJ_MIRCFG_AGE : Fld := ⟨23, 16⟩
def fREJ_MIRCFG_MIRQ : Fld := ⟨14, 0⟩
def fREJ_MIRCFG2_HOT_N : Fld := ⟨31, 16⟩
def fREJ_MIRCFG2_NOTE_MAX : Fld := ⟨15, 0⟩
def fREJ_MIRSTAT_ENTRIES : Fld := ⟨28, 16⟩
def fREJ_MIRSTAT_NEW : Fld := ⟨15, 0⟩
def fREJ_MIRCNT0_EVICT : Fld := ⟨31, 16⟩
def fREJ_MIRCNT0_DROP : Fld := ⟨15, 0⟩
def fREJ_MIRCNT1_SELF : Fld := ⟨31, 16⟩
def fREJ_MIRCNT1_NOTEDROP : Fld := ⟨15, 0⟩
def fREJ_PBG_RATE : Fld := ⟨31, 16⟩
def fREJ_PBG_DISK : Fld := ⟨13, 13⟩
def fREJ_PBG_ADJ : Fld := ⟨9, 0⟩
def fPTS_FRAMECFG_FSRC : Fld := ⟨31, 30⟩
def fPTS_FRAMECFG_FHEAD : Fld := ⟨29, 29⟩
def fPTS_FRAMECFG_FTRIG : Fld := ⟨27, 24⟩
def fPTS_FRAMECFG_NSLICE : Fld := ⟨23, 16⟩
def fPTS_FRAMECFG_MAXAGE : Fld := ⟨11, 0⟩
def fPTS_FRAMEAZ_FRAME_AZ : Fld := ⟨31, 0⟩
def fPTS_TSEL_TSEL : Fld := ⟨0, 0⟩
def fPTS_CTRL_FRAME : Fld := ⟨0, 0⟩
def fPTS_FSEQ_FRAMESEQ : Fld := ⟨31, 0⟩
def fPTS_GROUPS_GROUPS : Fld := ⟨31, 0⟩
def fPTS_EXT_M : Fld := ⟨31, 0⟩
def fPTS_SCFG_EN : Fld := ⟨31, 31⟩
def fPTS_SCFG_FORMAT : Fld := ⟨30, 29⟩
def fPTS_SCFG_AUXSEL : Fld := ⟨28, 27⟩
def fPTS_SCFG_MINCONF : Fld := ⟨23, 16⟩
def fPTS_SCFG_CLASSMASK : Fld := ⟨15, 0⟩
def fPTS_SQ_ISHIFT : Fld := ⟨19, 16⟩
def fPTS_SQ_QUEUE : Fld := ⟨14, 0⟩
def fPTS_SPORT_PORTS : Fld := ⟨31, 0⟩
def fPTS_SCNT_DROP : Fld := ⟨31, 16⟩
def fPTS_SCNT_HDRLOST : Fld := ⟨15, 8⟩
def fPTS_SCNT_LATE : Fld := ⟨7, 0⟩
def fPTS_ELEV_AZOFS : Fld := ⟨31, 16⟩
def fPTS_ELEV_ELOFS : Fld := ⟨15, 0⟩
def fCAM_CTRL_EN : Fld := ⟨31, 31⟩
def fCAM_CTRL_BAYER : Fld := ⟨30, 29⟩
def fCAM_CTRL_NEXP : Fld := ⟨28, 27⟩
def fCAM_CTRL_HSPOL : Fld := ⟨26, 26⟩
def fCAM_CTRL_VSPOL : Fld := ⟨25, 25⟩
def fCAM_CTRL_DS : Fld := ⟨24, 21⟩
def fCAM_CTRL_BITS : Fld := ⟨20, 16⟩
def fCAM_CTRL_XDIV : Fld := ⟨15, 8⟩
def fCAM_SIZE_HEIGHT : Fld := ⟨31, 16⟩
def fCAM_SIZE_WIDTH : Fld := ⟨15, 0⟩
def fCAM_MERGE_MTHR : Fld := ⟨31, 20⟩
def fCAM_MERGE_RATIO1 : Fld := ⟨19, 10⟩
def fCAM_MERGE_RATIO2 : Fld := ⟨9, 0⟩
def fCAM_BLACK01_BLK1 : Fld := ⟨31, 16⟩
def fCAM_BLACK01_BLK0 : Fld := ⟨15, 0⟩
def fCAM_BLACK23_BLK3 : Fld := ⟨31, 16⟩
def fCAM_BLACK23_BLK2 : Fld := ⟨15, 0⟩
def fCAM_WB0_WB_R : Fld := ⟨31, 16⟩
def fCAM_WB0_WB_G : Fld := ⟨15, 0⟩
def fCAM_WB1_WB_B : Fld := ⟨15, 0⟩
def fCAM_CCM_C : Fld := ⟨15, 0⟩
def fCAM_PSEL_DSEL : Fld := ⟨12, 12⟩
def fCAM_PSEL_TSEL : Fld := ⟨11, 11⟩
def fCAM_PSEL_DEF_EN : Fld := ⟨10, 10⟩
def fCAM_PSEL_DEFN : Fld := ⟨9, 0⟩
def fCAM_TRIG_TRIG_EN : Fld := ⟨31, 31⟩
def fCAM_TRIG_TPOL : Fld := ⟨30, 30⟩
def fCAM_TRIG_TRIG : Fld := ⟨29, 26⟩
def fCAM_TRIG_TRIG_W : Fld := ⟨25, 16⟩
def fCAM_TRIG_TRIG_DLY : Fld := ⟨15, 0⟩
def fCAM_I2C_SPEED : Fld := ⟨9, 8⟩
def fCAM_I2C_DEVADDR : Fld := ⟨6, 0⟩
def fCAM_SET_BSEL : Fld := ⟨11, 11⟩
def fCAM_SET_SENSOR_DELAY : Fld := ⟨10, 9⟩
def fCAM_SET_SETID : Fld := ⟨7, 0⟩
def fCAM_I2CSTAT_BUSY : Fld := ⟨31, 31⟩
def fCAM_I2CSTAT_NACK : Fld := ⟨30, 30⟩
def fCAM_I2CSTAT_I2C_LATE : Fld := ⟨15, 8⟩
def fCAM_I2CSTAT_INEFFECT : Fld := ⟨7, 0⟩
def fCAM_I2CRD_RD : Fld := ⟨31, 0⟩
def fCAM_COL_COL_EN : Fld := ⟨31, 31⟩
def fCAM_COL_COLAGE : Fld := ⟨23, 16⟩
def fCAM_COL_ZMIN : Fld := ⟨15, 0⟩
def fCAM_RS_LINE_LINE_T : Fld := ⟨31, 0⟩
def fCAM_RS_OFS_EXPOFS : Fld := ⟨31, 0⟩
def fCAM_INTR_INTR : Fld := ⟨31, 0⟩
def fCAM_EXT_M : Fld := ⟨31, 0⟩
def fCAM_STRM_EN : Fld := ⟨31, 31⟩
def fCAM_STRM_FMT : Fld := ⟨30, 30⟩
def fCAM_STRM_DS : Fld := ⟨29, 27⟩
def fCAM_STRM_SKIP : Fld := ⟨22, 15⟩
def fCAM_STRM_QUEUE : Fld := ⟨14, 0⟩
def fCAM_STATQ_EN : Fld := ⟨31, 31⟩
def fCAM_STATQ_QUEUE : Fld := ⟨14, 0⟩
def fCAM_FSTAT_CFGERR : Fld := ⟨31, 31⟩
def fCAM_FSTAT_DEFERR : Fld := ⟨30, 30⟩
def fCAM_FSTAT_SETID : Fld := ⟨23, 16⟩
def fCAM_FSTAT_FLAGS : Fld := ⟨15, 12⟩
def fCAM_FSTAT_MISSLN : Fld := ⟨11, 0⟩
def fCAM_FCNT_SHORTF : Fld := ⟨31, 24⟩
def fCAM_FCNT_LONGF : Fld := ⟨23, 16⟩
def fCAM_FCNT_LINEERR : Fld := ⟨15, 8⟩
def fCAM_FCNT_LINEDROP : Fld := ⟨7, 0⟩
def fLNK_GCFG_EN : Fld := ⟨31, 31⟩
def fLNK_GCFG_REJOIN_EN : Fld := ⟨30, 30⟩
def fLNK_GCFG_LANEMASK : Fld := ⟨27, 24⟩
def fLNK_GCFG_MAXRUNG : Fld := ⟨18, 16⟩
def fLNK_GCFG_ERR_LIM : Fld := ⟨7, 0⟩
def fLNK_RATE_TARGET : Fld := ⟨3, 1⟩
def fLNK_RATE_GO : Fld := ⟨0, 0⟩
def fLNK_GSTAT_STATE : Fld := ⟨31, 28⟩
def fLNK_GSTAT_RUNG : Fld := ⟨27, 25⟩
def fLNK_GSTAT_FAR_MAX : Fld := ⟨24, 22⟩
def fLNK_GSTAT_ACTIVE : Fld := ⟨19, 16⟩
def fLNK_GSTAT_REQ_ERR : Fld := ⟨15, 12⟩
def fLNK_GSTAT_FRESH_SEEN : Fld := ⟨0, 0⟩
def fLNK_GCNT0_HCHK_ERR : Fld := ⟨31, 16⟩
def fLNK_GCNT0_CRC_ERR : Fld := ⟨15, 0⟩
def fLNK_GCNT1_NAK_TX : Fld := ⟨31, 16⟩
def fLNK_GCNT1_NAK_RX : Fld := ⟨15, 0⟩
def fLNK_GCNT2_REPLAYS : Fld := ⟨31, 16⟩
def fLNK_GCNT2_RETRAINS : Fld := ⟨15, 8⟩
def fLNK_GCNT2_RUNG_DROPS : Fld := ⟨7, 0⟩
def fLNK_GCNT3_REBONDS : Fld := ⟨31, 24⟩
def fLNK_GCNT3_LOSTPKT : Fld := ⟨23, 16⟩
def fLNK_GCNT3_SEQ_ERR : Fld := ⟨15, 0⟩
def fLNK_OUTST_PKTS : Fld := ⟨24, 16⟩
def fLNK_OUTST_KB : Fld := ⟨7, 0⟩
def fLNK_LSTAT_STATE : Fld := ⟨31, 29⟩
def fLNK_LSTAT_INV : Fld := ⟨28, 28⟩
def fLNK_LSTAT_FARLANE : Fld := ⟨27, 26⟩
def fLNK_LSTAT_SKEW : Fld := ⟨25, 25⟩
def fLNK_LSTAT_EQ : Fld := ⟨23, 20⟩
def fLNK_LSTAT_CODE_ERR : Fld := ⟨15, 0⟩
def fLNK_LCNT_UNLOCKS : Fld := ⟨31, 16⟩
def fLNK_LCNT_MARKER_ERR : Fld := ⟨15, 0⟩
def fLNK_TMO_REPLAY_TMO : Fld := ⟨31, 16⟩
def fLNK_TMO_ACK_MAX : Fld := ⟨6, 0⟩
def fQMG_ROLES_KEY : Fld := ⟨31, 16⟩
def fQMG_ROLES_SAFETY : Fld := ⟨6, 4⟩
def fQMG_ROLES_OWNER : Fld := ⟨2, 0⟩
def fQMG_CTX_EN : Fld := ⟨31, 31⟩
def fQMG_CTX_NGRP : Fld := ⟨30, 30⟩
def fQMG_CTX_NMASK : Fld := ⟨20, 16⟩
def fQMG_CTX_BADPKT : Fld := ⟨7, 0⟩
def fQMG_NSTAT_CAUSE : Fld := ⟨4, 0⟩
def fQMG_FREEZE_KEY : Fld := ⟨31, 16⟩
def fQMG_FREEZE_GO : Fld := ⟨0, 0⟩
def fQMG_CFG_PACK_MAX : Fld := ⟨12, 0⟩
def fQMG_WIN0_BASE : Fld := ⟨31, 12⟩
def fQMG_WIN1_EN : Fld := ⟨31, 31⟩
def fQMG_WIN1_WR : Fld := ⟨30, 30⟩
def fQMG_WIN1_LOG2SZ : Fld := ⟨29, 24⟩
def fQMG_WIN1_BASE_HI : Fld := ⟨7, 0⟩
def fMEM_CFG_ECC : Fld := ⟨31, 31⟩
def fMEM_CFG_ILV : Fld := ⟨29, 28⟩
def fMEM_CFG_CHEN : Fld := ⟨27, 24⟩
def fMEM_CFG_RANKS : Fld := ⟨17, 16⟩
def fMEM_CFG_DENS : Fld := ⟨2, 0⟩
def fMEM_INIT_GO : Fld := ⟨0, 0⟩
def fMEM_STAT_READY : Fld := ⟨31, 31⟩
def fMEM_STAT_TRAINERR : Fld := ⟨11, 8⟩
def fMEM_STAT_FAILED : Fld := ⟨3, 0⟩
def fMEM_REF_UE_LIM : Fld := ⟨31, 24⟩
def fMEM_REF_SCRUB : Fld := ⟨23, 16⟩
def fMEM_REF_REF : Fld := ⟨11, 0⟩
def fMEM_ECC_CORR : Fld := ⟨31, 16⟩
def fMEM_ECC_UE : Fld := ⟨15, 0⟩
def fARB_PRI_PRI : Fld := ⟨2, 0⟩
def fARB_STARVE_AGE_EN : Fld := ⟨31, 31⟩
def fARB_STARVE_QSTARVE : Fld := ⟨23, 16⟩
def fARB_STARVE_DSTARVE : Fld := ⟨15, 0⟩
def fARB_STAT_EGR : Fld := ⟨17, 16⟩
def fARB_STAT_DRAM : Fld := ⟨4, 0⟩
def fARB_WAIT_MAXWAIT : Fld := ⟨31, 16⟩
def fSAF_STAT_ACTIVE : Fld := ⟨31, 31⟩
def fSAF_STAT_FAULT : Fld := ⟨30, 30⟩
def fSAF_STAT_FCAUSE : Fld := ⟨29, 24⟩
def fSAF_STAT_HEART : Fld := ⟨23, 23⟩
def fSAF_STAT_FSWERR : Fld := ⟨22, 22⟩
def fSAF_STAT_ECC_CORR : Fld := ⟨15, 0⟩
def fSAF_VSTAT_BUSY : Fld := ⟨31, 31⟩
def fSAF_VSTAT_REQ_A : Fld := ⟨30, 30⟩
def fSAF_VSTAT_REQ_B : Fld := ⟨29, 29⟩
def fSAF_VSTAT_BOK : Fld := ⟨28, 28⟩
def fSAF_VSTAT_VERR : Fld := ⟨23, 20⟩
def fSAF_CFGID_CFGVER : Fld := ⟨31, 0⟩
def fSAF_SEQNO_SEQNO : Fld := ⟨31, 0⟩
def fSAF_ICRC_ICRC : Fld := ⟨31, 0⟩
def fSAF_BCONF_BCRC : Fld := ⟨31, 0⟩
def fSAF_PERIOD_PERIOD : Fld := ⟨31, 0⟩
def fSAF_FIELD_CVALID : Fld := ⟨31, 31⟩
def fSAF_FIELD_CODE : Fld := ⟨28, 24⟩
def fSAF_FIELD_SET : Fld := ⟨20, 16⟩
def fSAF_FIELD_PEND : Fld := ⟨15, 15⟩
def fSAF_FIELD_NEXT : Fld := ⟨12, 8⟩
def fSAF_FIELD_FSWCNT : Fld := ⟨7, 0⟩
def fSAF_OSSD_STATE : Fld := ⟨31, 29⟩
def fSAF_OSSD_HS : Fld := ⟨28, 28⟩
def fSAF_OSSD_LS : Fld := ⟨27, 27⟩
def fSAF_OSSD_FB : Fld := ⟨26, 26⟩
def fSAF_OSSD_WAIT_RST : Fld := ⟨25, 25⟩
def fSAF_OSSD_VA : Fld := ⟨24, 24⟩
def fSAF_OSSD_VB : Fld := ⟨23, 23⟩
def fSAF_OSSD_OFFCAUSE : Fld := ⟨22, 19⟩
def fSAF_OSSD_FBERR : Fld := ⟨18, 16⟩
def fSAF_OSSD_VCNT : Fld := ⟨15, 8⟩
def fSAF_OSSD_CCNT : Fld := ⟨7, 0⟩
def fSAF_VIOL_UNCOV : Fld := ⟨31, 31⟩
def fSAF_VIOL_HEAD : Fld := ⟨30, 30⟩
def fSAF_VIOL_BAND : Fld := ⟨29, 27⟩
def fSAF_VIOL_COL : Fld := ⟨26, 20⟩
def fSAF_VIOL_OFFS : Fld := ⟨15, 0⟩
def fSAF_BRES_PERIOD : Fld := ⟨31, 12⟩
def fSAF_BRES_VIOL : Fld := ⟨1, 1⟩
def fSAF_BRES_EN : Fld := ⟨0, 0⟩
def fSAF_BRING_BOVF : Fld := ⟨31, 31⟩
def fSAF_BRING_WR : Fld := ⟨27, 16⟩
def fSAF_BRING_RD : Fld := ⟨11, 0⟩
def fSAF_IN_STATE_A : Fld := ⟨31, 28⟩
def fSAF_IN_STATE_B : Fld := ⟨27, 24⟩
def fSAF_IN_CH0 : Fld := ⟨23, 23⟩
def fSAF_IN_CH1 : Fld := ⟨22, 22⟩
def fSAF_IN_TPERR : Fld := ⟨21, 21⟩
def fSAF_IN_DISCERR : Fld := ⟨20, 20⟩
def fSAF_IN_DEMANDS : Fld := ⟨15, 0⟩
def fSAF_MSG_LASTMSN : Fld := ⟨31, 0⟩
def fSAF_MSGCNT_MISMATCH : Fld := ⟨31, 24⟩
def fSAF_MSGCNT_LONE : Fld := ⟨23, 16⟩
def fSAF_MSGCNT_SCHKERR : Fld := ⟨15, 8⟩
def fSAF_MSGCNT_STALE : Fld := ⟨7, 0⟩
def fHK_CTRL_REF_EN : Fld := ⟨31, 31⟩
def fHK_CTRL_HKREF_OK : Fld := ⟨30, 30⟩
def fHK_CTRL_GO : Fld := ⟨1, 1⟩
def fHK_CTRL_SYNC : Fld := ⟨0, 0⟩
def fHK_SEQCFG_EN : Fld := ⟨31, 31⟩
def fHK_SEQCFG_MODE : Fld := ⟨30, 29⟩
def fHK_SEQCFG_TRIG : Fld := ⟨23, 20⟩
def fHK_SEQCFG_LAST : Fld := ⟨3, 0⟩
def fHK_STAT_RUN : Fld := ⟨31, 31⟩
def fHK_STAT_HELD : Fld := ⟨30, 30⟩
def fHK_STAT_OVERRUN : Fld := ⟨23, 16⟩
def fHK_STAT_PASSN : Fld := ⟨15, 0⟩
def fHK_QCFG_QDROP : Fld := ⟨31, 24⟩
def fHK_QCFG_QUEUE : Fld := ⟨14, 0⟩
def fHK_ENTA_POS : Fld := ⟨31, 27⟩
def fHK_ENTA_NEG : Fld := ⟨26, 22⟩
def fHK_ENTA_NEG_AG : Fld := ⟨21, 21⟩
def fHK_ENTA_EXC : Fld := ⟨20, 16⟩
def fHK_ENTA_IEXC : Fld := ⟨15, 13⟩
def fHK_ENTA_BIAS : Fld := ⟨12, 8⟩
def fHK_ENTA_BIAS_EN : Fld := ⟨7, 7⟩
def fHK_ENTA_GAIN : Fld := ⟨6, 4⟩
def fHK_ENTA_BO : Fld := ⟨3, 2⟩
def fHK_ENTB_SETTLE : Fld := ⟨31, 24⟩
def fHK_ENTB_NCONVM1 : Fld := ⟨23, 12⟩
def fHK_ENTB_LSUB : Fld := ⟨11, 10⟩
def fHK_ENTB_LREF : Fld := ⟨9, 6⟩
def fHK_ENTF_RM1 : Fld := ⟨23, 16⟩
def fHK_ENTF_ORD : Fld := ⟨12, 10⟩
def fHK_ENTF_MEDW : Fld := ⟨9, 8⟩
def fHK_ENTF_QEN : Fld := ⟨0, 0⟩
def fHK_OUT_NEW : Fld := ⟨31, 31⟩
def fHK_OUT_FIRST : Fld := ⟨30, 30⟩
def fHK_OUT_OPEN : Fld := ⟨29, 29⟩
def fHK_OUT_OVR : Fld := ⟨28, 28⟩
def fHK_OUT_VALUE : Fld := ⟨23, 0⟩
def fHK_EST_OPEN_NOW : Fld := ⟨31, 31⟩
def fHK_EST_OPEN_SEEN : Fld := ⟨30, 30⟩
def fHK_EST_OVR_SEEN : Fld := ⟨29, 29⟩
def fHK_EST_CFGERR : Fld := ⟨28, 28⟩
def fHK_EST_WORDS : Fld := ⟨15, 0⟩
def fHK_FIX_AGE : Fld := ⟨31, 24⟩
def fHK_FIX_FIXERR : Fld := ⟨23, 23⟩
def fHK_FIX_TEMP : Fld := ⟨15, 0⟩
def fTHM_STAT_COLD : Fld := ⟨31, 31⟩
def fTHM_STAT_HEATING : Fld := ⟨30, 30⟩
def fTHM_STAT_HIWARN_F : Fld := ⟨29, 29⟩
def fTHM_STAT_LOWARN_F : Fld := ⟨28, 28⟩
def fTHM_STAT_BAND : Fld := ⟨26, 24⟩
def fTHM_STAT_NFAIL : Fld := ⟨20, 16⟩
def fTHM_JT_JMAX : Fld := ⟨31, 16⟩
def fTHM_JT_JMIN : Fld := ⟨15, 0⟩
def fTHM_CFG_SD_T : Fld := ⟨31, 24⟩
def fTHM_CFG_HIWARN : Fld := ⟨23, 16⟩
def fTHM_CFG_LOWARN : Fld := ⟨15, 8⟩
def fTHM_CFG_HEAT : Fld := ⟨2, 0⟩
def fTHM_CNT_BANDCHG : Fld := ⟨31, 16⟩
def fTHM_TEMP_FAIL : Fld := ⟨31, 31⟩
def fTHM_TEMP_TEMP : Fld := ⟨15, 0⟩
def fCAL_CFG_HKCAL_S : Fld := ⟨7, 0⟩
def fCAL_STAT_EXTRAP : Fld := ⟨31, 16⟩
def fCAL_STAT_NBAD : Fld := ⟨9, 0⟩
def fCAL_SETERR_SETERR : Fld := ⟨31, 0⟩
def fCAL_OUT_VALUE : Fld := ⟨15, 0⟩
def fFLT_STAT_OASIS_F : Fld := ⟨31, 31⟩
def fFLT_STAT_OPEN : Fld := ⟨22, 16⟩
def fFLT_STAT_LOST : Fld := ⟨15, 0⟩
def fFLT_LOG_RD : Fld := ⟨31, 16⟩
def fFLT_LOG_WR : Fld := ⟨15, 0⟩
def fFLT_OASISMASK_MASK : Fld := ⟨24, 0⟩
def fPRB_CTRL_GO : Fld := ⟨31, 31⟩
def fPRB_CTRL_STOP : Fld := ⟨30, 30⟩
def fPRB_CTRL_DRAM : Fld := ⟨29, 29⟩
def fPRB_CTRL_DIV : Fld := ⟨3, 0⟩
def fPRB_DEPTH_PRE : Fld := ⟨31, 16⟩
def fPRB_DEPTH_POST : Fld := ⟨15, 0⟩
def fPRB_DEST_BASE : Fld := ⟨31, 0⟩
def fPRB_SIZE_SIZE : Fld := ⟨31, 0⟩
def fPRB_SEL_PSEL : Fld := ⟨31, 16⟩
def fPRB_SEL_SIG : Fld := ⟨3, 0⟩
def fPRB_TRIG_EN : Fld := ⟨31, 31⟩
def fPRB_TRIG_KIND : Fld := ⟨30, 28⟩
def fPRB_TRIG_SIGNED : Fld := ⟨27, 27⟩
def fPRB_TRIG_CH : Fld := ⟨17, 16⟩
def fPRB_TRIG_MASK : Fld := ⟨15, 0⟩
def fPRB_LVL_HYST : Fld := ⟨31, 16⟩
def fPRB_LVL_LEVEL : Fld := ⟨15, 0⟩
def fPRB_STAT_STATE : Fld := ⟨31, 30⟩
def fPRB_STAT_CLAMPED : Fld := ⟨29, 29⟩
def fPRB_STAT_GAPS : Fld := ⟨28, 16⟩
def fPRB_STAT_PRECNT : Fld := ⟨15, 0⟩
def fPRB_TSTAT_VALID : Fld := ⟨31, 31⟩
def fPRB_TSTAT_FIRED : Fld := ⟨7, 4⟩
def fPRB_TSTAT_PRIMARY : Fld := ⟨1, 0⟩
def fPRB_TIDX_TIDX : Fld := ⟨31, 0⟩
def fTST_PERT0_EN : Fld := ⟨31, 31⟩
def fTST_PERT0_PORT : Fld := ⟨22, 16⟩
def fTST_PERT0_OFS : Fld := ⟨15, 0⟩
def fTST_PERT1_EN : Fld := ⟨31, 31⟩
def fTST_PERT1_GMASK : Fld := ⟨17, 16⟩
def fTST_PERT1_QUEUE : Fld := ⟨14, 0⟩
def fTST_PERT2_EN : Fld := ⟨31, 31⟩
def fTST_PERT2_DCLASS : Fld := ⟨30, 28⟩
def fTST_PERT2_POOL : Fld := ⟨26, 24⟩
def fTST_PERT2_DLY : Fld := ⟨15, 0⟩
def fTST_INJECT_GO : Fld := ⟨31, 31⟩
def fTST_INJECT_CODE : Fld := ⟨23, 16⟩
def fTST_INJECT_SRC : Fld := ⟨15, 0⟩
def fFUS_STAT_TAP_CLOSED : Fld := ⟨31, 31⟩
def fFUS_STAT_PROGERR : Fld := ⟨30, 30⟩
def fFUS_STAT_REVOKE : Fld := ⟨29, 26⟩
def fFUS_STAT_SLOTV : Fld := ⟨25, 22⟩
def fFUS_STAT_GMINVER : Fld := ⟨21, 15⟩
def fFUS_STAT_SMINVER : Fld := ⟨14, 8⟩
def fFUS_PROG_KEY : Fld := ⟨31, 16⟩
def fFUS_PROG_ARG : Fld := ⟨15, 8⟩
def fFUS_PROG_OP : Fld := ⟨2, 0⟩
def fFUS_KSTAGE_DATA : Fld := ⟨31, 0⟩
def fPRB_STAMP_STAMP : Fld := ⟨31, 0⟩

def regsGLB0 : List RegDef := [
  ⟨0x0000000, [], none, [⟨⟨31, 16⟩, .ro, 0x9600⟩, ⟨⟨15, 8⟩, .ro, 0x1⟩, ⟨⟨7, 0⟩, .ro, 0x10⟩]⟩,
  ⟨0x0000004, [], none, [⟨⟨27, 24⟩, .ro, 0x1⟩, ⟨⟨23, 16⟩, .ro, 0x0⟩, ⟨⟨15, 8⟩, .ro, 0x0⟩, ⟨⟨7, 4⟩, .ro, 0x0⟩, ⟨⟨3, 0⟩, .ro, 0x2⟩]⟩,
  ⟨0x0000008, [], none, [⟨⟨31, 16⟩, .wo, 0x0⟩, ⟨⟨3, 0⟩, .wo, 0x0⟩]⟩,
  ⟨0x000000C, [], none, [⟨⟨4, 4⟩, .ro, 0x0⟩, ⟨⟨3, 3⟩, .ro, 0x0⟩, ⟨⟨2, 2⟩, .ro, 0x0⟩, ⟨⟨1, 1⟩, .ro, 0x0⟩, ⟨⟨0, 0⟩, .ro, 0x0⟩]⟩,
  ⟨0x0001000, [(1024, 0x4)], none, [⟨⟨17, 17⟩, .w1c, 0x0⟩, ⟨⟨16, 16⟩, .ro, 0x0⟩, ⟨⟨15, 0⟩, .rw, 0x0⟩]⟩]
/-- Every register of the GLB window. -/
def regsGLB : List RegDef := regsGLB0
def regsCP0 : List RegDef := [
  ⟨0x0100000, [], none, [⟨⟨4, 4⟩, .w1c, 0x0⟩, ⟨⟨3, 3⟩, .w1c, 0x0⟩, ⟨⟨2, 2⟩, .w1c, 0x0⟩, ⟨⟨1, 1⟩, .w1c, 0x0⟩, ⟨⟨0, 0⟩, .w1c, 0x1⟩]⟩,
  ⟨0x0100004, [], none, [⟨⟨24, 16⟩, .w1c, 0x0⟩, ⟨⟨8, 0⟩, .ro, 0x1FF⟩]⟩,
  ⟨0x0100010, [], none, [⟨⟨31, 16⟩, .ro, 0xC350⟩, ⟨⟨3, 3⟩, .w1c, 0x0⟩, ⟨⟨2, 2⟩, .w1c, 0x0⟩, ⟨⟨1, 1⟩, .ro, 0x1⟩, ⟨⟨0, 0⟩, .ro, 0x1⟩]⟩,
  ⟨0x0100020, [], none, [⟨⟨31, 16⟩, .wo, 0x0⟩, ⟨⟨2, 2⟩, .wo, 0x0⟩, ⟨⟨1, 1⟩, .wo, 0x0⟩, ⟨⟨0, 0⟩, .wo, 0x0⟩]⟩]
/-- Every register of the CP window. -/
def regsCP : List RegDef := regsCP0
def regsRNG0 : List RegDef := [
  ⟨0x5000000, [(256, 0x10000)], none, [⟨⟨7, 7⟩, .wo, 0x0⟩, ⟨⟨6, 6⟩, .wo, 0x0⟩, ⟨⟨3, 3⟩, .wo, 0x0⟩, ⟨⟨2, 2⟩, .wo, 0x0⟩, ⟨⟨0, 0⟩, .rw, 0x0⟩]⟩,
  ⟨0x5000004, [(256, 0x10000)], none, [⟨⟨23, 20⟩, .ro, 0x0⟩, ⟨⟨19, 16⟩, .ro, 0x0⟩, ⟨⟨15, 12⟩, .ro, 0x0⟩, ⟨⟨9, 9⟩, .ro, 0x0⟩, ⟨⟨8, 8⟩, .ro, 0x0⟩, ⟨⟨2, 0⟩, .ro, 0x0⟩]⟩,
  ⟨0x5000008, [(256, 0x10000)], none, [⟨⟨17, 2⟩, .rw, 0x0⟩]⟩,
  ⟨0x500000C, [(256, 0x10000)], none, [⟨⟨18, 2⟩, .rw, 0x0⟩]⟩,
  ⟨0x5000010, [(256, 0x10000)], none, [⟨⟨31, 0⟩, .rw, 0x0⟩]⟩,
  ⟨0x5000014, [(256, 0x10000)], none, [⟨⟨23, 0⟩, .rw, 0x0⟩]⟩,
  ⟨0x5000018, [(256, 0x10000)], none, [⟨⟨31, 31⟩, .w1c, 0x0⟩, ⟨⟨23, 16⟩, .ro, 0x0⟩, ⟨⟨15, 0⟩, .ro, 0x0⟩]⟩,
  ⟨0x500001C, [(256, 0x10000)], none, [⟨⟨17, 0⟩, .ro, 0x0⟩]⟩,
  ⟨0x5000020, [(256, 0x10000)], none, [⟨⟨31, 0⟩, .ro, 0x0⟩]⟩,
  ⟨0x5000024, [(256, 0x10000)], none, [⟨⟨17, 0⟩, .ro, 0x0⟩]⟩,
  ⟨0x5000028, [(256, 0x10000)], none, [⟨⟨31, 0⟩, .wo, 0x0⟩]⟩,
  ⟨0x500002C, [(256, 0x10000)], none, [⟨⟨31, 16⟩, .rc, 0x0⟩, ⟨⟨4, 0⟩, .ro, 0x0⟩]⟩,
  ⟨0x5000030, [(256, 0x10000)], none, [⟨⟨30, 16⟩, .rw, 0x7FFF⟩, ⟨⟨14, 0⟩, .rw, 0x0⟩]⟩,
  ⟨0x5000034, [(256, 0x10000)], none, [⟨⟨31, 0⟩, .ro, 0x0⟩]⟩,
  ⟨0x5000038, [(256, 0x10000)], none, [⟨⟨31, 0⟩, .ro, 0x0⟩]⟩,
  ⟨0x5000100, [(256, 0x10000), (16, 0x4)], none, [⟨⟨31, 0⟩, .ro, 0x0⟩]⟩,
  ⟨0x500003C, [(256, 0x10000)], none, [⟨⟨1, 0⟩, .rw, 0x0⟩]⟩,
  ⟨0x5000200, [(32, 0x10000)], none, [⟨⟨2, 0⟩, .rw, 0x0⟩]⟩,
  ⟨0x5200200, [(32, 0x10000)], none, [⟨⟨2, 0⟩, .rw, 0x1⟩]⟩,
  ⟨0x5400200, [(32, 0x10000)], none, [⟨⟨2, 0⟩, .rw, 0x2⟩]⟩]
def regsRNG1 : List RegDef := [
  ⟨0x5600200, [(32, 0x10000)], none, [⟨⟨2, 0⟩, .rw, 0x3⟩]⟩,
  ⟨0x5800200, [(32, 0x10000)], none, [⟨⟨2, 0⟩, .rw, 0x4⟩]⟩,
  ⟨0x5A00200, [(32, 0x10000)], none, [⟨⟨2, 0⟩, .rw, 0x5⟩]⟩,
  ⟨0x5C00200, [(32, 0x10000)], none, [⟨⟨2, 0⟩, .rw, 0x6⟩]⟩,
  ⟨0x5E00200, [(32, 0x10000)], none, [⟨⟨2, 0⟩, .rw, 0x7⟩]⟩,
  ⟨0x5000204, [(256, 0x10000)], none, [⟨⟨31, 31⟩, .ro, 0x0⟩, ⟨⟨30, 30⟩, .ro, 0x0⟩, ⟨⟨22, 16⟩, .ro, 0x0⟩, ⟨⟨15, 0⟩, .ro, 0x0⟩]⟩,
  ⟨0x5000208, [(256, 0x10000)], none, [⟨⟨31, 0⟩, .ro, 0x0⟩]⟩,
  ⟨0x500020C, [(256, 0x10000)], none, [⟨⟨31, 0⟩, .ro, 0x0⟩]⟩,
  ⟨0x5000210, [(256, 0x10000)], none, [⟨⟨31, 16⟩, .rc, 0x0⟩, ⟨⟨15, 0⟩, .rc, 0x0⟩]⟩,
  ⟨0x5002000, [], none, [⟨⟨2, 0⟩, .rw, 0x0⟩, ⟨⟨6, 4⟩, .rw, 0x0⟩, ⟨⟨10, 8⟩, .rw, 0x0⟩, ⟨⟨14, 12⟩, .rw, 0x0⟩, ⟨⟨18, 16⟩, .rw, 0x0⟩, ⟨⟨22, 20⟩, .rw, 0x0⟩, ⟨⟨26, 24⟩, .rw, 0x0⟩, ⟨⟨30, 28⟩, .rw, 0x0⟩]⟩,
  ⟨0x5002004, [], none, [⟨⟨2, 0⟩, .rw, 0x0⟩, ⟨⟨6, 4⟩, .rw, 0x0⟩, ⟨⟨10, 8⟩, .rw, 0x0⟩, ⟨⟨14, 12⟩, .rw, 0x0⟩, ⟨⟨18, 16⟩, .rw, 0x1⟩, ⟨⟨22, 20⟩, .rw, 0x1⟩, ⟨⟨26, 24⟩, .rw, 0x1⟩, ⟨⟨30, 28⟩, .rw, 0x1⟩]⟩,
  ⟨0x5002008, [], none, [⟨⟨2, 0⟩, .rw, 0x1⟩, ⟨⟨6, 4⟩, .rw, 0x1⟩, ⟨⟨10, 8⟩, .rw, 0x1⟩, ⟨⟨14, 12⟩, .rw, 0x1⟩, ⟨⟨18, 16⟩, .rw, 0x1⟩, ⟨⟨22, 20⟩, .rw, 0x1⟩, ⟨⟨26, 24⟩, .rw, 0x1⟩, ⟨⟨30, 28⟩, .rw, 0x1⟩]⟩,
  ⟨0x500200C, [], none, [⟨⟨2, 0⟩, .rw, 0x2⟩, ⟨⟨6, 4⟩, .rw, 0x2⟩, ⟨⟨10, 8⟩, .rw, 0x2⟩, ⟨⟨14, 12⟩, .rw, 0x2⟩, ⟨⟨18, 16⟩, .rw, 0x2⟩, ⟨⟨22, 20⟩, .rw, 0x2⟩, ⟨⟨26, 24⟩, .rw, 0x2⟩, ⟨⟨30, 28⟩, .rw, 0x2⟩]⟩,
  ⟨0x5002010, [], none, [⟨⟨2, 0⟩, .rw, 0x2⟩, ⟨⟨6, 4⟩, .rw, 0x2⟩, ⟨⟨10, 8⟩, .rw, 0x2⟩, ⟨⟨14, 12⟩, .rw, 0x2⟩, ⟨⟨18, 16⟩, .rw, 0x3⟩, ⟨⟨22, 20⟩, .rw, 0x3⟩, ⟨⟨26, 24⟩, .rw, 0x3⟩, ⟨⟨30, 28⟩, .rw, 0x3⟩]⟩,
  ⟨0x5002014, [], none, [⟨⟨2, 0⟩, .rw, 0x3⟩, ⟨⟨6, 4⟩, .rw, 0x3⟩, ⟨⟨10, 8⟩, .rw, 0x3⟩, ⟨⟨14, 12⟩, .rw, 0x3⟩, ⟨⟨18, 16⟩, .rw, 0x3⟩, ⟨⟨22, 20⟩, .rw, 0x3⟩, ⟨⟨26, 24⟩, .rw, 0x3⟩, ⟨⟨30, 28⟩, .rw, 0x3⟩]⟩,
  ⟨0x5002018, [], none, [⟨⟨2, 0⟩, .rw, 0x4⟩, ⟨⟨6, 4⟩, .rw, 0x4⟩, ⟨⟨10, 8⟩, .rw, 0x4⟩, ⟨⟨14, 12⟩, .rw, 0x4⟩, ⟨⟨18, 16⟩, .rw, 0x4⟩, ⟨⟨22, 20⟩, .rw, 0x4⟩, ⟨⟨26, 24⟩, .rw, 0x4⟩, ⟨⟨30, 28⟩, .rw, 0x4⟩]⟩,
  ⟨0x500201C, [], none, [⟨⟨2, 0⟩, .rw, 0x4⟩, ⟨⟨6, 4⟩, .rw, 0x4⟩, ⟨⟨10, 8⟩, .rw, 0x4⟩, ⟨⟨14, 12⟩, .rw, 0x4⟩, ⟨⟨18, 16⟩, .rw, 0x5⟩, ⟨⟨22, 20⟩, .rw, 0x5⟩, ⟨⟨26, 24⟩, .rw, 0x5⟩, ⟨⟨30, 28⟩, .rw, 0x5⟩]⟩,
  ⟨0x5002020, [], none, [⟨⟨2, 0⟩, .rw, 0x5⟩, ⟨⟨6, 4⟩, .rw, 0x5⟩, ⟨⟨10, 8⟩, .rw, 0x5⟩, ⟨⟨14, 12⟩, .rw, 0x5⟩, ⟨⟨18, 16⟩, .rw, 0x5⟩, ⟨⟨22, 20⟩, .rw, 0x5⟩, ⟨⟨26, 24⟩, .rw, 0x5⟩, ⟨⟨30, 28⟩, .rw, 0x5⟩]⟩,
  ⟨0x5002024, [], none, [⟨⟨2, 0⟩, .rw, 0x6⟩, ⟨⟨6, 4⟩, .rw, 0x6⟩, ⟨⟨10, 8⟩, .rw, 0x6⟩, ⟨⟨14, 12⟩, .rw, 0x6⟩, ⟨⟨18, 16⟩, .rw, 0x6⟩, ⟨⟨22, 20⟩, .rw, 0x6⟩, ⟨⟨26, 24⟩, .rw, 0x6⟩, ⟨⟨30, 28⟩, .rw, 0x6⟩]⟩,
  ⟨0x5002028, [], none, [⟨⟨2, 0⟩, .rw, 0x6⟩, ⟨⟨6, 4⟩, .rw, 0x6⟩, ⟨⟨10, 8⟩, .rw, 0x6⟩, ⟨⟨14, 12⟩, .rw, 0x6⟩, ⟨⟨18, 16⟩, .rw, 0x7⟩, ⟨⟨22, 20⟩, .rw, 0x7⟩, ⟨⟨26, 24⟩, .rw, 0x7⟩, ⟨⟨30, 28⟩, .rw, 0x7⟩]⟩]
def regsRNG2 : List RegDef := [
  ⟨0x500202C, [], none, [⟨⟨2, 0⟩, .rw, 0x7⟩, ⟨⟨6, 4⟩, .rw, 0x7⟩, ⟨⟨10, 8⟩, .rw, 0x7⟩, ⟨⟨14, 12⟩, .rw, 0x7⟩, ⟨⟨18, 16⟩, .rw, 0x7⟩, ⟨⟨22, 20⟩, .rw, 0x7⟩, ⟨⟨26, 24⟩, .rw, 0x7⟩, ⟨⟨30, 28⟩, .rw, 0x7⟩]⟩,
  ⟨0x5002040, [], none, [⟨⟨1, 0⟩, .rw, 0x2⟩]⟩,
  ⟨0x5002080, [(8, 0x4)], none, [⟨⟨31, 24⟩, .rc, 0x0⟩, ⟨⟨23, 15⟩, .ro, 0x0⟩, ⟨⟨7, 0⟩, .ro, 0x0⟩]⟩,
  ⟨0x50020C0, [(8, 0x4)], none, [⟨⟨31, 16⟩, .rc, 0x0⟩, ⟨⟨15, 0⟩, .rc, 0x0⟩]⟩]
/-- Every register of the RNG window. -/
def regsRNG : List RegDef := regsRNG0 ++ regsRNG1 ++ regsRNG2
def regsSEQ0 : List RegDef := [
  ⟨0x1000000, [(16, 0x10000)], none, [⟨⟨7, 7⟩, .wo, 0x0⟩, ⟨⟨6, 6⟩, .wo, 0x0⟩, ⟨⟨3, 3⟩, .wo, 0x0⟩, ⟨⟨2, 2⟩, .wo, 0x0⟩, ⟨⟨0, 0⟩, .rw, 0x0⟩]⟩,
  ⟨0x1000004, [(16, 0x10000)], none, [⟨⟨23, 20⟩, .ro, 0x0⟩, ⟨⟨19, 16⟩, .ro, 0x0⟩, ⟨⟨15, 12⟩, .ro, 0x0⟩, ⟨⟨9, 9⟩, .ro, 0x0⟩, ⟨⟨8, 8⟩, .ro, 0x0⟩, ⟨⟨2, 0⟩, .ro, 0x0⟩]⟩,
  ⟨0x1000008, [(16, 0x10000)], none, [⟨⟨17, 2⟩, .rw, 0x0⟩]⟩,
  ⟨0x100000C, [(16, 0x10000)], none, [⟨⟨18, 2⟩, .rw, 0x0⟩]⟩,
  ⟨0x1000010, [(16, 0x10000)], none, [⟨⟨31, 0⟩, .rw, 0x0⟩]⟩,
  ⟨0x1000014, [(16, 0x10000)], none, [⟨⟨23, 0⟩, .rw, 0x0⟩]⟩,
  ⟨0x1000018, [(16, 0x10000)], none, [⟨⟨31, 31⟩, .w1c, 0x0⟩, ⟨⟨23, 16⟩, .ro, 0x0⟩, ⟨⟨15, 0⟩, .ro, 0x0⟩]⟩,
  ⟨0x100001C, [(16, 0x10000)], none, [⟨⟨17, 0⟩, .ro, 0x0⟩]⟩,
  ⟨0x1000020, [(16, 0x10000)], none, [⟨⟨31, 0⟩, .ro, 0x0⟩]⟩,
  ⟨0x1000024, [(16, 0x10000)], none, [⟨⟨17, 0⟩, .ro, 0x0⟩]⟩,
  ⟨0x1000028, [(16, 0x10000)], none, [⟨⟨31, 0⟩, .wo, 0x0⟩]⟩,
  ⟨0x100002C, [(16, 0x10000)], none, [⟨⟨31, 16⟩, .rc, 0x0⟩, ⟨⟨4, 0⟩, .ro, 0x0⟩]⟩,
  ⟨0x1000030, [(16, 0x10000)], none, [⟨⟨30, 16⟩, .rw, 0x7FFF⟩, ⟨⟨14, 0⟩, .rw, 0x0⟩]⟩,
  ⟨0x1000034, [(16, 0x10000)], none, [⟨⟨31, 0⟩, .ro, 0x0⟩]⟩,
  ⟨0x1000038, [(16, 0x10000)], none, [⟨⟨31, 0⟩, .ro, 0x0⟩]⟩,
  ⟨0x1000100, [(16, 0x10000), (16, 0x4)], none, [⟨⟨31, 0⟩, .ro, 0x0⟩]⟩,
  ⟨0x1000200, [(16, 0x10000)], some (0, 0), [⟨⟨31, 24⟩, .rw, 0x14⟩, ⟨⟨10, 0⟩, .rw, 0x280⟩]⟩,
  ⟨0x1000210, [(16, 0x10000)], some (2, 0), [⟨⟨31, 31⟩, .ro, 0x0⟩, ⟨⟨4, 4⟩, .rw, 0x0⟩, ⟨⟨3, 0⟩, .rw, 0x0⟩]⟩,
  ⟨0x1000220, [(16, 0x10000)], none, [⟨⟨15, 12⟩, .ro, 0x0⟩, ⟨⟨11, 9⟩, .ro, 0x0⟩, ⟨⟨8, 3⟩, .ro, 0x0⟩, ⟨⟨0, 0⟩, .ro, 0x0⟩]⟩,
  ⟨0x1000224, [(16, 0x10000)], none, [⟨⟨31, 31⟩, .ro, 0x0⟩, ⟨⟨29, 16⟩, .ro, 0x0⟩, ⟨⟨13, 8⟩, .ro, 0x0⟩, ⟨⟨5, 0⟩, .ro, 0x0⟩]⟩]
def regsSEQ1 : List RegDef := [
  ⟨0x1000230, [(16, 0x10000)], none, [⟨⟨31, 0⟩, .ro, 0x0⟩]⟩,
  ⟨0x1000234, [(16, 0x10000)], none, [⟨⟨31, 24⟩, .rc, 0x0⟩, ⟨⟨23, 16⟩, .rc, 0x0⟩, ⟨⟨15, 8⟩, .rc, 0x0⟩, ⟨⟨7, 0⟩, .rc, 0x0⟩]⟩,
  ⟨0x1000238, [(16, 0x10000)], none, [⟨⟨31, 16⟩, .rc, 0x0⟩, ⟨⟨15, 0⟩, .rc, 0x0⟩]⟩,
  ⟨0x1000300, [(16, 0x10000), (16, 0x10), (3, 0x4)], some (1, 0), [⟨⟨31, 0⟩, .rw, 0x0⟩]⟩]
/-- Every register of the SEQ window. -/
def regsSEQ : List RegDef := regsSEQ0 ++ regsSEQ1
def regsAXS0 : List RegDef := [
  ⟨0x1300000, [(8, 0x10000)], none, [⟨⟨7, 7⟩, .wo, 0x0⟩, ⟨⟨6, 6⟩, .wo, 0x0⟩, ⟨⟨3, 3⟩, .wo, 0x0⟩, ⟨⟨2, 2⟩, .wo, 0x0⟩, ⟨⟨0, 0⟩, .rw, 0x0⟩]⟩,
  ⟨0x1300004, [(8, 0x10000)], none, [⟨⟨23, 20⟩, .ro, 0x0⟩, ⟨⟨19, 16⟩, .ro, 0x0⟩, ⟨⟨15, 12⟩, .ro, 0x0⟩, ⟨⟨9, 9⟩, .ro, 0x0⟩, ⟨⟨8, 8⟩, .ro, 0x0⟩, ⟨⟨2, 0⟩, .ro, 0x0⟩]⟩,
  ⟨0x1300008, [(8, 0x10000)], none, [⟨⟨17, 2⟩, .rw, 0x0⟩]⟩,
  ⟨0x130000C, [(8, 0x10000)], none, [⟨⟨18, 2⟩, .rw, 0x0⟩]⟩,
  ⟨0x1300010, [(8, 0x10000)], none, [⟨⟨31, 0⟩, .rw, 0x0⟩]⟩,
  ⟨0x1300014, [(8, 0x10000)], none, [⟨⟨23, 0⟩, .rw, 0x0⟩]⟩,
  ⟨0x1300018, [(8, 0x10000)], none, [⟨⟨31, 31⟩, .w1c, 0x0⟩, ⟨⟨23, 16⟩, .ro, 0x0⟩, ⟨⟨15, 0⟩, .ro, 0x0⟩]⟩,
  ⟨0x130001C, [(8, 0x10000)], none, [⟨⟨17, 0⟩, .ro, 0x0⟩]⟩,
  ⟨0x1300020, [(8, 0x10000)], none, [⟨⟨31, 0⟩, .ro, 0x0⟩]⟩,
  ⟨0x1300024, [(8, 0x10000)], none, [⟨⟨17, 0⟩, .ro, 0x0⟩]⟩,
  ⟨0x1300028, [(8, 0x10000)], none, [⟨⟨31, 0⟩, .wo, 0x0⟩]⟩,
  ⟨0x130002C, [(8, 0x10000)], none, [⟨⟨31, 16⟩, .rc, 0x0⟩, ⟨⟨4, 0⟩, .ro, 0x0⟩]⟩,
  ⟨0x1300030, [(8, 0x10000)], none, [⟨⟨30, 16⟩, .rw, 0x7FFF⟩, ⟨⟨14, 0⟩, .rw, 0x0⟩]⟩,
  ⟨0x1300034, [(8, 0x10000)], none, [⟨⟨31, 0⟩, .ro, 0x0⟩]⟩,
  ⟨0x1300038, [(8, 0x10000)], none, [⟨⟨31, 0⟩, .ro, 0x0⟩]⟩,
  ⟨0x1300100, [(8, 0x10000), (16, 0x4)], none, [⟨⟨31, 0⟩, .ro, 0x0⟩]⟩,
  ⟨0x1300200, [(4, 0x20000)], some (0, 0), [⟨⟨31, 31⟩, .rw, 0x0⟩, ⟨⟨30, 30⟩, .rw, 0x1⟩, ⟨⟨29, 28⟩, .rw, 0x0⟩, ⟨⟨27, 27⟩, .rw, 0x0⟩, ⟨⟨26, 26⟩, .rw, 0x0⟩, ⟨⟨25, 25⟩, .rw, 0x0⟩, ⟨⟨24, 24⟩, .rw, 0x0⟩, ⟨⟨18, 16⟩, .rw, 0x0⟩, ⟨⟨3, 0⟩, .rw, 0x0⟩]⟩,
  ⟨0x1300204, [(4, 0x20000)], some (0, 0), [⟨⟨15, 0⟩, .rw, 0x0⟩]⟩,
  ⟨0x1300208, [(4, 0x20000)], some (1, 0), [⟨⟨31, 16⟩, .rw, 0x7FFF⟩, ⟨⟨15, 0⟩, .rw, 0x8000⟩]⟩,
  ⟨0x130020C, [(4, 0x20000)], some (1, 0), [⟨⟨15, 0⟩, .rw, 0x0⟩]⟩]
def regsAXS1 : List RegDef := [
  ⟨0x1300210, [(4, 0x20000)], some (2, 0), [⟨⟨31, 0⟩, .rw, 0xFFFFFFFF⟩]⟩,
  ⟨0x1300214, [(4, 0x20000)], some (2, 0), [⟨⟨15, 0⟩, .rw, 0x64⟩]⟩,
  ⟨0x1300218, [(4, 0x20000)], some (3, 0), [⟨⟨31, 16⟩, .rw, 0x40⟩, ⟨⟨3, 0⟩, .rw, 0x2⟩]⟩,
  ⟨0x130021C, [(4, 0x20000)], some (3, 0), [⟨⟨31, 0⟩, .rw, 0x2E9A⟩]⟩,
  ⟨0x1300220, [(4, 0x20000)], none, [⟨⟨31, 31⟩, .ro, 0x0⟩, ⟨⟨30, 30⟩, .ro, 0x0⟩, ⟨⟨29, 29⟩, .ro, 0x0⟩, ⟨⟨28, 28⟩, .w1c, 0x0⟩, ⟨⟨27, 27⟩, .w1c, 0x0⟩, ⟨⟨26, 26⟩, .w1c, 0x0⟩, ⟨⟨25, 25⟩, .ro, 0x0⟩, ⟨⟨24, 24⟩, .ro, 0x0⟩, ⟨⟨23, 21⟩, .ro, 0x0⟩, ⟨⟨20, 19⟩, .ro, 0x0⟩, ⟨⟨15, 0⟩, .ro, 0x0⟩]⟩,
  ⟨0x1300224, [(4, 0x20000)], none, [⟨⟨29, 17⟩, .ro, 0x0⟩, ⟨⟨16, 0⟩, .ro, 0x10000⟩]⟩,
  ⟨0x1300228, [(4, 0x20000)], none, [⟨⟨31, 24⟩, .rc, 0x0⟩, ⟨⟨23, 16⟩, .rc, 0x0⟩, ⟨⟨15, 8⟩, .rc, 0x0⟩, ⟨⟨7, 0⟩, .rc, 0x0⟩]⟩,
  ⟨0x1300230, [(4, 0x20000)], none, [⟨⟨31, 0⟩, .ro, 0x0⟩]⟩,
  ⟨0x1300234, [(4, 0x20000)], none, [⟨⟨31, 0⟩, .ro, 0x0⟩]⟩,
  ⟨0x1300238, [(4, 0x20000)], none, [⟨⟨31, 0⟩, .ro, 0x0⟩]⟩,
  ⟨0x130023C, [(4, 0x20000)], none, [⟨⟨31, 0⟩, .ro, 0x0⟩]⟩,
  ⟨0x1301000, [(4, 0x20000), (4, 0x100), (32, 0x8)], none, [⟨⟨31, 0⟩, .rw, 0x0⟩]⟩,
  ⟨0x1301004, [(4, 0x20000), (4, 0x100), (32, 0x8)], none, [⟨⟨4, 0⟩, .rw, 0x0⟩]⟩,
  ⟨0x1301400, [(4, 0x20000), (32, 0x8)], none, [⟨⟨31, 0⟩, .ro, 0x0⟩]⟩,
  ⟨0x1301404, [(4, 0x20000), (32, 0x8)], none, [⟨⟨31, 0⟩, .ro, 0x0⟩]⟩]
/-- Every register of the AXS window. -/
def regsAXS : List RegDef := regsAXS0 ++ regsAXS1
def regsSUP0 : List RegDef := [
  ⟨0xB000000, [(2, 0x80000)], none, [⟨⟨7, 7⟩, .wo, 0x0⟩, ⟨⟨6, 6⟩, .wo, 0x0⟩, ⟨⟨3, 3⟩, .wo, 0x0⟩, ⟨⟨2, 2⟩, .wo, 0x0⟩, ⟨⟨0, 0⟩, .rw, 0x0⟩]⟩,
  ⟨0xB000004, [(2, 0x80000)], none, [⟨⟨23, 20⟩, .ro, 0x0⟩, ⟨⟨19, 16⟩, .ro, 0x0⟩, ⟨⟨15, 12⟩, .ro, 0x0⟩, ⟨⟨9, 9⟩, .ro, 0x0⟩, ⟨⟨8, 8⟩, .ro, 0x0⟩, ⟨⟨2, 0⟩, .ro, 0x0⟩]⟩,
  ⟨0xB000008, [(2, 0x80000)], none, [⟨⟨17, 2⟩, .rw, 0x0⟩]⟩,
  ⟨0xB00000C, [(2, 0x80000)], none, [⟨⟨18, 2⟩, .rw, 0x0⟩]⟩,
  ⟨0xB000010, [(2, 0x80000)], none, [⟨⟨31, 0⟩, .rw, 0x0⟩]⟩,
  ⟨0xB000014, [(2, 0x80000)], none, [⟨⟨23, 0⟩, .rw, 0x0⟩]⟩,
  ⟨0xB000018, [(2, 0x80000)], none, [⟨⟨31, 31⟩, .w1c, 0x0⟩, ⟨⟨23, 16⟩, .ro, 0x0⟩, ⟨⟨15, 0⟩, .ro, 0x0⟩]⟩,
  ⟨0xB00001C, [(2, 0x80000)], none, [⟨⟨17, 0⟩, .ro, 0x0⟩]⟩,
  ⟨0xB000020, [(2, 0x80000)], none, [⟨⟨31, 0⟩, .ro, 0x0⟩]⟩,
  ⟨0xB000024, [(2, 0x80000)], none, [⟨⟨17, 0⟩, .ro, 0x0⟩]⟩,
  ⟨0xB000028, [(2, 0x80000)], none, [⟨⟨31, 0⟩, .wo, 0x0⟩]⟩,
  ⟨0xB00002C, [(2, 0x80000)], none, [⟨⟨31, 16⟩, .rc, 0x0⟩, ⟨⟨4, 0⟩, .ro, 0x0⟩]⟩,
  ⟨0xB000030, [(2, 0x80000)], none, [⟨⟨30, 16⟩, .rw, 0x7FFF⟩, ⟨⟨14, 0⟩, .rw, 0x0⟩]⟩,
  ⟨0xB000034, [(2, 0x80000)], none, [⟨⟨31, 0⟩, .ro, 0x0⟩]⟩,
  ⟨0xB000038, [(2, 0x80000)], none, [⟨⟨31, 0⟩, .ro, 0x0⟩]⟩,
  ⟨0xB000100, [(2, 0x80000), (16, 0x4)], none, [⟨⟨31, 0⟩, .ro, 0x0⟩]⟩]
/-- Every register of the SUP window. -/
def regsSUP : List RegDef := regsSUP0
def regsTIME0 : List RegDef := [
  ⟨0x0200000, [], none, [⟨⟨29, 0⟩, .ro, 0x0⟩]⟩,
  ⟨0x0200004, [], none, [⟨⟨31, 0⟩, .ro, 0x0⟩]⟩,
  ⟨0x0200008, [], none, [⟨⟨15, 0⟩, .ro, 0x0⟩]⟩,
  ⟨0x020000C, [], none, [⟨⟨31, 0⟩, .ro, 0x0⟩]⟩,
  ⟨0x0200010, [], some (0, 0), [⟨⟨31, 0⟩, .rw, 0x40000000⟩]⟩,
  ⟨0x0200014, [], some (0, 0), [⟨⟨3, 0⟩, .rw, 0x1⟩]⟩,
  ⟨0x0200018, [], some (1, 0), [⟨⟨31, 31⟩, .rw, 0x0⟩, ⟨⟨30, 30⟩, .rw, 0x0⟩, ⟨⟨29, 0⟩, .rw, 0x0⟩]⟩,
  ⟨0x020001C, [], some (1, 0), [⟨⟨31, 0⟩, .rw, 0x0⟩]⟩,
  ⟨0x0200020, [], some (1, 0), [⟨⟨15, 0⟩, .rw, 0x0⟩]⟩,
  ⟨0x0200024, [], none, [⟨⟨31, 28⟩, .ro, 0x0⟩, ⟨⟨1, 1⟩, .w1c, 0x0⟩, ⟨⟨0, 0⟩, .w1c, 0x0⟩]⟩,
  ⟨0x0200030, [(2, 0x4)], none, [⟨⟨31, 16⟩, .rw, 0x0⟩, ⟨⟨15, 0⟩, .rw, 0x0⟩]⟩,
  ⟨0x0200040, [], some (18, 0), [⟨⟨31, 31⟩, .rw, 0x0⟩, ⟨⟨30, 30⟩, .rw, 0x0⟩, ⟨⟨29, 29⟩, .rw, 0x0⟩, ⟨⟨9, 0⟩, .rw, 0x64⟩]⟩,
  ⟨0x0200050, [(3, 0x10)], none, [⟨⟨31, 31⟩, .ro, 0x0⟩, ⟨⟨30, 30⟩, .rw, 0x0⟩, ⟨⟨29, 28⟩, .rw, 0x1⟩, ⟨⟨27, 24⟩, .ro, 0x0⟩, ⟨⟨15, 0⟩, .rc, 0x0⟩]⟩,
  ⟨0x0200054, [(3, 0x10)], none, [⟨⟨31, 0⟩, .ro, 0x0⟩]⟩,
  ⟨0x0200058, [(3, 0x10)], none, [⟨⟨15, 0⟩, .ro, 0x0⟩]⟩,
  ⟨0x020005C, [(3, 0x10)], none, [⟨⟨29, 0⟩, .ro, 0x0⟩]⟩,
  ⟨0x0200100, [(16, 0x20)], some (2, 1), [⟨⟨31, 31⟩, .rw, 0x0⟩, ⟨⟨30, 30⟩, .rw, 0x0⟩, ⟨⟨29, 29⟩, .rw, 0x0⟩, ⟨⟨28, 16⟩, .rw, 0x0⟩, ⟨⟨15, 0⟩, .rw, 0x0⟩]⟩,
  ⟨0x0200104, [(16, 0x20)], some (2, 1), [⟨⟨31, 0⟩, .rw, 0x0⟩]⟩,
  ⟨0x0200108, [(16, 0x20)], some (2, 1), [⟨⟨29, 0⟩, .rw, 0x0⟩]⟩,
  ⟨0x020010C, [(16, 0x20)], some (2, 1), [⟨⟨31, 0⟩, .rw, 0x0⟩]⟩]
def regsTIME1 : List RegDef := [
  ⟨0x0200110, [(16, 0x20)], some (2, 1), [⟨⟨31, 0⟩, .rw, 0x0⟩]⟩,
  ⟨0x0200118, [(16, 0x20)], none, [⟨⟨31, 31⟩, .ro, 0x0⟩, ⟨⟨30, 30⟩, .w1c, 0x0⟩, ⟨⟨23, 16⟩, .rc, 0x0⟩, ⟨⟨15, 0⟩, .ro, 0x0⟩]⟩]
/-- Every register of the TIME window. -/
def regsTIME : List RegDef := regsTIME0 ++ regsTIME1
def regsEMT0 : List RegDef := [
  ⟨0x1100000, [], some (0, 0), [⟨⟨7, 2⟩, .rw, 0x0⟩, ⟨⟨0, 0⟩, .rw, 0x0⟩]⟩,
  ⟨0x1100004, [], some (1, 0), [⟨⟨7, 0⟩, .rw, 0xB4⟩]⟩,
  ⟨0x1100010, [], some (20, 0), [⟨⟨23, 16⟩, .rw, 0xA⟩, ⟨⟨9, 0⟩, .rw, 0x0⟩]⟩,
  ⟨0x1100014, [], some (2, 0), [⟨⟨15, 0⟩, .rw, 0x400⟩]⟩,
  ⟨0x1100018, [], none, [⟨⟨15, 0⟩, .w1c, 0x0⟩]⟩,
  ⟨0x110001C, [], none, [⟨⟨31, 16⟩, .rc, 0x0⟩, ⟨⟨0, 0⟩, .ro, 0x0⟩]⟩,
  ⟨0x1100020, [], none, [⟨⟨31, 0⟩, .ro, 0x0⟩]⟩,
  ⟨0x1100040, [(16, 0x4)], some (2, 0), [⟨⟨18, 16⟩, .rw, 0x0⟩, ⟨⟨15, 0⟩, .rw, 0x0⟩]⟩,
  ⟨0x1100080, [(16, 0x4)], some (3, 0), [⟨⟨4, 4⟩, .rw, 0x0⟩, ⟨⟨3, 0⟩, .rw, 0x0⟩, ⟨⟨9, 9⟩, .rw, 0x0⟩, ⟨⟨8, 5⟩, .rw, 0x0⟩, ⟨⟨14, 14⟩, .rw, 0x0⟩, ⟨⟨13, 10⟩, .rw, 0x0⟩, ⟨⟨19, 19⟩, .rw, 0x0⟩, ⟨⟨18, 15⟩, .rw, 0x0⟩, ⟨⟨24, 24⟩, .rw, 0x0⟩, ⟨⟨23, 20⟩, .rw, 0x0⟩, ⟨⟨29, 29⟩, .rw, 0x0⟩, ⟨⟨28, 25⟩, .rw, 0x0⟩]⟩,
  ⟨0x1100100, [(16, 0x10)], some (4, 1), [⟨⟨31, 31⟩, .rw, 0x0⟩, ⟨⟨25, 16⟩, .rw, 0x0⟩, ⟨⟨15, 8⟩, .rw, 0x0⟩, ⟨⟨7, 0⟩, .rw, 0x32⟩]⟩,
  ⟨0x1100104, [(16, 0x10)], some (4, 1), [⟨⟨11, 6⟩, .rw, 0x0⟩, ⟨⟨3, 0⟩, .rw, 0xF⟩]⟩,
  ⟨0x1100108, [(16, 0x10)], none, [⟨⟨31, 31⟩, .w1c, 0x0⟩, ⟨⟨30, 30⟩, .w1c, 0x0⟩, ⟨⟨29, 29⟩, .w1c, 0x0⟩, ⟨⟨28, 28⟩, .ro, 0x0⟩, ⟨⟨15, 0⟩, .rc, 0x0⟩]⟩,
  ⟨0x110010C, [(16, 0x10)], none, [⟨⟨31, 16⟩, .rc, 0x0⟩, ⟨⟨9, 0⟩, .ro, 0x0⟩]⟩,
  ⟨0x1100200, [(16, 0x4)], none, [⟨⟨15, 0⟩, .rw, 0x0⟩]⟩,
  ⟨0x1101000, [(256, 0x4)], none, [⟨⟨15, 8⟩, .rw, 0x0⟩, ⟨⟨1, 0⟩, .rw, 0x0⟩]⟩,
  ⟨0x1101400, [(16, 0x8)], none, [⟨⟨31, 24⟩, .rw, 0x0⟩, ⟨⟨23, 16⟩, .rw, 0x0⟩, ⟨⟨15, 8⟩, .rw, 0x0⟩, ⟨⟨7, 0⟩, .rw, 0x0⟩]⟩,
  ⟨0x1101404, [(16, 0x8)], none, [⟨⟨15, 8⟩, .rw, 0x0⟩, ⟨⟨7, 0⟩, .rw, 0x0⟩]⟩]
/-- Every register of the EMT window. -/
def regsEMT : List RegDef := regsEMT0
def regsGRD0 : List RegDef := [
  ⟨0x1200000, [], none, [⟨⟨31, 31⟩, .ro, 0x0⟩, ⟨⟨30, 30⟩, .w1c, 0x0⟩, ⟨⟨29, 29⟩, .ro, 0x0⟩, ⟨⟨28, 28⟩, .ro, 0x0⟩, ⟨⟨27, 24⟩, .ro, 0x0⟩, ⟨⟨23, 22⟩, .ro, 0x0⟩, ⟨⟨21, 20⟩, .w1c, 0x0⟩, ⟨⟨19, 18⟩, .w1c, 0x0⟩, ⟨⟨15, 0⟩, .rc, 0x0⟩]⟩,
  ⟨0x1200004, [], none, [⟨⟨31, 31⟩, .ro, 0x0⟩, ⟨⟨30, 30⟩, .ro, 0x0⟩, ⟨⟨29, 29⟩, .ro, 0x0⟩, ⟨⟨23, 20⟩, .ro, 0x0⟩, ⟨⟨15, 0⟩, .rc, 0x0⟩]⟩,
  ⟨0x1200008, [], none, [⟨⟨31, 0⟩, .ro, 0x0⟩]⟩,
  ⟨0x120000C, [], none, [⟨⟨31, 0⟩, .ro, 0x0⟩]⟩,
  ⟨0x1200010, [], none, [⟨⟨31, 28⟩, .ro, 0x0⟩, ⟨⟨27, 24⟩, .ro, 0x0⟩, ⟨⟨23, 19⟩, .ro, 0x0⟩, ⟨⟨13, 0⟩, .ro, 0x0⟩]⟩,
  ⟨0x1200020, [(2, 0x4)], none, [⟨⟨31, 31⟩, .ro, 0x0⟩, ⟨⟨21, 16⟩, .ro, 0x0⟩, ⟨⟨15, 8⟩, .ro, 0x0⟩]⟩,
  ⟨0x1200040, [(11, 0x4)], none, [⟨⟨31, 0⟩, .rc, 0x0⟩]⟩]
/-- Every register of the GRD window. -/
def regsGRD : List RegDef := regsGRD0
def regsPRT0 : List RegDef := [
  ⟨0x2000000, [(96, 0x1000)], some (3, 0), [⟨⟨1, 1⟩, .rw, 0x1⟩, ⟨⟨0, 0⟩, .rw, 0x0⟩]⟩,
  ⟨0x2000004, [(96, 0x1000)], some (0, 0), [⟨⟨12, 12⟩, .rw, 0x0⟩, ⟨⟨11, 8⟩, .rw, 0xF⟩, ⟨⟨6, 4⟩, .rw, 0x2⟩, ⟨⟨2, 0⟩, .rw, 0x3⟩]⟩,
  ⟨0x2000008, [(96, 0x1000)], some (0, 0), [⟨⟨25, 16⟩, .rw, 0xA0⟩, ⟨⟨9, 0⟩, .rw, 0x60⟩]⟩,
  ⟨0x200000C, [(96, 0x1000)], some (0, 0), [⟨⟨25, 16⟩, .rw, 0x280⟩, ⟨⟨9, 0⟩, .rw, 0x140⟩]⟩,
  ⟨0x2000010, [(96, 0x1000)], some (1, 0), [⟨⟨15, 8⟩, .rw, 0x0⟩, ⟨⟨7, 0⟩, .rw, 0x0⟩]⟩,
  ⟨0x2000014, [(96, 0x1000)], some (1, 0), [⟨⟨19, 16⟩, .rw, 0x0⟩, ⟨⟨15, 0⟩, .rw, 0x0⟩]⟩,
  ⟨0x2000018, [(96, 0x1000)], some (2, 0), [⟨⟨31, 16⟩, .rw, 0xFFFF⟩, ⟨⟨7, 0⟩, .rw, 0x0⟩]⟩,
  ⟨0x2000020, [(96, 0x1000)], none, [⟨⟨25, 16⟩, .ro, 0xA0⟩, ⟨⟨9, 0⟩, .ro, 0x60⟩]⟩,
  ⟨0x2000024, [(96, 0x1000)], none, [⟨⟨25, 16⟩, .ro, 0x280⟩, ⟨⟨9, 0⟩, .ro, 0x140⟩]⟩,
  ⟨0x2000030, [(96, 0x1000)], none, [⟨⟨18, 18⟩, .ro, 0x0⟩, ⟨⟨17, 17⟩, .ro, 0x0⟩, ⟨⟨16, 16⟩, .ro, 0x0⟩, ⟨⟨15, 0⟩, .ro, 0x0⟩]⟩,
  ⟨0x2000034, [(96, 0x1000)], none, [⟨⟨11, 8⟩, .ro, 0x0⟩, ⟨⟨6, 6⟩, .w1c, 0x0⟩, ⟨⟨5, 5⟩, .w1c, 0x0⟩, ⟨⟨4, 4⟩, .w1c, 0x0⟩, ⟨⟨3, 3⟩, .ro, 0x0⟩, ⟨⟨2, 2⟩, .ro, 0x0⟩]⟩,
  ⟨0x2000040, [(96, 0x1000)], none, [⟨⟨31, 0⟩, .ro, 0x0⟩]⟩,
  ⟨0x2000044, [(96, 0x1000)], none, [⟨⟨31, 16⟩, .rc, 0x0⟩, ⟨⟨15, 0⟩, .rc, 0x0⟩]⟩,
  ⟨0x2000048, [(96, 0x1000)], none, [⟨⟨31, 16⟩, .rc, 0x0⟩, ⟨⟨15, 0⟩, .rc, 0x0⟩]⟩,
  ⟨0x200004C, [(96, 0x1000)], none, [⟨⟨31, 16⟩, .rc, 0x0⟩, ⟨⟨15, 0⟩, .rc, 0x0⟩]⟩,
  ⟨0x2000050, [(96, 0x1000)], none, [⟨⟨31, 16⟩, .rc, 0x0⟩, ⟨⟨15, 0⟩, .rc, 0x0⟩]⟩,
  ⟨0x2000054, [(96, 0x1000)], none, [⟨⟨31, 16⟩, .rc, 0x0⟩, ⟨⟨15, 0⟩, .rc, 0x0⟩]⟩]
/-- Every register of the PRT window. -/
def regsPRT : List RegDef := regsPRT0
def regsTDC0 : List RegDef := [
  ⟨0x2100000, [], none, [⟨⟨0, 0⟩, .wo, 0x0⟩]⟩,
  ⟨0x2100004, [], none, [⟨⟨31, 31⟩, .ro, 0x0⟩, ⟨⟨30, 30⟩, .ro, 0x0⟩, ⟨⟨23, 0⟩, .ro, 0x0⟩]⟩,
  ⟨0x2100008, [], some (0, 0), [⟨⟨31, 31⟩, .rw, 0x1⟩, ⟨⟨23, 16⟩, .rw, 0x4⟩, ⟨⟨15, 12⟩, .rw, 0x4⟩, ⟨⟨11, 6⟩, .rw, 0x3⟩, ⟨⟨5, 0⟩, .rw, 0x8⟩]⟩,
  ⟨0x210000C, [], some (2, 0), [⟨⟨3, 0⟩, .rw, 0x0⟩]⟩,
  ⟨0x2100100, [(24, 0x4)], none, [⟨⟨31, 31⟩, .ro, 0x0⟩, ⟨⟨30, 30⟩, .ro, 0x0⟩, ⟨⟨29, 29⟩, .ro, 0x0⟩, ⟨⟨28, 28⟩, .w1c, 0x0⟩, ⟨⟨27, 27⟩, .w1c, 0x0⟩, ⟨⟨26, 26⟩, .ro, 0x0⟩, ⟨⟨25, 25⟩, .ro, 0x0⟩, ⟨⟨24, 21⟩, .ro, 0x0⟩, ⟨⟨16, 0⟩, .ro, 0x0⟩]⟩,
  ⟨0x2100200, [(16, 0x4)], some (1, 0), [⟨⟨9, 0⟩, .rw, 0x100⟩]⟩,
  ⟨0x2100240, [], none, [⟨⟨15, 0⟩, .ro, 0x0⟩]⟩,
  ⟨0x2101000, [(408, 0x4)], none, [⟨⟨31, 24⟩, .ro, 0x0⟩, ⟨⟨15, 0⟩, .ro, 0x0⟩]⟩,
  ⟨0x2102000, [(400, 0x4)], none, [⟨⟨15, 0⟩, .ro, 0x0⟩]⟩]
/-- Every register of the TDC window. -/
def regsTDC : List RegDef := regsTDC0
def regsWCV0 : List RegDef := [
  ⟨0x2200000, [], some (0, 0), [⟨⟨31, 31⟩, .rw, 0x1⟩, ⟨⟨7, 0⟩, .rw, 0x2⟩]⟩,
  ⟨0x2200100, [(96, 0x4)], none, [⟨⟨10, 8⟩, .ro, 0x0⟩, ⟨⟨7, 6⟩, .ro, 0x0⟩, ⟨⟨5, 4⟩, .ro, 0x1⟩, ⟨⟨3, 2⟩, .ro, 0x2⟩, ⟨⟨1, 1⟩, .w1c, 0x0⟩]⟩,
  ⟨0x2201000, [(96, 0x10), (3, 0x4)], none, [⟨⟨23, 18⟩, .ro, 0x0⟩, ⟨⟨17, 8⟩, .ro, 0x0⟩, ⟨⟨7, 0⟩, .ro, 0x0⟩]⟩]
/-- Every register of the WCV window. -/
def regsWCV : List RegDef := regsWCV0
def regsERG0 : List RegDef := [
  ⟨0x3000000, [], none, [⟨⟨0, 0⟩, .wo, 0x0⟩]⟩,
  ⟨0x3000004, [], none, [⟨⟨31, 24⟩, .rc, 0x0⟩, ⟨⟨23, 16⟩, .rc, 0x0⟩, ⟨⟨15, 0⟩, .rc, 0x0⟩]⟩,
  ⟨0x3000008, [], none, [⟨⟨31, 0⟩, .ro, 0x0⟩]⟩,
  ⟨0x300000C, [], none, [⟨⟨31, 16⟩, .rc, 0x0⟩, ⟨⟨15, 0⟩, .rc, 0x0⟩]⟩,
  ⟨0x3000080, [(8, 0x10)], some (0, 1), [⟨⟨23, 22⟩, .rw, 0x1⟩, ⟨⟨21, 20⟩, .rw, 0x1⟩, ⟨⟨19, 18⟩, .rw, 0x1⟩, ⟨⟨17, 16⟩, .rw, 0x1⟩, ⟨⟨9, 9⟩, .rw, 0x1⟩, ⟨⟨8, 8⟩, .rw, 0x0⟩, ⟨⟨7, 4⟩, .rw, 0xE⟩, ⟨⟨2, 0⟩, .rw, 0x0⟩]⟩,
  ⟨0x3000084, [(8, 0x10)], some (0, 1), [⟨⟨21, 0⟩, .rw, 0x2586B⟩]⟩,
  ⟨0x3000088, [(8, 0x10)], some (0, 1), [⟨⟨28, 16⟩, .rw, 0x1000⟩, ⟨⟨15, 0⟩, .rw, 0x0⟩]⟩,
  ⟨0x3000100, [(96, 0x4)], none, [⟨⟨31, 31⟩, .ro, 0x0⟩, ⟨⟨22, 16⟩, .ro, 0x0⟩, ⟨⟨15, 8⟩, .ro, 0x0⟩, ⟨⟨7, 0⟩, .ro, 0xFF⟩]⟩,
  ⟨0x3000280, [(96, 0x4)], none, [⟨⟨31, 16⟩, .rc, 0x0⟩, ⟨⟨15, 8⟩, .rc, 0x0⟩, ⟨⟨7, 0⟩, .rc, 0x0⟩]⟩,
  ⟨0x3000400, [(192, 0x4)], none, [⟨⟨31, 31⟩, .rw, 0x0⟩, ⟨⟨30, 28⟩, .ro, 0x0⟩, ⟨⟨23, 16⟩, .ro, 0x0⟩, ⟨⟨6, 0⟩, .rw, 0x0⟩]⟩]
/-- Every register of the ERG window. -/
def regsERG : List RegDef := regsERG0
def regsREJ0 : List RegDef := [
  ⟨0x6000000, [], some (0, 0), [⟨⟨31, 16⟩, .rw, 0x50⟩, ⟨⟨15, 0⟩, .rw, 0x1200⟩]⟩,
  ⟨0x6000004, [], some (0, 0), [⟨⟨31, 16⟩, .rw, 0x40⟩, ⟨⟨15, 0⟩, .rw, 0x10⟩]⟩,
  ⟨0x6000008, [], some (0, 0), [⟨⟨25, 16⟩, .rw, 0xC8⟩, ⟨⟨9, 0⟩, .rw, 0x3F0⟩]⟩,
  ⟨0x600000C, [], some (0, 0), [⟨⟨19, 16⟩, .rw, 0x2⟩, ⟨⟨11, 8⟩, .rw, 0x4⟩, ⟨⟨0, 0⟩, .rw, 0x0⟩]⟩,
  ⟨0x6000018, [], some (1, 0), [⟨⟨31, 31⟩, .rw, 0x0⟩, ⟨⟨30, 30⟩, .rw, 0x0⟩, ⟨⟨29, 29⟩, .rw, 0x0⟩, ⟨⟨26, 24⟩, .rw, 0x3⟩, ⟨⟨23, 20⟩, .rw, 0x3⟩, ⟨⟨7, 0⟩, .rw, 0x4⟩]⟩,
  ⟨0x600001C, [], some (1, 0), [⟨⟨12, 0⟩, .rw, 0x0⟩]⟩,
  ⟨0x6000020, [], none, [⟨⟨31, 31⟩, .ro, 0x0⟩, ⟨⟨15, 0⟩, .rc, 0x0⟩]⟩,
  ⟨0x6000040, [], some (3, 0), [⟨⟨31, 31⟩, .ro, 0x0⟩, ⟨⟨29, 28⟩, .ro, 0x0⟩, ⟨⟨15, 8⟩, .ro, 0x0⟩, ⟨⟨1, 0⟩, .rw, 0x0⟩]⟩,
  ⟨0x6000044, [], some (3, 0), [⟨⟨31, 24⟩, .rw, 0x1E⟩, ⟨⟨23, 16⟩, .rw, 0xA⟩, ⟨⟨15, 8⟩, .rw, 0x14⟩, ⟨⟨7, 0⟩, .rw, 0x3C⟩]⟩,
  ⟨0x6000048, [], none, [⟨⟨31, 16⟩, .ro, 0x0⟩, ⟨⟨15, 0⟩, .ro, 0x0⟩]⟩,
  ⟨0x6000060, [], some (2, 0), [⟨⟨31, 31⟩, .rw, 0x0⟩, ⟨⟨27, 24⟩, .rw, 0x0⟩, ⟨⟨23, 20⟩, .rw, 0x0⟩, ⟨⟨19, 0⟩, .rw, 0xF4240⟩]⟩,
  ⟨0x6000064, [], none, [⟨⟨31, 31⟩, .w1c, 0x0⟩, ⟨⟨7, 0⟩, .ro, 0x0⟩]⟩,
  ⟨0x6000114, [], none, [⟨⟨0, 0⟩, .wo, 0x0⟩]⟩,
  ⟨0x6000010, [(2, 0x4)], some (1, 0), [⟨⟨31, 16⟩, .rw, 0x0⟩, ⟨⟨15, 0⟩, .rw, 0x0⟩]⟩,
  ⟨0x6000080, [(16, 0x4)], some (2, 0), [⟨⟨31, 31⟩, .rw, 0x0⟩, ⟨⟨13, 0⟩, .rw, 0x0⟩]⟩,
  ⟨0x6000100, [], some (4, 0), [⟨⟨31, 31⟩, .rw, 0x0⟩, ⟨⟨27, 24⟩, .rw, 0x2⟩, ⟨⟨23, 16⟩, .rw, 0x1E⟩, ⟨⟨14, 0⟩, .rw, 0x0⟩]⟩,
  ⟨0x6000104, [], some (4, 0), [⟨⟨31, 16⟩, .rw, 0x100⟩, ⟨⟨15, 0⟩, .rw, 0x10⟩]⟩,
  ⟨0x6000108, [], none, [⟨⟨28, 16⟩, .ro, 0x0⟩, ⟨⟨15, 0⟩, .rc, 0x0⟩]⟩,
  ⟨0x600010C, [], none, [⟨⟨31, 16⟩, .rc, 0x0⟩, ⟨⟨15, 0⟩, .rc, 0x0⟩]⟩,
  ⟨0x6000110, [], none, [⟨⟨31, 16⟩, .rc, 0x0⟩, ⟨⟨15, 0⟩, .rc, 0x0⟩]⟩]
def regsREJ1 : List RegDef := [
  ⟨0x6000200, [(96, 0x4)], none, [⟨⟨31, 16⟩, .ro, 0x0⟩, ⟨⟨13, 13⟩, .ro, 0x0⟩, ⟨⟨9, 0⟩, .ro, 0x0⟩]⟩]
/-- Every register of the REJ window. -/
def regsREJ : List RegDef := regsREJ0 ++ regsREJ1
def regsPTS0 : List RegDef := [
  ⟨0x7000000, [], some (0, 0), [⟨⟨31, 30⟩, .rw, 0x2⟩, ⟨⟨29, 29⟩, .rw, 0x0⟩, ⟨⟨27, 24⟩, .rw, 0x0⟩, ⟨⟨23, 16⟩, .rw, 0x0⟩, ⟨⟨11, 0⟩, .rw, 0x3E8⟩]⟩,
  ⟨0x7000004, [], some (0, 0), [⟨⟨31, 0⟩, .rw, 0x0⟩]⟩,
  ⟨0x7000008, [], some (3, 0), [⟨⟨0, 0⟩, .rw, 0x0⟩]⟩,
  ⟨0x700000C, [], none, [⟨⟨0, 0⟩, .wo, 0x0⟩]⟩,
  ⟨0x7000010, [], none, [⟨⟨31, 0⟩, .ro, 0x0⟩]⟩,
  ⟨0x7000014, [], none, [⟨⟨31, 0⟩, .ro, 0x0⟩]⟩,
  ⟨0x7000100, [(2, 0x40)], some (1, 1), [⟨⟨31, 0⟩, .rw, 0x40000000⟩]⟩,
  ⟨0x7000104, [(2, 0x40)], some (1, 1), [⟨⟨31, 0⟩, .rw, 0x0⟩]⟩,
  ⟨0x7000108, [(2, 0x40)], some (1, 1), [⟨⟨31, 0⟩, .rw, 0x0⟩]⟩,
  ⟨0x700010C, [(2, 0x40)], some (1, 1), [⟨⟨31, 0⟩, .rw, 0x0⟩]⟩,
  ⟨0x7000110, [(2, 0x40)], some (1, 1), [⟨⟨31, 0⟩, .rw, 0x40000000⟩]⟩,
  ⟨0x7000114, [(2, 0x40)], some (1, 1), [⟨⟨31, 0⟩, .rw, 0x0⟩]⟩,
  ⟨0x7000118, [(2, 0x40)], some (1, 1), [⟨⟨31, 0⟩, .rw, 0x0⟩]⟩,
  ⟨0x700011C, [(2, 0x40)], some (1, 1), [⟨⟨31, 0⟩, .rw, 0x0⟩]⟩,
  ⟨0x7000120, [(2, 0x40)], some (1, 1), [⟨⟨31, 0⟩, .rw, 0x40000000⟩]⟩,
  ⟨0x7000124, [(2, 0x40)], some (1, 1), [⟨⟨31, 0⟩, .rw, 0x0⟩]⟩,
  ⟨0x7000128, [(2, 0x40)], some (1, 1), [⟨⟨31, 0⟩, .rw, 0x0⟩]⟩,
  ⟨0x700012C, [(2, 0x40)], some (1, 1), [⟨⟨31, 0⟩, .rw, 0x0⟩]⟩,
  ⟨0x7000130, [(2, 0x40)], some (1, 1), [⟨⟨15, 0⟩, .rw, 0x0⟩]⟩,
  ⟨0x7000134, [(2, 0x40)], some (1, 1), [⟨⟨15, 0⟩, .rw, 0x0⟩]⟩]
def regsPTS1 : List RegDef := [
  ⟨0x7000138, [(2, 0x40)], some (1, 1), [⟨⟨15, 0⟩, .rw, 0x0⟩]⟩,
  ⟨0x700013C, [(2, 0x40)], some (1, 1), [⟨⟨15, 0⟩, .rw, 0x0⟩]⟩,
  ⟨0x7000200, [(8, 0x20)], some (4, 1), [⟨⟨31, 31⟩, .rw, 0x0⟩, ⟨⟨30, 29⟩, .rw, 0x0⟩, ⟨⟨28, 27⟩, .rw, 0x0⟩, ⟨⟨23, 16⟩, .rw, 0x0⟩, ⟨⟨15, 0⟩, .rw, 0xFFFF⟩]⟩,
  ⟨0x7000204, [(8, 0x20)], some (4, 1), [⟨⟨19, 16⟩, .rw, 0x4⟩, ⟨⟨14, 0⟩, .rw, 0x0⟩]⟩,
  ⟨0x7000208, [(8, 0x20), (3, 0x4)], some (4, 1), [⟨⟨31, 0⟩, .rw, 0xFFFFFFFF⟩]⟩,
  ⟨0x7000300, [(8, 0x4)], none, [⟨⟨31, 16⟩, .rc, 0x0⟩, ⟨⟨15, 8⟩, .rc, 0x0⟩, ⟨⟨7, 0⟩, .rc, 0x0⟩]⟩,
  ⟨0x7001000, [(2, 0x200), (96, 0x4)], none, [⟨⟨31, 16⟩, .rw, 0x0⟩, ⟨⟨15, 0⟩, .rw, 0x0⟩]⟩]
/-- Every register of the PTS window. -/
def regsPTS : List RegDef := regsPTS0 ++ regsPTS1
def regsCAM0 : List RegDef := [
  ⟨0x7100000, [], some (0, 0), [⟨⟨31, 31⟩, .rw, 0x0⟩, ⟨⟨30, 29⟩, .rw, 0x0⟩, ⟨⟨28, 27⟩, .rw, 0x1⟩, ⟨⟨26, 26⟩, .rw, 0x0⟩, ⟨⟨25, 25⟩, .rw, 0x0⟩, ⟨⟨24, 21⟩, .rw, 0x2⟩, ⟨⟨20, 16⟩, .rw, 0xC⟩, ⟨⟨15, 8⟩, .rw, 0x8⟩]⟩,
  ⟨0x7100004, [], some (0, 0), [⟨⟨31, 16⟩, .rw, 0x600⟩, ⟨⟨15, 0⟩, .rw, 0x800⟩]⟩,
  ⟨0x7100008, [], some (1, 0), [⟨⟨31, 20⟩, .rw, 0xF00⟩, ⟨⟨19, 10⟩, .rw, 0x100⟩, ⟨⟨9, 0⟩, .rw, 0x100⟩]⟩,
  ⟨0x710000C, [], some (1, 0), [⟨⟨31, 16⟩, .rw, 0x0⟩, ⟨⟨15, 0⟩, .rw, 0x0⟩]⟩,
  ⟨0x7100010, [], some (1, 0), [⟨⟨31, 16⟩, .rw, 0x0⟩, ⟨⟨15, 0⟩, .rw, 0x0⟩]⟩,
  ⟨0x7100014, [], some (1, 0), [⟨⟨31, 16⟩, .rw, 0x1000⟩, ⟨⟨15, 0⟩, .rw, 0x1000⟩]⟩,
  ⟨0x7100018, [], some (1, 0), [⟨⟨15, 0⟩, .rw, 0x1000⟩]⟩,
  ⟨0x7100020, [], some (1, 0), [⟨⟨15, 0⟩, .rw, 0x1000⟩]⟩,
  ⟨0x7100024, [], some (1, 0), [⟨⟨15, 0⟩, .rw, 0x0⟩]⟩,
  ⟨0x7100028, [], some (1, 0), [⟨⟨15, 0⟩, .rw, 0x0⟩]⟩,
  ⟨0x710002C, [], some (1, 0), [⟨⟨15, 0⟩, .rw, 0x0⟩]⟩,
  ⟨0x7100030, [], some (1, 0), [⟨⟨15, 0⟩, .rw, 0x1000⟩]⟩,
  ⟨0x7100034, [], some (1, 0), [⟨⟨15, 0⟩, .rw, 0x0⟩]⟩,
  ⟨0x7100038, [], some (1, 0), [⟨⟨15, 0⟩, .rw, 0x0⟩]⟩,
  ⟨0x710003C, [], some (1, 0), [⟨⟨15, 0⟩, .rw, 0x0⟩]⟩,
  ⟨0x7100040, [], some (1, 0), [⟨⟨15, 0⟩, .rw, 0x1000⟩]⟩,
  ⟨0x7100044, [], some (1, 0), [⟨⟨12, 12⟩, .rw, 0x0⟩, ⟨⟨11, 11⟩, .rw, 0x0⟩, ⟨⟨10, 10⟩, .rw, 0x0⟩, ⟨⟨9, 0⟩, .rw, 0x0⟩]⟩,
  ⟨0x7100060, [], some (3, 0), [⟨⟨31, 31⟩, .rw, 0x0⟩, ⟨⟨30, 30⟩, .rw, 0x0⟩, ⟨⟨29, 26⟩, .rw, 0x0⟩, ⟨⟨25, 16⟩, .rw, 0xA⟩, ⟨⟨15, 0⟩, .rw, 0x0⟩]⟩,
  ⟨0x7100080, [], none, [⟨⟨9, 8⟩, .rw, 0x1⟩, ⟨⟨6, 0⟩, .rw, 0x0⟩]⟩,
  ⟨0x7100084, [], some (2, 0), [⟨⟨11, 11⟩, .rw, 0x0⟩, ⟨⟨10, 9⟩, .rw, 0x2⟩, ⟨⟨7, 0⟩, .rw, 0x0⟩]⟩]
def regsCAM1 : List RegDef := [
  ⟨0x7100088, [], none, [⟨⟨31, 31⟩, .ro, 0x0⟩, ⟨⟨30, 30⟩, .w1c, 0x0⟩, ⟨⟨15, 8⟩, .rc, 0x0⟩, ⟨⟨7, 0⟩, .ro, 0x0⟩]⟩,
  ⟨0x710008C, [], none, [⟨⟨31, 0⟩, .ro, 0x0⟩]⟩,
  ⟨0x71000A0, [], some (5, 0), [⟨⟨31, 31⟩, .rw, 0x0⟩, ⟨⟨23, 16⟩, .rw, 0x32⟩, ⟨⟨15, 0⟩, .rw, 0x3E8⟩]⟩,
  ⟨0x71000A4, [], some (5, 0), [⟨⟨31, 0⟩, .rw, 0x0⟩]⟩,
  ⟨0x71000A8, [], some (5, 0), [⟨⟨31, 0⟩, .rw, 0x0⟩]⟩,
  ⟨0x71000C0, [(9, 0x4)], some (6, 0), [⟨⟨31, 0⟩, .rw, 0x0⟩]⟩,
  ⟨0x7100100, [(2, 0x40)], some (7, 1), [⟨⟨31, 0⟩, .rw, 0x40000000⟩]⟩,
  ⟨0x7100104, [(2, 0x40)], some (7, 1), [⟨⟨31, 0⟩, .rw, 0x0⟩]⟩,
  ⟨0x7100108, [(2, 0x40)], some (7, 1), [⟨⟨31, 0⟩, .rw, 0x0⟩]⟩,
  ⟨0x710010C, [(2, 0x40)], some (7, 1), [⟨⟨31, 0⟩, .rw, 0x0⟩]⟩,
  ⟨0x7100110, [(2, 0x40)], some (7, 1), [⟨⟨31, 0⟩, .rw, 0x40000000⟩]⟩,
  ⟨0x7100114, [(2, 0x40)], some (7, 1), [⟨⟨31, 0⟩, .rw, 0x0⟩]⟩,
  ⟨0x7100118, [(2, 0x40)], some (7, 1), [⟨⟨31, 0⟩, .rw, 0x0⟩]⟩,
  ⟨0x710011C, [(2, 0x40)], some (7, 1), [⟨⟨31, 0⟩, .rw, 0x0⟩]⟩,
  ⟨0x7100120, [(2, 0x40)], some (7, 1), [⟨⟨31, 0⟩, .rw, 0x40000000⟩]⟩,
  ⟨0x7100124, [(2, 0x40)], some (7, 1), [⟨⟨31, 0⟩, .rw, 0x0⟩]⟩,
  ⟨0x7100128, [(2, 0x40)], some (7, 1), [⟨⟨31, 0⟩, .rw, 0x0⟩]⟩,
  ⟨0x710012C, [(2, 0x40)], some (7, 1), [⟨⟨31, 0⟩, .rw, 0x0⟩]⟩,
  ⟨0x7100130, [(2, 0x40)], some (7, 1), [⟨⟨15, 0⟩, .rw, 0x0⟩]⟩,
  ⟨0x7100134, [(2, 0x40)], some (7, 1), [⟨⟨15, 0⟩, .rw, 0x0⟩]⟩]
def regsCAM2 : List RegDef := [
  ⟨0x7100138, [(2, 0x40)], some (7, 1), [⟨⟨15, 0⟩, .rw, 0x0⟩]⟩,
  ⟨0x71001A0, [(2, 0x4)], some (4, 0), [⟨⟨31, 31⟩, .rw, 0x0⟩, ⟨⟨30, 30⟩, .rw, 0x0⟩, ⟨⟨29, 27⟩, .rw, 0x2⟩, ⟨⟨22, 15⟩, .rw, 0x0⟩, ⟨⟨14, 0⟩, .rw, 0x0⟩]⟩,
  ⟨0x71001B0, [], some (4, 0), [⟨⟨31, 31⟩, .rw, 0x0⟩, ⟨⟨14, 0⟩, .rw, 0x0⟩]⟩,
  ⟨0x7100180, [], none, [⟨⟨31, 31⟩, .w1c, 0x0⟩, ⟨⟨30, 30⟩, .w1c, 0x0⟩, ⟨⟨23, 16⟩, .ro, 0x0⟩, ⟨⟨15, 12⟩, .ro, 0x0⟩, ⟨⟨11, 0⟩, .ro, 0x0⟩]⟩,
  ⟨0x7100184, [], none, [⟨⟨31, 24⟩, .rc, 0x0⟩, ⟨⟨23, 16⟩, .rc, 0x0⟩, ⟨⟨15, 8⟩, .rc, 0x0⟩, ⟨⟨7, 0⟩, .rc, 0x0⟩]⟩]
/-- Every register of the CAM window. -/
def regsCAM : List RegDef := regsCAM0 ++ regsCAM1 ++ regsCAM2
def regsLNK0 : List RegDef := [
  ⟨0x8000000, [(2, 0x40)], some (0, 1), [⟨⟨31, 31⟩, .rw, 0x1⟩, ⟨⟨30, 30⟩, .rw, 0x1⟩, ⟨⟨27, 24⟩, .rw, 0xF⟩, ⟨⟨18, 16⟩, .rw, 0x4⟩, ⟨⟨7, 0⟩, .rw, 0x10⟩]⟩,
  ⟨0x8000004, [(2, 0x40)], none, [⟨⟨3, 1⟩, .wo, 0x0⟩, ⟨⟨0, 0⟩, .wo, 0x0⟩]⟩,
  ⟨0x8000008, [(2, 0x40)], none, [⟨⟨31, 28⟩, .ro, 0x1⟩, ⟨⟨27, 25⟩, .ro, 0x0⟩, ⟨⟨24, 22⟩, .ro, 0x0⟩, ⟨⟨19, 16⟩, .ro, 0x0⟩, ⟨⟨15, 12⟩, .ro, 0x0⟩, ⟨⟨0, 0⟩, .w1c, 0x0⟩]⟩,
  ⟨0x800000C, [(2, 0x40)], none, [⟨⟨31, 16⟩, .rc, 0x0⟩, ⟨⟨15, 0⟩, .rc, 0x0⟩]⟩,
  ⟨0x8000010, [(2, 0x40)], none, [⟨⟨31, 16⟩, .rc, 0x0⟩, ⟨⟨15, 0⟩, .rc, 0x0⟩]⟩,
  ⟨0x8000014, [(2, 0x40)], none, [⟨⟨31, 16⟩, .rc, 0x0⟩, ⟨⟨15, 8⟩, .rc, 0x0⟩, ⟨⟨7, 0⟩, .rc, 0x0⟩]⟩,
  ⟨0x8000018, [(2, 0x40)], none, [⟨⟨31, 24⟩, .rc, 0x0⟩, ⟨⟨23, 16⟩, .rc, 0x0⟩, ⟨⟨15, 0⟩, .rc, 0x0⟩]⟩,
  ⟨0x800001C, [(2, 0x40)], none, [⟨⟨24, 16⟩, .ro, 0x0⟩, ⟨⟨7, 0⟩, .ro, 0x0⟩]⟩,
  ⟨0x8000100, [(8, 0x4)], none, [⟨⟨31, 29⟩, .ro, 0x0⟩, ⟨⟨28, 28⟩, .ro, 0x0⟩, ⟨⟨27, 26⟩, .ro, 0x0⟩, ⟨⟨25, 25⟩, .w1c, 0x0⟩, ⟨⟨23, 20⟩, .ro, 0x0⟩, ⟨⟨15, 0⟩, .rc, 0x0⟩]⟩,
  ⟨0x8000120, [(8, 0x4)], none, [⟨⟨31, 16⟩, .rc, 0x0⟩, ⟨⟨15, 0⟩, .rc, 0x0⟩]⟩,
  ⟨0x8000200, [], some (2, 0), [⟨⟨31, 16⟩, .rw, 0x14⟩, ⟨⟨6, 0⟩, .rw, 0x10⟩]⟩]
/-- Every register of the LNK window. -/
def regsLNK : List RegDef := regsLNK0
def regsQMG0 : List RegDef := [
  ⟨0x8100000, [], none, [⟨⟨31, 16⟩, .wo, 0x0⟩, ⟨⟨6, 4⟩, .rw, 0x0⟩, ⟨⟨2, 0⟩, .rw, 0x0⟩]⟩,
  ⟨0x8100010, [], none, [⟨⟨31, 31⟩, .rw, 0x1⟩, ⟨⟨30, 30⟩, .rw, 0x0⟩, ⟨⟨20, 16⟩, .rw, 0x0⟩, ⟨⟨7, 0⟩, .rc, 0x0⟩]⟩,
  ⟨0x8100014, [(7, 0x4)], none, [⟨⟨31, 31⟩, .rw, 0x0⟩, ⟨⟨30, 30⟩, .rw, 0x0⟩, ⟨⟨20, 16⟩, .rw, 0x0⟩, ⟨⟨7, 0⟩, .rc, 0x0⟩]⟩,
  ⟨0x8100030, [(8, 0x4)], none, [⟨⟨4, 0⟩, .w1c, 0x0⟩]⟩,
  ⟨0x8100050, [], none, [⟨⟨31, 16⟩, .wo, 0x0⟩, ⟨⟨0, 0⟩, .wo, 0x0⟩]⟩,
  ⟨0x8100054, [], none, [⟨⟨12, 0⟩, .rw, 0x1000⟩]⟩,
  ⟨0x8100100, [(8, 0x20), (4, 0x8)], none, [⟨⟨31, 12⟩, .rw, 0x0⟩]⟩,
  ⟨0x8100104, [(8, 0x20), (4, 0x8)], none, [⟨⟨31, 31⟩, .rw, 0x0⟩, ⟨⟨30, 30⟩, .rw, 0x0⟩, ⟨⟨29, 24⟩, .rw, 0xC⟩, ⟨⟨7, 0⟩, .rw, 0x0⟩]⟩]
/-- Every register of the QMG window. -/
def regsQMG : List RegDef := regsQMG0
def regsMEM0 : List RegDef := [
  ⟨0x9000000, [], none, [⟨⟨31, 31⟩, .rw, 0x1⟩, ⟨⟨29, 28⟩, .rw, 0x1⟩, ⟨⟨27, 24⟩, .rw, 0xF⟩, ⟨⟨17, 16⟩, .rw, 0x1⟩, ⟨⟨2, 0⟩, .rw, 0x4⟩]⟩,
  ⟨0x9000004, [], none, [⟨⟨0, 0⟩, .wo, 0x0⟩]⟩,
  ⟨0x9000008, [], none, [⟨⟨31, 31⟩, .ro, 0x0⟩, ⟨⟨11, 8⟩, .ro, 0x0⟩, ⟨⟨3, 0⟩, .ro, 0x0⟩]⟩,
  ⟨0x900000C, [], none, [⟨⟨31, 24⟩, .rw, 0x10⟩, ⟨⟨23, 16⟩, .rw, 0x18⟩, ⟨⟨11, 0⟩, .rw, 0x900⟩]⟩,
  ⟨0x9000010, [(4, 0x4)], none, [⟨⟨31, 16⟩, .rc, 0x0⟩, ⟨⟨15, 0⟩, .rc, 0x0⟩]⟩]
/-- Every register of the MEM window. -/
def regsMEM : List RegDef := regsMEM0
def regsARB0 : List RegDef := [
  ⟨0x9100000, [], none, [⟨⟨2, 0⟩, .rw, 0x6⟩]⟩,
  ⟨0x9100004, [], none, [⟨⟨2, 0⟩, .rw, 0x3⟩]⟩,
  ⟨0x9100008, [], none, [⟨⟨2, 0⟩, .rw, 0x7⟩]⟩,
  ⟨0x910000C, [], none, [⟨⟨2, 0⟩, .rw, 0x5⟩]⟩,
  ⟨0x9100010, [], none, [⟨⟨2, 0⟩, .rw, 0x1⟩]⟩,
  ⟨0x9100020, [], none, [⟨⟨31, 31⟩, .rw, 0x1⟩, ⟨⟨23, 16⟩, .rw, 0x10⟩, ⟨⟨15, 0⟩, .rw, 0x76C⟩]⟩,
  ⟨0x9100024, [], none, [⟨⟨17, 16⟩, .w1c, 0x0⟩, ⟨⟨4, 0⟩, .w1c, 0x0⟩]⟩,
  ⟨0x9100040, [(5, 0x4)], none, [⟨⟨31, 16⟩, .rc, 0x0⟩]⟩]
/-- Every register of the ARB window. -/
def regsARB : List RegDef := regsARB0
def regsSAF0 : List RegDef := [
  ⟨0xA000000, [], none, [⟨⟨31, 31⟩, .ro, 0x0⟩, ⟨⟨30, 30⟩, .w1c, 0x0⟩, ⟨⟨29, 24⟩, .ro, 0x0⟩, ⟨⟨23, 23⟩, .ro, 0x0⟩, ⟨⟨22, 22⟩, .ro, 0x0⟩, ⟨⟨15, 0⟩, .rc, 0x0⟩]⟩,
  ⟨0xA000004, [], none, [⟨⟨31, 31⟩, .ro, 0x0⟩, ⟨⟨30, 30⟩, .ro, 0x0⟩, ⟨⟨29, 29⟩, .ro, 0x0⟩, ⟨⟨28, 28⟩, .ro, 0x0⟩, ⟨⟨23, 20⟩, .ro, 0x0⟩]⟩,
  ⟨0xA000008, [], none, [⟨⟨31, 0⟩, .ro, 0x0⟩]⟩,
  ⟨0xA00000C, [], none, [⟨⟨31, 0⟩, .ro, 0x0⟩]⟩,
  ⟨0xA000010, [], none, [⟨⟨31, 0⟩, .ro, 0x0⟩]⟩,
  ⟨0xA000014, [], none, [⟨⟨31, 0⟩, .rw, 0x0⟩]⟩,
  ⟨0xA000018, [], none, [⟨⟨31, 0⟩, .ro, 0x0⟩]⟩,
  ⟨0xA00001C, [], none, [⟨⟨31, 31⟩, .ro, 0x0⟩, ⟨⟨28, 24⟩, .ro, 0x0⟩, ⟨⟨20, 16⟩, .ro, 0x0⟩, ⟨⟨15, 15⟩, .ro, 0x0⟩, ⟨⟨12, 8⟩, .ro, 0x0⟩, ⟨⟨7, 0⟩, .rc, 0x0⟩]⟩,
  ⟨0xA000020, [(2, 0x4)], none, [⟨⟨31, 29⟩, .ro, 0x0⟩, ⟨⟨28, 28⟩, .ro, 0x0⟩, ⟨⟨27, 27⟩, .ro, 0x0⟩, ⟨⟨26, 26⟩, .ro, 0x0⟩, ⟨⟨25, 25⟩, .ro, 0x0⟩, ⟨⟨24, 24⟩, .ro, 0x0⟩, ⟨⟨23, 23⟩, .ro, 0x0⟩, ⟨⟨22, 19⟩, .ro, 0x0⟩, ⟨⟨18, 16⟩, .ro, 0x0⟩, ⟨⟨15, 8⟩, .ro, 0x0⟩, ⟨⟨7, 0⟩, .ro, 0x0⟩]⟩,
  ⟨0xA000028, [(2, 0x4)], none, [⟨⟨31, 31⟩, .ro, 0x0⟩, ⟨⟨30, 30⟩, .ro, 0x0⟩, ⟨⟨29, 27⟩, .ro, 0x0⟩, ⟨⟨26, 20⟩, .ro, 0x0⟩, ⟨⟨15, 0⟩, .rc, 0x0⟩]⟩,
  ⟨0xA000030, [(2, 0x4)], none, [⟨⟨31, 12⟩, .rw, 0x0⟩, ⟨⟨1, 1⟩, .rw, 0x0⟩, ⟨⟨0, 0⟩, .rw, 0x0⟩]⟩,
  ⟨0xA000038, [], none, [⟨⟨31, 31⟩, .ro, 0x0⟩, ⟨⟨27, 16⟩, .ro, 0x0⟩, ⟨⟨11, 0⟩, .rw, 0x0⟩]⟩,
  ⟨0xA000040, [(8, 0x4)], none, [⟨⟨31, 28⟩, .ro, 0xF⟩, ⟨⟨27, 24⟩, .ro, 0xF⟩, ⟨⟨23, 23⟩, .ro, 0x0⟩, ⟨⟨22, 22⟩, .ro, 0x0⟩, ⟨⟨21, 21⟩, .w1c, 0x0⟩, ⟨⟨20, 20⟩, .w1c, 0x0⟩, ⟨⟨15, 0⟩, .rc, 0x0⟩]⟩,
  ⟨0xA000060, [], none, [⟨⟨31, 0⟩, .ro, 0x0⟩]⟩,
  ⟨0xA000064, [], none, [⟨⟨31, 24⟩, .rc, 0x0⟩, ⟨⟨23, 16⟩, .rc, 0x0⟩, ⟨⟨15, 8⟩, .rc, 0x0⟩, ⟨⟨7, 0⟩, .rc, 0x0⟩]⟩]
/-- Every register of the SAF window. -/
def regsSAF : List RegDef := regsSAF0
def regsHK0 : List RegDef := [
  ⟨0x0600000, [], none, [⟨⟨31, 31⟩, .rw, 0x0⟩, ⟨⟨30, 30⟩, .ro, 0x0⟩, ⟨⟨1, 1⟩, .wo, 0x0⟩, ⟨⟨0, 0⟩, .wo, 0x0⟩]⟩,
  ⟨0x0600004, [], some (0, 0), [⟨⟨31, 31⟩, .rw, 0x0⟩, ⟨⟨30, 29⟩, .rw, 0x0⟩, ⟨⟨23, 20⟩, .rw, 0x0⟩, ⟨⟨3, 0⟩, .rw, 0x0⟩]⟩,
  ⟨0x0600008, [], none, [⟨⟨31, 31⟩, .ro, 0x0⟩, ⟨⟨30, 30⟩, .ro, 0x1⟩, ⟨⟨23, 16⟩, .rc, 0x0⟩, ⟨⟨15, 0⟩, .ro, 0x0⟩]⟩,
  ⟨0x060000C, [], some (2, 0), [⟨⟨31, 24⟩, .rc, 0x0⟩, ⟨⟨14, 0⟩, .rw, 0x0⟩]⟩,
  ⟨0x0600100, [(16, 0x10)], some (0, 0), [⟨⟨31, 27⟩, .rw, 0x0⟩, ⟨⟨26, 22⟩, .rw, 0x0⟩, ⟨⟨21, 21⟩, .rw, 0x1⟩, ⟨⟨20, 16⟩, .rw, 0x0⟩, ⟨⟨15, 13⟩, .rw, 0x0⟩, ⟨⟨12, 8⟩, .rw, 0x0⟩, ⟨⟨7, 7⟩, .rw, 0x0⟩, ⟨⟨6, 4⟩, .rw, 0x0⟩, ⟨⟨3, 2⟩, .rw, 0x0⟩]⟩,
  ⟨0x0600104, [(16, 0x10)], some (0, 0), [⟨⟨31, 24⟩, .rw, 0xA⟩, ⟨⟨23, 12⟩, .rw, 0x63⟩, ⟨⟨11, 10⟩, .rw, 0x0⟩, ⟨⟨9, 6⟩, .rw, 0x0⟩]⟩,
  ⟨0x0600108, [(16, 0x10)], some (1, 0), [⟨⟨23, 16⟩, .rw, 0x0⟩, ⟨⟨12, 10⟩, .rw, 0x0⟩, ⟨⟨9, 8⟩, .rw, 0x0⟩, ⟨⟨0, 0⟩, .rw, 0x0⟩]⟩,
  ⟨0x0600400, [(16, 0x4)], none, [⟨⟨31, 31⟩, .rc, 0x0⟩, ⟨⟨30, 30⟩, .ro, 0x0⟩, ⟨⟨29, 29⟩, .ro, 0x0⟩, ⟨⟨28, 28⟩, .ro, 0x0⟩, ⟨⟨23, 0⟩, .ro, 0x0⟩]⟩,
  ⟨0x0600440, [(16, 0x4)], none, [⟨⟨31, 31⟩, .ro, 0x0⟩, ⟨⟨30, 30⟩, .w1c, 0x0⟩, ⟨⟨29, 29⟩, .w1c, 0x0⟩, ⟨⟨28, 28⟩, .ro, 0x0⟩, ⟨⟨15, 0⟩, .ro, 0x0⟩]⟩,
  ⟨0x0600480, [(4, 0x4)], none, [⟨⟨31, 24⟩, .ro, 0xFF⟩, ⟨⟨23, 23⟩, .ro, 0x0⟩, ⟨⟨15, 0⟩, .ro, 0x7FFF⟩]⟩]
/-- Every register of the HK window. -/
def regsHK : List RegDef := regsHK0
def regsTHM0 : List RegDef := [
  ⟨0x0400000, [], none, [⟨⟨31, 31⟩, .ro, 0x0⟩, ⟨⟨30, 30⟩, .ro, 0x0⟩, ⟨⟨29, 29⟩, .w1c, 0x0⟩, ⟨⟨28, 28⟩, .w1c, 0x0⟩, ⟨⟨26, 24⟩, .ro, 0x0⟩, ⟨⟨20, 16⟩, .ro, 0x0⟩]⟩,
  ⟨0x0400004, [], none, [⟨⟨31, 16⟩, .ro, 0x0⟩, ⟨⟨15, 0⟩, .ro, 0x0⟩]⟩,
  ⟨0x0400008, [], some (0, 0), [⟨⟨31, 24⟩, .rw, 0x84⟩, ⟨⟨23, 16⟩, .rw, 0x69⟩, ⟨⟨15, 8⟩, .rw, 0xDD⟩, ⟨⟨2, 0⟩, .rw, 0x0⟩]⟩,
  ⟨0x040000C, [], none, [⟨⟨31, 16⟩, .rc, 0x0⟩]⟩,
  ⟨0x0400100, [(24, 0x4)], none, [⟨⟨31, 31⟩, .ro, 0x0⟩, ⟨⟨15, 0⟩, .ro, 0x0⟩]⟩]
/-- Every register of the THM window. -/
def regsTHM : List RegDef := regsTHM0
def regsCAL0 : List RegDef := [
  ⟨0x0500000, [], some (0, 0), [⟨⟨7, 0⟩, .rw, 0xA⟩]⟩,
  ⟨0x0500004, [], none, [⟨⟨31, 16⟩, .rc, 0x0⟩, ⟨⟨9, 0⟩, .ro, 0x0⟩]⟩,
  ⟨0x0500040, [(16, 0x4)], none, [⟨⟨31, 0⟩, .ro, 0x0⟩]⟩,
  ⟨0x0500200, [(112, 0x4)], none, [⟨⟨15, 0⟩, .ro, 0x0⟩]⟩]
/-- Every register of the CAL window. -/
def regsCAL : List RegDef := regsCAL0
def regsFLT0 : List RegDef := [
  ⟨0x0300000, [], none, [⟨⟨31, 31⟩, .w1c, 0x0⟩, ⟨⟨22, 16⟩, .ro, 0x0⟩, ⟨⟨15, 0⟩, .rc, 0x0⟩]⟩,
  ⟨0x0300004, [], none, [⟨⟨31, 16⟩, .rw, 0x0⟩, ⟨⟨15, 0⟩, .ro, 0x0⟩]⟩,
  ⟨0x0300008, [], none, [⟨⟨24, 0⟩, .rw, 0x0⟩]⟩]
/-- Every register of the FLT window. -/
def regsFLT : List RegDef := regsFLT0
def regsTST0 : List RegDef := [
  ⟨0x0700000, [], some (0, 0), [⟨⟨31, 31⟩, .wo, 0x0⟩, ⟨⟨30, 30⟩, .wo, 0x0⟩, ⟨⟨29, 29⟩, .rw, 0x0⟩, ⟨⟨3, 0⟩, .rw, 0x0⟩]⟩,
  ⟨0x0700004, [], some (0, 0), [⟨⟨31, 16⟩, .rw, 0x0⟩, ⟨⟨15, 0⟩, .rw, 0x0⟩]⟩,
  ⟨0x0700008, [], some (0, 0), [⟨⟨31, 0⟩, .rw, 0x0⟩]⟩,
  ⟨0x070000C, [], some (0, 0), [⟨⟨31, 0⟩, .rw, 0x0⟩]⟩,
  ⟨0x0700010, [(4, 0x4)], some (0, 0), [⟨⟨31, 16⟩, .rw, 0x0⟩, ⟨⟨3, 0⟩, .rw, 0x0⟩]⟩,
  ⟨0x0700020, [(4, 0x4)], some (0, 0), [⟨⟨31, 31⟩, .rw, 0x0⟩, ⟨⟨30, 28⟩, .rw, 0x0⟩, ⟨⟨27, 27⟩, .rw, 0x0⟩, ⟨⟨17, 16⟩, .rw, 0x0⟩, ⟨⟨15, 0⟩, .rw, 0xFFFF⟩]⟩,
  ⟨0x0700030, [(4, 0x4)], some (0, 0), [⟨⟨31, 16⟩, .rw, 0x0⟩, ⟨⟨15, 0⟩, .rw, 0x0⟩]⟩,
  ⟨0x0700040, [], none, [⟨⟨31, 30⟩, .ro, 0x0⟩, ⟨⟨29, 29⟩, .ro, 0x0⟩, ⟨⟨28, 16⟩, .rc, 0x0⟩, ⟨⟨15, 0⟩, .ro, 0x0⟩]⟩,
  ⟨0x0700044, [], none, [⟨⟨31, 31⟩, .ro, 0x0⟩, ⟨⟨7, 4⟩, .ro, 0x0⟩, ⟨⟨1, 0⟩, .ro, 0x0⟩]⟩,
  ⟨0x0700048, [], none, [⟨⟨31, 0⟩, .ro, 0x0⟩]⟩,
  ⟨0x0700100, [], none, [⟨⟨31, 31⟩, .rw, 0x0⟩, ⟨⟨22, 16⟩, .rw, 0x0⟩, ⟨⟨15, 0⟩, .rw, 0x0⟩]⟩,
  ⟨0x0700104, [], none, [⟨⟨31, 31⟩, .rw, 0x0⟩, ⟨⟨17, 16⟩, .rw, 0x0⟩, ⟨⟨14, 0⟩, .rw, 0x0⟩]⟩,
  ⟨0x0700108, [], none, [⟨⟨31, 31⟩, .rw, 0x0⟩, ⟨⟨30, 28⟩, .rw, 0x0⟩, ⟨⟨26, 24⟩, .rw, 0x0⟩, ⟨⟨15, 0⟩, .rw, 0x0⟩]⟩,
  ⟨0x070010C, [], none, [⟨⟨31, 31⟩, .wo, 0x0⟩, ⟨⟨23, 16⟩, .wo, 0x0⟩, ⟨⟨15, 0⟩, .wo, 0x0⟩]⟩,
  ⟨0x0700200, [], none, [⟨⟨31, 31⟩, .ro, 0x0⟩, ⟨⟨30, 30⟩, .w1c, 0x0⟩, ⟨⟨29, 26⟩, .ro, 0x0⟩, ⟨⟨25, 22⟩, .ro, 0x0⟩, ⟨⟨21, 15⟩, .ro, 0x0⟩, ⟨⟨14, 8⟩, .ro, 0x0⟩]⟩,
  ⟨0x0700204, [], none, [⟨⟨31, 16⟩, .wo, 0x0⟩, ⟨⟨15, 8⟩, .wo, 0x0⟩, ⟨⟨2, 0⟩, .wo, 0x0⟩]⟩,
  ⟨0x0700220, [(16, 0x4)], none, [⟨⟨31, 0⟩, .rw, 0x0⟩]⟩,
  ⟨0x070004C, [(3, 0x4)], none, [⟨⟨31, 0⟩, .ro, 0x0⟩]⟩]
/-- Every register of the TST window. -/
def regsTST : List RegDef := regsTST0
/-- The registers of the block window an address lies in (R25). -/
def regsOf : Blk → List RegDef
  | .glb => regsGLB
  | .clkpwr => regsCP
  | .rng => regsRNG
  | .seq => regsSEQ
  | .axs => regsAXS
  | .sup => regsSUP
  | .time => regsTIME
  | .emt => regsEMT
  | .grd => regsGRD
  | .prt => regsPRT
  | .tdc => regsTDC
  | .wcv => regsWCV
  | .erg => regsERG
  | .rej => regsREJ
  | .pts => regsPTS
  | .cam => regsCAM
  | .lnk => regsLNK
  | .qmg => regsQMG
  | .mem => regsMEM
  | .arb => regsARB
  | .saf => regsSAF
  | .hk => regsHK
  | .thm => regsTHM
  | .cal => regsCAL
  | .flt => regsFLT
  | .tstfus => regsTST
  | .ergdata => []
  | .qdesc => []

end Sys2Proof.Machine
end

