-- ==== Sys2Proof/Machine/State.lean ====
section
/-!
DEFINITION. The state of the TH-9600 as plain data, the reasons a command can stop, and the state after reset.
`State` is the queue of waiting commands, the one-time-programmable fuses, and the rest of the machine (`Mach`).
Register contents live in two maps over control-space addresses (the copy in use and, for committed fields, the
shadow, R27, R28), tables and memories in one byte memory over device addresses (R24), and what the chip holds
besides its registers in the records below, each named after the rule that gives it. Times are counted in core
cycles (R13); fine times in steps of 19.53125 ps, of which a core cycle has 64 (R17).
-/
namespace Sys2Proof.Machine

/-! ## Device (chapter 02) -/

/-- The device states of R51. -/
inductive DevState | off | reset | boot | linked | loaded | armed | running | oasis | shutdown
deriving DecidableEq, Repr

/-- What must end before a fault-caused OASIS cause clears (R497). -/
inductive FaultCond | guard | sensors | lockstep (sv : Nat) | mask
deriving DecidableEq, Repr

/-- A cause that has put, or could have put, the device into OASIS (R56). -/
inductive OasisCause | host | fault (c : FaultCond) | supply (vddGrd : Bool) | clock | bist | arming | safety
deriving DecidableEq, Repr

/-- Start-up and reset progress, and what OASIS remembers (chapter 02). -/
structure Dev where
  st         : DevState
  /-- PORST_N is low (R39, R48). -/
  porstLow   : Bool
  /-- The root PLL has locked since the last reset (R45, R47). -/
  pllLocked  : Bool
  /-- The OTP load has completed since the last reset (R53). -/
  otpLoaded  : Bool
  /-- The outcome of BIST, once it has ended in this BOOT (R53, R536). -/
  bist       : Option Bool
  /-- The running BOOT zeroes SRAM without testing it (R50). -/
  bistSkip   : Bool
  /-- DRAM kept in self-refresh waits for its restore in BOOT (R49). -/
  dramKept   : Bool
  /-- LOADED has been reached since the last reset (R53). -/
  loadedOnce : Bool
  /-- The causes that have arisen since entry to OASIS (R56). -/
  causes     : List OasisCause
  /-- Bit i: supply i has tripped and not risen above its release threshold (R43). -/
  low        : Nat
  /-- A host reset accepted and not yet begun: the cycle it is due, BIST_SKIP, KEEP_DRAM (R64). -/
  resetDue   : Option (Nat × Bool × Bool)
  /-- The cycle in which the root PLL tries again, while it has not locked (R47). -/
  pllRetry   : Nat
deriving DecidableEq, Repr

/-- Test access port (R505, R506). -/
structure Tap where
  ir      : Nat
  /-- The boundary cells as last sampled or preloaded: BSR index and level. -/
  cells   : List (Nat × Nat)
  /-- EXTEST or a private instruction holds the device in RESET (R506). -/
  extest  : Bool
deriving DecidableEq, Repr

/-- Fuses and the trims that the factory burnt (R3, R507): key slots of 64 bytes, revocations, versions. -/
structure Otp where
  grade     : Nat
  slots     : List (Nat × List Byte)
  revoked   : Nat
  gminver   : Nat
  sminver   : Nat
  tapClosed : Bool
deriving DecidableEq, Repr

/-! ## Commits (chapter 01) -/

/-- A pending commit: page, group, and the time trigger it waits for with whether that trigger has fired since
the request (R31, R35). -/
structure Commit where
  page : Nat
  grp  : Nat
  trig : Option Nat
  /-- The cycle of the request (R35). -/
  req  : Nat
deriving DecidableEq, Repr

/-! ## Engines (chapter 03) -/

/-- The engine states of the STAT register. -/
inductive EngState | stopped | running | waiting | halted | faulted
deriving DecidableEq, Repr

/-- What a waiting engine waits for (WAITKIND, and what the wait needs when it ends). -/
inductive Wait
  | none
  | sem (s : Nat)
  | trig (t : Nat)
  | mbox (pd : Nat)
  | queue (q : Nat)
  | dram (store : Bool) (x loc len : Nat)
  | ctl (write : Bool) (a : Nat) (v : Word)
  | take
  | rel (list count : Nat)
  | fire
  | proof
  | walk (str : Nat)
  | wangle (axis target : Nat) (down both : Bool) (trig : Nat) (crossed fired : Bool) (last : Int)
  | adcr (cc : Nat)
deriving DecidableEq, Repr

/-- One level of the loop stack: body start, last body instruction, remaining count (R65, R83). -/
structure LoopLevel where
  start : Nat
  last  : Nat
  count : Nat
deriving DecidableEq, Repr

/-- The sequencer's profile state (chapter 05). -/
structure SeqProfile where
  pat    : Word
  coding : Bool
  code   : Nat
  len    : Nat
  step   : Nat
  armset : List Nat
  armn   : Nat
  armh   : Nat
  /-- Requests become live only from the next arm after a handover (R172). -/
  live   : Bool
  /-- A fire that stalls before issue while two granted edges have not left (R129). -/
  stall  : Option FX
deriving DecidableEq, Repr

/-- A handle on its way (R270): bank, generation, re-dispatch count, and the cycle from which take may see it (R504). -/
structure Handle where
  bank : Nat
  gen  : Nat
  red  : Nat
  at_  : Nat
deriving DecidableEq, Repr

/-- A look taken by a range engine: port, bank, generation (R285). -/
structure Look where
  port : Nat
  bank : Nat
  gen  : Nat
  /-- The engine's pool or the port's pool has changed since. -/
  moved : Bool
deriving DecidableEq, Repr

/-- One engine (R65, R102). -/
structure Engine where
  st        : EngState
  wait      : Wait
  /-- Destination of the waiting instruction, its issue cycle and its timeout in cycles (R535). -/
  wrd       : Nat
  issue     : Nat
  limit     : Nat
  stopCause : Nat
  reqErr    : Nat
  g         : List (Nat × Word)
  p         : Nat
  sat       : Bool
  ovf       : Bool
  inTrap    : Bool
  pc        : Nat
  calls     : List Nat
  loops     : List LoopLevel
  acc       : List (Nat × Int)
  xhi       : Nat
  msrc      : Nat
  emitTmo   : Nat
  tvec      : Nat
  epc       : Nat
  cause     : Nat
  /-- Cycle of the last START, and of the last restart of the watchdog count (R66, R94). -/
  startCyc  : Nat
  wdogCyc   : Nat
  cycleh    : Nat
  /-- CYCLES and WAITCYC up to the last change of state, and the cycle of that change. -/
  busyAcc   : Nat
  waitAcc   : Nat
  since     : Nat
  verified  : Bool
  /-- The cycle in which a running CRC computation ends (R107). -/
  verifyDue : Option Nat
  /-- A STOP, or a change to LOADED, waits for the last granted edge of the sequencer (R168, R170): the STOP_CAUSE to record. -/
  stopping  : Option Nat
  mbox      : List (Word × Nat)
  inflight  : List (Word × Nat)
  /-- The queue of the open record and the record buffer (R91). -/
  openq     : Option Nat
  recbuf    : List Byte
  seq       : SeqProfile
  held      : Option Handle
  look      : Option Look
  /-- The lines of the instruction buffer that hold a line of the pool store (R96). -/
  ibuf      : List (Nat × Nat)
deriving DecidableEq, Repr

/-- A counting semaphore (R86): count, clip flag, waiters in order of arrival. -/
structure Sem where
  count : Nat
  ovf   : Bool
  queue : List Nat
deriving DecidableEq, Repr

/-! ## Time base (chapter 04) -/

/-- Device time: seconds, nanoseconds, fraction of 2^-32 ns (R109). -/
structure DTime where
  sec  : Nat
  ns   : Nat
  frac : Nat
deriving DecidableEq, Repr

/-- A stamp (R115): device time cut to 12 fraction bits, with STEPSEQ. -/
structure Stamp where
  sec  : Nat
  ns   : Nat
  seq  : Nat
  frac : Nat
deriving DecidableEq, Repr

/-- One time trigger (R119): its next compare time. RUN, LATE, MISSED and FIRED are its status register. -/
structure Trig where
  sec  : Nat
  ns   : Nat
  frac : Nat
  /-- A compare time stands; with MODE 1 not before the first edge (R124). -/
  armed : Bool
  /-- The cycle in which it fires because its compare time was past at its start, or a step passed it (R122, R123). -/
  lateAt : Option Nat
  /-- The cycle of the last firing, `none` before the first since START of the device. -/
  last : Option Nat
deriving DecidableEq, Repr

/-- The time base (R109, R118, R125). -/
structure TimeBase where
  now     : DTime
  /-- The cycle in which the running PPS_OUT pulse ends (R125); `none`: the pin rests at its idle level. -/
  ppsEnd  : Option Nat
  trigs   : List (Nat × Trig)
deriving DecidableEq, Repr

/-! ## Fault manager (chapter 18) -/

/-- An open fault record (R490). -/
structure FaultRec where
  root   : Nat
  src    : Nat
  code   : Nat
  action : Nat
  inj    : Bool
  ovfl   : Bool
  count  : Nat
  first  : Stamp
  last   : Stamp
  due    : Nat
deriving DecidableEq, Repr

/-- The fault manager (R490 to R493): open records in order of opening, the number of records closed. -/
structure Flt where
  recs   : List FaultRec
  recseq : Nat
  /-- Reports taken in the cycle named (probe word FLT 0, R498). -/
  cyc    : Nat
  inCyc  : Nat
deriving DecidableEq, Repr

/-! ## Link (chapter 14) -/

/-- The two lane groups (R357). -/
abbrev GroupNo := Nat

/-- A packet (R367): TYPE, CTX, QUEUE, SEQ, the type-specific bytes 8–13, payload. -/
structure Pkt where
  ty      : Nat
  ctx     : Nat
  queue   : Nat
  seq     : Nat
  spec    : List Byte
  payload : List Byte
deriving DecidableEq, Repr

/-- A sequenced packet the device keeps until it is acknowledged (R372), with how often it was sent and the
stamp of its first transmission (R386). -/
structure Kept where
  pkt   : Pkt
  sent  : Nat
  stamp : Stamp
deriving DecidableEq, Repr

/-- A host TSYNC whose TSREP is owed (R397): the SEQ of the echo (2^16 while the echo waits to leave), TSID, context,
ingress stamp, RPL of the request. -/
structure TsPend where
  seq   : Nat
  tsid  : List Byte
  ctx   : Nat
  ingress : Stamp
  rpl   : Bool
deriving DecidableEq, Repr

/-- One lane group: sequences, packets kept, packets waiting to leave, training and rebond progress. -/
structure Group where
  txSeq     : Nat
  rxSeq     : Nat
  /-- The device reports FRESH in TRAIN until it has bonded once since reset (R377). -/
  fresh     : Bool
  kept      : List Kept
  /-- Link packets, SAFE packets and answers waiting to leave, in order (R415). -/
  linkq     : List Pkt
  safeq     : List Pkt
  respq     : List Pkt
  /-- Accepted packets not yet acknowledged, and the cycle the acknowledgement is due (R371). -/
  unacked   : Nat
  ackDue    : Option Nat
  /-- A NAK has been sent and no packet accepted since (R371). -/
  nakSent   : Bool
  /-- How often the oldest packet kept has been sent since the acknowledgement last advanced (R374). -/
  tries     : Nat
  /-- How many packets of `kept` are still to be sent again in the running replay (R372). -/
  replay    : Nat
  /-- The cycle of the last advance of the acknowledgement (R372). -/
  ackCyc    : Nat
  /-- Discards in the running 1 ms window and its start (R374). -/
  discards  : Nat
  discCyc   : Nat
  /-- Cycles of the retrains within the last second at the current rung (R380). -/
  retrains  : List Nat
  /-- The cycle in which training began, and in which the first lane reached ALIGNED (R375, R380). -/
  trainCyc  : Nat
  alignCyc  : Option Nat
  /-- The target rung of a running rate change and whether REPLY has been seen (R379). -/
  rateTo    : Option Nat
  /-- The intersection of the lane masks of a running rebond (R382). -/
  rebond    : Option Nat
  /-- Far end's NEXTSEQ and FRESH of its last TRAIN (R377). -/
  farNext   : Nat
  farFresh  : Bool
  /-- The cycle in which the group was last BONDED (R404). -/
  downSince : Nat
  /-- The packet on the lanes, last sent. -/
  wire      : Option Pkt
  tspend    : List TsPend
  /-- The last queue number served at each priority (R415). -/
  lastq     : Nat
  /-- LANEMASK forced by SHUTDOWN (R384). -/
  forced    : Option Nat
deriving DecidableEq, Repr

/-- One lane: valid TRAIN packets received in the running training, and those that reported it LOCKED (R375). -/
structure Lane where
  valid  : Nat
  locked : Nat
  /-- The lane number the far end's TRAIN carried (R366). -/
  farLane : Nat
  /-- The far end's packets name the other group: the lane stays out (R366). -/
  barred : Bool
  /-- The equaliser preset the band in force asks for (R360). -/
  eqGoal : Nat
  /-- The last 58 bits the lane's scrambler put out, the newest in bit 0 (R361). -/
  scr : Nat
  /-- The bits last sent on the lane: a marker sequence, then scrambled and stuffed bits (R361 to R365). -/
  line : List Bool
deriving DecidableEq, Repr

/-! ## Queues (chapter 15) -/

/-- Who offers a record to a queue. -/
inductive Offerer | eng (e : Nat) | pts (s : Nat) | rej | cam | hk
deriving DecidableEq, Repr

/-- A record that waits under BLOCK (R402). -/
structure Offer where
  by_ : Offerer
  bytes : List Byte
  /-- The cycle of the offer. -/
  cyc : Nat
deriving DecidableEq, Repr

/-- What a queue holds besides its descriptor words (R400): bytes held with their prefixes, waiting offers, whether
records were dropped since the last DATA packet (R395), the cycle its packet became eligible (R417), and the records
still to be recorded before a freeze completes (R405). -/
structure QState where
  held     : Nat
  recs     : Nat
  waiters  : List Offer
  dropped  : Bool
  eligible : Option Nat
  postLeft : Nat
  /-- The cycles of the last header write and of the last freeze trigger (R405). -/
  hdrCyc   : Nat
  frzCyc   : Nat
deriving DecidableEq, Repr

/-- Queue manager: per-queue state (R400). -/
structure Qmg where
  qs : List (Nat × QState)
deriving DecidableEq, Repr

/-! ## DRAM (chapter 15) -/

/-- One waiting DRAM request: class, requester, channel, the cycle it was made (R414). -/
structure DReq where
  cls  : Nat
  who  : Nat
  ch   : Nat
  cyc  : Nat
  /-- Bytes still to transfer; each burst moves up to 256 (R414). -/
  left : Nat
deriving DecidableEq, Repr

/-- The DRAM controllers and their arbiters (R407 to R417). -/
structure Dram where
  /-- The cycle in which the running initialisation ends (R408). -/
  initDue  : Option Nat
  reqs     : List DReq
  /-- The class and requester each channel served last (R414). -/
  lastCls  : List (Nat × Nat)
  lastWho  : List (Nat × Nat)
  /-- Uncorrectable errors in the running second per channel, and its start (R412). -/
  ue       : List (Nat × Nat)
  ueCyc    : List (Nat × Nat)
  /-- The refresh multiplier of MR4, in quarters of the JEDEC rate, per channel (R411), refreshes issued and patrol position. -/
  mr4      : List (Nat × Nat)
  rate     : List (Nat × Nat)
  refreshes : List (Nat × Nat)
  scrubPos : List (Nat × Nat)
deriving DecidableEq, Repr

/-! ## Emitter driver (chapter 05) -/

/-- Where a shot stands on its way out (R127): asked, past arbiter and scheduler, granted, left the device. -/
inductive ShotStage | asked | reserved | granted | left
deriving DecidableEq, Repr

/-- A shot descriptor (R131) with the times that go with it, in steps of 19.53125 ps. -/
structure Shot where
  id      : Nat
  sq      : Nat
  stage   : ShotStage
  proof   : Bool
  /-- The shot belongs to an isolation walk: 0 no, 1 a single emitter, 2 the final shot (R161). -/
  walk    : Nat
  index   : Nat
  /-- The string the shot is arbitrated and accounted on: INDEX in series mode, 0 in matrix mode (R142). -/
  str     : Nat
  emit    : Nat
  charge  : Nat
  width   : Nat
  bins    : Nat
  issue   : Nat
  edge    : Nat
  coded   : Bool
  code    : Nat
  step    : Nat
  pos     : Nat
  ports   : List Nat
  hctx    : Nat
  n       : Nat
  covloss : Bool
  heldPat : Nat
  /-- The status found before arbitration (R139): 4 not permitted, 0 otherwise. -/
  pre     : Nat
  /-- The latch instant L of the reserved frame slot (R149). -/
  slot    : Nat
  /-- The frame has gone out on the pattern bus (R148). -/
  framed  : Bool
deriving DecidableEq, Repr

/-- A running isolation walk (R161). -/
structure Walk where
  str    : Nat
  sq     : Nat
  todo   : List Nat
  all    : Nat
  newly  : Nat
  seen   : Nat
  final  : Bool
  /-- The cycle in which the next shot's request issues. -/
  due    : Nat
  /-- The status the walk ends with, and the cycle in which the instruction retires. -/
  done   : Option (Nat × Nat)
deriving DecidableEq, Repr

/-- The emitter driver (R127 to R167). -/
structure Emt where
  nextId  : Nat
  shots   : List Shot
  /-- The last tie-winner of each string (R145); SQ 15 before the first tie. -/
  tie     : List (Nat × Nat)
  /-- Consecutive busy denials of each sequencer (R146). -/
  busy    : List (Nat × Nat)
  /-- Consecutive NOSTART shots of emitter e of string s at 16 s + e, of matrix row r at r (R156). -/
  nostart : List (Nat × Nat)
  /-- Edges that have left, as string and time, for the spacing rule (R144). -/
  edges   : List (Nat × Nat)
  /-- The last granted edge of each index: its time plus its pulse width (R149). -/
  pulse   : List (Nat × Nat)
  /-- Latch instants reserved on the pattern bus (R149). -/
  slots   : List Nat
  /-- The cycle of the last granted shot of each string, or of its enabling (R159). -/
  lastGrant : List (Nat × Nat)
  walks   : List Walk
  /-- The last frame shifted out on the pattern bus, and its latch instant (R147, R148). -/
  frame   : Nat
  latch   : Nat
  /-- The last FIRE edge: string and time (R128). -/
  fire    : Option (Nat × Nat)
deriving DecidableEq, Repr

/-! ## Emission guard (chapter 07) -/

/-- What the guard senses of one optical head (R210 to R214). -/
structure HeadSense where
  /-- The encoder azimuth is known (R212). -/
  known   : Bool
  /-- Encoder count since the last index (R212). -/
  count   : Int
  /-- Consecutive edge intervals of at most STALL_GAP (R213). -/
  resume  : Nat
  /-- Guard cycle of the last encoder edge. -/
  lastEdge : Option Nat
  /-- Position samples since the head restarted, and whether the last span kept MOVE_MIN on every position axis (R213). -/
  got     : Nat
  moving  : Bool
  /-- A stall is in force (R214). -/
  stalled : Bool
deriving DecidableEq, Repr

/-- The emission guard (R200 to R218). -/
structure Grd where
  /-- Words of GRD_REQ_A and GRD_REQ_B written since the record last cleared, as bit masks (R217). -/
  wrA     : Nat
  wrB     : Nat
  /-- The cycle by which the running verification ends (R217). -/
  verifyDue : Option Nat
  /-- The highest SEQNO activated since reset (R217). -/
  seqMax  : Option Nat
  /-- The next activation starts the levels anew (R208, R218). -/
  firstAct : Bool
  /-- Guard cycle at which the levels started, and of the last update of each sector's levels (R205). -/
  base    : Nat
  updated : List (Nat × Nat)
  heads   : List (Nat × HeadSense)
  /-- Position samples of each axis, newest first (R211, R213). -/
  pos     : List (Nat × List Int)
  /-- Last reading of each module's temperature and its cycle (R215). -/
  temp    : List (Nat × (Int × Nat))
  /-- Levels of ENC_A and ENC_B last seen on each axis. -/
  enc     : List (Nat × Nat)
deriving DecidableEq, Repr

/-! ## Safety functions (chapter 16) -/

/-- One evaluator's view of one safety input: levels of its two channels, which channel moved first, when the
running discrepancy or two-hand time started (R440 to R443). -/
structure SafIn where
  ch    : Nat
  first : Nat
  /-- The running discrepancy time, and the cycle it started. -/
  dis   : Bool
  since : Nat
  /-- The cycle in which a two-hand function entered ONE. -/
  two   : Nat
deriving DecidableEq, Repr

/-- A copy of a safe message that waits for its twin, or a matched message that waits for execution (R452). -/
structure SafMsg where
  grp   : Nat
  msn   : Nat
  kind  : Nat
  bytes : List Byte
  cyc   : Nat
deriving DecidableEq, Repr

/-- One OSSD pair's sequencer (R447 to R450). -/
structure Ossd where
  /-- The restart interlock waits for a RESTART (R449). -/
  needRst : Bool
  /-- The cycle in which a running step or test is judged (R448). -/
  checkDue : Option Nat
  /-- The periodic test runs (LS off), and the cycle the next one is due. -/
  testing : Bool
  testDue : Nat
  /-- FB has read 1 in the running test. -/
  seen    : Bool
  /-- Channel A's last outcome: the field demands off (R430). -/
  offA    : Bool
  /-- Channel B's gate: EN of the write for the period last ended; whether one has arrived (R433). -/
  bEn     : Bool
  bSeen   : Bool
  /-- The oldest ended period without a write, and the cycle of its deadline. -/
  bDue    : Option (Nat × Nat)
  /-- Consecutive periods with differing verdicts (R431). -/
  differ  : Nat
  /-- A FAULT_ACK has named the pair since it entered LOCKOUT (R450). -/
  acked   : Bool
  /-- The pair has been ON since activation (R449). -/
  been    : Bool
deriving DecidableEq, Repr

/-- Safety functions (R421 to R457). -/
structure Saf where
  wrA      : Nat
  wrB      : Nat
  verifyDue : Option Nat
  /-- The cycle by which channel B must confirm (R424). -/
  confDue  : Option Nat
  seqMax   : Option Nat
  /-- The cycle in which the running period began; `none` before activation (R429). -/
  periodCyc : Option Nat
  /-- Covering groups of each cell, key 1024 h + 128 b + c; and per pair the hits, key 2048 p + that (R428). -/
  covered  : List (Nat × Nat)
  hits     : List (Nat × Nat)
  ossd     : List (Nat × Ossd)
  /-- Evaluator A's view of input i at i, evaluator B's at 8 + i. -/
  ins      : List (Nat × SafIn)
  /-- The cycle since which the evaluators differ for an input (R440). -/
  diffCyc  : List (Nat × Nat)
  /-- Failed judgments in a row per channel (R444), and the cycles of the last test pulses. -/
  tpFail   : List (Nat × Nat)
  tpCyc    : List (Nat × Nat)
  /-- The cycle of the next pulse of each source, and the channels that read 0 in the other source's window (R444). -/
  tpDue    : List (Nat × Nat)
  tpCross  : List Nat
  /-- The code of the last FIELDSEL (R437); the code now shown and the cycle since which it holds; the cycle since
  which no valid code has held (R438). -/
  msgCode  : Option Nat
  codeCyc  : Nat
  noCode   : Option Nat
  /-- A set has taken effect since activation. -/
  setOn    : Bool
  held     : List SafMsg
  matched  : List SafMsg
  /-- The cycle of the last matched message (R453). -/
  beatCyc  : Nat
  /-- MSN of the next message the device sends (R454). -/
  txMsn    : Nat
deriving DecidableEq, Repr
/-! ## Scanner axes (chapter 06) -/

/-- What one engine of an axis did in the running control cycle: its last dacw code after the clamp, its last angle (R190). -/
structure AxEng where
  code : Option Int
  ang  : Option Word
deriving DecidableEq, Repr

/-- One axis (R175 to R199). Status, fade and counters are in its registers. -/
structure Axis where
  /-- The cycle of the last control-cycle start (R179). -/
  start    : Option Nat
  /-- Converter samples, newest first, each with its over-range mark (R194). -/
  samples  : List (Int × Bool)
  /-- The latched average; the engines that have not read it (bit 0 primary, bit 1 monitor); whether it held no over-range
  sample; whether it is available already. -/
  avg      : Int
  avgNew   : Nat
  avgGood  : Bool
  avgReady : Bool
  /-- Encoder: levels last seen (A + 2 B), count, its latch, illegal transition since the last start and before it, index
  capture and the engines that have not read it (R195). -/
  encAb    : Nat
  count    : Int
  latched  : Int
  illegal  : Bool
  latchOk  : Bool
  index    : Int
  newIndex : Nat
  /-- The drive holder has published since the axis was enabled (R177); the live publication (R196). -/
  published : Bool
  pubA     : Word
  pubW     : Word
  pubT     : Nat
  /-- The code dacw drove last (R193). -/
  code     : Int
  prim     : AxEng
  mon      : AxEng
  /-- In the running cycle: the drive holder executed ferr; one saw an error above LIM (R187). -/
  ferr     : Bool
  ovl     : Bool
  /-- Consecutive mismatches and silent monitor cycles; the monitor has failed (R189). -/
  mis      : Nat
  silent   : Nat
  monBad   : Bool
  /-- Control-cycle starts since the running fade was requested (R185). -/
  fadeM    : Nat
deriving DecidableEq, Repr

/-! ## Receive ports and erg (chapters 08 and 09) -/

/-- A leading edge held by a port: comparator, corrected raw time in 1/64 LSB, corrected trailing edge when it has come. -/
structure Edge where
  c     : Nat
  lead  : Int
  trail : Option Int
deriving DecidableEq, Repr

/-- A waveform sample of an open interval: its time in LSB, corrected code, withheld under blanking. -/
structure Sample where
  t     : Nat
  code  : Nat
  blank : Bool
deriving DecidableEq, Repr

/-- A listening interval (R230) with what it has gathered. Times in LSB, or in 1/64 LSB where said. -/
structure Interval where
  opened  : Nat
  /-- Time zero in 1/64 LSB, corrected, once the start is accepted; and the instant it came, in LSB. -/
  start   : Option Int
  startAt : Nat
  stamp   : Stamp
  thrChg  : Bool
  dllErr  : Bool
  uncal   : Bool
  chFail  : Nat
  wfSkip  : Bool
  settled : Bool
  edges   : List Edge
  samples : List Sample
  /-- Own overloads, start and end instants in LSB, and those of the tile's other ports (R244). -/
  own     : List (Nat × Option Nat)
  tile    : List (Nat × Option Nat)
  closed  : Option Nat
deriving DecidableEq, Repr

/-- One counted shot of a cell on a port (R136), until it has settled (R267). -/
structure PShot where
  id      : Nat
  bank    : Nat
  /-- STATUS known before the interval: 1 denied, 2 blocked at the FIRE gate, 5 port off. -/
  status  : Option Nat
  str     : Nat
  edge    : Nat
  d       : Nat
  covloss : Bool
  /-- GAIN, thresholds and rejection offset fixed at the decision (R223, R301). -/
  gain    : Nat
  base    : List Nat
  ofs     : Int
  /-- The shot lies in the sun disk; row and bin of its map entry when its line was present (R305, R308). -/
  disk    : Bool
  mapAt   : Option (Nat × Nat)
  /-- The settle instant when it is known without an interval, in LSB. -/
  settle  : Nat
  iv      : Option Interval
deriving DecidableEq, Repr

/-- A width tracker (R262): count, TOT sum, largest, smallest. -/
structure Track where
  count : Nat
  sum   : Nat
  max   : Nat
  min   : Nat
deriving DecidableEq, Repr

/-- A barchan window of a cell (R261): the first shot it collects from and the first it does not. -/
structure Window where
  start    : Nat
  fromId   : Nat
  offId    : Option Nat
  restarts : Nat
  shots    : Nat
  scnt     : Nat
  smax     : Nat
  smin     : Nat
  trk      : List (Nat × Track)
deriving DecidableEq, Repr

/-- A cell from its opening to its swap (R256 to R268), with the context values it copied. -/
structure Cell where
  bank    : Nat
  seq     : Nat
  hctx    : Nat
  n       : Nat
  coded   : Bool
  code    : Nat
  k       : Nat
  log2nb  : Nat
  narrowExcl : Bool
  preEn   : Bool
  w       : List Nat
  gate    : Nat
  astart  : Nat
  alen    : Nat
  /-- Shots counted, and shots settled. -/
  counted : Nat
  done    : Nat
  /-- No further shot counts: N reached, or closed early. -/
  closed  : Bool
  acc     : Nat
  wf      : Nat
  /-- Gain tag and accumulated shots of each open sub-histogram (R259). -/
  subs    : List (Nat × Nat)
  flags   : Nat
  t0      : Option Stamp
  /-- The eight counters of the header, in its order (R263). -/
  cnt     : List Nat
  peak    : Option (Nat × Nat)
  wins    : List (Nat × Window)
  /-- The settle instant of the last settled shot, in cycles. -/
  last    : Nat
deriving DecidableEq, Repr

/-- One port (R219 to R253). -/
structure Port where
  /-- Cells in order of opening; only the newest can be open. -/
  cells    : List Cell
  shots    : List PShot
  lastBank : Option Nat
  cellSeq  : Nat
  /-- The instant in LSB from which the committed analogue settings hold (R224). -/
  feAt     : Nat
  /-- The shot at whose arming the last commit of group 0 applied (R224). -/
  feShot   : Option Nat
  /-- The close of the last listening interval, in LSB (R224, R302). -/
  lastClose : Option Nat
  /-- The rejection offset in effect, and the gain of the last decided shot (R302, R303). -/
  ofs      : Int
  gainWas  : Option Nat
  /-- Thresholds of the last shot and the sequence number of the cell it went to (R225). -/
  lastThr  : List Nat
  lastThrSeq : Option Nat
  /-- POFS of each comparator since the last listening interval opened (R485). -/
  pofs     : List Int
  /-- The last leading edge of each comparator in 1/64 LSB, dropped ones included (R235). -/
  lead     : List (Nat × Int)
  /-- Comparators whose trailing edge is to be dropped with its leading edge (R233, R235). -/
  drop     : List Nat
  /-- The running overload's start in LSB (R243). -/
  ovl     : Option Nat
  /-- Consecutive readings above ILIM, and above the open-input level (R228, R229). -/
  high     : Nat
  openN    : Nat
  /-- The last accepted test of each slice was off (R251). -/
  sliceBad : List Nat
  /-- The phase whose slice must change at the next shot boundary (R252). -/
  sliceDue : List Nat
  /-- Events of the shot that settled last (probe word PRT 0, R498). -/
  lastEvs  : Nat
deriving DecidableEq, Repr

/-- A tile's timing (R247 to R253). -/
structure Tile where
  /-- The in-service DLL lost lock and the swap waits for a shot boundary. -/
  swapDue  : Bool
  /-- Slots that wait for the spare (R252). -/
  takeover : List Nat
  /-- Rotation: slot under rotation (16: the spare itself) and phase 0 spare calibrates, 1 overlap in, 2 slot's channel
  calibrates, 3 overlap back (R249). -/
  slot     : Nat
  phase    : Nat
  /-- Compared shots of the running overlap, and abandoned handovers in a row (R249, R250). -/
  shots    : Nat
  mis      : Nat
deriving DecidableEq, Repr

/-- Timing channels and BLANK pins (R232, R246 to R251). -/
structure Tdc where
  tiles  : List (Nat × Tile)
  /-- The start group's DLL pair: in service, lock bits, swap due. -/
  startSel : Nat
  startLock : Nat
  startDue : Bool
  /-- DLL locking has been requested (R246). -/
  req    : Bool
  /-- Physical channels, and start channels at 408 + s, calibrated since lock (R248). -/
  cald   : List Nat
  /-- Channels whose last test edge was off: their events are discarded (R251). -/
  bad    : List Nat
  /-- The offsets of the start channels in 1/64 LSB, as last calibrated (R234). -/
  startOfs : List (Nat × Int)
  /-- POFS of each start channel as it reached the channel (R485). -/
  startPofs : List (Nat × Int)
  /-- The last changes of each BLANK pin, newest first: instant in LSB and level; low before them (R232). -/
  pins   : List (Nat × List (Nat × Bool))
deriving DecidableEq, Repr

/-! ## Range engines (chapter 10) -/

/-- A pool's dispatch queue, the members waiting in take, longest first, and abandoned cells not yet posted (R276, R278). -/
structure Pool where
  queue   : List Handle
  waiters : List Nat
  lost    : List Handle
deriving DecidableEq, Repr


/-- A group as rel or the hardware posts it (R288): header fields, and its return records of four words each, sorted (R289). -/
structure Posted where
  port      : Nat
  hctx      : Nat
  n         : Nat
  nshot     : Nat
  acc       : Nat
  cellseq   : Nat
  coding    : Nat
  code      : Nat
  flags     : Nat
  t0        : Stamp
  tref      : Nat
  handle    : Nat
  engine    : Nat
  redisp    : Nat
  abandoned : Bool
  recs      : List (List Word)
deriving DecidableEq, Repr

/-! ## Rejection unit (chapter 11) -/

/-- A cached line of the sun map (R308): row, line within the row, its 32 entries, whether it was written, and the bins
whose CONF has counted since the fetch (R307). -/
structure MapLine where
  row    : Nat
  line   : Nat
  ents   : List Nat
  dirty  : Bool
  bumped : List Nat
deriving DecidableEq, Repr

/-- A wanted line of the map: port, row, line. -/
structure MapWant where
  port : Nat
  row  : Nat
  line : Nat
deriving DecidableEq, Repr

/-- An observation of a foreign emitter (R319). -/
structure MirObs where
  head : Nat
  az   : Nat
  slot : Nat
  sec  : Nat
  amp  : Nat
  port : Nat
deriving DecidableEq, Repr

/-- Since when a head's density has been at or above ON, and at or below OFF (R312). -/
structure Haboob where
  on  : Option Nat
  off : Option Nat
deriving DecidableEq, Repr

/-- The rejection unit beside its registers (R299 to R324). -/
structure Rej where
  /-- The cached lines of each port, the last used first (R308), and the lines being fetched. -/
  lines  : List (Nat × List MapLine)
  wants  : List MapWant
  heads  : List (Nat × Haboob)
  /-- Observations that wait, and the records sent in a millisecond of device time (R321, R323). -/
  obs    : List MirObs
  noteMs : Nat
  noteN  : Nat
deriving DecidableEq, Repr

/-! ## Colour port (chapter 13) -/

/-- The current colour frame (R345, R349): its buffer, its VS stamp, whether a short frame has come since. -/
structure ColFrame where
  buf  : Nat
  time : DTime
  old  : Bool
deriving DecidableEq, Repr

/-- The open frame of the camera (R345). -/
structure CamFrame where
  seq    : Nat
  /-- The device time and the stamp of its VS edge, and the edge's cycle. -/
  time   : DTime
  stamp  : Stamp
  cyc    : Nat
  setid  : Nat
  /-- Bus lines that have arrived, and exposures of the image line being gathered. -/
  lines  : Nat
  exps   : List (List Nat)
  /-- The last image lines after stage 4, newest first, and the last tone-curve lines, newest first (R347). -/
  rows   : List (List Nat)
  out    : List (List (Nat × Nat × Nat))
  long   : Bool
  lineErr : Bool
  /-- An I²C set ended late, or a transfer was not acknowledged, during the frame. -/
  late   : Bool
  nack   : Bool
  /-- The frame streams that have chosen the frame, and the lines each has lost (R356). -/
  sent   : List Nat
  lost   : List (Nat × Nat)
  /-- Statistics (R355): per zone pixels and channel sums, histogram, saturated pixels. -/
  zones  : List (Nat × (Nat × Nat × Nat × Nat))
  hist   : List (Nat × Nat)
  satcnt : Nat
deriving DecidableEq, Repr

/-- A running I²C transfer (R353): buffer, SETID, delay, the number of frames opened when it began, whether the port was enabled. -/
structure I2cRun where
  buf   : Nat
  setid : Nat
  delay : Nat
  frame : Nat
  on    : Bool
deriving DecidableEq, Repr

/-- The colour port beside its registers. -/
structure Cam where
  frames : Nat
  frame  : Option CamFrame
  /-- The current colour frame, and one that becomes so in the cycle after the one named (R345). -/
  cur    : Option ColFrame
  next   : Option (ColFrame × Nat)
  wrBuf  : Nat
  /-- The store geometry is invalid (R349); the frame streams whose geometry is (R356). -/
  colBad : Bool
  strmBad : List Nat
  /-- Good frames each stream still skips. -/
  skip   : List (Nat × Nat)
  /-- Sensor sets and the frame from which each is in effect; the set in effect before them (R353). -/
  sets   : List (Nat × Nat)
  i2c    : Option I2cRun
  /-- CAM_TRIG: the cycle in which it goes active, whether it is, and the cycle in which it ends (R354). -/
  trigDue : Option Nat
  trigOn : Bool
  trigEnd : Nat
deriving DecidableEq, Repr

/-! ## Point assembler (chapter 12) -/

/-- A stream's counts in the running frame and slice; its last frame header was refused (R336). -/
structure PtsStream where
  lost   : Bool
  points : Nat
  drop   : Nat
  late   : Nat
  slicePts : Nat
deriving DecidableEq, Repr

/-- The point assembler beside its registers (R325 to R342). -/
structure Pts where
  /-- The epoch of the running frame (R332), and the cycle of its boundary. -/
  epoch   : DTime
  last    : Nat
  /-- Asked-for boundaries: cause and cycle (R334). -/
  reqs    : List (Nat × Nat)
  /-- The azimuth of head FHEAD at its last evaluation under the publication before the present one (R132, R334). -/
  azWas   : Option Word
  /-- The cycle of the last acceptance (R325). -/
  accCyc  : Option Nat
  /-- Streams whose block waits in a blocking queue (R328). -/
  blocked : List Nat
  /-- Groups and abandoned groups of the frame, groups of the slice, fault records created before the frame. -/
  groups  : Nat
  abandon : Nat
  sliceGroups : Nat
  faults  : Nat
  streams : List (Nat × PtsStream)
deriving DecidableEq, Repr

/-! ## Housekeeping, thermal manager, calibration manager (chapter 17) -/

/-- The last entry result of an entry: the mean in 1/32 LSB, its gain, its marks (R461, R462). -/
structure HkRes where
  value : Int
  gain  : Nat
  ovr   : Bool
  open_ : Bool
deriving DecidableEq, Repr

/-- An entry: its last result; its filter since the last synchronising reset (R470): results with marks, newest first, how many there
were, and output values, newest first. -/
structure HkEnt where
  res  : HkRes
  hist : List (Int × Bool × Bool)
  n    : Nat
  outs : List Int
deriving DecidableEq, Repr

/-- An output word on its way to HK_OUT_e (R470): the cycle it is written and the stamp of its record (R473). -/
structure HkWord where
  entry : Nat
  word  : Word
  due   : Nat
  stamp : Stamp
deriving DecidableEq, Repr

/-- The housekeeping front end and the calibration manager. -/
structure Hk where
  /-- The cycle in which HKREF_OK sets (R58, R464). -/
  refDue  : Option Nat
  /-- The cycle from which the converter is free for the next entry or block. -/
  freeAt  : Nat
  /-- The next entry of the running pass; a firing or GO whose pass has not begun. -/
  pos     : Option Nat
  req     : Option Nat
  sync    : Bool
  /-- The cycle the next fixed-pair block falls due; start and next pair of a running one; the cycle of each pair's last result. -/
  fixDue  : Nat
  fixRun  : Option (Nat × Nat)
  fixAt   : List (Nat × Nat)
  /-- The cycle the last calibration slot fell due, the gain of the next, and offset and full-scale readings of each gain's last slot. -/
  calLast : Nat
  calGain : Nat
  corr    : List (Nat × (Int × Int))
  ents    : List (Nat × HkEnt)
  words   : List HkWord
  /-- The cycle of the next evaluation of the calibration sets (R483). -/
  evalDue : Nat
deriving DecidableEq, Repr

/-- The thermal manager. -/
structure Thm where
  /-- The cycle of the next reading (R474), and whether one has come since reset. -/
  dieDue : Nat
  seen   : Bool
  /-- Consecutive readings of each sensor far from the median (R475). -/
  far    : List (Nat × Nat)
  /-- The high and the low warning are armed (R478); consecutive readings at or above SD_T (R479). -/
  hiArmed : Bool
  loArmed : Bool
  hot    : Nat
deriving DecidableEq, Repr

/-! ## Test and fuses (chapter 18) -/

/-- A trigger condition of the probe capture (R499): armed for a rise, for a fall, for a match. -/
structure ProbeArm where
  rise  : Bool
  fall  : Bool
  match_ : Bool
deriving DecidableEq, Repr

/-- The running capture, or the last one (R500): buffer index and number of samples stored, samples still to record after the trigger, the
cycle of the next sample, PRE, POST and capacity as taken at GO, the conditions. -/
structure Probe where
  idx   : Nat
  n     : Nat
  left  : Nat
  due   : Nat
  pre   : Nat
  post  : Nat
  cap   : Nat
  conds : List ProbeArm
deriving DecidableEq, Repr

/-- Fuse programming under way (R508): the operation, the slot or version, the 64 staged bytes, the cycle it ends. -/
structure FusJob where
  op   : Nat
  arg  : Nat
  data : List Byte
  due  : Nat
deriving DecidableEq, Repr

/-! ## The machine -/

/-- Everything the device holds but its fuses. -/
structure Mach where
  /-- Core cycles since the device left RESET (R13). -/
  cyc     : Nat
  /-- The model's own: how many free values have been taken. -/
  free    : Nat
  /-- The model's own: the status the last register access command returned (R394). -/
  status  : Nat
  dev     : Dev
  tap     : Tap
  /-- Register words in use, and shadow words of committed fields (R27, R28). -/
  regs    : List (Nat × Word)
  shadow  : List (Nat × Word)
  /-- Tables and memories by device address (R24, R27). -/
  mem     : List Host.Cell
  commits : List Commit
  eng     : List (Nat × Engine)
  sems    : List (Nat × Sem)
  time    : TimeBase
  flt     : Flt
  grp     : List (Nat × Group)
  lane    : List (Nat × Lane)
  qmg     : Qmg
  dram    : Dram
  emt     : Emt
  grd     : Grd
  saf     : Saf
  axis    : List (Nat × Axis)
  port    : List (Nat × Port)
  tdc     : Tdc
  pool    : List (Nat × Pool)
  rej     : Rej
  cam     : Cam
  pts     : Pts
  hk      : Hk
  thm     : Thm
  probe   : Probe
  fusJob  : Option FusJob
deriving DecidableEq, Repr

/-- The state: the commands that wait, first in first out, the fuses, and the machine. -/
structure State where
  pending : List Instr
  otp     : Otp
  m       : Mach
deriving DecidableEq, Repr

/-- The device never stops with a fault: every fault of the spec is an effect on its state (engine faults R97, guard
and safety faults R218, R455, fault records R490). The one constructor stands for none of them and no meaning
answers it. Safe. -/
inductive Fault
  /-- Raised by no meaning: the device has no stop that the spec calls a fault. Safe. -/
  | unreachable
deriving DecidableEq, Repr

/-- Why a command is refused. -/
inductive Refusal
  /-- No meaning yet: answered only by arms of `exec`. Safe. -/
  | notModelled (mnemonic : String)
  /-- The command names an instance that does not exist or a value its field cannot hold (`wellFormed`): answered by
  every meaning before it does anything. Safe: the hardware has no such command. -/
  | illFormed
deriving DecidableEq, Repr

/-! ## Reset -/

/-- A sequencer's profile state after START or reset (chapter 05). -/
def SeqProfile.reset : SeqProfile :=
  { pat := 0, coding := false, code := 0, len := 0, step := 0, armset := [], armn := 1, armh := 0, live := false, stall := none }

/-- An engine after reset: stopped, all of R66 cleared, XHI 0x80. -/
def Engine.reset : Engine :=
  { st := .stopped, wait := .none, wrd := 0, issue := 0, limit := 0, stopCause := 0, reqErr := 0, g := [], p := 0
    sat := false, ovf := false, inTrap := false, pc := 0, calls := [], loops := [], acc := [], xhi := 0x80, msrc := 0
    emitTmo := 0, tvec := 0, epc := 0, cause := 0, startCyc := 0, wdogCyc := 0, cycleh := 0, busyAcc := 0
    waitAcc := 0, since := 0, verified := false, verifyDue := none, stopping := none, mbox := [], inflight := []
    openq := none, recbuf := [], seq := SeqProfile.reset, held := none, look := none, ibuf := [] }

/-- A semaphore after reset. -/
def Sem.reset : Sem := { count := 0, ovf := false, queue := [] }

/-- A time trigger after reset. -/
def Trig.reset : Trig := { sec := 0, ns := 0, frac := 0, armed := false, lateAt := none, last := none }

/-- The colour port after reset. -/
def Cam.reset : Cam :=
  { frames := 0, frame := none, cur := none, next := none, wrBuf := 0, colBad := false, strmBad := [], skip := [], sets := []
    i2c := none, trigDue := none, trigOn := false, trigEnd := 0 }

/-- A lane group after reset: it trains from rung 0, its sequences restarted (R377, R378). -/
def Group.reset : Group :=
  { txSeq := 0, rxSeq := 0, fresh := true, kept := [], linkq := [], safeq := [], respq := [], unacked := 0
    ackDue := none, nakSent := false, tries := 0, replay := 0, ackCyc := 0, discards := 0, discCyc := 0, retrains := []
    trainCyc := 0, alignCyc := none, rateTo := none, rebond := none, farNext := 0, farFresh := false
    downSince := 0, wire := none, tspend := [], lastq := 32767, forced := none }

/-- A lane after reset. -/
def Lane.reset : Lane := { valid := 0, locked := 0, farLane := 0, barred := false, eqGoal := 0, scr := 0, line := [] }

/-- A queue after reset. -/
def QState.reset : QState :=
  { held := 0, recs := 0, waiters := [], dropped := false, eligible := none, postLeft := 0, hdrCyc := 0, frzCyc := 0 }

/-- The emitter driver after reset. -/
def Emt.reset : Emt :=
  { nextId := 0, shots := [], tie := [], busy := [], nostart := [], edges := [], pulse := [], slots := []
    lastGrant := [], walks := [], frame := 0, latch := 0, fire := none }

/-- DRAM after reset: not initialised. -/
def Dram.reset : Dram :=
  { initDue := none, reqs := [], lastCls := [], lastWho := [], ue := [], ueCyc := [], mr4 := [], rate := []
    refreshes := [], scrubPos := [] }

/-- A head's sensing at first activation (R534). -/
def HeadSense.reset : HeadSense :=
  { known := false, count := 0, resume := 0, lastEdge := none, got := 0, moving := false, stalled := false }

/-- The guard after reset: no configuration, nothing sensed. -/
def Grd.reset : Grd :=
  { wrA := 0, wrB := 0, verifyDue := none, seqMax := none, firstAct := true, base := 0, updated := [], heads := []
    pos := [], temp := [], enc := [] }

/-- A safety input after reset: both channels read 0. -/
def SafIn.reset : SafIn := { ch := 0, first := 0, dis := false, since := 0, two := 0 }

/-- An OSSD pair after reset or activation: off, its first switch-on needs a RESTART (R449). -/
def Ossd.reset : Ossd :=
  { needRst := true, checkDue := none, testing := false, testDue := 0, seen := false, offA := true, bEn := false
    bSeen := false, bDue := none, differ := 0, acked := false, been := false }

/-- Safety functions after reset: no configuration. -/
def Saf.reset : Saf :=
  { wrA := 0, wrB := 0, verifyDue := none, confDue := none, seqMax := none, periodCyc := none, covered := []
    hits := [], ossd := [], ins := [], diffCyc := [], tpFail := [], tpCyc := [], tpDue := [], tpCross := [], msgCode := none, codeCyc := 0
    noCode := none, setOn := false, held := [], matched := [], beatCyc := 0, txMsn := 0 }

/-- An axis after reset: disabled, code 0 on its pins (R178). -/
def Axis.reset : Axis :=
  { start := none, samples := [], avg := 0, avgNew := 0, avgGood := false, avgReady := false, encAb := 0, count := 0
    latched := 0, illegal := false, latchOk := false, index := 0, newIndex := 0, published := false, pubA := 0
    pubW := 0, pubT := 0, code := 0, prim := { code := none, ang := none }, mon := { code := none, ang := none }
    ferr := false, ovl := false, mis := 0, silent := 0, monBad := false, fadeM := 0 }

/-- A port after reset. -/
def Port.reset : Port :=
  { cells := [], shots := [], lastBank := none, cellSeq := 0, feAt := 0, feShot := none, lastClose := none, ofs := 0
    gainWas := none, lastThr := [0x060, 0x0A0, 0x140, 0x280]
    lastThrSeq := none, pofs := [], lead := [], drop := [], ovl := none, high := 0, openN := 0, sliceBad := [], sliceDue := [], lastEvs := 0 }

/-- A tile after reset: its spare is to calibrate itself first. -/
def Tile.reset : Tile := { swapDue := false, takeover := [], slot := 16, phase := 0, shots := 0, mis := 0 }

/-- Timing channels after reset: nothing locked. -/
def Tdc.reset : Tdc :=
  { tiles := [], startSel := 0, startLock := 0, startDue := false, req := false, cald := [], bad := []
    startOfs := [], startPofs := [], pins := [] }

/-- A pool after reset. -/
def Pool.reset : Pool := { queue := [], waiters := [], lost := [] }

/-- A head's haboob timing after reset: no density (R312). -/
def Haboob.reset : Haboob := { on := none, off := some 0 }

/-- The rejection unit after reset. -/
def Rej.reset : Rej := { lines := [], wants := [], heads := [], obs := [], noteMs := 0, noteN := 0 }

/-- A stream after reset. -/
def PtsStream.reset : PtsStream := { lost := false, points := 0, drop := 0, late := 0, slicePts := 0 }

/-- The point assembler after reset: no frame yet. -/
def Pts.reset : Pts :=
  { epoch := { sec := 0, ns := 0, frac := 0 }, last := 0, reqs := [], azWas := none, accCyc := none, blocked := []
    groups := 0, abandon := 0, sliceGroups := 0, faults := 0, streams := [] }

/-- An entry after reset: result 0. -/
def HkEnt.reset : HkEnt := { res := { value := 0, gain := 0, ovr := false, open_ := false }, hist := [], n := 0, outs := [] }

/-- The housekeeping front end after reset: conversions held. -/
def Hk.reset : Hk :=
  { refDue := none, freeAt := 0, pos := none, req := none, sync := false, fixDue := 0, fixRun := none, fixAt := []
    calLast := 0, calGain := 0, corr := [], ents := [], words := [], evalDue := 160000 }

/-- The thermal manager after reset: both warnings armed. -/
def Thm.reset : Thm := { dieDue := 40000, seen := false, far := [], hiArmed := true, loArmed := true, hot := 0 }

/-- The probe capture after reset: none has run. -/
def Probe.reset : Probe := { idx := 0, n := 0, left := 0, due := 0, pre := 0, post := 0, cap := 0, conds := [] }

/-- The device state as it leaves RESET after a cold start: BOOT, with BIST running (R51, R53). -/
def Dev.reset : Dev :=
  { st := .boot, porstLow := false, pllLocked := true, otpLoaded := true, bist := none, bistSkip := false
    dramKept := false, loadedOnce := false, causes := [], low := 0, resetDue := none, pllRetry := 0 }

/-- The machine as it leaves RESET (R12, R36, R50, R110): every register at its reset value, memories zero, no
command pending. -/
def Mach.reset : Mach :=
  { cyc := 0, free := 0, status := 0, dev := Dev.reset, tap := { ir := 0xFF, cells := [], extest := false }
    regs := [], shadow := [], mem := [], commits := [], eng := [], sems := []
    time := { now := { sec := 0, ns := 0, frac := 0 }, ppsEnd := none, trigs := [] }
    flt := { recs := [], recseq := 0, cyc := 0, inCyc := 0 }
    grp := [], lane := [], qmg := { qs := [] }, dram := Dram.reset, emt := Emt.reset
    grd := Grd.reset, saf := Saf.reset
    axis := [], port := [], tdc := Tdc.reset, pool := [], rej := Rej.reset, cam := Cam.reset, pts := Pts.reset, hk := Hk.reset, thm := Thm.reset
    probe := Probe.reset, fusJob := none }

/-- A part of grade I with no key slot programmed and minimum versions 0, as shipped: TAP closed (R4, R505, R507). -/
def Otp.shipped : Otp := { grade := 1, slots := [], revoked := 0, gminver := 0, sminver := 0, tapClosed := true }

/-- The machine right after reset: no command waits. -/
def State.reset : State := { pending := [], otp := Otp.shipped, m := Mach.reset }

end Sys2Proof.Machine
end

