-- ==== Sys2Proof/Machine/Regs.lean ====
section
/-!
DEFINITION. Reading and writing register words and fields. A word has an active copy (`regs`) and, for its
committed fields, a shadow copy (`shadow`); both start at the reset value of the register table (R27, R28, R36).
-/
namespace Sys2Proof.Machine

/-- The reset word of a register. -/
def RegDef.resetWord (r : RegDef) : Word := r.fields.foldl (fun w f => f.fld.set w f.rst) 0

/-- The register at a control-space address, if a table of the manual names one there. -/
def regAt (a : Nat) : Option (RegDef × List Nat) :=
  match blkOf a with
  | none => none
  | some b => (regsOf b).findSome? (fun r => (r.index a).map (fun ix => (r, ix)))

/-- What a control-space register reads after reset: its fields' reset values (R12, R36), 0 in reserved places
(R11); word 0 of a queue descriptor has GROUP 2 (R400). -/
def resetWord (a : Nat) : Word :=
  match blkOf a with
  | some .qdesc => if a % 64 = 0 then 0x08000000 else 0
  | _ => match regAt a with
    | some (r, _) => r.resetWord
    | none => 0

/-- The word in use at a register's address. -/
def Mach.reg (m : Mach) (a : Nat) : Word := mapGet (resetWord a) m.regs a

/-- The word in use at a register's address, replaced. -/
def Mach.setReg (m : Mach) (a : Nat) (w : Word) : Mach := { m with regs := mapPut (resetWord a) m.regs a w }

/-- The shadow word at a register's address (R28). -/
def Mach.shadowReg (m : Mach) (a : Nat) : Word := mapGet (resetWord a) m.shadow a

/-- The shadow word at a register's address, replaced. -/
def Mach.setShadow (m : Mach) (a : Nat) (w : Word) : Mach :=
  { m with shadow := mapPut (resetWord a) m.shadow a w }

/-- A field in use. -/
def Mach.fld (m : Mach) (a : Nat) (f : Fld) : Nat := f.get (m.reg a)

/-- A one-bit field in use, as a truth value. -/
def Mach.flag (m : Mach) (a : Nat) (f : Fld) : Bool := m.fld a f != 0

/-- A field in use, replaced. -/
def Mach.setFld (m : Mach) (a : Nat) (f : Fld) (v : Nat) : Mach := m.setReg a (f.set (m.reg a) v)

/-- A signed field in use. -/
def Mach.sfld (m : Mach) (a : Nat) (f : Fld) : Int := signed f.width (m.fld a f)

/-- A saturating counter field raised by `k`. -/
def Mach.satAdd (m : Mach) (a : Nat) (f : Fld) (k : Nat) : Mach := m.setFld a f (satN f.width (m.fld a f + k))

/-- A saturating counter field raised by one. -/
def Mach.satInc (m : Mach) (a : Nat) (f : Fld) : Mach := m.satAdd a f 1

/-- A wrapping counter field raised by one. -/
def Mach.wrapInc (m : Mach) (a : Nat) (f : Fld) : Mach := m.setFld a f (m.fld a f + 1)

/-- The mask of the fields of a register that satisfy a test. -/
def RegDef.maskOf (r : RegDef) (t : RegField → Bool) : Word :=
  r.fields.foldl (fun w f => if t f then w ||| f.fld.mask else w) 0

/-- The committed fields of a register: the RW fields of a register with a commit group (R28). -/
def RegDef.committed (r : RegDef) : Word := if r.group.isSome then r.maskOf (fun f => f.acc == .rw) else 0

/-- What a write of `v` over `w` leaves in the immediate fields: RW takes the value, W1C clears where 1 is
written, RO, RC and WO keep (R9). -/
def RegDef.writeImmediate (r : RegDef) (w v : Word) : Word :=
  let rw := r.maskOf (fun f => f.acc == .rw) &&& ~~~ r.committed
  let w1c := r.maskOf (fun f => f.acc == .w1c)
  (w &&& ~~~ rw &&& ~~~ (w1c &&& v)) ||| (v &&& rw)

end Sys2Proof.Machine
end

