-- ==== Sys2Proof/WellFormed.lean ====
section
/-!
DEFINITION. Which commands name things that exist: contexts, groups, engines, ports, strings, queues and the other
instances within their counts (R15, R17), and operand values within the widths of the fields that carry them.
-/
namespace Sys2Proof

/-! The condition of each command, by its constructor's name. -/

def wfRegisterWrite (src : Src) (a : Nat) (_v : Word) : Bool := src.wf && decide (a < 2^32) && decide (a % 4 = 0)
def wfCommitRequest (src : Src) (page : Page) (_groups : Word) : Bool := src.wf && page.wf
def wfCommitCancel (src : Src) (page : Page) (_groups : Word) : Bool := src.wf && page.wf
def wfIdleCommitApply (page : Page) : Bool := page.wf
def wfSupplyRise : Bool := true
def wfSupplyRemove : Bool := true
def wfPorstAssert : Bool := true
def wfPorstRelease : Bool := true
def wfRootPllLock : Bool := true
def wfPllLockRetry : Bool := true
def wfOtpLoadDone : Bool := true
def wfBistDone (_pass : Bool) : Bool := true
def wfDramRestore (failing : Nat) : Bool := decide (failing < 16)
def wfSupplyMonitorTrip (which : Nat) : Bool := decide (which < 512)
def wfSupplyMonitorRelease (i : Nat) : Bool := decide (i < 9)
def wfClockMonitorWindow (count : Nat) (_oscRunning : Bool) : Bool := decide (count < 65536)
def wfRootPllUnlock : Bool := true
def wfRequestLinked (ctx : Nat) (key : Nat) : Bool := decide (ctx < 8) && decide (key < 65536)
def wfRequestLoaded (ctx : Nat) (key : Nat) : Bool := decide (ctx < 8) && decide (key < 65536)
def wfRequestArmed (ctx : Nat) (key : Nat) : Bool := decide (ctx < 8) && decide (key < 65536)
def wfRequestRunning (ctx : Nat) (key : Nat) : Bool := decide (ctx < 8) && decide (key < 65536)
def wfRequestOasis (ctx : Nat) (key : Nat) : Bool := decide (ctx < 8) && decide (key < 65536)
def wfHkrefOkSet : Bool := true
def wfHostReset (ctx : Nat) (_v : Word) : Bool := decide (ctx < 8)
def wfHostResetStart : Bool := true
def wfStart (src : Src) (e : Nat) (_v : Word) : Bool := src.wf && decide (e < 282)
def wfStop (src : Src) (e : Nat) (_v : Word) : Bool := src.wf && decide (e < 282)
def wfVerify (src : Src) (e : Nat) (_v : Word) : Bool := src.wf && decide (e < 282)
def wfVerifyDone (e : Nat) : Bool := decide (e < 282)
def wfMbclr (src : Src) (e : Nat) (_v : Word) : Bool := src.wf && decide (e < 282)
def wfMboxIn (src : Src) (e : Nat) (_w : Word) : Bool := src.wf && decide (e < 282)
def wfProgramMemoryWrite (src : Src) (e : Nat) (off : Nat) (_w : Word) : Bool := src.wf && decide (e < 282) && decide (off < 2^18) && decide (off % 4 = 0)
def wfDataMemoryWrite (src : Src) (e : Nat) (off : Nat) (_w : Word) : Bool := src.wf && decide (e < 282) && decide (off < 2^18) && decide (off % 4 = 0)
def wfSemaphoreWrite (src : Src) (n : Nat) (_v : Word) : Bool := src.wf && decide (n < 1024)
def wfAdd (e : Nat) (_i : FA) : Bool := decide (e < 282)
def wfSub (e : Nat) (_i : FA) : Bool := decide (e < 282)
def wfAnd (e : Nat) (_i : FA) : Bool := decide (e < 282)
def wfOr (e : Nat) (_i : FA) : Bool := decide (e < 282)
def wfXor (e : Nat) (_i : FA) : Bool := decide (e < 282)
def wfShl (e : Nat) (_i : FA) : Bool := decide (e < 282)
def wfShr (e : Nat) (_i : FA) : Bool := decide (e < 282)
def wfSra (e : Nat) (_i : FA) : Bool := decide (e < 282)
def wfMul (e : Nat) (_i : FA) : Bool := decide (e < 282)
def wfMulh (e : Nat) (_i : FA) : Bool := decide (e < 282)
def wfAdds (e : Nat) (_i : FA) : Bool := decide (e < 282)
def wfSubs (e : Nat) (_i : FA) : Bool := decide (e < 282)
def wfMin (e : Nat) (_i : FA) : Bool := decide (e < 282)
def wfMax (e : Nat) (_i : FA) : Bool := decide (e < 282)
def wfAbs (e : Nat) (_i : FA) : Bool := decide (e < 282)
def wfAddImm (e : Nat) (_i : FI) : Bool := decide (e < 282)
def wfAndImm (e : Nat) (_i : FI) : Bool := decide (e < 282)
def wfOrImm (e : Nat) (_i : FI) : Bool := decide (e < 282)
def wfXorImm (e : Nat) (_i : FI) : Bool := decide (e < 282)
def wfShlImm (e : Nat) (_i : FI) : Bool := decide (e < 282)
def wfShrImm (e : Nat) (_i : FI) : Bool := decide (e < 282)
def wfSraImm (e : Nat) (_i : FI) : Bool := decide (e < 282)
def wfMulImm (e : Nat) (_i : FI) : Bool := decide (e < 282)
def wfAddsImm (e : Nat) (_i : FI) : Bool := decide (e < 282)
def wfMinImm (e : Nat) (_i : FI) : Bool := decide (e < 282)
def wfMaxImm (e : Nat) (_i : FI) : Bool := decide (e < 282)
def wfLi (e : Nat) (_i : FI) : Bool := decide (e < 282)
def wfLui (e : Nat) (_i : FI) : Bool := decide (e < 282)
def wfLdW (e : Nat) (_i : FM) : Bool := decide (e < 282)
def wfLdH (e : Nat) (_i : FM) : Bool := decide (e < 282)
def wfLdHu (e : Nat) (_i : FM) : Bool := decide (e < 282)
def wfLdB (e : Nat) (_i : FM) : Bool := decide (e < 282)
def wfLdBu (e : Nat) (_i : FM) : Bool := decide (e < 282)
def wfStW (e : Nat) (_i : FM) : Bool := decide (e < 282)
def wfStH (e : Nat) (_i : FM) : Bool := decide (e < 282)
def wfStB (e : Nat) (_i : FM) : Bool := decide (e < 282)
def wfLdx (e : Nat) (_i : FM) : Bool := decide (e < 282)
def wfStx (e : Nat) (_i : FM) : Bool := decide (e < 282)
def wfLdxStxCompletion (e : Nat) (_bad : Option Nat) (moved : Nat) : Bool := decide (e < 282) && decide (moved ≤ 4096)
def wfRdcsControl (e : Nat) (_i : FM) : Bool := decide (e < 282)
def wfWrcsControl (e : Nat) (_i : FM) : Bool := decide (e < 282)
def wfControlSpaceCompletion (e : Nat) : Bool := decide (e < 282)
def wfRdcsLocal (e : Nat) (_i : FI) : Bool := decide (e < 282)
def wfWrcsLocal (e : Nat) (_i : FI) : Bool := decide (e < 282)
def wfB (e : Nat) (_i : FB) : Bool := decide (e < 282)
def wfBc (e : Nat) (_i : FB) : Bool := decide (e < 282)
def wfCall (e : Nat) (_i : FB) : Bool := decide (e < 282)
def wfRet (e : Nat) (_i : FS) : Bool := decide (e < 282)
def wfLoop (e : Nat) (_i : FI) : Bool := decide (e < 282)
def wfNop (e : Nat) (_i : FS) : Bool := decide (e < 282)
def wfHalt (e : Nat) (_i : FS) : Bool := decide (e < 282)
def wfFault (e : Nat) (_i : FaultIns) : Bool := decide (e < 282)
def wfWatchdog (e : Nat) : Bool := decide (e < 282)
def wfLockstepMismatch (n : Nat) : Bool := decide (n < 2)
def wfTrap (e : Nat) (_i : FX) : Bool := decide (e < 282)
def wfEret (e : Nat) (_i : FX) : Bool := decide (e < 282)
def wfWait (e : Nat) (_i : FW) : Bool := decide (e < 282)
def wfWaitTimeout (e : Nat) : Bool := decide (e < 282)
def wfSig (e : Nat) (_i : FI) : Bool := decide (e < 282)
def wfWtime (e : Nat) (_i : FI) : Bool := decide (e < 282)
def wfWtimeTimeout (e : Nat) : Bool := decide (e < 282)
def wfMsnd (e : Nat) (_i : FW) : Bool := decide (e < 282)
def wfMailboxWordArrival (sender : Nat) (e : Nat) : Bool := decide (sender < 282) && decide (e < 282)
def wfMrcv (e : Nat) (_i : FW) : Bool := decide (e < 282)
def wfMrcvTimeout (e : Nat) : Bool := decide (e < 282)
def wfEmit (e : Nat) (_i : FM) : Bool := decide (e < 282)
def wfEmitTimeout (e : Nat) : Bool := decide (e < 282)
def wfFire (e : Nat) (_i : FX) : Bool := decide (e < 282)
def wfStringArbitration : Bool := true
def wfGuardDecision (n : Nat) (_late : Bool) : Bool := decide (n < 16)
def wfPatternFrame : Bool := true
def wfFireEdge : Bool := true
def wfOpticalStart (s : Nat) (_t : Nat) : Bool := decide (s < 16)
def wfNoStart (s : Nat) : Bool := decide (s < 16)
def wfProof (e : Nat) (i : FX) : Bool := decide (e < 282) && decide (i.xi.getLsbD 0 = false)
def wfProofWalk (e : Nat) (i : FX) : Bool := decide (e < 282) && decide (i.xi.getLsbD 0 = true)
def wfWalkShot (s : Nat) : Bool := decide (s < 16)
def wfProofLate (s : Nat) : Bool := decide (s < 16)
def wfArm (e : Nat) (i : FX) : Bool := decide (e < 282) && decide (i.xi.getLsbD 9 = false)
def wfArmClose (e : Nat) (i : FX) : Bool := decide (e < 282) && decide (i.xi.getLsbD 9 = true)
def wfWangle (e : Nat) (_i : FX) : Bool := decide (e < 282)
def wfWangleEvaluation (e : Nat) : Bool := decide (e < 282)
def wfCode (e : Nat) (i : FX) : Bool := decide (e < 282) && decide (i.xi.getLsbD 0 = false)
def wfCodeOff (e : Nat) (i : FX) : Bool := decide (e < 282) && decide (i.xi.getLsbD 0 = true)
def wfPat (e : Nat) (_i : FX) : Bool := decide (e < 282)
def wfZoom (e : Nat) (i : FX) : Bool := decide (e < 282) && decide (i.xi.getLsbD 3 = false)
def wfZoomOff (e : Nat) (i : FX) : Bool := decide (e < 282) && decide (i.xi.getLsbD 3 = true)
def wfSequencerHandover (p : Nat) : Bool := decide (p < 16)
def wfMacs (e : Nat) (_i : FX) : Bool := decide (e < 282)
def wfLim (e : Nat) (_i : FX) : Bool := decide (e < 282)
def wfFerr (e : Nat) (_i : FX) : Bool := decide (e < 282)
def wfXfade (e : Nat) (_i : FX) : Bool := decide (e < 282)
def wfPub (e : Nat) (_i : FX) : Bool := decide (e < 282)
def wfDacw (e : Nat) (_i : FX) : Bool := decide (e < 282)
def wfAdcr (e : Nat) (_i : FX) : Bool := decide (e < 282)
def wfEncoderEdge (axis : Nat) (_a : Bool) (_b : Bool) : Bool := decide (axis < 4)
def wfEncoderIndex (axis : Nat) : Bool := decide (axis < 4)
def wfStall (h : Nat) : Bool := decide (h < 2)
def wfCoefficientWrite (src : Src) (axis : Nat) (bank : Nat) (k : Nat) (_second : Bool) (_v : Word) : Bool := src.wf && decide (axis < 4) && decide (bank < 4) && decide (k < 32)
def wfPubRead (src : Src) (axis : Nat) : Bool := src.wf && decide (axis < 4)
def wfFeTripClear (src : Src) (axis : Nat) : Bool := src.wf && decide (axis < 4)
def wfGuardStagingWrite (src : Src) (off : Nat) (_w : Word) : Bool := src.wf && decide (off < 0x40000) && decide (off % 4 = 0)
def wfRequestRecordWrite (ctx : Nat) (grp : Nat) (off : Nat) (_w : Word) : Bool := decide (ctx < 8) && decide (grp < 2) && decide (off < 128) && decide (off % 4 = 0)
def wfGuardVerifyDone : Bool := true
def wfGuardFault : Bool := true
def wfModuleStale (k : Nat) : Bool := decide (k < 4)
def wfListenOpen (p : Nat) : Bool := decide (p < 96)
def wfListenClose (p : Nat) : Bool := decide (p < 96)
def wfComparatorEdge (p : Nat) (c : Nat) (_rising : Bool) (_t : Nat) : Bool := decide (p < 96) && decide (c < 4)
def wfOverloadTrip (p : Nat) (_t : Nat) : Bool := decide (p < 96)
def wfOverloadRelease (p : Nat) (_t : Nat) : Bool := decide (p < 96)
def wfBlankPin (i : Nat) (_level : Bool) (_t : Nat) : Bool := decide (i < 4)
def wfIbiasReading (p : Nat) (pA : Nat) (_high : Bool) : Bool := decide (p < 96) && decide (pA < 2^32)
def wfDllLockRequest (src : Src) : Bool := src.wf
def wfDllLock (pair : Nat) (d : Nat) : Bool := decide (pair < 25) && decide (d < 2)
def wfDllLockLoss (pair : Nat) (d : Nat) : Bool := decide (pair < 25) && decide (d < 2)
def wfDllSwap (pair : Nat) : Bool := decide (pair < 25)
def wfChannelCalibrationDone (i : Nat) (_ok : Bool) (dnlmax : Nat) (chofs : Int) : Bool := decide (i < 408 + 16 + 288) && decide (dnlmax < 256) && decide (-32768 ≤ chofs) && decide (chofs < 32768)
def wfRotationHandover (t : Nat) (_diff : Nat) : Bool := decide (t < 24 + 96)
def wfTestEdge (i : Nat) (_off : Nat) : Bool := decide (i < 408 + 16 + 288)
def wfSpareTakeover (t : Nat) : Bool := decide (t < 24)
def wfShotSettle (p : Nat) : Bool := decide (p < 96)
def wfCellSwap (p : Nat) : Bool := decide (p < 96)
def wfBankAssign (src : Src) (b : Nat) (_v : Word) : Bool := src.wf && decide (b < 192)
def wfFlush (src : Src) : Bool := src.wf
def wfErgWindowWrite (src : Src) (b : Nat) (off : Nat) (_w : Word) : Bool := src.wf && decide (b < 192) && decide (off < 65536) && decide (off % 4 = 0)
def wfErgEccError (b : Nat) : Bool := decide (b < 192)
def wfTake (e : Nat) (i : FX) : Bool := decide (e < 282) && decide (i.xi.getLsbD 0 = false)
def wfTakeLook (e : Nat) (i : FX) : Bool := decide (e < 282) && decide (i.xi.getLsbD 0 = true)
def wfTakeTimeout (e : Nat) : Bool := decide (e < 282)
def wfHandleDispatch (p : Nat) : Bool := decide (p < 8)
def wfRel (e : Nat) (_i : FX) : Bool := decide (e < 282)
def wfBgest (e : Nat) (_i : FX) : Bool := decide (e < 282)
def wfBscan (e : Nat) (_i : FX) : Bool := decide (e < 282)
def wfCorr (e : Nat) (_i : FX) : Bool := decide (e < 282)
def wfFit (e : Nat) (_i : FX) : Bool := decide (e < 282)
def wfWfpk (e : Nat) (_i : FX) : Bool := decide (e < 282)
def wfPoly (e : Nat) (_i : FX) : Bool := decide (e < 282)
def wfCls (e : Nat) (_i : FX) : Bool := decide (e < 282)
def wfPoolWrite (src : Src) (n : Nat) (_v : Word) : Bool := src.wf && decide (n < 256)
def wfPortPoolWrite (src : Src) (k : Nat) (_v : Word) : Bool := src.wf && decide (k < 12)
def wfGroupAccept (e : Nat) : Bool := decide (e < 264)
def wfMapLineFetch (p : Nat) : Bool := decide (p < 96)
def wfHaboobSwitch : Bool := true
def wfMirageObservation : Bool := true
def wfMirageEntryAge (i : Nat) : Bool := decide (i < 4096)
def wfMirageClear (src : Src) : Bool := src.wf
def wfFrameRequest (src : Src) : Bool := src.wf
def wfFrameBoundary (cause : Nat) : Bool := decide (cause < 4)
def wfSliceBoundary : Bool := true
def wfTimeTriggerFire (t : Nat) : Bool := decide (t < 16)
def wfSecondCarry : Bool := true
def wfPpsOutPulseEnd : Bool := true
def wfEdgeCapture (n : Nat) (_rising : Bool) (_half : Bool) : Bool := decide (n < 3)
def wfCaptureRead (src : Src) (n : Nat) : Bool := src.wf && decide (n < 3)
def wfTimeNowRead (src : Src) : Bool := src.wf
def wfCamVsEdge (_half : Bool) : Bool := true
def wfBusLine (pixels : List Nat) : Bool := decide (1 ≤ pixels.length) && decide (pixels.length ≤ 4096) && decide (pixels.all (fun x => x < 65536))
def wfCamFrameTimeout : Bool := true
def wfI2cTransferDone (_nack : Bool) (_rd : Word) : Bool := true
def wfCamTrigActive : Bool := true
def wfCamTrigInactive : Bool := true
def wfIdle (g : Nat) : Bool := decide (g < 2)
def wfMarkerTimer (l : Nat) : Bool := decide (l < 8)
def wfPacketDiscard (g : Nat) (_why : Discard) : Bool := decide (g < 2)
def wfAck (g : Nat) (seq : Nat) : Bool := decide (g < 2) && decide (seq < 65536)
def wfNak (g : Nat) (seq : Nat) : Bool := decide (g < 2) && decide (seq < 65536)
def wfAckTimer (g : Nat) : Bool := decide (g < 2)
def wfReplayTimeout (g : Nat) : Bool := decide (g < 2)
def wfTrain (l : Nat) (t : TrainPkt) : Bool := decide (l < 8) && t.wf
def wfGroupBond (g : Nat) (skewed : Nat) : Bool := decide (g < 2) && decide (skewed < 16)
def wfBondTimeout (g : Nat) (skewed : Nat) : Bool := decide (g < 2) && decide (skewed < 16)
def wfTrainingTimeout (g : Nat) : Bool := decide (g < 2)
def wfRateChangeRequest (src : Src) (g : Nat) (_v : Word) : Bool := src.wf && decide (g < 2)
def wfRate (g : Nat) (_reply : Bool) (target : Nat) : Bool := decide (g < 2) && decide (target < 8)
def wfLaneLoss (l : Nat) (_why : LaneFault) : Bool := decide (l < 8)
def wfRebond (g : Nat) (_reply : Bool) (mask : Nat) : Bool := decide (g < 2) && decide (mask < 16)
def wfLaneRetrain (l : Nat) : Bool := decide (l < 8)
def wfLaneRejoin (l : Nat) : Bool := decide (l < 8)
def wfRead (g : Nat) (h : ReqHdr) (ecc : List (Nat × Bool)) : Bool := decide (g < 2) && h.wf && decide (ecc.all (fun x => x.1 < 1024))
def wfWrite (g : Nat) (h : ReqHdr) (ws : List Word) : Bool := decide (g < 2) && h.wf && decide (ws.length ≤ 1024)
def wfBadtype (g : Nat) (ctx : Nat) (ty : Nat) : Bool := decide (g < 2) && decide (ctx < 8) && decide (ty < 256)
def wfCredit (g : Nat) (ctx : Nat) (c : CreditPkt) : Bool := decide (g < 2) && decide (ctx < 8) && c.wf
def wfTsync (g : Nat) (ctx : Nat) (_tsid : Word) (_echo : Bool) (_rpl : Bool) (phase : Nat) : Bool := decide (g < 2) && decide (ctx < 8) && decide (phase < 16)
def wfEgressGrant (g : Nat) (phase : Nat) : Bool := decide (g < 2) && decide (phase < 16)
def wfQueueGroupChange (q : Nat) : Bool := decide (q < 32768)
def wfRolesWrite (src : Src) (_v : Word) : Bool := src.wf
def wfDescriptorWrite (src : Src) (q : Nat) (k : Nat) (_v : Word) : Bool := src.wf && decide (q < 32768) && decide (k < 16)
def wfBlockedRecordAccept (q : Nat) : Bool := decide (q < 32768)
def wfHostFreeze (src : Src) (_v : Word) : Bool := src.wf
def wfRecorderFrozen (q : Nat) : Bool := decide (q < 32768)
def wfRingHeaderRewrite (q : Nat) : Bool := decide (q < 32768)
def wfFrozenResume (src : Src) (q : Nat) : Bool := src.wf && decide (q < 32768)
def wfDramInit (src : Src) : Bool := src.wf
def wfDramReady (failing : Nat) : Bool := decide (failing < 16)
def wfDramBurstGrant (ch : Nat) : Bool := decide (ch < 4)
def wfDramChannelFail (ch : Nat) : Bool := decide (ch < 4)
def wfPatrolScrub (ch : Nat) (_corrected : Bool) (_uncorrectable : Bool) : Bool := decide (ch < 4)
def wfRefresh (ch : Nat) : Bool := decide (ch < 4)
def wfMr4Read (ch : Nat) (quarters : Nat) : Bool := decide (ch < 4) && decide (quarters ≤ 64)
def wfDramStarve (k : Nat) : Bool := decide (k < 5)
def wfQueueStarve (q : Nat) : Bool := decide (q < 32768)
def wfSafetyStagingWrite (src : Src) (off : Nat) (_w : Word) : Bool := src.wf && decide (off < 0x40000) && decide (off % 4 = 0)
def wfSafetyRecordWrite (ctx : Nat) (grp : Nat) (off : Nat) (_w : Word) : Bool := decide (ctx < 8) && decide (grp < 2) && decide (off < 128) && decide (off % 4 = 0)
def wfSafetyVerifyDone : Bool := true
def wfBconfWrite (src : Src) (_v : Word) : Bool := src.wf
def wfBconfTimeout : Bool := true
def wfPeriodEnd : Bool := true
def wfBresWrite (src : Src) (p : Nat) (_v : Word) : Bool := src.wf && decide (p < 2)
def wfBlatDeadline (p : Nat) : Bool := decide (p < 2)
def wfInputLevel (k : Nat) (_level : Bool) (evs : Nat) : Bool := decide (k < 16) && decide (evs < 4)
def wfDiscrepancyExpiry (i : Nat) : Bool := decide (i < 8)
def wfTwoHandTimeout (k : Nat) : Bool := decide (k < 8)
def wfEvaluatorDisagree (i : Nat) : Bool := decide (i < 8)
def wfTestPulse (k : Nat) : Bool := decide (k < 2)
def wfTestPulseJudge (k : Nat) (failed : Nat) : Bool := decide (k < 2) && decide (failed < 65536)
def wfFswerr : Bool := true
def wfSwitchOn (p : Nat) : Bool := decide (p < 2)
def wfFbCheck (p : Nat) (_fb : Bool) : Bool := decide (p < 2)
def wfOffpTest (p : Nat) : Bool := decide (p < 2)
def wfOfftTestEnd (p : Nat) (_fb : Bool) : Bool := decide (p < 2)
def wfSafe (g : Nat) (ctx : Nat) (spec : List Byte) (payload : List Byte) : Bool := decide (g < 2) && decide (ctx < 8) && decide (spec.length = 6) && decide (payload.length ≤ 4096)
def wfSafeCopyTimeout (g : Nat) : Bool := decide (g < 2)
def wfHeartbeat : Bool := true
def wfFieldsel : Bool := true
def wfRestart : Bool := true
def wfFaultAck : Bool := true
def wfOasis : Bool := true
def wfHeartbeatTimeout : Bool := true
def wfHkRefEn (src : Src) (_on : Bool) : Bool := src.wf
def wfHkGo (src : Src) : Bool := src.wf
def wfHkSync (src : Src) : Bool := src.wf
def wfHkPassStart : Bool := true
def wfHkEntryDone (codes : List Int) : Bool := decide (codes.length ≤ 4096)
def wfOutputWord (e : Nat) : Bool := decide (e < 16)
def wfFixedPairBlock : Bool := true
def wfFixedPairResult (k : Nat) (_sum : Int) (_ovl : Bool) : Bool := decide (k < 4)
def wfHkCalibrationSlot (_zero : Int) (_full : Int) : Bool := true
def wfDieSensorRead (temps : List Int) : Bool := decide (temps.length = 24)
def wfCalSetEvaluation : Bool := true
def wfFaultRecordClose (root : Nat) : Bool := decide (root < 65536)
def wfCaptureGo (src : Src) (_v : Word) : Bool := src.wf
def wfCaptureStop (src : Src) : Bool := src.wf
def wfProbeSample (_lost : Bool) : Bool := true
def wfCaptureDone : Bool := true
def wfInject (src : Src) (_v : Word) : Bool := src.wf
def wfProgramSlot (src : Src) (_v : Word) : Bool := src.wf
def wfRevokeSlot (src : Src) (_v : Word) : Bool := src.wf
def wfRaiseGminver (src : Src) (_v : Word) : Bool := src.wf
def wfRaiseSminver (src : Src) (_v : Word) : Bool := src.wf
def wfFuseProgramDone (_ok : Bool) : Bool := true
def wfTapReset : Bool := true
def wfBypass (ir : Nat) : Bool := decide (ir < 256)
def wfSamplePreload (_cells : List (Nat × Nat)) : Bool := true
def wfExtest : Bool := true
def wfWaveformSample (p : Nat) (_odd : Bool) (_k : Nat) (adc : Nat) : Bool := decide (p < 96) && decide (adc < 1024)
def wfPositionConverterSample (axis : Nat) (adc : Int) (_ovl : Bool) : Bool := decide (axis < 4) && decide (-32768 ≤ adc) && decide (adc < 32768)
def wfPositionAverageReady (axis : Nat) : Bool := decide (axis < 4)
def wfGuardPositionSample (axis : Nat) (adc : Nat) : Bool := decide (axis < 4) && decide (adc < 4096)
def wfEqualiserPresetStep (l : Nat) : Bool := decide (l < 8)
def wfFbHighTimeout (p : Nat) : Bool := decide (p < 2)

/-- The command names existing instances and field values that fit. -/
def wellFormed : Instr → Bool
  | .registerWrite src a v => wfRegisterWrite src a v
  | .commitRequest src page groups => wfCommitRequest src page groups
  | .commitCancel src page groups => wfCommitCancel src page groups
  | .idleCommitApply page => wfIdleCommitApply page
  | .supplyRise => wfSupplyRise
  | .supplyRemove => wfSupplyRemove
  | .porstAssert => wfPorstAssert
  | .porstRelease => wfPorstRelease
  | .rootPllLock => wfRootPllLock
  | .pllLockRetry => wfPllLockRetry
  | .otpLoadDone => wfOtpLoadDone
  | .bistDone pass => wfBistDone pass
  | .dramRestore failing => wfDramRestore failing
  | .supplyMonitorTrip which => wfSupplyMonitorTrip which
  | .supplyMonitorRelease i => wfSupplyMonitorRelease i
  | .clockMonitorWindow count oscRunning => wfClockMonitorWindow count oscRunning
  | .rootPllUnlock => wfRootPllUnlock
  | .requestLinked ctx key => wfRequestLinked ctx key
  | .requestLoaded ctx key => wfRequestLoaded ctx key
  | .requestArmed ctx key => wfRequestArmed ctx key
  | .requestRunning ctx key => wfRequestRunning ctx key
  | .requestOasis ctx key => wfRequestOasis ctx key
  | .hkrefOkSet => wfHkrefOkSet
  | .hostReset ctx v => wfHostReset ctx v
  | .hostResetStart => wfHostResetStart
  | .start src e v => wfStart src e v
  | .stop src e v => wfStop src e v
  | .verify src e v => wfVerify src e v
  | .verifyDone e => wfVerifyDone e
  | .mbclr src e v => wfMbclr src e v
  | .mboxIn src e w => wfMboxIn src e w
  | .programMemoryWrite src e off w => wfProgramMemoryWrite src e off w
  | .dataMemoryWrite src e off w => wfDataMemoryWrite src e off w
  | .semaphoreWrite src n v => wfSemaphoreWrite src n v
  | .add e i => wfAdd e i
  | .sub e i => wfSub e i
  | .and e i => wfAnd e i
  | .or e i => wfOr e i
  | .xor e i => wfXor e i
  | .shl e i => wfShl e i
  | .shr e i => wfShr e i
  | .sra e i => wfSra e i
  | .mul e i => wfMul e i
  | .mulh e i => wfMulh e i
  | .adds e i => wfAdds e i
  | .subs e i => wfSubs e i
  | .min e i => wfMin e i
  | .max e i => wfMax e i
  | .abs e i => wfAbs e i
  | .addImm e i => wfAddImm e i
  | .andImm e i => wfAndImm e i
  | .orImm e i => wfOrImm e i
  | .xorImm e i => wfXorImm e i
  | .shlImm e i => wfShlImm e i
  | .shrImm e i => wfShrImm e i
  | .sraImm e i => wfSraImm e i
  | .mulImm e i => wfMulImm e i
  | .addsImm e i => wfAddsImm e i
  | .minImm e i => wfMinImm e i
  | .maxImm e i => wfMaxImm e i
  | .li e i => wfLi e i
  | .lui e i => wfLui e i
  | .ldW e i => wfLdW e i
  | .ldH e i => wfLdH e i
  | .ldHu e i => wfLdHu e i
  | .ldB e i => wfLdB e i
  | .ldBu e i => wfLdBu e i
  | .stW e i => wfStW e i
  | .stH e i => wfStH e i
  | .stB e i => wfStB e i
  | .ldx e i => wfLdx e i
  | .stx e i => wfStx e i
  | .ldxStxCompletion e bad moved => wfLdxStxCompletion e bad moved
  | .rdcsControl e i => wfRdcsControl e i
  | .wrcsControl e i => wfWrcsControl e i
  | .controlSpaceCompletion e => wfControlSpaceCompletion e
  | .rdcsLocal e i => wfRdcsLocal e i
  | .wrcsLocal e i => wfWrcsLocal e i
  | .b e i => wfB e i
  | .bc e i => wfBc e i
  | .call e i => wfCall e i
  | .ret e i => wfRet e i
  | .loop e i => wfLoop e i
  | .nop e i => wfNop e i
  | .halt e i => wfHalt e i
  | .fault e i => wfFault e i
  | .watchdog e => wfWatchdog e
  | .lockstepMismatch n => wfLockstepMismatch n
  | .trap e i => wfTrap e i
  | .eret e i => wfEret e i
  | .wait e i => wfWait e i
  | .waitTimeout e => wfWaitTimeout e
  | .sig e i => wfSig e i
  | .wtime e i => wfWtime e i
  | .wtimeTimeout e => wfWtimeTimeout e
  | .msnd e i => wfMsnd e i
  | .mailboxWordArrival sender e => wfMailboxWordArrival sender e
  | .mrcv e i => wfMrcv e i
  | .mrcvTimeout e => wfMrcvTimeout e
  | .emit e i => wfEmit e i
  | .emitTimeout e => wfEmitTimeout e
  | .fire e i => wfFire e i
  | .stringArbitration => wfStringArbitration
  | .guardDecision n late => wfGuardDecision n late
  | .patternFrame => wfPatternFrame
  | .fireEdge => wfFireEdge
  | .opticalStart s t => wfOpticalStart s t
  | .noStart s => wfNoStart s
  | .proof e i => wfProof e i
  | .proofWalk e i => wfProofWalk e i
  | .walkShot s => wfWalkShot s
  | .proofLate s => wfProofLate s
  | .arm e i => wfArm e i
  | .armClose e i => wfArmClose e i
  | .wangle e i => wfWangle e i
  | .wangleEvaluation e => wfWangleEvaluation e
  | .code e i => wfCode e i
  | .codeOff e i => wfCodeOff e i
  | .pat e i => wfPat e i
  | .zoom e i => wfZoom e i
  | .zoomOff e i => wfZoomOff e i
  | .sequencerHandover p => wfSequencerHandover p
  | .macs e i => wfMacs e i
  | .lim e i => wfLim e i
  | .ferr e i => wfFerr e i
  | .xfade e i => wfXfade e i
  | .pub e i => wfPub e i
  | .dacw e i => wfDacw e i
  | .adcr e i => wfAdcr e i
  | .encoderEdge axis a b => wfEncoderEdge axis a b
  | .encoderIndex axis => wfEncoderIndex axis
  | .stall h => wfStall h
  | .coefficientWrite src axis bank k second v => wfCoefficientWrite src axis bank k second v
  | .pubRead src axis => wfPubRead src axis
  | .feTripClear src axis => wfFeTripClear src axis
  | .guardStagingWrite src off w => wfGuardStagingWrite src off w
  | .requestRecordWrite ctx grp off w => wfRequestRecordWrite ctx grp off w
  | .guardVerifyDone => wfGuardVerifyDone
  | .guardFault => wfGuardFault
  | .moduleStale k => wfModuleStale k
  | .listenOpen p => wfListenOpen p
  | .listenClose p => wfListenClose p
  | .comparatorEdge p c rising t => wfComparatorEdge p c rising t
  | .overloadTrip p t => wfOverloadTrip p t
  | .overloadRelease p t => wfOverloadRelease p t
  | .blankPin i level t => wfBlankPin i level t
  | .ibiasReading p pA high => wfIbiasReading p pA high
  | .dllLockRequest src => wfDllLockRequest src
  | .dllLock pair d => wfDllLock pair d
  | .dllLockLoss pair d => wfDllLockLoss pair d
  | .dllSwap pair => wfDllSwap pair
  | .channelCalibrationDone i ok dnlmax chofs => wfChannelCalibrationDone i ok dnlmax chofs
  | .rotationHandover t diff => wfRotationHandover t diff
  | .testEdge i off => wfTestEdge i off
  | .spareTakeover t => wfSpareTakeover t
  | .shotSettle p => wfShotSettle p
  | .cellSwap p => wfCellSwap p
  | .bankAssign src b v => wfBankAssign src b v
  | .flush src => wfFlush src
  | .ergWindowWrite src b off w => wfErgWindowWrite src b off w
  | .ergEccError b => wfErgEccError b
  | .take e i => wfTake e i
  | .takeLook e i => wfTakeLook e i
  | .takeTimeout e => wfTakeTimeout e
  | .handleDispatch p => wfHandleDispatch p
  | .rel e i => wfRel e i
  | .bgest e i => wfBgest e i
  | .bscan e i => wfBscan e i
  | .corr e i => wfCorr e i
  | .fit e i => wfFit e i
  | .wfpk e i => wfWfpk e i
  | .poly e i => wfPoly e i
  | .cls e i => wfCls e i
  | .poolWrite src n v => wfPoolWrite src n v
  | .portPoolWrite src k v => wfPortPoolWrite src k v
  | .groupAccept e => wfGroupAccept e
  | .mapLineFetch p => wfMapLineFetch p
  | .haboobSwitch => wfHaboobSwitch
  | .mirageObservation => wfMirageObservation
  | .mirageEntryAge i => wfMirageEntryAge i
  | .mirageClear src => wfMirageClear src
  | .frameRequest src => wfFrameRequest src
  | .frameBoundary cause => wfFrameBoundary cause
  | .sliceBoundary => wfSliceBoundary
  | .timeTriggerFire t => wfTimeTriggerFire t
  | .secondCarry => wfSecondCarry
  | .ppsOutPulseEnd => wfPpsOutPulseEnd
  | .edgeCapture n rising half => wfEdgeCapture n rising half
  | .captureRead src n => wfCaptureRead src n
  | .timeNowRead src => wfTimeNowRead src
  | .camVsEdge half => wfCamVsEdge half
  | .busLine pixels => wfBusLine pixels
  | .camFrameTimeout => wfCamFrameTimeout
  | .i2cTransferDone nack rd => wfI2cTransferDone nack rd
  | .camTrigActive => wfCamTrigActive
  | .camTrigInactive => wfCamTrigInactive
  | .idle g => wfIdle g
  | .markerTimer l => wfMarkerTimer l
  | .packetDiscard g why => wfPacketDiscard g why
  | .ack g seq => wfAck g seq
  | .nak g seq => wfNak g seq
  | .ackTimer g => wfAckTimer g
  | .replayTimeout g => wfReplayTimeout g
  | .train l t => wfTrain l t
  | .groupBond g skewed => wfGroupBond g skewed
  | .bondTimeout g skewed => wfBondTimeout g skewed
  | .trainingTimeout g => wfTrainingTimeout g
  | .rateChangeRequest src g v => wfRateChangeRequest src g v
  | .rate g reply target => wfRate g reply target
  | .laneLoss l why => wfLaneLoss l why
  | .rebond g reply mask => wfRebond g reply mask
  | .laneRetrain l => wfLaneRetrain l
  | .laneRejoin l => wfLaneRejoin l
  | .read g h ecc => wfRead g h ecc
  | .write g h ws => wfWrite g h ws
  | .badtype g ctx ty => wfBadtype g ctx ty
  | .credit g ctx c => wfCredit g ctx c
  | .tsync g ctx tsid echo rpl phase => wfTsync g ctx tsid echo rpl phase
  | .egressGrant g phase => wfEgressGrant g phase
  | .queueGroupChange q => wfQueueGroupChange q
  | .rolesWrite src v => wfRolesWrite src v
  | .descriptorWrite src q k v => wfDescriptorWrite src q k v
  | .blockedRecordAccept q => wfBlockedRecordAccept q
  | .hostFreeze src v => wfHostFreeze src v
  | .recorderFrozen q => wfRecorderFrozen q
  | .ringHeaderRewrite q => wfRingHeaderRewrite q
  | .frozenResume src q => wfFrozenResume src q
  | .dramInit src => wfDramInit src
  | .dramReady failing => wfDramReady failing
  | .dramBurstGrant ch => wfDramBurstGrant ch
  | .dramChannelFail ch => wfDramChannelFail ch
  | .patrolScrub ch corrected uncorrectable => wfPatrolScrub ch corrected uncorrectable
  | .refresh ch => wfRefresh ch
  | .mr4Read ch quarters => wfMr4Read ch quarters
  | .dramStarve k => wfDramStarve k
  | .queueStarve q => wfQueueStarve q
  | .safetyStagingWrite src off w => wfSafetyStagingWrite src off w
  | .safetyRecordWrite ctx grp off w => wfSafetyRecordWrite ctx grp off w
  | .safetyVerifyDone => wfSafetyVerifyDone
  | .bconfWrite src v => wfBconfWrite src v
  | .bconfTimeout => wfBconfTimeout
  | .periodEnd => wfPeriodEnd
  | .bresWrite src p v => wfBresWrite src p v
  | .blatDeadline p => wfBlatDeadline p
  | .inputLevel k level evs => wfInputLevel k level evs
  | .discrepancyExpiry i => wfDiscrepancyExpiry i
  | .twoHandTimeout k => wfTwoHandTimeout k
  | .evaluatorDisagree i => wfEvaluatorDisagree i
  | .testPulse k => wfTestPulse k
  | .testPulseJudge k failed => wfTestPulseJudge k failed
  | .fswerr => wfFswerr
  | .switchOn p => wfSwitchOn p
  | .fbCheck p fb => wfFbCheck p fb
  | .offpTest p => wfOffpTest p
  | .offtTestEnd p fb => wfOfftTestEnd p fb
  | .safe g ctx spec payload => wfSafe g ctx spec payload
  | .safeCopyTimeout g => wfSafeCopyTimeout g
  | .heartbeat => wfHeartbeat
  | .fieldsel => wfFieldsel
  | .restart => wfRestart
  | .faultAck => wfFaultAck
  | .oasis => wfOasis
  | .heartbeatTimeout => wfHeartbeatTimeout
  | .hkRefEn src on => wfHkRefEn src on
  | .hkGo src => wfHkGo src
  | .hkSync src => wfHkSync src
  | .hkPassStart => wfHkPassStart
  | .hkEntryDone codes => wfHkEntryDone codes
  | .outputWord e => wfOutputWord e
  | .fixedPairBlock => wfFixedPairBlock
  | .fixedPairResult k sum ovl => wfFixedPairResult k sum ovl
  | .hkCalibrationSlot zero full => wfHkCalibrationSlot zero full
  | .dieSensorRead temps => wfDieSensorRead temps
  | .calSetEvaluation => wfCalSetEvaluation
  | .faultRecordClose root => wfFaultRecordClose root
  | .captureGo src v => wfCaptureGo src v
  | .captureStop src => wfCaptureStop src
  | .probeSample lost => wfProbeSample lost
  | .captureDone => wfCaptureDone
  | .inject src v => wfInject src v
  | .programSlot src v => wfProgramSlot src v
  | .revokeSlot src v => wfRevokeSlot src v
  | .raiseGminver src v => wfRaiseGminver src v
  | .raiseSminver src v => wfRaiseSminver src v
  | .fuseProgramDone ok => wfFuseProgramDone ok
  | .tapReset => wfTapReset
  | .bypass ir => wfBypass ir
  | .samplePreload cells => wfSamplePreload cells
  | .extest => wfExtest
  | .waveformSample p odd k adc => wfWaveformSample p odd k adc
  | .positionConverterSample axis adc ovl => wfPositionConverterSample axis adc ovl
  | .positionAverageReady axis => wfPositionAverageReady axis
  | .guardPositionSample axis adc => wfGuardPositionSample axis adc
  | .equaliserPresetStep l => wfEqualiserPresetStep l
  | .fbHighTimeout p => wfFbHighTimeout p

end Sys2Proof
end

