-- ==== Sys2Proof/Machine/Ops.lean ====
section
/-!
DEFINITION. The operations every family shares: running a meaning on a state, access to the parts of the machine,
memory by bytes, the passage of time and stamps, device state changes and notifications, queues of packets, records
offered to host queues, recorder freezes, and the copying of commit groups.
-/
namespace Sys2Proof.Machine

/-- A meaning run on a state, `ok` telling whether the command is well formed: an ill-formed command is refused, any other takes its effect on the machine. The queue
of waiting commands and the fuses stay as they are. -/
def State.run (s : State) (ok : Bool) (f : Otp → Mach → Mach) : Host.Outcome State Fault Refusal :=
  if ok then .next { s with m := f s.otp s.m } else .refused .illFormed

/-- `f` applied when a condition holds. -/
def Mach.when (m : Mach) (c : Bool) (f : Mach → Mach) : Mach := if c then f m else m

/-! ## Parts of the machine -/

/-- Engine number `n` (R67). -/
def Mach.e (m : Mach) (n : Nat) : Engine := mapGet Engine.reset m.eng n
/-- Engine number `n` replaced. -/
def Mach.setE (m : Mach) (n : Nat) (x : Engine) : Mach := { m with eng := mapPut Engine.reset m.eng n x }
/-- Engine number `n` changed. -/
def Mach.modE (m : Mach) (n : Nat) (f : Engine → Engine) : Mach := m.setE n (f (m.e n))
/-- Semaphore `n` (R86). -/
def Mach.sem (m : Mach) (n : Nat) : Sem := mapGet Sem.reset m.sems n
/-- Semaphore `n` replaced. -/
def Mach.setSem (m : Mach) (n : Nat) (x : Sem) : Mach := { m with sems := mapPut Sem.reset m.sems n x }
/-- Lane group `g` (R357). -/
def Mach.g (m : Mach) (g : Nat) : Group := mapGet Group.reset m.grp g
/-- Lane group `g` changed. -/
def Mach.modG (m : Mach) (g : Nat) (f : Group → Group) : Mach :=
  { m with grp := mapPut Group.reset m.grp g (f (m.g g)) }
/-- Lane `l`. -/
def Mach.l (m : Mach) (l : Nat) : Lane := mapGet Lane.reset m.lane l
/-- Lane `l` changed. -/
def Mach.modL (m : Mach) (l : Nat) (f : Lane → Lane) : Mach :=
  { m with lane := mapPut Lane.reset m.lane l (f (m.l l)) }
/-- What queue `q` holds. -/
def Mach.q (m : Mach) (q : Nat) : QState := mapGet QState.reset m.qmg.qs q
/-- What queue `q` holds, changed. -/
def Mach.modQ (m : Mach) (q : Nat) (f : QState → QState) : Mach :=
  { m with qmg := { qs := mapPut QState.reset m.qmg.qs q (f (m.q q)) } }
/-- Time trigger `t` (R119). -/
def Mach.trig (m : Mach) (t : Nat) : Trig := mapGet Trig.reset m.time.trigs t
/-- Time trigger `t` replaced. -/
def Mach.setTrig (m : Mach) (t : Nat) (x : Trig) : Mach :=
  { m with time := { m.time with trigs := mapPut Trig.reset m.time.trigs t x } }

/-- A fresh word of which nothing is known. -/
def Mach.takeFree (m : Mach) : Word × Mach := (Config.freeWord m.free, { m with free := m.free + 1 })

/-! ## Memory -/

/-- The canonical form of the byte memory: addresses strictly rising, no entry equal to the 0 an unlisted address reads as. -/
def Memory.wf (l : List Host.Cell) : Bool := mapWf 0 l

/-- The byte at a device address; a byte nothing has written reads 0 (R50, and the log for DRAM). -/
def Mach.byte (m : Mach) (a : Nat) : Byte := mapGet 0 m.mem a
/-- One byte stored. -/
def Mach.setByte (m : Mach) (a : Nat) (b : Byte) : Mach := { m with mem := mapPut 0 m.mem a b }
/-- `n` bytes from an address. -/
def Mach.bytes (m : Mach) : Nat → Nat → List Byte
  | _, 0 => []
  | a, n + 1 => m.byte a :: m.bytes (a + 1) n
/-- Bytes stored from an address. -/
def Mach.setBytes (m : Mach) (a : Nat) : List Byte → Mach
  | [] => m
  | b :: t => (m.setByte a b).setBytes (a + 1) t
/-- The little-endian number of `n` bytes at an address (R8). -/
def Mach.mnat (m : Mach) (a n : Nat) : Nat := leNat (m.bytes a n)
/-- A number stored as `n` bytes, little-endian. -/
def Mach.setMnat (m : Mach) (a n v : Nat) : Mach := m.setBytes a (leBytes n v)
/-- The word at an address of a table or memory. -/
def Mach.mword (m : Mach) (a : Nat) : Word := word (m.mnat a 4)
/-- A word stored in a table or memory. -/
def Mach.setMword (m : Mach) (a : Nat) (w : Word) : Mach := m.setMnat a 4 w.toNat
/-- The listed bytes of a range that starts at `a`, `n` long, with zeros where nothing is listed. -/
def denseFrom : Nat → Nat → List Host.Cell → List Byte
  | _, 0, _ => []
  | a, n + 1, [] => 0 :: denseFrom (a + 1) n []
  | a, n + 1, (k, b) :: t => if k = a then b :: denseFrom (a + 1) n t else 0 :: denseFrom (a + 1) n ((k, b) :: t)
/-- The listed cells of `n` bytes from an address. -/
def Mach.cellsIn (m : Mach) (a n : Nat) : List Host.Cell := m.mem.filter (fun c => decide (a ≤ c.1) && decide (c.1 < a + n))
/-- `n` bytes from an address, read at once. -/
def Mach.image (m : Mach) (a n : Nat) : List Byte := denseFrom a n (m.cellsIn a n)
/-- `n` bytes from an address replaced by the given cells, which must lie there, ascending and other than 0. -/
def Mach.splice (m : Mach) (a n : Nat) (cs : List Host.Cell) : Mach :=
  { m with mem := m.mem.filter (fun c => decide (c.1 < a)) ++ cs ++ m.mem.filter (fun c => decide (a + n ≤ c.1)) }
/-- `n` bytes copied from one address to another. -/
def Mach.copyRange (m : Mach) (from_ to_ n : Nat) : Mach :=
  m.splice to_ n ((m.cellsIn from_ n).map (fun c => (c.1 - from_ + to_, c.2)))
/-- The address of pool store `p`: outside the device map of R24, since the map shows one page of it at a time (R102). -/
def poolBase (p : Nat) : Nat := 0x100_0000_0000 + 0x10000 * p
/-- The address of the probe buffer, which the map does not show (R500). -/
def probeBase : Nat := 0x200_0000_0000

/-! ## Time -/

/-- Device time after `n` cycles at increment `inc` (R109). -/
def DTime.after (t : DTime) (inc n : Nat) : DTime :=
  let total := t.ns * 2 ^ 32 + t.frac + inc * n
  let ns := total / 2 ^ 32
  { sec := (t.sec + ns / 1000000000) % 2 ^ 48, ns := ns % 1000000000, frac := total % 2 ^ 32 }

/-- The increment in use (R112). -/
def Mach.inc (m : Mach) : Nat := m.fld aTIME_INC_LO fTIME_INC_LO_INC_LO + 2 ^ 32 * m.fld aTIME_INC_HI fTIME_INC_HI_INC_HI

/-- `n` core cycles pass. Device time counts in every state but SHUTDOWN, and not before the device leaves RESET (R110). -/
def Mach.advance (m : Mach) (n : Nat) : Mach :=
  let runs := m.dev.st != .shutdown && m.dev.st != .reset && m.dev.st != .off
  { m with cyc := m.cyc + n
           time := if runs then { m.time with now := m.time.now.after m.inc n } else m.time }

/-- Time passes to cycle `c`, or not at all when `c` lies behind. -/
def Mach.advanceTo (m : Mach) (c : Nat) : Mach := m.advance (c - m.cyc)

/-- Fine time now, in steps of 19.53125 ps, 64 to a cycle (R17). -/
def Mach.now (m : Mach) : Nat := 64 * m.cyc

/-- Time passes to the first cycle at or after fine time `t`. -/
def Mach.advanceToFine (m : Mach) (t : Nat) : Mach := m.advanceTo (divCeil t 64)

/-- The stamp of a device time (R115). -/
def Mach.stampOf (m : Mach) (t : DTime) : Stamp :=
  { sec := t.sec, ns := t.ns, seq := m.fld aTIME_STAT fTIME_STAT_STEPSEQ, frac := t.frac / 2 ^ 20 }

/-- The stamp of the present cycle. -/
def Mach.stamp (m : Mach) : Stamp := m.stampOf m.time.now

/-- The 12 bytes of a stamp (R115). -/
def Stamp.bytes (s : Stamp) : List Byte :=
  leBytes 6 s.sec ++ leBytes 4 s.ns ++ leBytes 2 (s.frac + 2 ^ 12 * s.seq)

/-- A stamp of zero. -/
def Stamp.zero : Stamp := { sec := 0, ns := 0, seq := 0, frac := 0 }

/-- Nanoseconds since the epoch of device time (R126). -/
def DTime.nanos (t : DTime) : Nat := t.sec * 1000000000 + t.ns

/-- The seconds of a sensed difference, modulo 2^48 and signed (R119). -/
def DTime.atOrPast (t : DTime) (sec ns : Nat) : Bool :=
  let d := (t.sec + 2 ^ 48 - sec % 2 ^ 48) % 2 ^ 48
  if d = 0 then decide (ns ≤ t.ns) else decide (d < 2 ^ 47)

/-! ## Device state -/

/-- The state codes of R51; OFF has none. -/
def DevState.code : DevState → Nat
  | .off => 0 | .reset => 1 | .boot => 2 | .linked => 3 | .loaded => 4 | .armed => 5 | .running => 6 | .oasis => 7
  | .shutdown => 8

/-- The device is ARMED or RUNNING. -/
def Mach.hot (m : Mach) : Bool := m.dev.st == .armed || m.dev.st == .running

/-- The word GLB_STATE reads, with the state in its STATE field. -/
def Mach.glbState (m : Mach) : Word := fGLB_STATE_STATE.set (m.reg aGLB_STATE) m.dev.st.code

/-- The clamps of R41 hold FIRE off, EMP_LATCH low and the OSSD commands off. -/
def Mach.clamped (m : Mach) : Bool :=
  m.dev.porstLow || m.dev.st == .reset || m.dev.st == .off || m.tap.extest || (m.dev.low &&& 0xFF) != 0

/-- Perturbations act: the device is LINKED, LOADED or in OASIS (R503). -/
def Mach.pertActs (m : Mach) : Bool := m.dev.st == .linked || m.dev.st == .loaded || m.dev.st == .oasis

/-- Lane group `g` is BONDED (LNK_GSTAT STATE 2). -/
def Mach.bonded (m : Mach) (g : Nat) : Bool := m.fld (aLNK_GSTAT g) fLNK_GSTAT_STATE == 2

/-- Context `c` is enabled; context 0 always is (R387). -/
def Mach.ctxOn (m : Mach) (c : Nat) : Bool := c == 0 || m.flag (aQMG_CTX c) fQMG_CTX_EN

/-- The Owner context (R388). -/
def Mach.owner (m : Mach) : Nat := m.fld aQMG_ROLES fQMG_ROLES_OWNER
/-- The Safety context (R388). -/
def Mach.safetyCtx (m : Mach) : Nat := m.fld aQMG_ROLES fQMG_ROLES_SAFETY

/-- A packet queued to leave on group `g` with the answers, in order of creation (R415). -/
def Mach.respond (m : Mach) (g : Nat) (p : Pkt) : Mach := m.modG g (fun x => { x with respq := x.respq ++ [p] })

/-- The group a context's notifications take: NGRP, or the other one while NGRP is not BONDED (R398). -/
def Mach.notifyGroup (m : Mach) (c : Nat) : Nat :=
  let g := m.fld (aQMG_CTX c) fQMG_CTX_NGRP
  if m.bonded g then g else 1 - g

/-- Notification cause `k` (1 to 5) raised in context `c`: the bit sets, and on its way from 0 to 1 one NOTIFY goes out
when the cause is enabled (R398). -/
def Mach.raise (m : Mach) (c k : Nat) (payload : List Byte) : Mach :=
  let causes := m.fld (aQMG_NSTAT c) fQMG_NSTAT_CAUSE
  if !m.ctxOn c || causes.testBit (k - 1) then m
  else
    let m1 := m.setFld (aQMG_NSTAT c) fQMG_NSTAT_CAUSE (causes ||| 2 ^ (k - 1))
    if (m.fld (aQMG_CTX c) fQMG_CTX_NMASK).testBit (k - 1) then
      m1.respond (m.notifyGroup c)
        { ty := 0x17, ctx := c, queue := 0, seq := 0, spec := leBytes 6 k, payload := payload }
    else m1

/-- A cause raised in every enabled context (R398). -/
def Mach.raiseAll (m : Mach) (k : Nat) (payload : List Byte) : Mach :=
  (List.range 8).foldl (fun s c => s.raise c k payload) m

/-- The device goes to state `s`: PREV, TRANS_CNT, the perturbation enables that entry to ARMED clears (R503), and
notification cause 5. -/
def Mach.goto (m : Mach) (s : DevState) : Mach :=
  let m := m.setFld aGLB_STATE fGLB_STATE_PREV m.dev.st.code
  let m := m.wrapInc aGLB_STATE fGLB_STATE_TRANS_CNT
  let m := { m with dev := { m.dev with st := s, loadedOnce := m.dev.loadedOnce || s == DevState.loaded } }
  let m := m.when (s == DevState.armed) (fun m =>
    ((m.setFld aTST_PERT0 fTST_PERT0_EN 0).setFld aTST_PERT1 fTST_PERT1_EN 0).setFld aTST_PERT2 fTST_PERT2_EN 0)
  m.raiseAll 5 (leBytes 4 m.glbState.toNat)

/-! ## Host queues (R400 to R405) -/

/-- The address of word `k` of the descriptor of queue `q`. -/
def qdesc (q k : Nat) : Nat := 0x8200000 + 64 * q + 4 * k

def fQ_EN : Fld := ⟨31, 31⟩
def fQ_POLICY : Fld := ⟨30, 29⟩
def fQ_RECORDER : Fld := ⟨28, 28⟩
def fQ_GROUP : Fld := ⟨27, 26⟩
def fQ_CURGRP : Fld := ⟨25, 25⟩
def fQ_DEGR : Fld := ⟨24, 24⟩
def fQ_PRI : Fld := ⟨23, 21⟩
def fQ_ENDPOINT : Fld := ⟨11, 0⟩
def fQ_BASE_LO : Fld := ⟨31, 6⟩
def fQ_BASE_HI : Fld := ⟨7, 0⟩
def fQ_ALL : Fld := ⟨31, 0⟩
def fQ_RD_HI : Fld := ⟨15, 8⟩
def fQ_WR_HI : Fld := ⟨7, 0⟩
def fQ_RSEQ : Fld := ⟨31, 16⟩
def fQ_DROPS : Fld := ⟨15, 0⟩
def fQ_ON_SAFE : Fld := ⟨31, 31⟩
def fQ_ON_FAULT : Fld := ⟨30, 30⟩
def fQ_ON_HOST : Fld := ⟨29, 29⟩
def fQ_FROZEN : Fld := ⟨28, 28⟩
def fQ_FREEZING : Fld := ⟨27, 27⟩
def fQ_FRZ_CAUSE : Fld := ⟨26, 24⟩
def fQ_POST : Fld := ⟨23, 0⟩

/-- Queue `q` is enabled. -/
def Mach.qOn (m : Mach) (q : Nat) : Bool := m.flag (qdesc q 0) fQ_EN
/-- Queue `q` is a recorder ring. -/
def Mach.qRing (m : Mach) (q : Nat) : Bool := m.flag (qdesc q 0) fQ_RECORDER
/-- The buffer address of queue `q`. -/
def Mach.qBase (m : Mach) (q : Nat) : Nat :=
  2 ^ 32 * m.fld (qdesc q 2) fQ_BASE_HI + 64 * m.fld (qdesc q 1) fQ_BASE_LO
/-- The buffer size of queue `q` in bytes. -/
def Mach.qSize (m : Mach) (q : Nat) : Nat := 64 * m.fld (qdesc q 3) fQ_ALL
/-- Where records start in the buffer: after the 64-byte header in a recorder ring (R405). -/
def Mach.qStart (m : Mach) (q : Nat) : Nat := if m.qRing q then 64 else 0
/-- The write offset. -/
def Mach.qWr (m : Mach) (q : Nat) : Nat := 2 ^ 32 * m.fld (qdesc q 6) fQ_WR_HI + m.fld (qdesc q 4) fQ_ALL
/-- The offset of the oldest record kept. -/
def Mach.qRd (m : Mach) (q : Nat) : Nat := 2 ^ 32 * m.fld (qdesc q 6) fQ_RD_HI + m.fld (qdesc q 5) fQ_ALL
/-- The write offset replaced. -/
def Mach.setQWr (m : Mach) (q v : Nat) : Mach :=
  (m.setFld (qdesc q 4) fQ_ALL v).setFld (qdesc q 6) fQ_WR_HI (v / 2 ^ 32)
/-- The offset of the oldest record replaced. -/
def Mach.setQRd (m : Mach) (q v : Nat) : Mach :=
  (m.setFld (qdesc q 5) fQ_ALL v).setFld (qdesc q 6) fQ_RD_HI (v / 2 ^ 32)
/-- An offset `n` bytes further, continuing at the start of the record area at the buffer's end (R401). -/
def Mach.qStep (m : Mach) (q off n : Nat) : Nat :=
  let len := m.qSize q - m.qStart q
  if len = 0 then off else m.qStart q + (off - m.qStart q + n) % len
/-- Bytes placed in the buffer of a queue from an offset on. -/
def Mach.qPut (m : Mach) (q off : Nat) : List Byte → Mach
  | [] => m
  | b :: t => (m.setByte (m.qBase q + off) b).qPut q (m.qStep q off 1) t
/-- `n` bytes of the buffer of a queue from an offset on. -/
def Mach.qGet (m : Mach) (q off : Nat) : Nat → List Byte
  | 0 => []
  | n + 1 => m.byte (m.qBase q + off) :: m.qGet q (m.qStep q off 1) n
/-- LEVEL follows the bytes held, in 64-byte units rounded up. -/
def Mach.qLevel (m : Mach) (q : Nat) : Mach := m.setFld (qdesc q 14) fQ_ALL (divCeil (m.q q).held 64)
/-- DROPS counts `n` records, and the next DATA packet shows DROP (R395). -/
def Mach.qDrop (m : Mach) (q n : Nat) : Mach :=
  (m.satAdd (qdesc q 8) fQ_DROPS n).modQ q (fun x => { x with dropped := true })
/-- The payload length of the oldest record. -/
def Mach.qHeadLen (m : Mach) (q : Nat) : Nat := leNat (m.qGet q (m.qRd q) 4) % 2 ^ 13
/-- The oldest record leaves the buffer. -/
def Mach.qPop (m : Mach) (q : Nat) : Mach :=
  let n := 4 + m.qHeadLen q
  ((m.setQRd q (m.qStep q (m.qRd q) n)).modQ q (fun x => { x with held := x.held - n, recs := x.recs - 1 })).qLevel q
/-- The bytes a buffer can hold. -/
def Mach.qRoom (m : Mach) (q : Nat) : Nat := m.qSize q - m.qStart q
/-- A record of `n` bytes fits beside the records held. -/
def Mach.qFits (m : Mach) (q n : Nat) : Bool := decide ((m.q q).held + 4 + n ≤ m.qRoom q)
/-! ### Egress of queues (R403) -/

/-- The payload lengths of the first `k` records from an offset on. -/
def Mach.qLens (m : Mach) (q off : Nat) : Nat → List Nat
  | 0 => []
  | k + 1 =>
    let n := leNat (m.qGet q off 4) % 2 ^ 13
    n :: m.qLens q (m.qStep q off (4 + n)) k

/-- The payload length of a packet of the records with the given lengths: one record goes alone, several each follow a
word (R395). -/
def packLength : List Nat → Nat
  | [n] => n
  | l => (l.map (fun n => 4 + n)).sum

/-- How many of the oldest records go into one packet: as many as PACK_MAX and the credit allow, the first whatever
PACK_MAX says (R403). -/
def packCount (pack credit : Nat) : List Nat → List Nat → Nat
  | _, [] => 0
  | taken, n :: t =>
    let l := packLength (taken ++ [n])
    if (!taken.isEmpty && decide (pack < l)) || (credit != 0xFFFFFFFF && decide (credit < divCeil l 64)) then taken.length
    else if t.isEmpty then taken.length + 1 else packCount pack credit (taken ++ [n]) t

/-- PACK_MAX, values outside 64 to 4,096 taken as the nearer limit. -/
def Mach.packMax (m : Mach) : Nat := min 4096 (max 64 (m.fld aQMG_CFG fQMG_CFG_PACK_MAX))

/-- How many records the next packet of queue `q` takes. -/
def Mach.qPlan (m : Mach) (q : Nat) : Nat :=
  packCount m.packMax (m.fld (qdesc q 7) fQ_ALL) [] (m.qLens q (m.qRd q) (min 255 (m.q q).recs))

/-- The group a queue uses now. -/
def Mach.qGroup (m : Mach) (q : Nat) : Nat := m.fld (qdesc q 0) fQ_CURGRP

/-- Egress of a group is held as if without credit (R504). -/
def Mach.egressHeld (m : Mach) (g : Nat) : Bool :=
  m.pertActs && m.flag aTST_PERT1 fTST_PERT1_EN && (m.fld aTST_PERT1 fTST_PERT1_GMASK).testBit g

/-- Queue `q` is in egress arbitration (R403): active, no recorder ring, records held that its buffer still delivers, its
group BONDED, and credit for a packet. -/
def Mach.qEligible (m : Mach) (q : Nat) : Bool :=
  m.qOn q && !m.qRing q && !m.flag (qdesc q 0) fQ_DEGR && (m.q q).recs != 0 && m.bonded (m.qGroup q)
    && !m.egressHeld (m.qGroup q) && m.qPlan q != 0

/-- The cycle since which a queue's packet has been eligible follows its state (R417). -/
def Mach.qMark (m : Mach) (q : Nat) : Mach :=
  if m.qEligible q then m.modQ q (fun x => { x with eligible := some (x.eligible.getD m.cyc) })
  else m.modQ q (fun x => { x with eligible := none })

/-- The queues whose descriptor has EN set. -/
def Mach.queuesOn (m : Mach) : List Nat :=
  m.regs.filterMap (fun (a, w) =>
    if decide (0x8200000 ≤ a) && decide (a < 0x8400000) && decide (a % 64 = 0) && fQ_EN.get w == 1
    then some ((a - 0x8200000) / 64) else none)

/-- Every active queue marked. -/
def Mach.qMarkAll (m : Mach) : Mach := m.queuesOn.foldl Mach.qMark m

/-- The queue refuses as a frozen or degraded queue does (R402). -/
def Mach.qShut (m : Mach) (q : Nat) : Bool := m.flag (qdesc q 9) fQ_FROZEN || m.flag (qdesc q 0) fQ_DEGR
/-- The queue is held full by the perturbation of R504. -/
def Mach.qPert (m : Mach) (q : Nat) : Bool :=
  m.pertActs && m.flag aTST_PERT1 fTST_PERT1_EN && m.fld aTST_PERT1 fTST_PERT1_QUEUE == q
/-- A record taken into the buffer: prefix, bytes, RSEQ, LEVEL, notification cause 4 (R398, R401, R402); a ring that
records after its trigger counts the record against POST (R405). -/
def Mach.qAccept (m : Mach) (q : Nat) (r : List Byte) : Mach :=
  let seq := m.fld (qdesc q 8) fQ_RSEQ
  let n := 4 + r.length
  let before := m.fld (qdesc q 14) fQ_ALL
  let m1 := (m.qPut q (m.qWr q) (leBytes 4 (2 ^ 16 * seq + r.length) ++ r)).setQWr q (m.qStep q (m.qWr q) n)
  let m2 := (m1.setFld (qdesc q 8) fQ_RSEQ (seq + 1)).modQ q
    (fun x => { x with held := x.held + n, recs := x.recs + 1, postLeft := x.postLeft - n })
  let m3 := (m2.qLevel q).qMark q
  let at_ := m.fld (qdesc q 13) fQ_ALL
  let now := m3.fld (qdesc q 14) fQ_ALL
  if at_ ≠ 0 ∧ before < at_ ∧ at_ ≤ now then m3.raise (q / 4096) 4 (leBytes 4 q ++ leBytes 4 now) else m3
/-- The oldest whole records discarded until one of `n` bytes fits (R402 OVERWRITE); at most `k` of them. -/
def Mach.qEvict (m : Mach) (q n : Nat) : Nat → Mach
  | 0 => m
  | k + 1 => if m.qFits q n || (m.q q).recs == 0 then m else ((m.qPop q).qDrop q 1).qEvict q n k

/-- What becomes of an offered record. -/
inductive Offered | accepted | refused | waits
deriving DecidableEq, Repr

/-- The place of an offerer among offers of one cycle: engines by number, PTS after them (R402). -/
def Offerer.rank : Offerer → Nat
  | .eng e => e | .pts s => 1000 + s | .rej => 2000 | .cam => 2001 | .hk => 2002

/-- An offer placed among those that wait: in order of arrival, within one cycle by rank (R91, R402). -/
def insertOffer (o : Offer) : List Offer → List Offer
  | [] => [o]
  | x :: t => if x.cyc < o.cyc ∨ (x.cyc = o.cyc ∧ x.by_.rank ≤ o.by_.rank) then x :: insertOffer o t else o :: x :: t

/-- A record offered to a queue (R402). `who` waits under BLOCK when `canWait`; an offerer that never waits treats
BLOCK as DROP. -/
def Mach.offer (m : Mach) (q : Nat) (who : Offerer) (canWait : Bool) (r : List Byte) : Mach × Offered :=
  let full := !m.qFits q r.length || m.qPert q
  if !m.qOn q || m.qShut q then (m.qDrop q 1, .refused)
  else
    let pol := m.fld (qdesc q 0) fQ_POLICY
    if pol = 1 ∧ canWait then
      if full || !(m.q q).waiters.isEmpty then
        (m.modQ q (fun x => { x with waiters := insertOffer { by_ := who, bytes := r, cyc := m.cyc } x.waiters }), .waits)
      else (m.qAccept q r, .accepted)
    else if !full then (m.qAccept q r, .accepted)
    else if pol = 2 ∧ !m.qPert q ∧ 4 + r.length ≤ m.qRoom q then
      ((m.qEvict q r.length (m.q q).recs).qAccept q r, .accepted)
    else (m.qDrop q 1, .refused)

/-- The offers of `who` that wait on queue `q` are withdrawn (R402). -/
def Mach.withdraw (m : Mach) (q : Nat) (who : Offerer) : Mach :=
  m.modQ q (fun x => { x with waiters := x.waiters.filter (fun o => o.by_ != who) })

/-- The 16 descriptor words of a queue, as the ring header holds them (R405). -/
def Mach.qHeader (m : Mach) (q : Nat) : List Byte :=
  ((List.range 16).map (fun k => leBytes 4 (m.reg (qdesc q k)).toNat)).flatten

/-- The ring header written at the start of the buffer (R405). -/
def Mach.writeHeader (m : Mach) (q : Nat) : Mach :=
  (m.setBytes (m.qBase q) (m.qHeader q)).modQ q (fun x => { x with hdrCyc := m.cyc })

/-- FROZEN sets, the header is written and cause 3 raised in the queue's context (R405, R398). -/
def Mach.frozen (m : Mach) (q : Nat) : Mach :=
  let m := (m.setFld (qdesc q 9) fQ_FROZEN 1).setFld (qdesc q 9) fQ_FREEZING 0
  let m := m.writeHeader q
  m.raise (q / 4096) 3 (leBytes 4 q ++ leBytes 4 (m.fld (qdesc q 9) fQ_FRZ_CAUSE) ++ m.bytes (m.qBase q + 40) 12)

/-- The trigger of a freeze with cause code `k` reaches ring `q` (R405): ignored while the ring is freezing or frozen, but for
the cause of triggers of one cycle, of which the lowest code is recorded. -/
def Mach.freeze (m : Mach) (q k : Nat) : Mach :=
  if m.flag (qdesc q 9) fQ_FROZEN || m.flag (qdesc q 9) fQ_FREEZING then
    if (m.q q).frzCyc = m.cyc ∧ k < m.fld (qdesc q 9) fQ_FRZ_CAUSE then m.setFld (qdesc q 9) fQ_FRZ_CAUSE k else m
  else
    let m := (m.setFld (qdesc q 9) fQ_FREEZING 1).setFld (qdesc q 9) fQ_FRZ_CAUSE k
    let st := m.stamp.bytes
    let m := (List.range 3).foldl (fun s i =>
      s.setReg (qdesc q (10 + i)) (word (leNat ((st.drop (4 * i)).take 4)))) m
    let m := m.modQ q (fun x => { x with
      frzCyc := m.cyc, postLeft := if k = 4 then 0 else 4096 * m.fld (qdesc q 9) fQ_POST })
    m.when (k == 4) (fun m => m.frozen q)

/-- A freeze trigger for every enabled recorder ring with the given ON_ bit. -/
def Mach.freezeAll (m : Mach) (on : Fld) (k : Nat) : Mach :=
  m.queuesOn.foldl (fun s q => if s.qRing q && s.flag (qdesc q 9) on then s.freeze q k else s) m

/-! ## Commit groups (R31) -/

/-- The instances of the registers of a block that lie in one page and belong to one commit group. -/
def groupRegs (b : Blk) (page grp : Nat) : List (Nat × Word) :=
  (regsOf b).flatMap (fun r =>
    if r.group.isNone then []
    else
      let n := r.dims.foldl (fun k d => k * d.1) 1
      let rec go : List (Nat × Nat) → Nat → List (List Nat × Nat)
        | [], a => [([], a)]
        | (c, st) :: ds, a => (List.range c).flatMap (fun i => (go ds (a + st * i)).map (fun p => (i :: p.1, p.2)))
      if n = 0 then [] else
      (go r.dims r.base).filterMap (fun (ix, a) =>
        if a / 4096 * 4096 = page ∧ r.groupOf ix = some grp then some (a, r.committed) else none))

/-- The committed fields of a group move from shadow to active, its PENDING bit clears (R31). -/
def Mach.copyGroup (m : Mach) (b : Blk) (page grp : Nat) : Mach :=
  let m := (groupRegs b page grp).foldl (fun s (a, mask) =>
    s.setReg a ((s.reg a &&& ~~~ mask) ||| (s.shadowReg a &&& mask))) m
  { m with commits := m.commits.filter (fun c => !(c.page == page && c.grp == grp)) }

/-- A commit of the group is pending (R33). -/
def Mach.isPending (m : Mach) (page grp : Nat) : Bool := m.commits.any (fun c => c.page == page && c.grp == grp)

/-- A pending commit whose hold, if any, has ended (R35). -/
def Mach.ready (m : Mach) (page grp : Nat) : Bool :=
  m.commits.any (fun c => c.page == page && c.grp == grp && c.trig.isNone)

/-- APPLIED of a page counts one boundary (R31). -/
def Mach.applied (m : Mach) (page : Nat) : Mach :=
  m.setReg (page + 0x7FC) ((Fld.mk 15 0).set (m.reg (page + 0x7FC)) ((Fld.mk 15 0).get (m.reg (page + 0x7FC)) + 1))

/-- The groups of a boundary that are pending and not held apply together, and APPLIED counts once (R31). -/
def Mach.applyGroups (m : Mach) (b : Blk) (page : Nat) (grps : List Nat) : Mach :=
  let now := grps.filter (m.ready page)
  if now.isEmpty then m else (now.foldl (fun s g => s.copyGroup b page g) m).applied page

end Sys2Proof.Machine
end

