-- ==== Sys2Proof/Machine/ErgOps.lean ====
section
/-!
DEFINITION. Banks, cells and dispatch queues as other blocks see them (R255, R265 to R271, R275 to R277): the state of a
bank, the ring of a port, closing a cell, releasing a bank, and the queues of handles.
-/
namespace Sys2Proof.Machine

/-- Port `n`. -/
def Mach.p (m : Mach) (n : Nat) : Port := mapGet Port.reset m.port n
/-- Port `n` changed. -/
def Mach.modP (m : Mach) (n : Nat) (f : Port → Port) : Mach := { m with port := mapPut Port.reset m.port n (f (m.p n)) }
/-- Axis `a`. -/
def Mach.ax (m : Mach) (a : Nat) : Axis := mapGet Axis.reset m.axis a
/-- Axis `a` changed. -/
def Mach.modAx (m : Mach) (a : Nat) (f : Axis → Axis) : Mach := { m with axis := mapPut Axis.reset m.axis a (f (m.ax a)) }
/-- Pool `p`. -/
def Mach.pl (m : Mach) (p : Nat) : Pool := mapGet Pool.reset m.pool p
/-- Tile `t`. -/
def Mach.tile (m : Mach) (t : Nat) : Tile := mapGet Tile.reset m.tdc.tiles t
/-- Tile `t` changed. -/
def Mach.modTile (m : Mach) (t : Nat) (f : Tile → Tile) : Mach :=
  { m with tdc := { m.tdc with tiles := mapPut Tile.reset m.tdc.tiles t (f (m.tile t)) } }

/-! ## Banks (R254, R255, R265) -/

/-- The first address of bank `b` in the erg data window. -/
def bankBase (b : Nat) : Nat := 0x4000000 + 0x10000 * b
/-- The reserved part of a bank, which reads 0. -/
def bankResv (off : Nat) : Bool := decide (0x1300 ≤ off) && decide (off < 0x4000)
/-- STATE of a bank: 0 UNASSIGNED, 1 FREE, 2 ACTIVE, 3 DONE, 4 HELD, 5 FAILED. -/
def Mach.bankSt (m : Mach) (b : Nat) : Nat := m.fld (aERG_BANK b) fERG_BANK_STATE
/-- STATE of a bank replaced. -/
def Mach.setBankSt (m : Mach) (b v : Nat) : Mach := m.setFld (aERG_BANK b) fERG_BANK_STATE v
/-- GEN of a bank. -/
def Mach.bankGen (m : Mach) (b : Nat) : Nat := m.fld (aERG_BANK b) fERG_BANK_GEN
/-- The port a bank is assigned to. -/
def Mach.bankPort (m : Mach) (b : Nat) : Nat := m.fld (aERG_BANK b) fERG_BANK_PORT
/-- The banks of a port, FAILED ones excluded, ascending. -/
def Mach.banksOf (m : Mach) (p : Nat) : List Nat :=
  (List.range 192).filter (fun b => m.bankPort b == p && m.flag (aERG_BANK b) fERG_BANK_EN && m.bankSt b != 5)
/-- Every valid bit of a bank cleared: it reads as zeros (R255). -/
def Mach.clearBank (m : Mach) (b : Nat) : Mach :=
  { m with mem := m.mem.filter (fun c => !(decide (bankBase b ≤ c.1) && decide (c.1 < bankBase b + 0x10000))) }
/-- The next FREE bank of a port in its ring after the last one used (R266). -/
def Mach.freeBank (m : Mach) (p : Nat) : Option Nat :=
  let free := (m.banksOf p).filter (fun b => m.bankSt b == 1)
  match (m.p p).lastBank with
  | none => free.head?
  | some l => (free.filter (fun b => decide (l < b)) ++ free.filter (fun b => decide (b ≤ l))).head?
/-- A 16-bit handle word (R270). -/
def Handle.word (h : Handle) : Nat := 256 * h.gen + h.bank

/-- ERG_PSTAT of a port follows its cells and banks. -/
def Mach.pstat (m : Mach) (p : Nat) : Mach :=
  let a := aERG_PSTAT p
  let banks := m.banksOf p
  let c := (m.p p).cells.getLast?
  let m := m.setFld a fERG_PSTAT_OPEN (bit (match c with | some c => !c.closed | none => false))
  let m := m.setFld a fERG_PSTAT_CSHOTS (match c with | some c => c.done | none => 0)
  let m := m.setFld a fERG_PSTAT_NBANKS banks.length
  m.setFld a fERG_PSTAT_ACTIVE (match c with | some c => c.bank | none => 0xFF)

/-- The open cell of a port, if it has one. -/
def Port.openCell (x : Port) : Option Cell :=
  match x.cells.getLast? with
  | some c => if c.closed then none else some c
  | none => none

/-- A port's newest cell replaced. -/
def Port.setLast (x : Port) (c : Cell) : Port := { x with cells := x.cells.dropLast ++ [c] }

/-- The open cell of a port closes early (R135, R268, R269); it swaps when its shots have settled, or in this cycle when 16 cycles have
passed since the last of them did. -/
def Mach.closeCell (m : Mach) (p : Nat) : Mach :=
  match (m.p p).openCell with
  | none => m
  | some c => (m.modP p (fun x => x.setLast { c with closed := true, last := max c.last (m.cyc - 16) })).pstat p

/-! ## Ownership of ports (EMT_PORTOWN) -/

/-- The sequencer that owns a port. -/
def Mach.ownerOf (m : Mach) (p : Nat) : Option Nat :=
  let j := p % 6
  let w := aEMT_PORTOWN (p / 6)
  if m.fld w ⟨5 * j + 4, 5 * j + 4⟩ = 1 then some (m.fld w ⟨5 * j + 3, 5 * j⟩) else none
/-- The ports a sequencer owns. -/
def Mach.ownedBy (m : Mach) (n : Nat) : List Nat := (List.range 96).filter (fun p => m.ownerOf p == some n)
/-- The open cells of the ports a sequencer owns close (R269). -/
def Mach.closeOwned (m : Mach) (n : Nat) : Mach := (m.ownedBy n).foldl Mach.closeCell m

/-! ## Dispatch queues (R275, R276) -/

/-- The pool a port belongs to now. -/
def Mach.portPool (m : Mach) (p : Nat) : Nat := m.fld (aRNG_PORTPOOL (p / 8)) ⟨4 * (p % 8) + 2, 4 * (p % 8)⟩
/-- The pool of range engine `n`. -/
def Mach.poolOf (m : Mach) (n : Nat) : Nat := m.fld (aRNG_POOL n) fRNG_POOL_POOL
/-- The members of a pool. -/
def Mach.members (m : Mach) (p : Nat) : List Nat := (List.range 256).filter (fun n => m.poolOf n == p)

/-- Pool `p` changed; RNG_DQ follows. -/
def Mach.modPool (m : Mach) (p : Nat) (f : Pool → Pool) : Mach :=
  let m := { m with pool := mapPut Pool.reset m.pool p (f (m.pl p)) }
  let a := aRNG_DQ p
  let d := (m.pl p).queue.length
  let m := (m.setFld a fRNG_DQ_DEPTH d).setFld a fRNG_DQ_WAITERS (m.pl p).waiters.length
  m.setFld a fRNG_DQ_HWM (max (m.fld a fRNG_DQ_HWM) d)

/-- A bank is released under a generation (R270): with its current GEN it empties and becomes FREE, UNASSIGNED or, after
an uncorrectable error, FAILED; with another GEN the release counts as stale. -/
def Mach.releaseBank (m : Mach) (b gen : Nat) : Mach :=
  if m.bankGen b ≠ gen then m.satInc aERG_STAT fERG_STAT_STALE_REL
  else
    let bad := (m.byte (bankBase b + 0xF)).getLsbD 0
    let m := m.clearBank b
    let m := m.setBankSt b (if bad then 5 else if m.flag (aERG_BANK b) fERG_BANK_EN then 1 else 0)
    m.pstat (m.bankPort b)

end Sys2Proof.Machine
end

