-- ==== Sys2Proof/Machine/SafOps.lean ====
section
/-!
DEFINITION. Safety operations other chapters need: the fields of the active safety image (R424), the switching off of an
OSSD pair (R447), lockout and safety faults (R455), safety events and the messages the device sends (R454, R456).
-/
namespace Sys2Proof.Machine

/-- Active copy A of the safety image, and copy B, which channel B's hardware uses (R421, R424). -/
def safImgA : Nat := 0xA080000
def safImgB : Nat := 0xA0C0000

/-- A word of the active safety image. -/
def Mach.safW (m : Mach) (off : Nat) : Nat := m.mnat (safImgA + off) 4

def Mach.safClearn (m : Mach) : Nat := m.safW 0x14 / 2 ^ 24
def Mach.safMulti (m : Mach) : Nat := m.safW 0x14 / 2 ^ 20 % 16
/-- T_EVAL in core cycles. -/
def Mach.safPeriod (m : Mach) : Nat := 800 * (m.safW 0x14 % 2 ^ 20)
def Mach.safBsv (m : Mach) : Nat := m.safW 0x18 / 2 ^ 31
def Mach.safCmpn (m : Mach) : Nat := m.safW 0x18 / 2 ^ 16 % 256
def Mach.safTblat (m : Mach) : Nat := 800 * (m.safW 0x18 % 2 ^ 16)
def Mach.safMinhits (m : Mach) : Nat := m.safW 0x1C / 2 ^ 24 % 16
def Mach.safObjx (m : Mach) : Nat := m.safW 0x1C / 2 ^ 16 % 16
def Mach.safNearmin (m : Mach) : Nat := m.safW 0x1C % 2 ^ 16
def Mach.safFswT (m : Mach) : Nat := 800000 * (m.safW 0x20 / 2 ^ 16)
def Mach.safFsrc (m : Mach) : Nat := m.safW 0x20 / 2 ^ 8 % 4
def Mach.safHctxmask (m : Mach) : Nat := m.safW 0x20 % 256
def Mach.safSkew (m : Mach) : Nat := 800 * (m.safW 0x24 / 2 ^ 16)
def Mach.safMsgTmo (m : Mach) : Nat := 800000 * (m.safW 0x24 % 2 ^ 16)
def Mach.safOffp (m : Mach) : Nat := 800000 * (m.safW 0x28 / 2 ^ 24)
def Mach.safOfft (m : Mach) : Nat := 800 * (m.safW 0x28 / 2 ^ 16 % 256)
def Mach.safFbt (m : Mach) : Nat := 800 * (m.safW 0x28 / 2 ^ 8 % 256)
def Mach.safRstmode (m : Mach) (p : Nat) : Nat := m.safW 0x28 / 2 ^ (2 * p) % 4
def Mach.safTpp (m : Mach) : Nat := 800000 * (m.safW 0x2C / 2 ^ 8 % 2 ^ 16)
def Mach.safTpw (m : Mach) : Nat := 800 * (m.safW 0x2C % 256)
/-- Port p is field-relevant. -/
def Mach.safFport (m : Mach) (p : Nat) : Bool := (m.safW (0x30 + 4 * (p / 32))).testBit (p % 32)
def Mach.safInType (m : Mach) (i : Nat) : Nat := m.safW (0x40 + 4 * i) % 16
def Mach.safInAnti (m : Mach) (i : Nat) : Bool := (m.safW (0x40 + 4 * i)).testBit 4
def Mach.safInTpen (m : Mach) (i : Nat) : Bool := (m.safW (0x40 + 4 * i)).testBit 5
def Mach.safInMask (m : Mach) (i : Nat) : Nat := m.safW (0x40 + 4 * i) / 2 ^ 8 % 4
def Mach.safInDisc (m : Mach) (i : Nat) : Nat := 8000000 * max 1 (m.safW (0x40 + 4 * i) / 2 ^ 16 % 256)

/-- The OSSD pair `p`. -/
def Mach.ossd (m : Mach) (p : Nat) : Ossd := mapGet Ossd.reset m.saf.ossd p
/-- The OSSD pair `p` changed. -/
def Mach.modOssd (m : Mach) (p : Nat) (f : Ossd → Ossd) : Mach :=
  { m with saf := { m.saf with ossd := mapPut Ossd.reset m.saf.ossd p (f (m.ossd p)) } }
/-- The state code of pair `p`: 0 OFF, 1 TEST_HS, 2 TEST_LS, 3 ON, 4 LOCKOUT. -/
def Mach.ossdSt (m : Mach) (p : Nat) : Nat := m.fld (aSAF_OSSD p) fSAF_OSSD_STATE

/-- The bytes of a message the device sends: MSN, KIND, arguments, SEQNO and SCHK (R451, R454). -/
def Mach.safBytes (m : Mach) (kind : Nat) (args : List Nat) : List Byte :=
  let body := leBytes 4 m.saf.txMsn ++ leBytes 4 kind ++ (args.map (leBytes 4)).flatten
    ++ leBytes 4 (m.fld aSAF_SEQNO fSAF_SEQNO_SEQNO)
  body ++ leBytes 4 (crc32c (leBytes 4 (m.safW 0x10) ++ body))

/-- The heartbeat holds: no timeout is set, or a message has been matched within it (R453). -/
def Mach.heart (m : Mach) : Bool := m.flag aSAF_STAT fSAF_STAT_HEART

/-- The arguments of STATUS and EVENT messages (R454). -/
def Mach.safArgs (m : Mach) : List Nat :=
  let b (p : Nat) (f : Fld) := m.fld (aSAF_OSSD p) f
  [ m.fld aSAF_PERIOD fSAF_PERIOD_PERIOD,
    m.fld aSAF_FIELD fSAF_FIELD_SET + 2 ^ 7 * m.fld aSAF_STAT fSAF_STAT_FSWERR + 2 ^ 8 * m.ossdSt 0
      + 2 ^ 12 * m.ossdSt 1 + 2 ^ 16 * b 0 fSAF_OSSD_VA + 2 ^ 17 * b 1 fSAF_OSSD_VA + 2 ^ 18 * b 0 fSAF_OSSD_VB
      + 2 ^ 19 * b 1 fSAF_OSSD_VB + 2 ^ 20 * bit m.heart,
    ((List.range 8).map (fun i => 2 ^ (4 * i) * m.fld (aSAF_IN i) fSAF_IN_STATE_A)).sum,
    m.fld aSAF_STAT fSAF_STAT_FCAUSE ]

/-- A message of the given kind sent on each BONDED group with the same bytes; the MSN counts up (R454). -/
def Mach.sendSafe (m : Mach) (kind : Nat) : Mach :=
  let p : Pkt := { ty := 0x18, ctx := m.safetyCtx, queue := 0, seq := 0
                   spec := leBytes 4 m.saf.txMsn ++ leBytes 2 kind, payload := m.safBytes kind m.safArgs }
  let m := (List.range 2).foldl (fun s g =>
    if s.bonded g then s.modG g (fun x => { x with safeq := x.safeq ++ [p] }) else s) m
  { m with saf := { m.saf with txMsn := (m.saf.txMsn + 1) % 2 ^ 32 } }

/-- A safety event: recorder rings with ON_SAFE freeze and an EVENT message goes out (R454, R456). -/
def Mach.safetyEvent (m : Mach) : Mach := (m.freezeAll fQ_ON_SAFE 1).sendSafe 0x82

/-- Both switches of pair `p` go off and its state becomes `st`, with an OFFCAUSE (R447, R450). A pair that was on or
switching on counts a switch-off and, under RSTMODE 1 or before it was first ON after activation, needs a RESTART (R449). -/
def Mach.ossdTo (m : Mach) (p st cause : Nat) : Mach :=
  let was := m.ossdSt p
  let on := was == 1 || was == 2 || was == 3
  let m := ((m.setFld (aSAF_OSSD p) fSAF_OSSD_STATE st).setFld (aSAF_OSSD p) fSAF_OSSD_HS 0).setFld (aSAF_OSSD p) fSAF_OSSD_LS 0
  let m := m.when (on || st == 4) (fun m => m.setFld (aSAF_OSSD p) fSAF_OSSD_OFFCAUSE cause)
  let m := m.when on (fun m => m.satInc (aSAF_VIOL p) fSAF_VIOL_OFFS)
  let need := (m.ossd p).needRst || (on && (m.safRstmode p == 1 || !(m.ossd p).been))
  let m := m.modOssd p (fun x => { x with needRst := need, checkDue := none, testing := false, acked := false })
  m.setFld (aSAF_OSSD p) fSAF_OSSD_WAIT_RST (bit need)

/-- A condition of R447 fails for pair `p`: a pair that is on or switching on goes OFF; a low-side switch that channel B still holds
on after channel A's verdict goes off as well (R433). A pair that leaves ON for a reason
other than a device-state change is a safety event (R456). -/
def Mach.ossdOff (m : Mach) (p cause : Nat) : Mach :=
  let was := m.ossdSt p
  if was = 1 ∨ was = 2 ∨ was = 3 then
    let m := m.ossdTo p 0 cause
    m.when (was == 3 && cause != 5) Mach.safetyEvent
  else m.setFld (aSAF_OSSD p) fSAF_OSSD_LS 0

/-- Both pairs go off. -/
def Mach.ossdOffAll (m : Mach) (cause : Nat) : Mach := (m.ossdOff 0 cause).ossdOff 1 cause

end Sys2Proof.Machine
end

