-- ==== Sys2Proof/Machine/Oasis.lean ====
section
/-!
DEFINITION. What a fault does outside its own block: fault reports and their records (R488 to R493), entry to OASIS
(R52, R53, R56, R153), guard faults (R218), safety faults (R455), a lost arming condition (R57), and the changes of an
engine's state with their cycle counts (R99, R105).
-/
namespace Sys2Proof.Machine

/-! ## Engines -/

/-- The engine classes of R16. -/
inductive EngClass | re | sq | ae | sv
deriving DecidableEq, Repr

/-- The class of an engine number (R67). -/
def engClass (e : Nat) : EngClass := if e < 256 then .re else if e < 272 then .sq else if e < 280 then .ae else .sv

/-- The instance of an engine within its class (R67). -/
def engInst (e : Nat) : Nat := if e < 256 then e else if e < 272 then e - 256 else if e < 280 then e - 272 else e - 280

/-- The block window of an engine class (R102). -/
def EngClass.blk : EngClass → Blk
  | .re => .rng | .sq => .seq | .ae => .axs | .sv => .sup

/-- The register page of an engine (R102). -/
def engPage (e : Nat) : Nat := (engClass e).blk.page (engInst e)

/-- The source ID of an engine (R488). -/
def engSrc (e : Nat) : Nat :=
  2 ^ 11 * (match engClass e with | .re => 0x0C | .sq => 0x04 | .ae => 0x07 | .sv => 0x02) + engInst e

/-- A source ID from class and instance (R488). -/
def srcId (cls inst : Nat) : Nat := 2 ^ 11 * cls + inst

/-- The engine is RUNNING or WAITING. -/
def Engine.active (x : Engine) : Bool := x.st == .running || x.st == .waiting

/-- The cycle counts brought up to cycle `c` (CYCLES and WAITCYC). -/
def Engine.settle (x : Engine) (c : Nat) : Engine :=
  { x with busyAcc := if x.active then x.busyAcc + (c - x.since) else x.busyAcc
           waitAcc := if x.st == .waiting then x.waitAcc + (c - x.since) else x.waitAcc
           since := c }

/-- The engine in another state from cycle `c` on, waiting for nothing. -/
def Engine.enter (x : Engine) (c : Nat) (s : EngState) : Engine := { x.settle c with st := s, wait := .none }

/-- The engine waits from cycle `c` on, for `w`, with destination `rd` and a timeout of `limit` cycles (R535). -/
def Engine.block (x : Engine) (c : Nat) (w : Wait) (rd limit : Nat) : Engine :=
  { x.settle c with st := .waiting, wait := w, wrd := rd, issue := c, limit := limit }

/-- The engine leaves every semaphore queue, every queue of waiting offers, the take queue and the DRAM requests it stands in. -/
def Mach.leaveQueues (m : Mach) (e : Nat) : Mach :=
  match (m.e e).wait with
  | .sem s => m.setSem s { m.sem s with queue := (m.sem s).queue.filter (fun x => x != e) }
  | .queue q => m.withdraw q (.eng e)
  | .dram _ _ _ _ => { m with dram := { m.dram with reqs := m.dram.reqs.filter (fun r => !(r.cls == 3 && r.who == e)) } }
  | .take => m.modPool (m.poolOf e) (fun x => { x with waiters := x.waiters.filter (fun w => w != e) })
  | _ => m

/-- The engine halts in state `s` with a STOP_CAUSE; a wait ends without its status, an open record is aborted (R99, R105). -/
def Mach.haltEngine (m : Mach) (e : Nat) (s : EngState) (cause : Nat) : Mach :=
  (m.leaveQueues e).modE e (fun x =>
    { x.enter m.cyc s with stopCause := cause, openq := none, recbuf := [], stopping := none })

/-- WALK of every string follows the running walks. -/
def Mach.showWalks (m : Mach) : Mach :=
  (List.range 16).foldl (fun s i => s.setFld (aEMT_STR_STAT i) fEMT_STR_STAT_WALK (bit (s.emt.walks.any (fun w => w.str == i)))) m

/-- Sequencer `n` halts in state `s` with a STOP_CAUSE; its walk ends, and the open cells of the ports it owns close (R269). -/
def Mach.haltSeqAs (m : Mach) (n : Nat) (s : EngState) (cause : Nat) : Mach :=
  let m := { m with emt := { m.emt with walks := m.emt.walks.filter (fun w => w.sq != n) } }
  (m.showWalks.haltEngine (256 + n) s cause).closeOwned n

/-- Sequencer `n` halts at once on entry to OASIS (R52, R106). -/
def Mach.haltSeq (m : Mach) (n : Nat) : Mach :=
  if (m.e (256 + n)).active then m.haltSeqAs n .stopped 4 else m

/-! ## Emitter driver in OASIS -/

/-- The all-off frame: TYPE 0b111, every other field 0, with its check (R147, R153). -/
def allOffFrame : Nat := 7 * 2 ^ 61 + 2 ^ 53 * crc8 56 (7 * 2 ^ 53) 0

/-- A port's shots whose edges are cancelled: recorded as blocked (R153, R264, and the log). -/
def Port.cancelled (x : Port) (now : Nat) : Port :=
  { x with shots := x.shots.map (fun s =>
      if s.status.isNone && decide (now < s.edge) then { s with status := some 2, settle := s.edge, iv := none } else s) }

/-- The shots of every port whose edges have not left are cancelled (R153). -/
def Mach.portsCancel (m : Mach) : Mach := { m with port := m.port.map (fun (p, x) => (p, x.cancelled m.now)) }

/-- On entry to OASIS every edge that has not left is cancelled with the requests and slots, FIRE pairs are held off and
one all-off frame goes out (R153). -/
def Mach.emtOff (m : Mach) : Mach :=
  let m := { m with emt := { m.emt with shots := m.emt.shots.filter (fun s => s.stage == ShotStage.left)
                                        slots := [], walks := [], frame := allOffFrame, latch := m.now } }
  m.showWalks.portsCancel.setFld aEMT_STAT fEMT_STAT_ALLOFF 1

/-! ## OASIS -/

/-- The code of a cause in OASIS_CAUSE. -/
def OasisCause.code : OasisCause → Nat
  | .host => 1 | .fault _ => 2 | .supply _ => 3 | .clock => 4 | .bist => 5 | .arming => 6 | .safety => 7

/-- The cause clears through OASIS_F (R497). -/
def OasisCause.byFault : OasisCause → Bool
  | .fault _ => true | .safety => true | _ => false

/-- The device enters OASIS for a cause, from any state but OFF and SHUTDOWN (R53): sequencers halt, EMT holds its outputs
off, the OSSD pairs go off (R51, R52). A cause that arises in OASIS is kept beside the one of entry (R56). -/
def Mach.enterOasis (m : Mach) (c : OasisCause) : Mach :=
  if m.dev.st = .off ∨ m.dev.st = .shutdown then m
  else
    let m := m.when c.byFault (fun m => m.setFld aFLT_STAT fFLT_STAT_OASIS_F 1)
    if m.dev.st = .oasis then { m with dev := { m.dev with causes := m.dev.causes ++ [c] } }
    else
      let m := { m with dev := { m.dev with causes := [c] } }
      let m := (List.range 16).foldl Mach.haltSeq m
      let m := (m.emtOff).ossdOffAll 5
      (m.setFld aGLB_STATE fGLB_STATE_OASIS_CAUSE c.code).goto .oasis

/-! ## Fault records -/

/-- A report joins a record (R490). -/
def FaultRec.join (r : FaultRec) (st : Stamp) (action : Nat) (inj : Bool) : FaultRec :=
  { r with count := satN 16 (r.count + 1), last := st, action := max r.action action, inj := r.inj || inj }

/-- The first record satisfying a test joined by a report, if there is one. -/
def joinFirst (t : FaultRec → Bool) (f : FaultRec → FaultRec) : List FaultRec → Option (List FaultRec)
  | [] => none
  | r :: rs => if t r then some (f r :: rs) else (joinFirst t f rs).map (fun l => r :: l)

/-- A report taken into the records: it joins the open record of its ROOT, opens one, or goes to the overflow record
when 64 are open (R490, R491). -/
def Mach.record (m : Mach) (src root code action : Nat) (inj : Bool) : Mach :=
  let st := m.stamp
  let fresh : FaultRec := { root := root, src := src, code := code, action := action, inj := inj, ovfl := false
                            count := 1, first := st, last := st, due := m.cyc + 8000 }
  let recs :=
    match joinFirst (fun r => !r.ovfl && r.root == root) (fun r => r.join st action inj) m.flt.recs with
    | some l => l
    | none =>
      if (m.flt.recs.filter (fun r => !r.ovfl)).length < 64 then m.flt.recs ++ [fresh]
      else match joinFirst (fun r => r.ovfl) (fun r => r.join st action inj) m.flt.recs with
        | some l => l
        | none => m.flt.recs ++ [{ fresh with root := 0xFFFF, ovfl := true }]
  let n := if m.flt.cyc = m.cyc then m.flt.inCyc + 1 else 1
  let m := { m with flt := { m.flt with recs := recs, cyc := m.cyc, inCyc := n } }
  m.setFld aFLT_STAT fFLT_STAT_OPEN recs.length

/-- A report to the fault manager (R489) with the action its unit takes: 0 report only, 1 failover done, 2 failover
impossible, 3 OASIS, 4 reset, 5 SHUTDOWN. A fault that leads to a failover or to OASIS triggers recorder rings with ON_FAULT
(R405); a class set in OASISMASK enters OASIS (R496). -/
def Mach.reportAs (m : Mach) (src root code action : Nat) (inj : Bool) : Mach :=
  let masked := (m.fld aFLT_OASISMASK fFLT_OASISMASK_MASK).testBit (src / 2 ^ 11)
  let act := if masked then max action 3 else action
  let m := m.record src root code act inj
  let m := m.when (act == 1 || act == 3) (fun m => m.freezeAll fQ_ON_FAULT 2)
  m.when masked (fun m => m.enterOasis (.fault .mask))

/-- A report that is not injected. -/
def Mach.report (m : Mach) (src root code action : Nat) : Mach := m.reportAs src root code action false

/-! ## Guard and safety faults, arming conditions -/

/-- A guard fault (R218): FAULT sets, the configuration is no longer in force, one report, OASIS for cause `c`. -/
def Mach.guardFails (m : Mach) (c : OasisCause) (root : Nat) : Mach :=
  let m := (m.setFld aGRD_STAT fGRD_STAT_FAULT 1).setFld aGRD_STAT fGRD_STAT_ACTIVE 0
  let m := ((m.setFld aGRD_STAT fGRD_STAT_GATE 0).setFld aGRD_STAT fGRD_STAT_MOTION 0).setFld aGRD_STAT fGRD_STAT_MODHOT 0
  let m := (m.setReg (aGRD_SENSE 0) 0).setReg (aGRD_SENSE 1) 0
  let m := { m with grd := { m.grd with firstAct := true } }
  (m.report (srcId 0x06 0) root 0x20 3).enterOasis c

/-- The code a safety fault is reported with (R489, and the log). -/
def safFaultCode : Nat → Nat
  | 1 => 0x28 | 2 => 0x28 | 3 => 0x28 | 4 => 0x27 | 5 => 0x20 | 6 => 0x22 | _ => 0x20

/-- A safety fault with cause `k` (R455): FAULT and the first cause, LOCKOUT of both pairs, one report, a safety event,
OASIS with cause 0x07. -/
def Mach.safetyFault (m : Mach) (k : Nat) : Mach :=
  let m := m.when (!m.flag aSAF_STAT fSAF_STAT_FAULT) (fun m => m.setFld aSAF_STAT fSAF_STAT_FCAUSE k)
  let m := m.setFld aSAF_STAT fSAF_STAT_FAULT 1
  let m := ((m.ossdTo 0 4 7).ossdTo 1 4 7).safetyEvent
  (m.report (srcId 0x10 0) (srcId 0x10 0) (safFaultCode k) 3).enterOasis .safety

/-- An arming condition is lost: the device leaves ARMED or RUNNING for OASIS with cause 0x06 (R57). -/
def Mach.lostArming (m : Mach) : Mach := m.when m.hot (fun m => m.enterOasis .arming)

/-- The arming conditions GRD_OK, SAF_OK, DLL_OK, HKREF_OK now (R57). -/
def Mach.armConds (m : Mach) : List Bool :=
  [m.flag aGRD_STAT fGRD_STAT_ACTIVE, m.flag aSAF_STAT fSAF_STAT_ACTIVE, m.flag aTDC_DLLSTAT fTDC_DLLSTAT_ALL_LOCK,
   m.flag aHK_CTRL fHK_CTRL_HKREF_OK]

/-- Supervisor `n` has stopped: a safety fault when it runs channel B of an active configuration (R455 cause 0x07). -/
def Mach.supervisorDown (m : Mach) (n : Nat) : Mach :=
  m.when (m.flag aSAF_STAT fSAF_STAT_ACTIVE && m.safBsv == n) (fun m => m.safetyFault 7)

/-! ## Losing a handle (R277, R278) -/

/-- RNG_HOLD of a range engine follows its handle and look. -/
def Mach.showHold (m : Mach) (e : Nat) : Mach :=
  if engClass e ≠ .re then m
  else
    let x := m.e e
    let m := m.setFld (aRNG_HOLD e) fRNG_HOLD_HELD (bit x.held.isSome)
    let m := match x.held with | some h => m.setFld (aRNG_HOLD e) fRNG_HOLD_HANDLE h.word | none => m
    match x.look with
    | some k => m.setFld (aRNG_HOLD e) fRNG_HOLD_LPORT k.port
    | none => m

/-- An engine that faults or stops loses its handle: the bank is DONE again and the handle goes to the front of its pool's
queue, unless its re-dispatch count has reached REDISP_MAX: then the cell is abandoned and posted by hardware (R277,
R278). The look ends (R285). -/
def Mach.loseHandle (m : Mach) (e : Nat) : Mach :=
  let m := m.modE e (fun x => { x with look := none })
  match (m.e e).held with
  | none => m.showHold e
  | some h =>
    let p := m.poolOf e
    let m := (m.modE e (fun x => { x with held := none })).setBankSt h.bank 3
    let m := (m.satInc (aRNG_LOSS e) fRNG_LOSS_LOST).showHold e
    if m.fld aRNG_DCFG fRNG_DCFG_REDISP_MAX ≤ h.red then
      let m := (m.modPool p (fun x => { x with lost := x.lost ++ [h] })).satInc (aRNG_DCNT p) fRNG_DCNT_ABANDON
      m.report (srcId 0x0C (256 + p)) (srcId 0x0C (256 + p)) 0x20 0
    else
      (m.modPool p (fun x => { x with queue := { h with red := h.red + 1, at_ := m.cyc } :: x.queue })).satInc
        (aRNG_DCNT p) fRNG_DCNT_REDISP

end Sys2Proof.Machine
end

