-- ==== Sys2Proof/Machine/Access.lean ====
section
/-!
DEFINITION. Who may reach what in control space: contexts by role (R387 to R391), engines by class (R90), nothing but
reads of GLB and CLK/PWR in SHUTDOWN (R52). The status codes of R394 are 0 OK, 1 REFUSED, 2 ADDR, 3 NOACC, 4 MISALIGN,
5 NODRAM, 6 ECC, 7 NOCTX, 8 BADTYPE; for an engine, 3 stands for bus error 0x04 (R90).
-/
namespace Sys2Proof.Machine

/-- An access ends with a status. -/
def Mach.done (m : Mach) (st : Nat) : Mach := { m with status := st }

/-- The offset holds a register that only the Owner and supervisors write: the engine registers of *Lulan instruction set*
in a range engine's window the registers of *Range engines*, in an axis engine's those of its axis. -/
def isEngReg (b : Blk) (off : Nat) : Bool :=
  if b = .rng then decide (off < 0x1000) || (decide (0x2000 ≤ off) && decide (off < 0x2100))
  else if b = .axs then decide (off < 0x1000)
  else (b == .seq || b == .sup) && decide (off < 0x140)

/-- What the Safety context may write of SAF: the staging area, the records, the commit control registers and the W1C
bits (R457). -/
def safCtxOff (off : Nat) : Bool :=
  (decide (0x40000 ≤ off) && decide (off < 0x80000)) || (decide (0x100 ≤ off) && decide (off < 0x200)) || off == 0
    || (decide (0x40 ≤ off) && decide (off < 0x60)) || (decide (0x7E0 ≤ off) && decide (off < 0x800))

/-- A context's right to write an offset of a block (R389, R457, R217, R398, R401). -/
def Mach.ctxWrite (m : Mach) (c : Nat) (b : Blk) (inst off : Nat) : Nat :=
  if !m.ctxOn c then 7
  else if m.dev.st = .shutdown then 1
  else if (b = .glb ∧ off = 8) ∨ (b = .clkpwr ∧ off = 0x20) then 0
  else if b = .saf then (if c = m.safetyCtx ∧ safCtxOff off then 0 else 3)
  else if b = .grd then (if c = m.safetyCtx ∨ c = m.owner then 0 else 3)
  else if c = m.owner then 0
  else if b = .qdesc ∧ inst / 4096 = c ∧ (off = 0x1C ∨ off = 0x24) then 0
  else if b = .qmg ∧ off = 0x30 + 4 * c then 0
  else 3

/-- An engine's right to write an offset of a block (R90, R103, R111, R457). -/
def engWrite (e : Nat) (b : Blk) (inst off : Nat) : Nat :=
  let own := b == (engClass e).blk && inst == engInst e
  match engClass e, b with
  | .sv, .glb | .sv, .clkpwr | .sv, .grd | .sv, .tstfus => 3
  | .sv, .saf => if off = 0x14 ∨ off = 0x30 ∨ off = 0x34 ∨ off = 0x38 then 0 else 3
  | .sv, _ => 0
  | _, .glb | _, .clkpwr | _, .grd | _, .saf | _, .tstfus | _, .time => 3
  | _, .rng | _, .seq | _, .axs | _, .sup => if own && !isEngReg b off then 0 else 3
  | _, _ => 0

/-- The right of a source to write an offset of a block's instance: 0, or the status of the refusal. -/
def Mach.mayWrite (m : Mach) (s : Src) (b : Blk) (inst off : Nat) : Nat :=
  match s with
  | .link c _ => m.ctxWrite c b inst off
  | .eng e => if b = .saf ∧ engInst e ≠ m.safBsv then 3 else engWrite e b inst off

/-- The right of a source to read an offset of a block (R52, R90, R389, R509). -/
def Mach.mayRead (m : Mach) (s : Src) (b : Blk) (off : Nat) : Nat :=
  match s with
  | .link c _ =>
    if !m.ctxOn c then 7
    else if m.dev.st = .shutdown ∧ b ≠ .glb ∧ b ≠ .clkpwr then 1
    else if b = .tstfus ∧ c ≠ m.owner then 3
    else 0
  | .eng e =>
    if b = .tstfus then
      (if engClass e = .sv ∧ ¬ (0x1000 ≤ off ∧ off < 0x1100) then 0 else 3)
    else 0

/-- A write that its source may make takes effect and leaves its own status; any other ends with the status of the
refusal and does nothing (R390). -/
def Mach.asWriter (m : Mach) (s : Src) (b : Blk) (inst off : Nat) (f : Mach → Mach) : Mach :=
  match m.mayWrite s b inst off with
  | 0 => f m
  | st => m.done st

/-- A write that is refused under a rule of its chapter (R394 REFUSED). -/
def Mach.refuse (m : Mach) : Mach := m.done 1

end Sys2Proof.Machine
end

