-- ==== Sys2Proof/Machine/Operands.lean ====
section
/-!
DEFINITION. What an instruction of an engine reads and writes: general registers and predicates (R65), immediates (R70),
program and data memories (R79, R102), the banks in a range engine's address space (R279), the program counter with calls
and loops (R81 to R83), and the end of a waiting instruction.
-/
namespace Sys2Proof.Machine

/-! ## General registers and immediates -/

/-- General register `r`; g0 reads 0 (R65). -/
def Engine.gr (x : Engine) (r : BitVec 4) : Word := if r = 0 then 0 else mapGet 0 x.g r.toNat
/-- General register `r` written; a write to g0 is discarded (R65). -/
def Engine.setGr (x : Engine) (r : BitVec 4) (v : Word) : Engine :=
  if r = 0 then x else { x with g := mapPut 0 x.g r.toNat v }
/-- General register `r` of engine `e`. -/
def Mach.g' (m : Mach) (e : Nat) (r : BitVec 4) : Word := (m.e e).gr r
/-- General register `r` of engine `e` as an unsigned number. -/
def Mach.gn (m : Mach) (e : Nat) (r : BitVec 4) : Nat := (m.g' e r).toNat
/-- General register `r` of engine `e` as a signed number. -/
def Mach.gi (m : Mach) (e : Nat) (r : BitVec 4) : Int := (m.g' e r).toInt
/-- General register `r` of engine `e` written. -/
def Mach.setG (m : Mach) (e : Nat) (r : BitVec 4) (v : Word) : Mach := m.modE e (fun x => x.setGr r v)

/-- imm16 sign-extended (R70). -/
def sext16 (i : FI) : Word := i.imm.signExtend 32
/-- imm14 sign-extended, as an integer (R70). -/
def offM (i : FM) : Int := i.imm.toInt

/-! ## Memories of an engine (R79, R102) -/

/-- The size of an engine's program memory in bytes (R16, R102). -/
def progBytes (e : Nat) : Nat :=
  match engClass e with | .re => 0x10000 | .sq => 0x8000 | .ae => 0x2000 | .sv => 0x40000
/-- The size of an engine's data memory in bytes (R79). -/
def dataBytes (e : Nat) : Nat :=
  match engClass e with | .re => 0x8000 | .sq => 0x2000 | .ae => 0x1000 | .sv => 0x40000
/-- The device address of an engine's data memory (R102). -/
def dataBase (e : Nat) : Nat :=
  engPage e + (match engClass e with | .re => 0x8000 | .sq => 0x2000 | .ae => 0x2000 | .sv => 0x40000)
/-- The address of an engine's program memory, or of its pool store (R102). -/
def Mach.progBase (m : Mach) (e : Nat) : Nat :=
  match engClass e with
  | .re => poolBase (m.poolOf e) | .sq => engPage e + 0x8000 | .ae => engPage e + 0x4000 | .sv => engPage e + 0x40000

/-- `[a, a + n)` lies in data memory. -/
def inData (e : Nat) (a : Int) (n : Nat) : Bool := decide (0 ≤ a) && decide (a + n ≤ dataBytes e)

/-- The engine's look is valid: the bank is ACTIVE or DONE with the GEN it had, and no pool has changed (R285). -/
def Mach.lookOk (m : Mach) (e : Nat) : Bool :=
  match (m.e e).look with
  | none => false
  | some k => (m.bankSt k.bank == 2 || m.bankSt k.bank == 3) && m.bankGen k.bank == k.gen && !k.moved

/-- Where a local address of an engine leads (R79, R279). -/
inductive Place
  | data (a : Nat)
  | held (a : Nat)
  | looked (a : Nat)
  | stale
  | none
deriving DecidableEq, Repr

/-- The place of `n` bytes at local address `a`. A looked region whose look went stale reads 0 (R285). -/
def Mach.place (m : Mach) (e : Nat) (a : Int) (n : Nat) : Place :=
  if inData e a n then .data (dataBase e + a.toNat)
  else if engClass e ≠ .re then .none
  else if 0x10000 ≤ a ∧ a + n ≤ 0x20000 then
    match (m.e e).held with
    | some h => .held (bankBase h.bank + (a.toNat - 0x10000))
    | none => .none
  else if 0x20000 ≤ a ∧ a + n ≤ 0x30000 then
    match (m.e e).look with
    | none => .none
    | some k => if m.lookOk e then .looked (bankBase k.bank + (a.toNat - 0x20000)) else .stale
  else .none

/-! ## Program counter (R81 to R83) -/

/-- The loops judged at the instruction at `pc`: the innermost that ends there counts down; one that reaches zero pops and the
next one out is judged. Answers the next PC and the loops left. -/
def loopStep (pc : Nat) : List LoopLevel → Nat × List LoopLevel
  | [] => (pc + 4, [])
  | l :: t =>
    if l.last ≠ pc then (pc + 4, l :: t)
    else if l.count = 1 then loopStep pc t
    else (l.start, { l with count := l.count - 1 } :: t)

/-- The engine goes on to the next instruction, loops judged (R83). -/
def Engine.next (x : Engine) : Engine := { x with pc := (loopStep x.pc x.loops).1, loops := (loopStep x.pc x.loops).2 }

/-- Levels that a transfer from `pc` to `t` leaves: it lies in a level's body and its target does not (R83). -/
def leaveLoops (pc t : Nat) (ls : List LoopLevel) : List LoopLevel :=
  let inside (l : LoopLevel) (a : Nat) : Bool := decide (l.start ≤ a) && decide (a ≤ l.last)
  let k := ((List.range ls.length).filter (fun i => match ls[i]? with
    | some l => inside l pc && !inside l t
    | none => false)).getLast?
  match k with | none => ls | some i => ls.drop (i + 1)

/-- The engine's instruction ends: the next one follows. -/
def Mach.retire (m : Mach) (e : Nat) : Mach := m.modE e Engine.next

/-- The instruction writes `rd` and ends. -/
def Mach.result (m : Mach) (e : Nat) (rd : BitVec 4) (v : Word) : Mach := (m.setG e rd v).retire e

/-- A waiting instruction ends with `v` in its destination (R95, R535). -/
def Mach.resume (m : Mach) (e : Nat) (v : Word) : Mach :=
  let m := m.modE e (fun x => x.enter m.cyc .running)
  m.result e (BitVec.ofNat 4 (m.e e).wrd) v

/-- The engine waits from now on (R535). -/
def Mach.waits (m : Mach) (e : Nat) (w : Wait) (rd : BitVec 4) (limit : Nat) : Mach :=
  m.modE e (fun x => x.block m.cyc w rd.toNat limit)

/-- Predicate `k`. -/
def Engine.pred (x : Engine) (k : Nat) : Bool := x.p.testBit k
/-- Predicate `k` replaced. -/
def Engine.setPred (x : Engine) (k : Nat) (b : Bool) : Engine :=
  { x with p := (x.p &&& (15 - 2 ^ k)) ||| (if b then 2 ^ k else 0) }

end Sys2Proof.Machine
end

