-- ==== Sys2Proof/Machine/Flags.lean ====
section
/-!
DEFINITION. The flags of an engine: the sticky SAT and OVF bits (R74, R78), the predicates and their conditions (R75), and the
STATUS word that shows them (R94).
-/
namespace Sys2Proof.Machine

/-- A value fits the signed 32-bit range. -/
def fits32 (v : Int) : Bool := decide (-2147483648 ≤ v) && decide (v ≤ 2147483647)

/-- OVF sets when `b`; it never clears here (R78). -/
def Engine.ovfIf (x : Engine) (b : Bool) : Engine := { x with ovf := x.ovf || b }
/-- SAT sets when `b`; it never clears here (R78). -/
def Engine.satIf (x : Engine) (b : Bool) : Engine := { x with sat := x.sat || b }
/-- SAT of engine `e` sets when `b`. -/
def Mach.sat (m : Mach) (e : Nat) (b : Bool) : Mach := m.modE e (fun x => x.satIf b)

/-- The result of an ALU operation: the value for rd, the exact result R under signed and under unsigned operands, and whether
OVF or SAT set (R74, R75). -/
structure Alu where
  val : Word
  r   : Int
  ru  : Int
  ovf : Bool
  sat : Bool
deriving DecidableEq, Repr

/-- An operation whose R is its 32-bit result. -/
def Alu.plain (w : Word) : Alu := { val := w, r := w.toInt, ru := w.toNat, ovf := false, sat := false }
/-- An operation that wraps, with OVF when the signed result does not fit. -/
def Alu.wrap (r ru : Int) : Alu := { val := wordOfInt r, r := r, ru := ru, ovf := !fits32 r, sat := false }
/-- An operation that clips, with SAT when it clips. -/
def Alu.clip (r ru : Int) : Alu := { val := wordOfInt (clip32 r), r := r, ru := ru, ovf := false, sat := !fits32 r }

/-- The predicate conditions 0 to 6 (R75); 7 is reserved. -/
def predCond (c : Nat) (a : Alu) : Bool :=
  match c with
  | 0 => decide (a.r = 0)
  | 1 => decide (a.r ≠ 0)
  | 2 => decide (a.r < 0)
  | 3 => decide (0 ≤ a.r)
  | 4 => decide (a.ru < 0)
  | 5 => decide (0 ≤ a.ru)
  | _ => a.val.getLsbD 0

/-- An ALU result written: rd, the sticky flags, and the predicate when PS is 1 (R74, R75). -/
def Engine.putAlu (x : Engine) (rd : BitVec 4) (a : Alu) (ps : Bool) (pd cond : Nat) : Engine :=
  let x := ((x.setGr rd a.val).ovfIf a.ovf).satIf a.sat
  if ps then x.setPred pd (predCond cond a) else x

/-- STATUS as it reads (R94). -/
def Engine.status (x : Engine) : Word :=
  word (bit x.sat + 2 * bit x.ovf + 16 * bit x.held.isSome + 32 * bit x.openq.isSome + 256 * (x.p % 16) + 8192 * bit x.inTrap)

/-- A write of STATUS: SAT and OVF clear where 1 is written, P takes the value (R94). -/
def Engine.setStatus (x : Engine) (v : Word) : Engine :=
  { x with sat := x.sat && !v.getLsbD 0, ovf := x.ovf && !v.getLsbD 1, p := v.toNat / 256 % 16 }

end Sys2Proof.Machine
end

