-- ==== Sys2Proof/Machine/LineCode.lean ====
section
/-!
DEFINITION. The line code of the Bexesk link (R361 to R368): packet bytes with their checks, scrambler and descrambler,
bit stuffing and its removal, the marker sequence, and the striping of a packet over lanes.
-/
namespace Sys2Proof.Machine

/-! ## Packet bytes (R367, R368) -/

/-- The 16 bytes of a packet header; HCHK is the low half of the CRC-32C of the bytes before it. -/
def Pkt.header (p : Pkt) (rpl : Bool) : List Byte :=
  let h := leBytes 1 p.ty ++ leBytes 1 (32 * p.ctx + bit rpl) ++ leBytes 2 (p.queue % 2 ^ 15) ++ leBytes 2 p.seq
    ++ leBytes 2 p.payload.length ++ (p.spec ++ leBytes 6 0).take 6
  h ++ leBytes 2 (crc32c h)

/-- A packet as sent: header, payload, and the payload's CRC-32C when there is one. -/
def Pkt.bytes (p : Pkt) (rpl : Bool) : List Byte :=
  p.header rpl ++ (if p.payload.isEmpty then [] else p.payload ++ leBytes 4 (crc32c p.payload))

/-- The number of bytes of a packet on the link. -/
def Pkt.size (p : Pkt) : Nat := if p.payload.isEmpty then 16 else 20 + p.payload.length

/-! ## Scrambler (R361) -/

/-- The bit the taps 39 and 58 give for the last 58 bits put out. -/
def scrTap (s : Nat) : Bool := s.testBit 38 != s.testBit 57

/-- The last 58 bits after one more bit was put out. -/
def scrPush (s : Nat) (b : Bool) : Nat := (2 * s + bit b) % 2 ^ 58

/-- Bits scrambled: each output bit is the input bit xor the output bits 39 and 58 places earlier. -/
def scramble : Nat → List Bool → List Bool
  | _, [] => []
  | s, b :: t => let o := b != scrTap s; o :: scramble (scrPush s o) t

/-- Received bits descrambled: the same taps on the bits received. -/
def descramble : Nat → List Bool → List Bool
  | _, [] => []
  | s, b :: t => (b != scrTap s) :: descramble (scrPush s b) t

/-- The scrambler's state after it put bits out. -/
def scrAfter (s : Nat) (out : List Bool) : Nat := out.foldl scrPush s

/-! ## Stuffing (R362) -/

/-- The run of identical bits that a bit ends, given the last bit and the run it ended; 0 before the first bit. -/
def runOf (last : Bool) (n : Nat) (b : Bool) : Nat := if n ≠ 0 ∧ b = last then n + 1 else 1

/-- The complement of the last bit inserted after every run of 31 identical bits; it starts a new run. -/
def stuff (last : Bool) (n : Nat) : List Bool → List Bool
  | [] => []
  | b :: t => if runOf last n b = 31 then b :: (!b) :: stuff (!b) 1 t else b :: stuff b (runOf last n b) t

/-- The bit after every 31 identical bits removed; none when that bit is not the complement. -/
def destuff : Bool → Nat → Bool → List Bool → Option (List Bool)
  | _, _, _, [] => some []
  | last, n, drop, b :: t =>
    if drop then (if b = last then none else destuff b 1 false t)
    else if runOf last n b = 31 then (destuff b 31 true t).map (fun l => b :: l)
    else (destuff b (runOf last n b) false t).map (fun l => b :: l)

/-! ## Framing and striping (R363 to R365) -/

/-- The marker sequence: a separator 0, 36 ones, 36 zeros, a separator 1. -/
def markerSeq : List Bool := false :: (List.replicate 36 true ++ List.replicate 36 false ++ [true])

/-- The bits of a byte, least significant first. -/
def byteBits (b : Byte) : List Bool := (List.range 8).map (fun i => b.getLsbD i)

/-- Bytes cut into words of four. -/
def wordsOf : Nat → List Byte → List (List Byte)
  | 0, _ => []
  | n + 1, l => l.take 4 :: wordsOf n (l.drop 4)

/-- The bytes of a packet that go to the `i`-th of `w` bonded lanes: word k goes to lane k mod w. -/
def stripe (w i : Nat) (l : List Byte) : List Byte :=
  ((wordsOf (divCeil l.length 4) l).zipIdx.filter (fun p => p.2 % max 1 w == i)).flatMap (fun p => p.1)

/-- What a lane sends for its share of a packet: a marker sequence, then the bits, idle fill up to `len` bits and 64 bits of
idle fill more, scrambled and stuffed (R364). Answers the line bits and the scrambler's state after them. -/
def lineBits (scr len : Nat) (share : List Byte) : List Bool × Nat :=
  let bits := share.flatMap byteBits
  let out := scramble scr (bits ++ List.replicate (len - bits.length + 64) false)
  (markerSeq ++ stuff false 0 out, scrAfter scr out)

/-- The lanes of group `g` in a mask, ascending. -/
def lanesOf (g mask : Nat) : List Nat := (bitsOf 4 mask).map (fun i => 4 * g + i)

/-- Bytes sent striped on the given lanes, each from its own scrambler state. -/
def Mach.sendOn (m : Mach) (lanes : List Nat) (l : List Byte) : Mach :=
  let len := 32 * divCeil (divCeil l.length 4) (max 1 lanes.length)
  lanes.zipIdx.foldl (fun s p =>
    s.modL p.1 (fun x =>
      let r := lineBits x.scr len (stripe lanes.length p.2 l)
      { x with line := r.1, scr := r.2 })) m

end Sys2Proof.Machine
end

