-- ==== Sys2Proof/Machine/Link.lean ====
section
/-!
DEFINITION. The Bexesk link (R357 to R386): acknowledgement and replay, discards, training and bonding, rate changes,
lane loss and rebonding, and the egress of packets with their stamps.
-/
namespace Sys2Proof.Machine

/-! ## Groups and lanes -/

/-- STATE of a group: 0 DOWN, 1 TRAINING, 2 BONDED, 3 RATE change, 4 REBOND. -/
def Mach.gState (m : Mach) (g : Nat) : Nat := m.fld (aLNK_GSTAT g) fLNK_GSTAT_STATE
/-- The bonded lanes of a group, as bits. -/
def Mach.gActive (m : Mach) (g : Nat) : Nat := m.fld (aLNK_GSTAT g) fLNK_GSTAT_ACTIVE
/-- The lanes that may bond: LANEMASK, or lane 0 of the group alone in SHUTDOWN (R384). -/
def Mach.laneMask (m : Mach) (g : Nat) : Nat := (m.g g).forced.getD (m.fld (aLNK_GCFG g) fLNK_GCFG_LANEMASK)
/-- MAXRUNG, 5 to 7 taken as 4. -/
def Mach.maxRung (m : Mach) (g : Nat) : Nat := min 4 (m.fld (aLNK_GCFG g) fLNK_GCFG_MAXRUNG)
/-- STATE of a lane: 0 DOWN, 1 LOCKING, 2 ALIGNED, 3 BONDED, 4 EXCLUDED. -/
def Mach.lState (m : Mach) (l : Nat) : Nat := m.fld (aLNK_LSTAT l) fLNK_LSTAT_STATE
/-- STATE of a lane replaced. -/
def Mach.setLState (m : Mach) (l v : Nat) : Mach := m.setFld (aLNK_LSTAT l) fLNK_LSTAT_STATE v

/-- Packets travel striped on the group: it is BONDED, or a rate change is running that has not stopped traffic (R379). -/
def Mach.linkUp (m : Mach) (g : Nat) : Bool := m.gState g == 2 || (m.gState g == 3 && m.gActive g != 0)

/-- STATE of a group replaced; a group that leaves BONDED notes the cycle (R404), and the queues' packets gain or lose
their group (R403). -/
def Mach.setGState (m : Mach) (g v : Nat) : Mach :=
  let m := m.when (m.gState g == 2 && v != 2) (fun m => m.modG g (fun x => { x with downSince := m.cyc }))
  (m.setFld (aLNK_GSTAT g) fLNK_GSTAT_STATE v).qMarkAll

/-! ## Packets kept (R372) -/

/-- Bytes of packets unacknowledged. -/
def Group.keptBytes (x : Group) : Nat := (x.kept.map (fun k => k.pkt.size)).sum

/-- LNK_OUTST follows the packets kept. -/
def Mach.outst (m : Mach) (g : Nat) : Mach :=
  (m.setFld (aLNK_OUTST g) fLNK_OUTST_PKTS (m.g g).kept.length).setFld (aLNK_OUTST g) fLNK_OUTST_KB (divCeil (m.g g).keptBytes 1024)

/-- The replay limit of a rung: what one lane carries in 16 µs, or one packet of the largest size (R373). -/
def replayLimit (rung : Nat) : Nat := max 4116 (3200 * 2 ^ rung)

/-- A sequenced packet of `n` bytes may be sent: no limit of R372 is reached. -/
def Mach.mayKeep (m : Mach) (g n : Nat) : Bool :=
  let x := m.g g
  decide (x.kept.length < 256) && decide (x.keptBytes + n ≤ 131072)
    && (!m.hot || decide (x.keptBytes + n ≤ replayLimit (m.fld (aLNK_GSTAT g) fLNK_GSTAT_RUNG)))

/-- A link packet queued to leave ahead of every sequenced packet (R371). -/
def Mach.sendLink (m : Mach) (g ty : Nat) (spec : List Byte) : Mach :=
  m.modG g (fun x => { x with
    linkq := x.linkq ++ [{ ty := ty, ctx := 0, queue := 0, seq := 0, spec := spec, payload := [] }] })

/-- The last SEQ accepted in order, as ACK and NAK carry it. -/
def Mach.ackSeq (m : Mach) (g : Nat) : List Byte := leBytes 2 ((m.g g).rxSeq + 65535)

/-- An ACK sent: nothing accepted is unacknowledged any more (R371). -/
def Mach.sendAck (m : Mach) (g : Nat) : Mach :=
  (m.sendLink g 1 (m.ackSeq g)).modG g (fun x => { x with unacked := 0, ackDue := none })

/-- A NAK sent unless one is out since the last acceptance (R371). -/
def Mach.sendNak (m : Mach) (g : Nat) : Mach :=
  if (m.g g).nakSent then m
  else
    let m := (m.sendLink g 2 (m.ackSeq g)).satInc (aLNK_GCNT1 g) fLNK_GCNT1_NAK_TX
    m.modG g (fun x => { x with nakSent := true, unacked := 0, ackDue := none })

/-- ACK_MAX, 0 taken as 1, above 64 as 64. -/
def Mach.ackMax (m : Mach) : Nat := min 64 (max 1 (m.fld aLNK_TMO fLNK_TMO_ACK_MAX))

/-- A sequenced packet is accepted: the expected SEQ advances, and an ACK goes out now or within 0.5 µs (R370, R371). -/
def Mach.accept (m : Mach) (g : Nat) : Mach :=
  let m := m.modG g (fun x => { x with
    rxSeq := (x.rxSeq + 1) % 65536, nakSent := false, unacked := x.unacked + 1
    ackDue := some (x.ackDue.getD (m.cyc + 400)) })
  m.when (decide (m.ackMax ≤ (m.g g).unacked)) (fun m => m.sendAck g)

/-- A sequenced packet arrives in order on group `g` and does `f`; nothing arrives on a group without traffic. -/
def Mach.arrives (m : Mach) (g : Nat) (f : Mach → Mach) : Mach := if m.linkUp g then f (m.accept g) else m

/-- BADPKT of a context counts a discarded packet (R387, R392). -/
def Mach.badPkt (m : Mach) (c : Nat) : Mach := m.satInc (aQMG_CTX c) fQMG_CTX_BADPKT

/-! ## Acknowledgement of what the device sent -/

/-- The TSREP of an echo that an ACK covers, made of the request, the echo's first egress stamp and how often it was sent
(R386, R397). -/
def Mach.tsrep (m : Mach) (g : Nat) (k : Kept) : Mach :=
  match (m.g g).tspend.find? (fun t => t.seq == k.pkt.seq) with
  | none => m
  | some t =>
    let m := m.modG g (fun x => { x with tspend := x.tspend.filter (fun u => u.seq != k.pkt.seq) })
    m.respond g { ty := 0x16, ctx := t.ctx, queue := 0, seq := 0, spec := []
                  payload := t.tsid ++ leBytes 4 (bit (t.rpl || decide (1 < k.sent)) + 2 * g) ++ t.ingress.bytes ++ k.stamp.bytes }

/-- Packets up to SEQ `seq` are acknowledged (R371, R372). -/
def Mach.acked (m : Mach) (g seq : Nat) : Mach :=
  let covers (k : Kept) : Bool := decide ((seq + 65536 - k.pkt.seq) % 65536 < 32768)
  let gone := (m.g g).kept.takeWhile covers
  let left := (m.g g).kept.dropWhile covers
  if gone.isEmpty then m
  else
    let m := m.modG g (fun x => { x with
      kept := left, replay := min x.replay left.length, ackCyc := m.cyc, tries := min 1 left.length })
    ((gone.filter (fun k => k.pkt.ty == 0x15)).foldl (fun s k => s.tsrep g k) m).outst g

/-! ## Training (R375 to R380) -/

/-- Lane `l` starts training. -/
def Mach.laneTrains (m : Mach) (l : Nat) (st : Nat) : Mach :=
  (m.setLState l st).modL l (fun x => { x with valid := 0, locked := 0, barred := false })

/-- Group `g` trains at rung `r` in state `st`; unacknowledged packets are kept (R374, R379). -/
def Mach.trainAt (m : Mach) (g r st : Nat) : Mach :=
  let m := (m.setGState g st).setFld (aLNK_GSTAT g) fLNK_GSTAT_RUNG (min r (m.maxRung g))
  let m := (m.setFld (aLNK_GSTAT g) fLNK_GSTAT_ACTIVE 0).modG g (fun x => { x with
    trainCyc := m.cyc, alignCyc := none, rebond := none, linkq := [], replay := 0, unacked := 0, ackDue := none
    nakSent := false, farFresh := false })
  (lanesOf g 15).foldl (fun s l => s.laneTrains l 0) m

/-- A retrain that keeps the group's rung (R374), one rung lower after three within 1 s at one rung (R380). -/
def Mach.retrain (m : Mach) (g : Nat) : Mach :=
  let r := m.fld (aLNK_GSTAT g) fLNK_GSTAT_RUNG
  let m := m.satInc (aLNK_GCNT2 g) fLNK_GCNT2_RETRAINS
  let old := (m.g g).retrains
  if 3 ≤ old.length ∧ 0 < r then
    let m := (m.satInc (aLNK_GCNT2 g) fLNK_GCNT2_RUNG_DROPS).modG g (fun x => { x with retrains := [m.cyc] })
    m.trainAt g (r - 1) 1
  else
    let now := (old.filter (fun c => decide (m.cyc < c + 800000000))) ++ [m.cyc]
    (m.modG g (fun x => { x with retrains := if 3 ≤ old.length then old else now })).trainAt g r 1

/-- The whole group is lost: it is DOWN and retrains from rung 0 (R378, R382). -/
def Mach.groupDown (m : Mach) (g : Nat) : Mach :=
  let m := (m.satInc (aLNK_GCNT2 g) fLNK_GCNT2_RETRAINS).modG g (fun x => { x with retrains := [], rateTo := none })
  m.trainAt g 0 0

/-- Both groups retrain from rung 0 (R384). -/
def Mach.retrainAll (m : Mach) : Mach :=
  (List.range 2).foldl (fun s g =>
    let s := (s.satInc (aLNK_GCNT2 g) fLNK_GCNT2_RETRAINS).modG g (fun x => { x with retrains := [], rateTo := none })
    s.trainAt g 0 1) m

/-- Entry to SHUTDOWN: each group retrains at rung 0 on its lowest lane alone (R384). -/
def Mach.linkShutdown (m : Mach) : Mach :=
  ((m.modG 0 (fun x => { x with forced := some 1 })).modG 1 (fun x => { x with forced := some 1 })).retrainAll

/-- Replay of every unacknowledged packet (R372); a packet sent four times without the acknowledgement advancing makes
the group retrain (R374). -/
def Mach.startReplay (m : Mach) (g : Nat) : Mach :=
  let x := m.g g
  if x.kept.isEmpty then m
  else if 4 ≤ x.tries then m.retrain g
  else m.modG g (fun x => { x with replay := x.kept.length, ackCyc := m.cyc })

/-- A discard under R369 or R370 counts in the running 1 ms window; more than ERR_LIM make the group retrain (R374).
Otherwise a NAK follows (R371). -/
def Mach.discarded (m : Mach) (g : Nat) : Mach :=
  let x := m.g g
  let new := decide (800000 ≤ m.cyc - x.discCyc)
  let n := if new then 1 else x.discards + 1
  let m := m.modG g (fun x => { x with discards := n, discCyc := if new then m.cyc else x.discCyc })
  let lim := m.fld (aLNK_GCFG g) fLNK_GCFG_ERR_LIM
  if lim ≠ 0 ∧ lim < n then m.retrain g else m.sendNak g

/-! ## Bonding (R375 to R377) -/

/-- The first bond since RESET takes the device out of BOOT, to LINKED or, after a failed BIST, to OASIS (R53). -/
def Mach.firstBond (m : Mach) : Mach :=
  if m.dev.st = .boot then
    match m.dev.bist with
    | some true => m.goto .linked
    | some false => m.enterOasis .bist
    | none => m
  else m

/-- Bonded and excluded lanes of group `g` show it. -/
def Mach.markLanes (m : Mach) (g mask : Nat) : Mach :=
  (lanesOf g 15).foldl (fun s l =>
    let i := l % 4
    if mask.testBit i then s.setLState l 3
    else if (s.laneMask g).testBit i then (s.setLState l 4).modL l (fun x => { x with valid := 0, locked := 0 })
    else s.setLState l 0) m

/-- Group `g` bonds the lanes of `mask`: sequences resume from the far end's NEXTSEQ, or start anew after FRESH, what is
unacknowledged is sent again (R377). -/
def Mach.bondGroup (m : Mach) (g mask : Nat) : Mach :=
  let m := (m.setFld (aLNK_GSTAT g) fLNK_GSTAT_ACTIVE mask).markLanes g mask
  let x := m.g g
  let m :=
    if x.farFresh then
      let m := (m.satAdd (aLNK_GCNT3 g) fLNK_GCNT3_LOSTPKT x.kept.length).setFld (aLNK_GSTAT g) fLNK_GSTAT_FRESH_SEEN 1
      m.modG g (fun x => { x with
        kept := [], txSeq := 0, rxSeq := 0, tries := 0, replay := 0
        tspend := x.tspend.filter (fun t => t.seq == 65536) })
    else
      let m := if x.fresh then m else m.acked g (x.farNext + 65535)
      m.modG g (fun x => { x with replay := x.kept.length })
  let m := (m.modG g (fun x => { x with fresh := false, rateTo := none, rebond := none, alignCyc := none, ackCyc := m.cyc })).outst g
  (m.setGState g 2).firstBond

/-- The lanes of a training group that are ALIGNED. -/
def Mach.aligned (m : Mach) (g : Nat) : Nat := ofBits ((bitsOf 4 (m.laneMask g)).filter (fun i => m.lState (4 * g + i) == 2))

/-- The group trains: TRAINING, DOWN with its retrain running, or the retrain of a rate change; and it is enabled. -/
def Mach.training (m : Mach) (g : Nat) : Bool :=
  m.flag (aLNK_GCFG g) fLNK_GCFG_EN && (m.gState g == 0 || m.gState g == 1 || (m.gState g == 3 && m.gActive g == 0))

/-- The ALIGNED lanes bond, less those beyond the skew limit, which set SKEW and stay out (R376). -/
def Mach.bondAligned (m : Mach) (g skewed : Nat) : Mach :=
  let ready := m.aligned g
  let bad := (bitsOf 4 ready).filter (fun i => skewed.testBit i)
  let m := bad.foldl (fun s i => s.setFld (aLNK_LSTAT (4 * g + i)) fLNK_LSTAT_SKEW 1) m
  let mask := ofBits ((bitsOf 4 ready).filter (fun i => !skewed.testBit i))
  if mask = 0 then m else m.bondGroup g mask

/-! ## Commands of acknowledgement and replay -/

/-- IDLE: the packet carries nothing but its marker (R364). -/
def execIdle (g : Nat) (s : State) : Host.Outcome State Fault Refusal := s.run (wfIdle g) (fun _ m => m)

/-- PACKET_DISCARD: counted at the first check that failed; a duplicate is acknowledged again; a NAK follows (R362, R369 to
R371, R374). -/
def execPacketDiscard (g : Nat) (why : Discard) (s : State) : Host.Outcome State Fault Refusal :=
  s.run (wfPacketDiscard g why) (fun _ m =>
    if !m.linkUp g then m
    else
      let m := match why with
        | .marker l => m.satInc (aLNK_LCNT (4 * g + l % 4)) fLNK_LCNT_MARKER_ERR
        | .stuffing l => m.satInc (aLNK_LSTAT (4 * g + l % 4)) fLNK_LSTAT_CODE_ERR
        | .hchk | .header => m.satInc (aLNK_GCNT0 g) fLNK_GCNT0_HCHK_ERR
        | .crc => m.satInc (aLNK_GCNT0 g) fLNK_GCNT0_CRC_ERR
        | .duplicate => (m.satInc (aLNK_GCNT3 g) fLNK_GCNT3_SEQ_ERR).sendAck g
        | .gap => m.satInc (aLNK_GCNT3 g) fLNK_GCNT3_SEQ_ERR
      m.discarded g)

/-- ACK (R371, R372). -/
def execAck (g seq : Nat) (s : State) : Host.Outcome State Fault Refusal :=
  s.run (wfAck g seq) (fun _ m => if m.linkUp g then m.acked g seq else m)

/-- NAK: it acknowledges and starts a replay from ACKSEQ + 1 (R372). -/
def execNak (g seq : Nat) (s : State) : Host.Outcome State Fault Refusal :=
  s.run (wfNak g seq) (fun _ m =>
    if m.linkUp g then ((m.satInc (aLNK_GCNT1 g) fLNK_GCNT1_NAK_RX).acked g seq).startReplay g else m)

/-- ACK_TIMER: 0.5 µs after the first unacknowledged acceptance (R371). -/
def execAckTimer (g : Nat) (s : State) : Host.Outcome State Fault Refusal :=
  s.run (wfAckTimer g) (fun _ m =>
    match (m.g g).ackDue with
    | none => m
    | some d => if m.linkUp g then (m.advanceTo d).sendAck g else m)

/-- REPLAY_TIMEOUT: no ACK has advanced for REPLAY_TMO µs, 0 taken as 1, while packets are unacknowledged (R372). -/
def execReplayTimeout (g : Nat) (s : State) : Host.Outcome State Fault Refusal :=
  s.run (wfReplayTimeout g) (fun _ m =>
    if m.linkUp g ∧ (m.g g).kept ≠ [] then
      (m.advanceTo ((m.g g).ackCyc + 800 * max 1 (m.fld aLNK_TMO fLNK_TMO_REPLAY_TMO))).startReplay g
    else m)

/-! ## Commands of training and rate -/

/-- A valid TRAIN packet on lane `l`: 8 bring the lane into step, 8 more that report it LOCKED make it ALIGNED (R375). -/
def Mach.trainSeen (m : Mach) (l : Nat) (t : TrainPkt) : Mach :=
  let g := l / 4
  let x := m.l l
  let m := m.setFld (aLNK_LSTAT l) fLNK_LSTAT_INV (bit t.inverted)
  let m := (m.setFld (aLNK_LSTAT l) fLNK_LSTAT_FARLANE t.lane).modL l (fun x => { x with farLane := t.lane })
  let m := m.setFld (aLNK_GSTAT g) fLNK_GSTAT_FAR_MAX t.maxRung
  let m := m.modG g (fun y => { y with farNext := t.nextSeq, farFresh := t.fresh })
  if x.valid < 8 then (m.setLState l 1).modL l (fun x => { x with valid := x.valid + 1 })
  else if t.locked ∧ m.lState l = 1 then
    let m := m.modL l (fun x => { x with locked := x.locked + 1 })
    if 8 ≤ x.locked + 1 then
      (m.setLState l 2).modG g (fun y => { y with alignCyc := some (y.alignCyc.getD m.cyc) })
    else m
  else m

/-- TRAIN: on a lane that may bond, of a group that trains or of a lane that retrains alone (R375, R383). A packet that names
the other group excludes the lane (R366). -/
def execTrain (l : Nat) (t : TrainPkt) (s : State) : Host.Outcome State Fault Refusal :=
  s.run (wfTrain l t) (fun _ m =>
    let g := l / 4
    let alone := m.gState g = 2 ∧ m.lState l = 1
    if (m.training g ∨ alone) ∧ (m.laneMask g).testBit (l % 4) ∧ (m.l l).barred = false
        ∧ (m.dev.st = .boot → m.dev.bist ≠ none) ∧ m.dev.st ≠ .reset ∧ m.dev.st ≠ .off then
      if t.group ≠ g then (m.setLState l 4).modL l (fun x => { x with barred := true })
      else (m.when (m.gState g == 0) (fun m => m.setGState g 1)).trainSeen l t
    else m)

/-- GROUP_BOND: every lane that may bond and is not excluded is ALIGNED (R375 to R377). -/
def execGroupBond (g skewed : Nat) (s : State) : Host.Outcome State Fault Refusal :=
  s.run (wfGroupBond g skewed) (fun _ m =>
    let want := ofBits ((bitsOf 4 (m.laneMask g)).filter (fun i => !(m.l (4 * g + i)).barred))
    if m.training g ∧ want ≠ 0 ∧ m.aligned g = want then m.bondAligned g skewed else m)

/-- BOND_TIMEOUT: 100 µs after the first lane reached ALIGNED the ALIGNED lanes bond (R375). -/
def execBondTimeout (g skewed : Nat) (s : State) : Host.Outcome State Fault Refusal :=
  s.run (wfBondTimeout g skewed) (fun _ m =>
    match (m.g g).alignCyc with
    | none => m
    | some c => if m.training g then (m.advanceTo (c + 80000)).bondAligned g skewed else m)

/-- TRAINING_TIMEOUT: 1 ms without a bond; the group tries one rung lower, at rung 0 again (R380). -/
def execTrainingTimeout (g : Nat) (s : State) : Host.Outcome State Fault Refusal :=
  s.run (wfTrainingTimeout g) (fun _ m =>
    if m.training g then
      let m := m.advanceTo ((m.g g).trainCyc + 800000)
      let r := m.fld (aLNK_GSTAT g) fLNK_GSTAT_RUNG
      let m := m.when (r != 0) (fun m =>
        (m.satInc (aLNK_GCNT2 g) fLNK_GCNT2_RUNG_DROPS).modG g (fun x => { x with retrains := [] }))
      m.trainAt g (r - 1) (m.gState g)
    else m)

/-- A write of LNK_RATE_g (R379): refused with REQ_ERR for a rung too high (1), a change running (4), a group not BONDED (3),
the other group not BONDED while ARMED or RUNNING (2). An accepted write is acknowledged before RATE goes out. -/
def Mach.rateWrite (m : Mach) (g : Nat) (v : Word) : Mach :=
  if fLNK_RATE_GO.get v = 0 then m.done 0
  else
    let t := fLNK_RATE_TARGET.get v
    let err :=
      if m.maxRung g < t ∨ m.fld (aLNK_GSTAT g) fLNK_GSTAT_FAR_MAX < t then 1
      else if (m.g g).rateTo ≠ none then 4
      else if ¬ m.bonded g then 3
      else if m.hot ∧ ¬ m.bonded (1 - g) then 2 else 0
    let m := m.setFld (aLNK_GSTAT g) fLNK_GSTAT_REQ_ERR err
    if err ≠ 0 then m.refuse
    else
      let m := ((m.done 0).sendAck g).sendLink g 4 (leBytes 1 t)
      (m.modG g (fun x => { x with rateTo := some t })).setGState g 3

/-- RATE_CHANGE_REQUEST (R379). -/
def execRateChangeRequest (src : Src) (g : Nat) (v : Word) (s : State) : Host.Outcome State Fault Refusal :=
  s.run (wfRateChangeRequest src g v) (fun _ m => m.asWriter src .lnk 0 (4 + 0x40 * g) (fun m => m.rateWrite g v))

/-- The retrain of a rate change at rung `t` (R379). -/
def Mach.rateTrain (m : Mach) (g t : Nat) : Mach :=
  let m := m.satInc (aLNK_GCNT2 g) fLNK_GCNT2_RETRAINS
  (m.modG g (fun x => { x with retrains := [], rateTo := some t })).trainAt g t 3

/-- RATE: a REPLY to the device's own request, or the far end's request, which is answered; both ends retrain at the rung
(R379). A request above MAXRUNG is not answered. -/
def execRate (g : Nat) (reply : Bool) (target : Nat) (s : State) : Host.Outcome State Fault Refusal :=
  s.run (wfRate g reply target) (fun _ m =>
    if !m.linkUp g then m
    else if reply then
      match (m.g g).rateTo with
      | some t => m.rateTrain g t
      | none => m
    else if m.maxRung g < target then m
    else
      let p : Pkt := { ty := 4, ctx := 0, queue := 0, seq := 0, spec := leBytes 1 (128 + target), payload := [] }
      let m := (m.sendOn (lanesOf g (m.gActive g)) (p.bytes false)).modG g (fun x => { x with wire := some p })
      m.rateTrain g target)

/-! ## Commands of lane loss and rebonding -/

/-- A rebond ends with the intersection of the masks: the group is BONDED on it and replays, or is DOWN (R382). -/
def Mach.rebondEnd (m : Mach) (g mask : Nat) : Mach :=
  if mask = 0 then m.groupDown g
  else
    let m := (m.satInc (aLNK_GCNT3 g) fLNK_GCNT3_REBONDS).setFld (aLNK_GSTAT g) fLNK_GSTAT_ACTIVE mask
    let m := (m.markLanes g mask).modG g (fun x => { x with rebond := none, ackCyc := m.cyc })
    (m.setGState g 2).startReplay g

/-- REBOND sent on the lanes of a mask, which the group then waits to bond (R382). -/
def Mach.rebondStart (m : Mach) (g mask : Nat) : Mach :=
  let m := (m.setGState g 4).modG g (fun x => { x with rebond := some mask, replay := 0 })
  m.sendLink g 5 (leBytes 1 mask)

/-- A lane of a group is in traffic. -/
def Mach.laneServes (m : Mach) (l : Nat) : Bool :=
  let g := l / 4
  (m.gState g == 2 || m.gState g == 4 || m.linkUp g) && ((m.g g).rebond.getD (m.gActive g)).testBit (l % 4)

/-- A lane in traffic is lost: reported, and the group stops striped data and sends REBOND with the lanes that remain, or is DOWN when
none does (R382, R489, R494). -/
def Mach.laneLost (m : Mach) (l : Nat) : Mach :=
  let g := l / 4
  let left := ((m.g g).rebond.getD (m.gActive g) - 2 ^ (l % 4)) &&& m.laneMask g
  let m := m.setLState l 0
  let m := m.report (srcId 0x15 l) (srcId 0x15 l) 0x21 (if left = 0 then 2 else 1)
  if left = 0 then (m.report (srcId 0x15 (8 + g)) (srcId 0x15 l) 0x21 2).groupDown g
  else m.rebondStart g left

/-- LANE_LOSS: the lane is counted by what was wrong with it and lost (R381). -/
def execLaneLoss (l : Nat) (why : LaneFault) (s : State) : Host.Outcome State Fault Refusal :=
  s.run (wfLaneLoss l why) (fun _ m =>
    if m.laneServes l then
      (match why with
        | .clock => m.satInc (aLNK_LCNT l) fLNK_LCNT_UNLOCKS
        | .marker => m.satInc (aLNK_LCNT l) fLNK_LCNT_MARKER_ERR
        | .stuffing => m.satInc (aLNK_LSTAT l) fLNK_LSTAT_CODE_ERR).laneLost l
    else m)

/-- The lanes of a group that the device receives: bonded, or ALIGNED and waiting to rejoin. -/
def Mach.received (m : Mach) (g : Nat) : Nat := (m.gActive g ||| m.aligned g) &&& m.laneMask g

/-- REBOND: the far end's mask intersects every mask seen; its REPLY ends the device's rebond, its request is answered and
bonded (R382). -/
def execRebond (g : Nat) (reply : Bool) (mask : Nat) (s : State) : Host.Outcome State Fault Refusal :=
  s.run (wfRebond g reply mask) (fun _ m =>
    if reply then
      match (m.g g).rebond with
      | some own => if m.gState g = 4 then m.rebondEnd g (own &&& mask) else m
      | none => m
    else if m.gState g = 2 ∨ m.gState g = 4 then
      let own := (m.g g).rebond.getD (m.received g)
      let m := m.sendLink g 5 (leBytes 1 (128 + own))
      m.rebondEnd g (own &&& mask)
    else m)

/-- LANE_RETRAIN: a lane out of its BONDED group retrains alone at the group's rung (R383). -/
def execLaneRetrain (l : Nat) (s : State) : Host.Outcome State Fault Refusal :=
  s.run (wfLaneRetrain l) (fun _ m =>
    let g := l / 4
    if m.gState g = 2 ∧ (m.gActive g).testBit (l % 4) = false ∧ (m.laneMask g).testBit (l % 4) then m.laneTrains l 1 else m)

/-- LANE_REJOIN: an ALIGNED lane rejoins in a rebond, unless the other group is not BONDED, is in a rebond or rate change, or,
while ARMED or RUNNING, has fewer lanes up (R383). -/
def execLaneRejoin (l : Nat) (s : State) : Host.Outcome State Fault Refusal :=
  s.run (wfLaneRejoin l) (fun _ m =>
    let g := l / 4
    let o := 1 - g
    if m.gState g = 2 ∧ m.lState l = 2 ∧ m.flag (aLNK_GCFG g) fLNK_GCFG_REJOIN_EN ∧ (m.laneMask g).testBit (l % 4)
        ∧ m.bonded o ∧ (m.g o).rateTo = none
        ∧ (m.hot → popCount 4 (m.gActive g) ≤ popCount 4 (m.gActive o)) then
      m.rebondStart g ((m.gActive g ||| 2 ^ (l % 4)) &&& m.laneMask g)
    else m)

/-- EQUALISER_PRESET_STEP: EQ moves one step toward the preset of the band in force (R360). -/
def execEqualiserPresetStep (l : Nat) (s : State) : Host.Outcome State Fault Refusal :=
  s.run (wfEqualiserPresetStep l) (fun _ m =>
    let now := m.fld (aLNK_LSTAT l) fLNK_LSTAT_EQ
    let goal := (m.l l).eqGoal
    m.setFld (aLNK_LSTAT l) fLNK_LSTAT_EQ (if now < goal then now + 1 else if goal < now then now - 1 else now))

/-- The equalisers take a new band's preset as their goal (R360, R477). -/
def Mach.eqBand (m : Mach) (band : Nat) : Mach :=
  (List.range 8).foldl (fun s l => s.modL l (fun x => { x with eqGoal := (Config.eqPreset band).toNat })) m

/-! ## Egress (R395, R403, R415) -/

/-- Device time with a signed offset in steps of 2^-32 ns. -/
def DTime.shift (t : DTime) (d : Int) : DTime :=
  let unit : Int := 1000000000 * 2 ^ 32
  let total := ((t.sec : Int) * unit + (t.ns * 2 ^ 32 + t.frac : Nat) + d) % (2 ^ 48 * unit)
  let ns := (total % unit).toNat
  { sec := (total / unit).toNat, ns := ns / 2 ^ 32, frac := ns % 2 ^ 32 }

/-- The stamp of lane period `phase` (of 16) of the present cycle, moved by `ps` picoseconds (R116). -/
def Mach.laneStamp (m : Mach) (phase : Nat) (ps : Int) : Stamp :=
  m.stampOf (m.time.now.shift ((m.inc * phase / 16 : Nat) + ps * 2 ^ 32 / 1000))

/-- A sequenced packet leaves for the first time: it takes the next SEQ and is kept (R370, R372). A time-exchange packet keeps
the stamp of this transmission (R386). -/
def Mach.launch (m : Mach) (g phase : Nat) (p : Pkt) : Mach :=
  let x := m.g g
  let p := { p with seq := x.txSeq }
  let st := m.laneStamp phase (m.fld (aTIME_LAT g) fTIME_LAT_EGR_PS)
  let m := (m.sendOn (lanesOf g (m.gActive g)) (p.bytes false)).modG g (fun x => { x with
    txSeq := (x.txSeq + 1) % 65536, kept := x.kept ++ [{ pkt := p, sent := 1, stamp := st }], wire := some p
    ackCyc := if x.kept.isEmpty then m.cyc else x.ackCyc, tries := if x.kept.isEmpty then 1 else x.tries
    tspend := if p.ty = 0x15 then
        match x.tspend.span (fun t => t.seq != 65536) with
        | (a, t :: b) => a ++ { t with seq := x.txSeq } :: b
        | (a, []) => a
      else x.tspend })
  m.outst g

/-- One packet of the running replay leaves again (R372). -/
def Mach.resend (m : Mach) (g : Nat) : Mach :=
  let x := m.g g
  let i := x.kept.length - x.replay
  match x.kept[i]? with
  | none => m.modG g (fun x => { x with replay := 0 })
  | some k =>
    let m := (m.sendOn (lanesOf g (m.gActive g)) (k.pkt.bytes true)).satInc (aLNK_GCNT2 g) fLNK_GCNT2_REPLAYS
    m.modG g (fun x => { x with
      kept := x.kept.set i { k with sent := k.sent + 1 }, replay := x.replay - 1, wire := some k.pkt
      tries := if i = 0 then x.tries + 1 else x.tries })

/-- The queues whose packets compete on group `g`. -/
def Mach.contenders (m : Mach) (g : Nat) : List Nat := m.queuesOn.filter (fun q => m.qGroup q == g && m.qEligible q)

/-- QSTARVE in cycles, 0 taken as 10 µs. -/
def Mach.qstarve (m : Mach) : Nat := 8000 * max 1 (m.fld aARB_STARVE fARB_STARVE_QSTARVE)

/-- A queue's packet has waited longer than QSTARVE (R417). -/
def Mach.qStarving (m : Mach) (q : Nat) : Bool :=
  match (m.q q).eligible with
  | some c => decide (m.qstarve < m.cyc - c)
  | none => false

/-- The queue that wins DATA arbitration on group `g`: a starving one first with AGE_EN, else the highest PRI, equal PRI in
cyclic order after the last winner (R415, R417). -/
def Mach.qWinner (m : Mach) (g : Nat) : Option Nat :=
  let all := m.contenders g
  let old := all.filter m.qStarving
  let pool := if m.flag aARB_STARVE fARB_STARVE_AGE_EN && !old.isEmpty then old else all
  let top := pool.foldl (fun k q => max k (m.fld (qdesc q 0) fQ_PRI)) 0
  let best := pool.filter (fun q => m.fld (qdesc q 0) fQ_PRI == top)
  best.foldl (fun w q =>
    let d (x : Nat) := (x + 32768 - ((m.g g).lastq + 1) % 32768) % 32768
    match w with | none => some q | some p => if d q < d p then some q else some p) none

/-- The first `k` records of queue `q` with their bytes. -/
def Mach.qRecs (m : Mach) (q off : Nat) : Nat → List (List Byte)
  | 0 => []
  | k + 1 =>
    let n := leNat (m.qGet q off 4) % 2 ^ 13
    m.qGet q (m.qStep q off 4) n :: m.qRecs q (m.qStep q off (4 + n)) k

/-- The DATA packet of queue `q` as it stands (R395). -/
def Mach.dataPacket (m : Mach) (q : Nat) : Pkt :=
  let n := m.qPlan q
  let recs := m.qRecs q (m.qRd q) n
  { ty := 0x13, ctx := q / 4096, queue := q, seq := 0
    spec := leBytes 2 (m.fld (qdesc q 0) fQ_ENDPOINT) ++ (m.qGet q (m.qStep q (m.qRd q) 2) 2) ++ leBytes 1 n
      ++ leBytes 1 (bit (m.q q).dropped)
    payload := if n = 1 then recs.flatten else recs.flatMap (fun r => leBytes 4 r.length ++ r) }

/-- `n` records leave queue `q`. -/
def Mach.qPopN (m : Mach) (q : Nat) : Nat → Mach
  | 0 => m
  | n + 1 => (m.qPop q).qPopN q n

/-- The DATA packet of queue `q` is handed to the link: credit, PKTS, the records leave (R403). -/
def Mach.handOver (m : Mach) (g phase q : Nat) : Mach :=
  let p := m.dataPacket q
  let credit := m.fld (qdesc q 7) fQ_ALL
  let m := m.qPopN q (m.qPlan q)
  let m := m.when (credit != 0xFFFFFFFF) (fun m => m.setFld (qdesc q 7) fQ_ALL (credit - divCeil p.payload.length 64))
  let m := (m.wrapInc (qdesc q 15) fQ_ALL).modQ q (fun x => { x with dropped := false, eligible := none })
  ((m.modG g (fun x => { x with lastq := q })).qMark q).launch g phase p

/-- The next sequenced packet leaves, unless a limit of R372 is reached: SAFE, then answers in order of creation, then DATA
(R415). -/
def Mach.egressNew (m : Mach) (g phase : Nat) : Mach :=
  match (m.g g).safeq, (m.g g).respq with
  | p :: t, _ => if m.mayKeep g p.size then (m.modG g (fun x => { x with safeq := t })).launch g phase p else m
  | [], p :: t => if m.mayKeep g p.size then (m.modG g (fun x => { x with respq := t })).launch g phase p else m
  | [], [] =>
    match m.qWinner g with
    | none => m
    | some q => if m.mayKeep g (m.dataPacket q).size then m.handOver g phase q else m

/-- EGRESS_GRANT: one packet leaves group `g`; link types first, then the running replay, then new sequenced packets (R371,
R372, R415). -/
def execEgressGrant (g phase : Nat) (s : State) : Host.Outcome State Fault Refusal :=
  s.run (wfEgressGrant g phase) (fun _ m =>
    match (m.g g).linkq with
    | p :: t =>
      if m.linkUp g ∨ m.gState g = 4 then
        let lanes := if p.ty = 5 then (m.g g).rebond.getD (m.gActive g) else m.gActive g
        (m.sendOn (lanesOf g lanes) (p.bytes false)).modG g (fun x => { x with linkq := t, wire := some p })
      else m
    | [] =>
      if !m.linkUp g then m
      else if (m.g g).replay ≠ 0 then m.resend g
      else m.egressNew g phase)

/-- The payload of the TRAIN packets lane `l` sends (R375). -/
def Mach.trainPayload (m : Mach) (l : Nat) : List Byte :=
  let g := l / 4
  leBytes 1 (128 * g + l % 4)
    ++ leBytes 1 (bit (decide (8 ≤ (m.l l).valid)) + 2 * bit (m.lState l == 2) + 4 * bit (m.g g).fresh)
    ++ leBytes 1 (16 * m.fld (aLNK_GSTAT g) fLNK_GSTAT_RUNG + m.maxRung g) ++ leBytes 1 0
    ++ leBytes 2 (m.g g).rxSeq ++ leBytes 10 0

/-- MARKER_TIMER: a lane that trains sends a TRAIN packet, framed on it alone (R375); a bonded lane sends a marker that begins
an IDLE packet when no packet is due (R364). -/
def execMarkerTimer (l : Nat) (s : State) : Host.Outcome State Fault Refusal :=
  s.run (wfMarkerTimer l) (fun _ m =>
    let g := l / 4
    if (m.training g ∨ (m.gState g = 2 ∧ (m.lState l = 1 ∨ m.lState l = 2))) ∧ (m.laneMask g).testBit (l % 4) then
      m.sendOn [l] ({ ty := 3, ctx := 0, queue := 0, seq := 0, spec := [], payload := m.trainPayload l : Pkt }.bytes false)
    else if m.linkUp g ∧ (m.gActive g).testBit (l % 4) ∧ (m.g g).linkq = [] ∧ (m.g g).replay = 0
        ∧ (m.g g).safeq = [] ∧ (m.g g).respq = [] ∧ m.qWinner g = none then
      let p : Pkt := { ty := 0, ctx := 0, queue := 0, seq := 0, spec := [], payload := [] }
      (m.sendOn [l] (p.bytes false)).modG g (fun x => { x with wire := some p })
    else m)

/-- QUEUE_GROUP_CHANGE: a queue with GROUP 2 whose group has not been BONDED for 10 µs moves to the other one when that is
BONDED (R404). -/
def execQueueGroupChange (q : Nat) (s : State) : Host.Outcome State Fault Refusal :=
  s.run (wfQueueGroupChange q) (fun _ m =>
    let g := m.qGroup q
    if m.qOn q ∧ 2 ≤ m.fld (qdesc q 0) fQ_GROUP ∧ ¬ m.bonded g ∧ m.bonded (1 - g) then
      let m := m.advanceTo ((m.g g).downSince + 8000)
      (m.setFld (qdesc q 0) fQ_CURGRP (1 - g)).qMark q
    else m)

/-- QUEUE_STARVE: a queue's packet has been eligible for longer than QSTARVE; EGR of its group sets and raises cause 2 (R417). -/
def execQueueStarve (q : Nat) (s : State) : Host.Outcome State Fault Refusal :=
  s.run (wfQueueStarve q) (fun _ m =>
    match (m.q q).eligible with
    | none => m
    | some c =>
      let m := m.advanceTo (c + m.qstarve + 1)
      let b := m.fld aARB_STAT fARB_STAT_EGR
      if b.testBit (m.qGroup q) then m
      else (m.setFld aARB_STAT fARB_STAT_EGR (b ||| 2 ^ m.qGroup q)).raiseAll 2 (leBytes 4 ((m.setFld aARB_STAT fARB_STAT_EGR (b ||| 2 ^ m.qGroup q)).reg aARB_STAT).toNat))

end Sys2Proof.Machine
end

