-- ==== Sys2Proof/Machine/Power.lean ====
section
/-!
DEFINITION. Power, clocks and start-up (R38 to R64): supplies and their monitors, the root PLL, resets, start-up through
BOOT, and the requests of device states.
-/
namespace Sys2Proof.Machine

/-! ## Resets (R48 to R50) -/

/-- The sources of a device reset (R48), and the hold of R506. -/
inductive ResetSource | cold | supply | clock | host (skip keep : Bool) | tap
deriving DecidableEq, Repr

/-- PWR_RST_CAUSE after a reset: a cold reset clears all and sets COLD, the others add their bit (R48). -/
def ResetSource.cause (r : ResetSource) (w : Word) : Word :=
  match r with
  | .cold => 1
  | .supply => w ||| 2
  | .clock => w ||| 4
  | .host _ _ => w ||| 8
  | .tap => w

/-- The device resets (R48 to R50, R36): it goes to RESET; programs, tables, registers, descriptors and SRAM start anew;
PWR_RST_CAUSE and ROOT_UNLOCK survive as their rows say, the levels of the supplies and the test port stay as they are. With KEEP_DRAM
the bytes of DRAM and MEM_CFG are kept (R49); otherwise DRAM reads as power-on memory does. -/
def Mach.reset' (m : Mach) (r : ResetSource) : Mach :=
  let keep := match r with | .host _ k => k && m.flag aMEM_STAT fMEM_STAT_READY | _ => false
  let skip := match r with | .host s _ => s | _ => false
  let n : Mach := { Mach.reset with
    cyc := m.cyc, free := m.free, tap := m.tap
    mem := if keep then m.mem.filter (fun c => decide (0x80_0000_0000 ≤ c.1) && decide (c.1 < 0xA0_0000_0000)) else []
    dev := { Dev.reset with st := .reset, porstLow := m.dev.porstLow, pllLocked := false, otpLoaded := false
                            bistSkip := skip, dramKept := keep, low := m.dev.low, pllRetry := m.cyc + 160000 } }
  let n := n.setReg aPWR_RST_CAUSE (r.cause (m.reg aPWR_RST_CAUSE))
  let n := n.setFld aPWR_SUPPLY_STAT fPWR_SUPPLY_STAT_OK (0x1FF - m.dev.low)
  let n := n.setFld aCLK_STAT fCLK_STAT_ROOT_UNLOCK (m.fld aCLK_STAT fCLK_STAT_ROOT_UNLOCK)
  let n := n.setFld aCLK_STAT fCLK_STAT_ROOT_LOCK 0
  let n := n.setFld aGLB_STATE fGLB_STATE_PREV m.dev.st.code
  n.when keep (fun n => n.setReg aMEM_CFG (m.reg aMEM_CFG))

/-- OFF: nothing is held (R3, R51). -/
def Mach.powerOff (m : Mach) : Mach :=
  { Mach.reset with cyc := m.cyc, free := m.free
                    dev := { Dev.reset with st := .off, porstLow := m.dev.porstLow, pllLocked := false, otpLoaded := false } }

/-! ## Requests of a device state (R54 to R56) -/

/-- A cause of OASIS has cleared (R56, R497). -/
def Mach.cleared (m : Mach) : OasisCause → Bool
  | .host | .arming => true
  | .bist => false
  | .fault c => !m.flag aFLT_STAT fFLT_STAT_OASIS_F && (match c with
      | .guard => !m.flag aGRD_STAT fGRD_STAT_FAULT
      | .sensors => false
      | .lockstep n => !m.flag (aSUP_FAULT n) fSUP_FAULT_VALID
      | .mask => true)
  | .safety => !m.flag aFLT_STAT fFLT_STAT_OASIS_F && !m.flag aSAF_STAT fSAF_STAT_FAULT
  | .supply g => m.fld aPWR_SUPPLY_STAT fPWR_SUPPLY_STAT_OK == 0x1FF && m.fld aPWR_SUPPLY_STAT fPWR_SUPPLY_STAT_TRIP == 0
      && (!g || !m.flag aGRD_STAT fGRD_STAT_FAULT)
  | .clock => m.flag aCLK_STAT fCLK_STAT_GOSC_OK && m.flag aCLK_STAT fCLK_STAT_ROOT_LOCK
      && !m.flag aCLK_STAT fCLK_STAT_GOSC_FAIL && !m.flag aGRD_STAT fGRD_STAT_FAULT

/-- The size of an engine's program memory in words, or of the pool store (R16). -/
def progWords (e : Nat) : Nat :=
  match engClass e with
  | .re => 0x4000 | .sq => 0x2000 | .ae => 0x800 | .sv => 0x10000

/-- LEN of an engine in words. -/
def Mach.engLen (m : Mach) (e : Nat) : Nat := m.fld (engPage e + 0xC) ⟨18, 2⟩
/-- ENTRY of an engine, as a word address. -/
def Mach.engEntry (m : Mach) (e : Nat) : Nat := m.fld (engPage e + 8) ⟨17, 2⟩
/-- ENABLE of an engine. -/
def Mach.engOn (m : Mach) (e : Nat) : Bool := m.flag (engPage e) ⟨0, 0⟩

/-- An engine passes the load checks of R108. -/
def Mach.loadOk (m : Mach) (e : Nat) : Bool :=
  !m.engOn e || ((m.e e).verified && m.engLen e != 0 && decide (m.engEntry e < m.engLen e))

/-- The enabled engines that fail the load checks record why (R108). -/
def Mach.markLoad (m : Mach) : Mach :=
  (List.range 282).foldl (fun s e =>
    if s.loadOk e then s else s.modE e (fun x => { x with reqErr := if x.verified then 6 else 3 })) m

/-- A granted edge of sequencer `n` has not left yet (R129). -/
def Mach.edgesLeft (m : Mach) (n : Nat) : Nat :=
  (m.emt.shots.filter (fun s => s.sq == n && s.stage == .granted)).length

/-- Sequencer `n` stops with a STOP_CAUSE after the last edge already granted to it (R106, R170). -/
def Mach.stopSeq (m : Mach) (n cause : Nat) : Mach :=
  if (m.e (256 + n)).active then
    if m.edgesLeft n = 0 ∧ m.emt.shots.all (fun s => !(s.sq == n && (s.stage == .asked || s.stage == .reserved))) then
      m.haltSeqAs n .stopped cause
    else m.modE (256 + n) (fun x => { x with stopping := some cause })
  else m

/-- FIRE pairs are no longer held off once the device leaves OASIS (R153). OASIS_CAUSE keeps the cause of the last entry (R56). -/
def Mach.leaveOasis (m : Mach) : Mach := m.setFld aEMT_STAT fEMT_STAT_ALLOFF 0

/-- Engine `e` is STOPPED as LINKED has it (R106): a running one stops without a cause, a range engine loses its handle. -/
def Mach.rest (m : Mach) (e : Nat) : Mach :=
  if (m.e e).active then
    match engClass e with
    | .sq => m.haltSeqAs (engInst e) .stopped 0
    | .re => (m.haltEngine e .stopped 0).loseHandle e
    | _ => m.haltEngine e .stopped 0
  else m.modE e (fun x => { x with st := .stopped })

/-- LINKED after OASIS: every engine is STOPPED (R106). A supervisor that ran channel B takes the safety configuration down with it (R455). -/
def Mach.enterLinked (m : Mach) : Mach :=
  let ran (n : Nat) : Bool := (m.e (280 + n)).active
  let m := ((List.range 282).foldl Mach.rest m).goto .linked
  (List.range 2).foldl (fun m n => m.when (ran n) (fun m => m.supervisorDown n)) m

/-- The transition R53 allows from state `s` on a request of state `t`, given that LOADED has been reached before. -/
def transitionOk (s t : DevState) (loadedOnce : Bool) : Bool :=
  match s, t with
  | .linked, .loaded => true
  | .loaded, .armed => true
  | .armed, .running => true
  | .running, .armed => true
  | .armed, .loaded => true
  | .running, .loaded => true
  | .oasis, .loaded => loadedOnce
  | .oasis, .linked => true
  | .reset, .oasis => true
  | .boot, .oasis => true
  | .linked, .oasis => true
  | .loaded, .oasis => true
  | .armed, .oasis => true
  | .running, .oasis => true
  | _, _ => false

/-- REQ_ERR of the last state request. -/
def Mach.reqErr (m : Mach) (v : Nat) : Mach := m.setFld aGLB_STATE fGLB_STATE_REQ_ERR v

/-- A permitted request carried out: the conditions of the transition (R53, R56, R57, R108), then the change. The load checks are a condition of
the step from LINKED to LOADED. -/
def Mach.doRequest (m : Mach) (t : DevState) : Mach :=
  let fromOasis := m.dev.st == .oasis
  if fromOasis && !m.dev.causes.all m.cleared then m.reqErr 6
  else
    match t with
    | .loaded =>
      if m.hot then
        let m := if m.dev.st = .running then m.ossdOffAll 5 else m
        ((List.range 16).foldl (fun s n => s.stopSeq n 5) (m.reqErr 0)).goto .loaded
      else if fromOasis || (List.range 282).all m.loadOk then
        let m := (m.reqErr 0).when fromOasis Mach.leaveOasis
        m.goto .loaded
      else (m.markLoad).reqErr 3
    | .armed =>
      if m.dev.st = .running then ((m.reqErr 0).ossdOffAll 5).goto .armed
      else if m.armConds.all id && m.flag aCLK_STAT fCLK_STAT_GOSC_OK then (m.reqErr 0).goto .armed
      else m.reqErr 2
    | .oasis => (m.reqErr 0).enterOasis .host
    | .linked => ((m.reqErr 0).when fromOasis Mach.leaveOasis).enterLinked
    | t => (m.reqErr 0).goto t

/-- The state with a request code; 0x3 to 0x7 (R54). -/
def stateOfCode : Nat → Option DevState
  | 3 => some .linked | 4 => some .loaded | 5 => some .armed | 6 => some .running | 7 => some .oasis | _ => none

/-- A write of GLB_STATE_REQ from context `c`: the first failure in the order context, key, target and transition,
conditions (R54); a request of the current state is accepted and does nothing. The link answers OK. -/
def Mach.stateReq (m : Mach) (c key target : Nat) : Mach :=
  if !m.ctxOn c then m.done 7
  else if m.dev.st = .shutdown then m.done 1
  else
  let m := m.done 0
  if ¬ (c = m.owner ∨ (target = 7 ∧ c = m.safetyCtx)) then m.reqErr 4
  else if key ≠ 0x5A17 then m.reqErr 5
  else
    match stateOfCode target with
    | none => m.reqErr 1
    | some t =>
      if m.dev.st = t then m.reqErr 0
      else if transitionOk m.dev.st t m.dev.loadedOnce then m.doRequest t
      else m.reqErr 1

/-! ## Commands -/

/-- SUPPLY_RISE: OFF to RESET (R53). -/
def execSupplyRise (s : State) : Host.Outcome State Fault Refusal :=
  s.run wfSupplyRise (fun _ m => if m.dev.st = .off then m.reset' .cold else m)

/-- SUPPLY_REMOVE: any state to OFF (R53). -/
def execSupplyRemove (s : State) : Host.Outcome State Fault Refusal :=
  s.run wfSupplyRemove (fun _ m => m.powerOff)

/-- PORST_N_ASSERT: a cold reset, from any state but OFF and SHUTDOWN for its transition to RESET (R48, R53); OTP is loaded
again, BIST runs again, DRAM is lost. In OFF the pin alone changes. -/
def execPorstAssert (s : State) : Host.Outcome State Fault Refusal :=
  s.run wfPorstAssert (fun _ m =>
    let m := { m with dev := { m.dev with porstLow := true } }
    if m.dev.st = .off ∨ m.dev.st = .shutdown then m else m.reset' .cold)

/-- PORST_N_RELEASE: the root PLL starts to lock, for at most 200 µs before it retries (R45, R47). -/
def execPorstRelease (s : State) : Host.Outcome State Fault Refusal :=
  s.run wfPorstRelease (fun _ m =>
    { m with dev := { m.dev with porstLow := false, pllRetry := m.cyc + 160000 } })

/-- ROOT_PLL_LOCK: the lock detector reads locked, and in RESET the OTP load begins (R53). -/
def execRootPllLock (s : State) : Host.Outcome State Fault Refusal :=
  s.run wfRootPllLock (fun _ m =>
    if m.dev.st = .reset ∧ ¬ m.dev.porstLow ∧ m.tap.extest = false then
      { m with dev := { m.dev with pllLocked := true } }.setFld aCLK_STAT fCLK_STAT_ROOT_LOCK 1
    else m)

/-- PLL_LOCK_RETRY: while the PLL has not locked the device stays in RESET and the next try comes 1 ms later (R47). -/
def execPllLockRetry (s : State) : Host.Outcome State Fault Refusal :=
  s.run wfPllLockRetry (fun _ m =>
    if m.dev.st = .reset ∧ m.dev.pllLocked = false ∧ ¬ m.dev.porstLow then
      let m := m.advanceTo m.dev.pllRetry
      { m with dev := { m.dev with pllRetry := m.cyc + 800000 } }
    else m)

/-- OTP_LOAD_DONE: RESET to BOOT once the root PLL has locked; BIST starts, device time counts from 0, and TRANS_CNT
counts from here (R53, R110). The part's grade shows in GLB_ID. -/
def execOtpLoadDone (s : State) : Host.Outcome State Fault Refusal :=
  s.run wfOtpLoadDone (fun otp m =>
    if m.dev.st = .reset ∧ m.dev.pllLocked ∧ ¬ m.dev.porstLow ∧ m.tap.extest = false ∧ m.dev.low &&& 0x10B = 0 then
      let m := { m with dev := { m.dev with st := .boot, otpLoaded := true }
                        time := { m.time with now := { sec := 0, ns := 0, frac := 0 } } }
      ((m.setFld aGLB_STATE fGLB_STATE_PREV 1).setFld aGLB_STATE fGLB_STATE_TRANS_CNT 0).setFld aGLB_ID fGLB_ID_GRADE otp.grade
    else m)

/-- BIST_DONE: whether it passed or failed, training starts on both groups at rung 0 (R50, R375, R536). -/
def execBistDone (pass : Bool) (s : State) : Host.Outcome State Fault Refusal :=
  s.run (wfBistDone pass) (fun _ m =>
    if m.dev.st = .boot ∧ m.dev.bist = none then
      let m := { m with dev := { m.dev with bist := some pass } }
      (List.range 2).foldl (fun m g => m.trainAt g 0 1) m
    else m)

/-- SUPPLY_MONITOR_RELEASE: supply i reads OK again; after VDD_LANE both groups retrain from rung 0 (R43, R384). -/
def execSupplyMonitorRelease (i : Nat) (s : State) : Host.Outcome State Fault Refusal :=
  s.run (wfSupplyMonitorRelease i) (fun _ m =>
    if m.dev.low.testBit i then
      let low := m.dev.low - 2 ^ i
      let m := { m with dev := { m.dev with low := low } }
      let m := m.setFld aPWR_SUPPLY_STAT fPWR_SUPPLY_STAT_OK (0x1FF - low)
      m.when (i == 6 && m.dev.st != .reset && m.dev.st != .off) Mach.retrainAll
    else m)

/-- CLOCK_MONITOR_WINDOW: 500 guard cycles gave `count` core cycles. GOSC_KHZ takes the measurement. Outside 7,360 to
8,640 with the oscillator running, the root clock has failed: all firing is denied, the OSSD commands go off, and the device resets with
cause CLOCK. When the oscillator itself is judged outside ±8 % from the core side, the guard faults, the device enters OASIS with cause
0x04 and reports (R46, R47, R218). -/
def execClockMonitorWindow (count : Nat) (oscRunning : Bool) (s : State) : Host.Outcome State Fault Refusal :=
  s.run (wfClockMonitorWindow count oscRunning) (fun _ m =>
    if m.dev.st = .off ∨ m.dev.st = .reset ∨ m.dev.st = .shutdown then m
    else
      let m := m.setFld aCLK_STAT fCLK_STAT_GOSC_KHZ (if count = 0 then 0 else 400000000 / count)
      let ok := decide (7360 ≤ count) && decide (count ≤ 8640)
      if ok && oscRunning then m.setFld aCLK_STAT fCLK_STAT_GOSC_OK 1
      else if oscRunning then
        let m := m.setFld aCLK_STAT fCLK_STAT_ROOT_UNLOCK 1
        m.reset' .clock
      else
        let m := (m.setFld aCLK_STAT fCLK_STAT_GOSC_OK 0).setFld aCLK_STAT fCLK_STAT_GOSC_FAIL 1
        m.guardFails .clock (srcId 0x06 0))

/-- ROOT_PLL_UNLOCK: ROOT_UNLOCK sets and the device resets with cause CLOCK (R47). -/
def execRootPllUnlock (s : State) : Host.Outcome State Fault Refusal :=
  s.run wfRootPllUnlock (fun _ m =>
    if m.dev.st = .off ∨ m.dev.st = .shutdown then m
    else (m.setFld aCLK_STAT fCLK_STAT_ROOT_UNLOCK 1).reset' .clock)

/-- REQUEST_LINKED: a GLB_STATE_REQ write with TARGET 0x3 (R54). -/
def execRequestLinked (ctx key : Nat) (s : State) : Host.Outcome State Fault Refusal :=
  s.run (wfRequestLinked ctx key) (fun _ m => m.stateReq ctx key 3)

/-- REQUEST_LOADED: TARGET 0x4, with the load checks of R108. -/
def execRequestLoaded (ctx key : Nat) (s : State) : Host.Outcome State Fault Refusal :=
  s.run (wfRequestLoaded ctx key) (fun _ m => m.stateReq ctx key 4)

/-- REQUEST_ARMED: TARGET 0x5, with the arming conditions of R57. -/
def execRequestArmed (ctx key : Nat) (s : State) : Host.Outcome State Fault Refusal :=
  s.run (wfRequestArmed ctx key) (fun _ m => m.stateReq ctx key 5)

/-- REQUEST_RUNNING: TARGET 0x6. -/
def execRequestRunning (ctx key : Nat) (s : State) : Host.Outcome State Fault Refusal :=
  s.run (wfRequestRunning ctx key) (fun _ m => m.stateReq ctx key 6)

/-- REQUEST_OASIS: TARGET 0x7, from the Owner or the Safety context (R54). -/
def execRequestOasis (ctx key : Nat) (s : State) : Host.Outcome State Fault Refusal :=
  s.run (wfRequestOasis ctx key) (fun _ m => m.stateReq ctx key 7)

/-- HOST_RESET: an Owner write of PWR_RESET_REQ with the key and GO schedules the reset 10 µs after its acknowledgement;
another context's write is answered NOACC, a wrong key is ignored (R64). -/
def Mach.resetReq (m : Mach) (c : Nat) (v : Word) : Mach :=
  if !m.ctxOn c then m.done 7
  else if m.dev.st = .shutdown then m.done 1
  else if c ≠ m.owner then m.done 3
  else
    let m := m.done 0
    if fPWR_RESET_REQ_KEY.get v = 0x5A17 ∧ fPWR_RESET_REQ_GO.get v = 1 then
      { m with dev := { m.dev with
          resetDue := some (m.cyc + 8000, fPWR_RESET_REQ_BIST_SKIP.get v == 1, fPWR_RESET_REQ_KEEP_DRAM.get v == 1) } }
    else m

/-- HOST_RESET (R64). -/
def execHostReset (ctx : Nat) (v : Word) (s : State) : Host.Outcome State Fault Refusal :=
  s.run (wfHostReset ctx v) (fun _ m => m.resetReq ctx v)

/-- HOST_RESET_START: 10 µs later the device resets, after placing DRAM in self-refresh when KEEP_DRAM is 1 (R49, R64). -/
def execHostResetStart (s : State) : Host.Outcome State Fault Refusal :=
  s.run wfHostResetStart (fun _ m =>
    match m.dev.resetDue with
    | none => m
    | some (c, skip, keep) => if m.dev.st = .shutdown then m else (m.advanceTo c).reset' (.host skip keep))

end Sys2Proof.Machine
end

