-- ==== Sys2Proof/Machine/EngineCtl.lean ====
section
/-!
DEFINITION. Engines as the host and the fault manager handle them: faults with their failovers and traps (R97 to R101, R277,
R278, R494), issue of an instruction, START, STOP and VERIFY (R104 to R107), mailboxes, semaphores and the writing of
memories (R87, R89, R103).
-/
namespace Sys2Proof.Machine

/-! ## Failover (R172, R191, R277, R494, R495) -/

/-- The standby of sequencer `n` that could take its caravan over: configured, running, not live yet (R171). -/
def Mach.standbyOf (m : Mach) (n : Nat) : Option Nat :=
  (List.range 16).find? (fun s => s != n && m.flag (aSEQ_STBY s) fSEQ_STBY_EN && m.fld (aSEQ_STBY s) fSEQ_STBY_FOR == n
    && !m.flag (aSEQ_STBY s) fSEQ_STBY_LIVE && (m.e (256 + s)).active)

/-- The monitor of axis `a` could take over (R191). -/
def Mach.takeoverOk (m : Mach) (a : Nat) : Bool :=
  m.flag (aAXS_CFG a) fAXS_CFG_TAKEOVER && (m.e (273 + 2 * a)).active && !(m.ax a).monBad
    && !m.flag (aAXS_ASTAT a) fAXS_ASTAT_DRIVE

/-- The action a fault of engine `e` is recorded with: 1 when its failover is possible, 2 when it is not, 0 when nothing
is to fail over (R494, R495). -/
def Mach.failoverAction (m : Mach) (e : Nat) : Nat :=
  match engClass e with
  | .re =>
    if (m.e e).held.isNone then 0
    else if (m.members (m.poolOf e)).any (fun n => n != e && (m.e n).active) then 1 else 2
  | .sq => if (m.standbyOf (engInst e)).isSome then 1 else 2
  | .ae =>
    let a := engInst e / 2
    let drives := m.fld (aAXS_ASTAT a) fAXS_ASTAT_DRIVE == engInst e % 2
    if !m.flag (aAXS_CFG a) fAXS_CFG_EN || !drives || m.flag (aAXS_ASTAT a) fAXS_ASTAT_FAILED then 0
    else if m.takeoverOk a then 1 else 2
  | .sv => 0

/-- The undecided requests of a sequencer are withdrawn with their slots (R169). -/
def Mach.withdrawShots (m : Mach) (n : Nat) : Mach :=
  let mine (s : Shot) : Bool := s.sq == n && (s.stage == .asked || s.stage == .reserved)
  let gone := (m.emt.shots.filter mine).map (fun s => s.slot)
  { m with emt := { m.emt with shots := m.emt.shots.filter (fun s => !mine s)
                               slots := m.emt.slots.filter (fun l => !gone.contains l)
                               walks := m.emt.walks.filter (fun w => w.sq != n) } }

/-! ## Faults (R97 to R101) -/

/-- A supervisor trap takes fault `code` (R101). -/
def Mach.trapsTo (m : Mach) (e code : Nat) : Bool :=
  engClass e == .sv && (m.e e).tvec % 2 == 1 && !(m.e e).inTrap
    && ((decide (1 ≤ code) && decide (code ≤ 6)) || decide (0x10 ≤ code))

/-- The instruction word at an engine's PC; outside program memory there is none and the value is free. -/
def Mach.insnAt (m : Mach) (e : Nat) : Word × Mach :=
  let pc := (m.e e).pc
  if pc < progBytes e then (m.mword (m.progBase e + pc), m) else m.takeFree

/-- The fault record of an engine's page takes the first fault since VALID was cleared. -/
def Mach.faultRecord (m : Mach) (e code : Nat) : Mach :=
  let a := engPage e + 0x18
  if m.flag a ⟨31, 31⟩ then m
  else
    let (w, m) := m.insnAt e
    let m := (m.setFld a ⟨31, 31⟩ 1).setFld a ⟨23, 16⟩ code
    (m.setFld (engPage e + 0x1C) ⟨17, 0⟩ (m.e e).pc).setReg (engPage e + 0x20) w

/-- A fault of engine `e` (R97 to R101): a trap in a supervisor that takes it, else FAULTED with its record, its report and
its failover. The faulting instruction has had no effect. -/
def Mach.engFault (m : Mach) (e code : Nat) : Mach :=
  let m := m.satInc (engPage e + 0x18) ⟨15, 0⟩
  if m.trapsTo e code then
    let m := m.modE e (fun x => { x with epc := x.pc, cause := code, inTrap := true, pc := x.tvec % 2 ^ 18 / 4 * 4 })
    m.report (engSrc e) (engSrc e) code 0
  else
    let act := m.failoverAction e
    let m := (m.faultRecord e code).haltEngine e .faulted 3
    let m := m.report (engSrc e) (engSrc e) code act
    match engClass e with
    | .re => m.loseHandle e
    | .sq => ((m.withdrawShots (engInst e)).showWalks).closeOwned (engInst e)
    | .ae => m
    | .sv => m.supervisorDown (engInst e)

/-! ## Issue of an instruction -/

/-- The line of the instruction buffer that holds an RE's instruction is filled on a miss (R96). -/
def Mach.fetch (m : Mach) (e : Nat) : Mach :=
  if engClass e = .re then
    m.modE e (fun x => { x with ibuf := mapPut 0xFFFF x.ibuf (x.pc / 64 % 64) (x.pc / 64) })
  else m

/-- Engine `e` issues an instruction: nothing when it is not RUNNING or about to stop. A PC outside program memory is a bus
error (R97); an instruction of another class's profile a profile mismatch (R73); one with a reserved or unused field set, or
otherwise invalid, illegal (R69). -/
def Mach.issue (m : Mach) (e : Nat) (prof : Option EngClass) (legal : Bool) (f : Mach → Mach) : Mach :=
  let x := m.e e
  if x.st ≠ .running ∨ x.stopping ≠ none then m
  else if progBytes e ≤ x.pc then m.engFault e 4
  else
    let m := m.fetch e
    if prof.isSome && prof != some (engClass e) then m.engFault e 2
    else if !legal then m.engFault e 1
    else f m

/-! ## Start and stop (R66, R104, R105) -/

/-- The profile registers of a sequencer follow its profile state (SEQ_ARMST, SEQ_CODE). -/
def Mach.showSeq (m : Mach) (n set_ : Nat) : Mach :=
  let s := (m.e (256 + n)).seq
  let a := aSEQ_ARMST n
  let m := (m.setFld a fSEQ_ARMST_SET set_).setFld a fSEQ_ARMST_HCTX s.armh
  let m := (m.setFld a fSEQ_ARMST_NM1 (s.armn - 1)).setFld a fSEQ_ARMST_ARMED (bit (!s.armset.isEmpty))
  let c := aSEQ_CODE n
  let m := (m.setFld c fSEQ_CODE_ON (bit s.coding)).setFld c fSEQ_CODE_INDEX s.code
  (m.setFld c fSEQ_CODE_LM1 (s.len - 1)).setFld c fSEQ_CODE_STEP s.step

/-- What an accepted START leaves of an engine (R66): memories, mailbox and verification stay. -/
def Engine.started (x : Engine) (c entry : Nat) : Engine :=
  { Engine.reset with
    st := .running, pc := 4 * entry, startCyc := c, wdogCyc := c, since := c, msrc := x.msrc, epc := x.epc, cause := x.cause
    verified := x.verified, verifyDue := x.verifyDue, mbox := x.mbox, inflight := x.inflight }

/-- REQ_ERR of a START (R104): the lowest code that applies. -/
def Mach.startErr (m : Mach) (e : Nat) : Nat :=
  let okState := m.dev.st == .loaded || m.hot || (m.dev.st == .oasis && engClass e != .sq)
  if !okState then 1
  else if !m.flag (engPage e) ⟨0, 0⟩ then 2
  else if !(m.e e).verified then 3
  else if (m.e e).active then 4
  else if (m.fld (engPage e + 0xC) ⟨18, 2⟩) ≤ (m.fld (engPage e + 8) ⟨17, 2⟩) then 6 else 0

end Sys2Proof.Machine
end

