-- ==== Sys2Proof/Machine/Arith.lean ====
section
/-!
DEFINITION. The arithmetic and logic instructions (R74 to R78): the three-register forms with their predicates, the immediate
forms, li and lui.
-/
namespace Sys2Proof.Machine

/-! ## Operations (R74) -/

def aluAdd (a b : Word) : Alu := .wrap (a.toInt + b.toInt) (a.toNat + b.toNat)
def aluSub (a b : Word) : Alu := .wrap (a.toInt - b.toInt) ((a.toNat : Int) - b.toNat)
def aluAnd (a b : Word) : Alu := .plain (a &&& b)
def aluOr (a b : Word) : Alu := .plain (a ||| b)
def aluXor (a b : Word) : Alu := .plain (a ^^^ b)
def aluShl (a b : Word) : Alu := .plain (a <<< (b.toNat % 32))
def aluShr (a b : Word) : Alu := .plain (a >>> (b.toNat % 32))
def aluSra (a b : Word) : Alu := .plain (a.sshiftRight (b.toNat % 32))
def aluMul (a b : Word) : Alu := .wrap (a.toInt * b.toInt) (a.toNat * b.toNat)
def aluMulh (a b : Word) : Alu := .plain (wordOfInt (a.toInt * b.toInt / 2 ^ 32))
def aluAdds (a b : Word) : Alu := .clip (a.toInt + b.toInt) (a.toNat + b.toNat)
def aluSubs (a b : Word) : Alu := .clip (a.toInt - b.toInt) ((a.toNat : Int) - b.toNat)
def aluMin (a b : Word) : Alu := .plain (if a.toInt ≤ b.toInt then a else b)
def aluMax (a b : Word) : Alu := .plain (if a.toInt ≤ b.toInt then b else a)
def aluAbs (a _b : Word) : Alu := .clip (if a.toInt < 0 then -a.toInt else a.toInt) a.toNat

/-- A three-register operation is legal (R69, R75): reserved bits 0, no reserved condition, and without PS no predicate named. -/
def aLegal (i : FA) : Bool := i.resv == 0 && (if i.ps then i.cond != 7 else i.pd == 0 && i.cond == 0)

/-- A three-register operation executes (R74, R75). -/
def Mach.aluA (m : Mach) (e : Nat) (i : FA) (op : Word → Word → Alu) : Mach :=
  let a := op (m.g' e i.rs) (m.g' e i.rt)
  (m.modE e (fun x => x.putAlu i.rd a i.ps i.pd.toNat i.cond.toNat)).retire e

/-- An immediate operation executes; it sets no predicate (R76). -/
def Mach.aluI (m : Mach) (e : Nat) (i : FI) (imm : Word) (op : Word → Word → Alu) : Mach :=
  (m.modE e (fun x => x.putAlu i.rd (op (x.gr i.rs) imm) false 0 0)).retire e

/-- imm16 zero-extended (R76). -/
def zext16 (i : FI) : Word := i.imm.zeroExtend 32
/-- A shift amount: imm16[15:5] is 0 (R76). -/
def shiftOk (i : FI) : Bool := i.resv == 0 && decide (i.imm.toNat < 32)

/-! ## Commands -/

/-- add (R74, R75). -/
def execAdd (e : Nat) (i : FA) (s : State) : Host.Outcome State Fault Refusal :=
  s.run (wfAdd e i) (fun _ m => m.issue e none (aLegal i) (fun m => m.aluA e i aluAdd))

/-- sub (R74, R75). -/
def execSub (e : Nat) (i : FA) (s : State) : Host.Outcome State Fault Refusal :=
  s.run (wfSub e i) (fun _ m => m.issue e none (aLegal i) (fun m => m.aluA e i aluSub))

/-- and (R74, R75). -/
def execAnd (e : Nat) (i : FA) (s : State) : Host.Outcome State Fault Refusal :=
  s.run (wfAnd e i) (fun _ m => m.issue e none (aLegal i) (fun m => m.aluA e i aluAnd))

/-- or (R74, R75). -/
def execOr (e : Nat) (i : FA) (s : State) : Host.Outcome State Fault Refusal :=
  s.run (wfOr e i) (fun _ m => m.issue e none (aLegal i) (fun m => m.aluA e i aluOr))

/-- xor (R74, R75). -/
def execXor (e : Nat) (i : FA) (s : State) : Host.Outcome State Fault Refusal :=
  s.run (wfXor e i) (fun _ m => m.issue e none (aLegal i) (fun m => m.aluA e i aluXor))

/-- shl (R74, R75). -/
def execShl (e : Nat) (i : FA) (s : State) : Host.Outcome State Fault Refusal :=
  s.run (wfShl e i) (fun _ m => m.issue e none (aLegal i) (fun m => m.aluA e i aluShl))

/-- shr (R74, R75). -/
def execShr (e : Nat) (i : FA) (s : State) : Host.Outcome State Fault Refusal :=
  s.run (wfShr e i) (fun _ m => m.issue e none (aLegal i) (fun m => m.aluA e i aluShr))

/-- sra (R74, R75). -/
def execSra (e : Nat) (i : FA) (s : State) : Host.Outcome State Fault Refusal :=
  s.run (wfSra e i) (fun _ m => m.issue e none (aLegal i) (fun m => m.aluA e i aluSra))

/-- mul (R74, R75). -/
def execMul (e : Nat) (i : FA) (s : State) : Host.Outcome State Fault Refusal :=
  s.run (wfMul e i) (fun _ m => m.issue e none (aLegal i) (fun m => m.aluA e i aluMul))

/-- mulh (R74, R75). -/
def execMulh (e : Nat) (i : FA) (s : State) : Host.Outcome State Fault Refusal :=
  s.run (wfMulh e i) (fun _ m => m.issue e none (aLegal i) (fun m => m.aluA e i aluMulh))

/-- adds (R74, R75). -/
def execAdds (e : Nat) (i : FA) (s : State) : Host.Outcome State Fault Refusal :=
  s.run (wfAdds e i) (fun _ m => m.issue e none (aLegal i) (fun m => m.aluA e i aluAdds))

/-- subs (R74, R75). -/
def execSubs (e : Nat) (i : FA) (s : State) : Host.Outcome State Fault Refusal :=
  s.run (wfSubs e i) (fun _ m => m.issue e none (aLegal i) (fun m => m.aluA e i aluSubs))

/-- min (R74, R75). -/
def execMin (e : Nat) (i : FA) (s : State) : Host.Outcome State Fault Refusal :=
  s.run (wfMin e i) (fun _ m => m.issue e none (aLegal i) (fun m => m.aluA e i aluMin))

/-- max (R74, R75). -/
def execMax (e : Nat) (i : FA) (s : State) : Host.Outcome State Fault Refusal :=
  s.run (wfMax e i) (fun _ m => m.issue e none (aLegal i) (fun m => m.aluA e i aluMax))

/-- abs; the rt field is 0 (R74, R75). -/
def execAbs (e : Nat) (i : FA) (s : State) : Host.Outcome State Fault Refusal :=
  s.run (wfAbs e i) (fun _ m => m.issue e none (aLegal i && i.rt == 0) (fun m => m.aluA e i aluAbs))

/-- add with an immediate (R76). -/
def execAddImm (e : Nat) (i : FI) (s : State) : Host.Outcome State Fault Refusal :=
  s.run (wfAddImm e i) (fun _ m => m.issue e none (i.resv == 0) (fun m => m.aluI e i (sext16 i) aluAdd))

/-- and with an immediate (R76). -/
def execAndImm (e : Nat) (i : FI) (s : State) : Host.Outcome State Fault Refusal :=
  s.run (wfAndImm e i) (fun _ m => m.issue e none (i.resv == 0) (fun m => m.aluI e i (zext16 i) aluAnd))

/-- or with an immediate (R76). -/
def execOrImm (e : Nat) (i : FI) (s : State) : Host.Outcome State Fault Refusal :=
  s.run (wfOrImm e i) (fun _ m => m.issue e none (i.resv == 0) (fun m => m.aluI e i (zext16 i) aluOr))

/-- xor with an immediate (R76). -/
def execXorImm (e : Nat) (i : FI) (s : State) : Host.Outcome State Fault Refusal :=
  s.run (wfXorImm e i) (fun _ m => m.issue e none (i.resv == 0) (fun m => m.aluI e i (zext16 i) aluXor))

/-- shl with an immediate (R76). -/
def execShlImm (e : Nat) (i : FI) (s : State) : Host.Outcome State Fault Refusal :=
  s.run (wfShlImm e i) (fun _ m => m.issue e none (shiftOk i) (fun m => m.aluI e i (zext16 i) aluShl))

/-- shr with an immediate (R76). -/
def execShrImm (e : Nat) (i : FI) (s : State) : Host.Outcome State Fault Refusal :=
  s.run (wfShrImm e i) (fun _ m => m.issue e none (shiftOk i) (fun m => m.aluI e i (zext16 i) aluShr))

/-- sra with an immediate (R76). -/
def execSraImm (e : Nat) (i : FI) (s : State) : Host.Outcome State Fault Refusal :=
  s.run (wfSraImm e i) (fun _ m => m.issue e none (shiftOk i) (fun m => m.aluI e i (zext16 i) aluSra))

/-- mul with an immediate (R76). -/
def execMulImm (e : Nat) (i : FI) (s : State) : Host.Outcome State Fault Refusal :=
  s.run (wfMulImm e i) (fun _ m => m.issue e none (i.resv == 0) (fun m => m.aluI e i (sext16 i) aluMul))

/-- adds with an immediate (R76). -/
def execAddsImm (e : Nat) (i : FI) (s : State) : Host.Outcome State Fault Refusal :=
  s.run (wfAddsImm e i) (fun _ m => m.issue e none (i.resv == 0) (fun m => m.aluI e i (sext16 i) aluAdds))

/-- min with an immediate (R76). -/
def execMinImm (e : Nat) (i : FI) (s : State) : Host.Outcome State Fault Refusal :=
  s.run (wfMinImm e i) (fun _ m => m.issue e none (i.resv == 0) (fun m => m.aluI e i (sext16 i) aluMin))

/-- max with an immediate (R76). -/
def execMaxImm (e : Nat) (i : FI) (s : State) : Host.Outcome State Fault Refusal :=
  s.run (wfMaxImm e i) (fun _ m => m.issue e none (i.resv == 0) (fun m => m.aluI e i (sext16 i) aluMax))

/-- li: rd takes the sign-extended immediate (R77). -/
def execLi (e : Nat) (i : FI) (s : State) : Host.Outcome State Fault Refusal :=
  s.run (wfLi e i) (fun _ m => m.issue e none (i.resv == 0 && i.rs == 0) (fun m => m.result e i.rd (sext16 i)))

/-- lui: the upper half of rd takes the immediate, the lower half stays (R77). -/
def execLui (e : Nat) (i : FI) (s : State) : Host.Outcome State Fault Refusal :=
  s.run (wfLui e i) (fun _ m => m.issue e none (i.resv == 0 && i.rs == 0) (fun m =>
    m.result e i.rd (((zext16 i) <<< 16) ||| (m.g' e i.rd &&& 0xFFFF))))

end Sys2Proof.Machine
end

