-- ==== Sys2Proof/Machine/Engines.lean ====
section
/-!
DEFINITION. The commands that handle engines from outside their programs: the CTRL register, image checks, mailboxes,
memories, semaphores, faults and the watchdog (R86 to R89, R97 to R107).
-/
namespace Sys2Proof.Machine

/-! ## The CTRL register (R104 to R107) -/

/-- Engine `e` stops with a STOP_CAUSE: a sequencer after its granted edges, a range engine loses its handle, a supervisor may
take the safety configuration down with it (R105, R106, R277). -/
def Mach.stopEngine (m : Mach) (e cause : Nat) : Mach :=
  if !(m.e e).active then m
  else match engClass e with
    | .sq => m.stopSeq (engInst e) cause
    | .re => (m.haltEngine e .stopped cause).loseHandle e
    | .ae => m.haltEngine e .stopped cause
    | .sv => (m.haltEngine e .stopped cause).supervisorDown (engInst e)

/-- An accepted START: the state of R66; a sequencer's profile state and LIVE clear (R171), a look ends (R285). -/
def Mach.startEngine (m : Mach) (e : Nat) : Mach :=
  let m := m.modE e (fun x => x.started m.cyc (m.engEntry e))
  match engClass e with
  | .sq => (m.setFld (aSEQ_STBY (engInst e)) fSEQ_STBY_LIVE 0).showSeq (engInst e) 0
  | .re => m.showHold e
  | _ => m

/-- The engines whose program memory engine `e`'s is: for a range engine, every member of its pool (R103, R107). -/
def Mach.imageOf (m : Mach) (e : Nat) : List Nat := if engClass e = .re then m.members (m.poolOf e) else [e]

/-- A VERIFY request (R107): refused while the engine, or a member of its pool, is RUNNING or WAITING. -/
def Mach.verifyReq (m : Mach) (e : Nat) : Mach :=
  if (m.imageOf e).any (fun n => (m.e n).active) then m.modE e (fun x => { x with reqErr := 4 })
  else m.modE e (fun x => { x with reqErr := 0, verifyDue := some (m.cyc + m.engLen e) })

/-- A write of an engine's CTRL register (R104, R105, R107): ENABLE takes its bit; MBCLR, VERIFY, STOP and START act. START and
STOP together stop, with REQ_ERR 5. -/
def Mach.ctrlWrite (m : Mach) (e : Nat) (v : Word) : Mach :=
  let m := (m.done 0).setFld (engPage e) ⟨0, 0⟩ (bit (v.getLsbD 0))
  let m := m.when (v.getLsbD 7) (fun m => m.modE e (fun x => { x with mbox := [] }))
  let m := m.when (v.getLsbD 6) (fun m => m.verifyReq e)
  if v.getLsbD 3 then
    (m.stopEngine e 1).modE e (fun x => { x with reqErr := if v.getLsbD 2 then 5 else 0 })
  else if v.getLsbD 2 then
    match m.startErr e with
    | 0 => m.startEngine e
    | k => m.modE e (fun x => { x with reqErr := k })
  else m

/-- A write of CTRL with a request bit set, by a source that may write it (R90, R102). -/
def Mach.ctrlBy (m : Mach) (src : Src) (e : Nat) (v : Word) : Mach :=
  m.asWriter src (engClass e).blk (engInst e) 0 (fun m => m.ctrlWrite e v)

/-- START (R104). -/
def execStart (src : Src) (e : Nat) (v : Word) (s : State) : Host.Outcome State Fault Refusal :=
  s.run (wfStart src e v) (fun _ m => m.ctrlBy src e (v ||| 4))

/-- STOP (R105). -/
def execStop (src : Src) (e : Nat) (v : Word) (s : State) : Host.Outcome State Fault Refusal :=
  s.run (wfStop src e v) (fun _ m => m.ctrlBy src e (v ||| 8))

/-- VERIFY (R107). -/
def execVerify (src : Src) (e : Nat) (v : Word) (s : State) : Host.Outcome State Fault Refusal :=
  s.run (wfVerify src e v) (fun _ m => m.ctrlBy src e (v ||| 64))

/-- MBCLR: the receive mailbox empties. -/
def execMbclr (src : Src) (e : Nat) (v : Word) (s : State) : Host.Outcome State Fault Refusal :=
  s.run (wfMbclr src e v) (fun _ m => m.ctrlBy src e (v ||| 128))

/-- VERIFY_DONE: the CRC of the image is compared with IMGCRC; for a range engine the members of its pool with the same LEN and
IMGCRC share the result and the others lose VERIFIED (R107). -/
def execVerifyDone (e : Nat) (s : State) : Host.Outcome State Fault Refusal :=
  s.run (wfVerifyDone e) (fun _ m =>
    match (m.e e).verifyDue with
    | none => m
    | some d =>
      let m := m.advanceTo d
      let len := m.engLen e
      let crc := m.reg (engPage e + 0x10)
      let ok := crc32c (m.bytes (m.progBase e) (4 * len)) == crc.toNat
      let m := m.modE e (fun x => { x with verifyDue := none })
      (m.imageOf e).foldl (fun s n =>
        s.modE n (fun x => { x with verified := ok && s.engLen n == len && s.reg (engPage n + 0x10) == crc })) m)

/-! ## Mailboxes (R89) -/

/-- The word an engine that waits in mrcv receives: its destination, MSRC and predicate are written (R89). -/
def Mach.mboxTake (m : Mach) (e pd : Nat) : Mach :=
  match (m.e e).mbox with
  | [] => m
  | (w, from_) :: t =>
    (m.modE e (fun x => { x with mbox := t, msrc := from_ }.setPred pd true)).resume e w

/-- A word placed in a mailbox; an engine that waits for one takes it. -/
def Mach.mboxPut (m : Mach) (e : Nat) (w : Word) (from_ : Nat) : Mach :=
  let m := m.modE e (fun x => { x with mbox := x.mbox ++ [(w, from_)] })
  match (m.e e).wait with
  | .mbox pd => m.mboxTake e pd
  | _ => m

/-- The mailbox is full: words present and in flight count (R89). -/
def Engine.mboxFull (x : Engine) : Bool := decide (16 ≤ x.mbox.length + x.inflight.length)

/-- FULLCNT of a mailbox counts a word turned away. -/
def Mach.mboxRefuse (m : Mach) (e : Nat) : Mach := m.satInc (engPage e + 0x2C) ⟨31, 16⟩

/-- A host word for a mailbox: sender 511, refused while it is full. -/
def Mach.mboxHost (m : Mach) (e : Nat) (w : Word) : Mach :=
  if (m.e e).mboxFull then (m.mboxRefuse e).refuse else (m.done 0).mboxPut e w 511

/-- MBOX_IN (R89). -/
def execMboxIn (src : Src) (e : Nat) (w : Word) (s : State) : Host.Outcome State Fault Refusal :=
  s.run (wfMboxIn src e w) (fun _ m => m.asWriter src (engClass e).blk (engInst e) 0x28 (fun m => m.mboxHost e w))

/-- MAILBOX_WORD_ARRIVAL: the oldest word in flight from a sender arrives (R89). -/
def execMailboxWordArrival (sender e : Nat) (s : State) : Host.Outcome State Fault Refusal :=
  s.run (wfMailboxWordArrival sender e) (fun _ m =>
    match (m.e e).inflight.span (fun w => w.2 != sender) with
    | (a, w :: b) => (m.modE e (fun x => { x with inflight := a ++ b })).mboxPut e w.1 sender
    | (_, []) => m)

/-! ## Memories (R80, R103) -/

/-- A source may write program memories: the Owner, or a supervisor another engine's (R103). -/
def Mach.mayProgram (m : Mach) (src : Src) (e : Nat) : Bool :=
  match src with
  | .link c _ => m.ctxOn c && c == m.owner && m.dev.st != .shutdown
  | .eng n => engClass n == .sv && n != e

/-- A word written to program memory, or to the pool-store page shown: refused while the engine, or a member of the pool, is
RUNNING or WAITING; VERIFIED clears (R103). -/
def Mach.programWrite (m : Mach) (src : Src) (e a : Nat) (w : Word) : Mach :=
  if !m.mayProgram src e then m.done 3
  else if (m.imageOf e).any (fun n => (m.e n).active) then m.refuse
  else
    let m := ((m.done 0).setMword a w)
    (m.imageOf e).foldl (fun s n => s.modE n (fun x => { x with verified := false })) m

/-- The device address of offset `off` of an engine's program area in its window, when it lies in it (R102). -/
def Mach.programAt (m : Mach) (e off : Nat) : Option Nat :=
  match engClass e with
  | .re => if off < 0x4000 then some (poolBase (m.poolOf e) + 0x4000 * m.fld (aRNG_PSWIN e) fRNG_PSWIN_PAGE + off) else none
  | _ => if off < progBytes e then some (m.progBase e + off) else none

/-- The words below 4 × LEN of a supervisor's memory are program memory, the others data memory (R103). -/
def Mach.isProgram (m : Mach) (e off : Nat) : Bool := decide (off < 4 * m.engLen e)

/-- A word written to data memory by the Owner or an engine that may (R80, R90, R103). -/
def Mach.dataWrite (m : Mach) (src : Src) (e off : Nat) (w : Word) : Mach :=
  let ok : Bool := match src with
    | .link c _ => m.mayProgram (.link c 0) e
    | .eng n => n == e || engClass n == .sv
  if dataBytes e ≤ off then m.done 2
  else if !ok then m.done 3
  else if engClass e = .sv ∧ m.isProgram e off then m.programWrite src e (dataBase e + off) w
  else (m.done 0).setMword (dataBase e + off) w

/-- PROGRAM_MEMORY_WRITE (R103). -/
def execProgramMemoryWrite (src : Src) (e off : Nat) (w : Word) (s : State) : Host.Outcome State Fault Refusal :=
  s.run (wfProgramMemoryWrite src e off w) (fun _ m =>
    match m.programAt e off with
    | none => m.done 2
    | some a => if engClass e = .sv ∧ !m.isProgram e off then m.dataWrite src e off w else m.programWrite src e a w)

/-- DATA_MEMORY_WRITE (R80, R103). -/
def execDataMemoryWrite (src : Src) (e off : Nat) (w : Word) (s : State) : Host.Outcome State Fault Refusal :=
  s.run (wfDataMemoryWrite src e off w) (fun _ m => m.dataWrite src e off w)

/-! ## Semaphores (R86, R87) -/

/-- Units pass to the waiters of semaphore `n`, oldest first, until units or waiters run out (R86); at most `k` of them. -/
def Mach.semPass (m : Mach) (n : Nat) : Nat → Mach
  | 0 => m
  | k + 1 =>
    let x := m.sem n
    match x.queue with
    | [] => m
    | e :: t => if x.count = 0 then m else ((m.setSem n { x with count := x.count - 1, queue := t }).resume e 0).semPass n k

/-- Units pass until no more can. -/
def Mach.semServe (m : Mach) (n : Nat) : Mach := m.semPass n (m.sem n).queue.length

/-- A host write of GLB_SEM_n: COUNT takes the value, OVF clears where 1 is written, waiters are served (R86, R87). -/
def Mach.semWrite (m : Mach) (n : Nat) (v : Word) : Mach :=
  let x := m.sem n
  ((m.done 0).setSem n { x with count := v.toNat % 65536, ovf := x.ovf && !v.getLsbD 17 }).semServe n

/-- SEMAPHORE_WRITE (R87). -/
def execSemaphoreWrite (src : Src) (n : Nat) (v : Word) (s : State) : Host.Outcome State Fault Refusal :=
  s.run (wfSemaphoreWrite src n v) (fun _ m => m.asWriter src .glb 0 (0x1000 + 4 * n) (fun m => m.semWrite n v))

/-! ## Faults from outside the instruction's own effect (R84, R97, R101) -/

/-- The class a profile opcode belongs to (R72). -/
def opClass (op : Nat) : Option EngClass :=
  if op < 0x30 then none
  else if op < 0x34 then some .sq else if op < 0x3A then some .re else if op < 0x3E then some .ae else some .sv

/-- FAULT: fault #code with a code from 0x10 (R84); a word its class does not encode (R69, R73); a PC outside program memory
(R97); an uncorrectable error in a local memory (R97). -/
def execFault (e : Nat) (i : FaultIns) (s : State) : Host.Outcome State Fault Refusal :=
  s.run (wfFault e i) (fun _ m =>
    match i with
    | .program f => m.issue e none (f.rd = 0 ∧ f.rs = 0 ∧ f.rt = 0 ∧ 0x10 ≤ f.imm.toNat) (fun m => m.engFault e f.imm.toNat)
    | .badWord w => m.issue e (opClass (w.toNat / 2 ^ 26)) false (fun m => m)
    | .fetch => if progBytes e ≤ (m.e e).pc then m.issue e none true (fun m => m) else m
    | .ecc => if (m.e e).active then m.engFault e 8 else m)

/-- WATCHDOG: the count reaches LIMIT units of 256 cycles; a wait ends (R98). -/
def execWatchdog (e : Nat) (s : State) : Host.Outcome State Fault Refusal :=
  s.run (wfWatchdog e) (fun _ m =>
    let limit := m.fld (engPage e + 0x14) ⟨23, 0⟩
    if (m.e e).active ∧ limit ≠ 0 then (m.advanceTo ((m.e e).wdogCyc + 256 * limit)).engFault e 7 else m)

/-- LOCKSTEP_MISMATCH: the pair stops in FAULTED whatever tvec says, CODE 0x28 is recorded and reported, and the device enters
OASIS (R101, R496). -/
def execLockstepMismatch (n : Nat) (s : State) : Host.Outcome State Fault Refusal :=
  s.run (wfLockstepMismatch n) (fun _ m =>
    if m.dev.st = .off ∨ m.dev.st = .reset ∨ m.dev.st = .shutdown then m
    else
      let e := 280 + n
      let m := (m.satInc (engPage e + 0x18) ⟨15, 0⟩).faultRecord e 0x28
      let m := m.haltEngine e .faulted 3
      let m := (m.report (engSrc e) (engSrc e) 0x28 3).supervisorDown n
      m.enterOasis (.fault (.lockstep n)))

end Sys2Proof.Machine
end

