-- ==== Sys2Proof/Machine/Waits.lean ====
section
/-!
DEFINITION. Waiting and signalling: semaphores (R86, R88), time triggers (wtime), mailboxes (R89), with the timeouts of R535.
-/
namespace Sys2Proof.Machine

/-- A waiting engine ends its wait and writes nothing. -/
def Mach.resumeKeep (m : Mach) (e : Nat) : Mach := (m.modE e (fun x => x.enter m.cyc .running)).retire e

/-- An engine joins a list of waiters: in order of arrival, in ascending engine number within one cycle (R86, R276). -/
def Mach.joinWaiters (m : Mach) (e : Nat) : List Nat → List Nat
  | [] => [e]
  | x :: t => if (m.e x).issue = m.cyc ∧ e < x then e :: x :: t else x :: m.joinWaiters e t

/-- wait (R86). -/
def execWait (e : Nat) (i : FW) (s : State) : Host.Outcome State Fault Refusal :=
  s.run (wfWait e i) (fun _ m => m.issue e none (i.func == 0) (fun m =>
    let n := m.gn e i.rs
    let x := m.sem n
    if 1023 < n then m.engFault e 4
    else if 0 < x.count then (m.setSem n { x with count := x.count - 1 }).result e i.rd 0
    else if m.gn e i.rt = 0 then m.result e i.rd 1
    else (m.setSem n { x with queue := m.joinWaiters e x.queue }).waits e (.sem n) i.rd (m.gn e i.rt)))

/-- WAIT_TIMEOUT: the wait on a semaphore ends with rd = 1 (R86, R535). -/
def execWaitTimeout (e : Nat) (s : State) : Host.Outcome State Fault Refusal :=
  s.run (wfWaitTimeout e) (fun _ m =>
    match (m.e e).wait with
    | .sem _ => ((m.advanceTo ((m.e e).issue + (m.e e).limit)).leaveQueues e).resume e 1
    | _ => m)

/-- sig (R86): the count rises, clipped at 0xFFFF with SAT and OVF, and waiters are served. -/
def execSig (e : Nat) (i : FI) (s : State) : Host.Outcome State Fault Refusal :=
  s.run (wfSig e i) (fun _ m => m.issue e none (i.resv == 0 && i.rd == 0 && i.imm != 0) (fun m =>
    let n := m.gn e i.rs
    let x := m.sem n
    let c := x.count + i.imm.toNat
    if 1023 < n then m.engFault e 4
    else
      let m := m.sat e (decide (0xFFFF < c))
      let m := m.setSem n { x with count := satN 16 c, ovf := x.ovf || decide (0xFFFF < c) }
      (m.semServe n).retire e))

/-- wtime: waits for the first firing of time trigger t after its issue. -/
def execWtime (e : Nat) (i : FI) (s : State) : Host.Outcome State Fault Refusal :=
  s.run (wfWtime e i) (fun _ m => m.issue e none (i.resv == 0 && decide (i.imm.toNat < 16)) (fun m =>
    m.waits e (.trig i.imm.toNat) i.rd (m.gn e i.rs)))

/-- WTIME_TIMEOUT: rs cycles have passed; rs = 0 has no timeout (R535). -/
def execWtimeTimeout (e : Nat) (s : State) : Host.Outcome State Fault Refusal :=
  s.run (wfWtimeTimeout e) (fun _ m =>
    match (m.e e).wait with
    | .trig _ => if (m.e e).limit = 0 then m else (m.advanceTo ((m.e e).issue + (m.e e).limit)).resume e 1
    | _ => m)

/-- msnd (R89): an accepted word is on its way; a full mailbox turns it away. -/
def execMsnd (e : Nat) (i : FW) (s : State) : Host.Outcome State Fault Refusal :=
  s.run (wfMsnd e i) (fun _ m => m.issue e none (i.func == 0) (fun m =>
    let d := m.gn e i.rs
    if 281 < d then m.result e i.rd 2
    else if (m.e d).mboxFull then (m.mboxRefuse d).result e i.rd 1
    else (m.modE d (fun x => { x with inflight := x.inflight ++ [(m.g' e i.rt, e)] })).result e i.rd 0))

/-- The predicate field of mrcv: func [12:11]. -/
def mrcvPd (i : FW) : Nat := i.func.toNat / 2 ^ 11 % 4

/-- mrcv (R89): the oldest word now, or a wait of up to rs cycles. -/
def execMrcv (e : Nat) (i : FW) (s : State) : Host.Outcome State Fault Refusal :=
  s.run (wfMrcv e i) (fun _ m => m.issue e none (i.rt == 0 && i.func &&& 0x27FF == 0) (fun m =>
    match (m.e e).mbox with
    | (w, from_) :: t =>
      (m.modE e (fun x => { x with mbox := t, msrc := from_ }.setPred (mrcvPd i) true)).result e i.rd w
    | [] =>
      if m.gn e i.rs = 0 then (m.modE e (fun x => x.setPred (mrcvPd i) false)).retire e
      else m.waits e (.mbox (mrcvPd i)) i.rd (m.gn e i.rs)))

/-- MRCV_TIMEOUT: the predicate clears, rd and MSRC stay (R89, R535). -/
def execMrcvTimeout (e : Nat) (s : State) : Host.Outcome State Fault Refusal :=
  s.run (wfMrcvTimeout e) (fun _ m =>
    match (m.e e).wait with
    | .mbox pd => ((m.advanceTo ((m.e e).issue + (m.e e).limit)).modE e (fun x => x.setPred pd false)).resumeKeep e
    | _ => m)

end Sys2Proof.Machine
end

