-- ==== Sys2Proof/Machine/Axis.lean ====
section
/-!
DEFINITION. Scanner axes (R175 to R199): control cycles, coefficient banks and the cross-fade, following-error limit, monitoring and
takeover, the axis profile instructions, and the angles the axes publish.
-/
namespace Sys2Proof.Machine

/-! ## Angles (R197, R199) -/

/-- AXS_CYC: the common 32-bit cycle counter. -/
def Mach.axsCyc (m : Mach) : Nat := m.cyc % 2 ^ 32

/-- The angle of axis `a` at count `c` of AXS_CYC (R197). -/
def Mach.theta (m : Mach) (a c : Nat) : Word :=
  let x := m.ax a
  let d := signed 32 (toField 32 ((c : Int) - x.pubT))
  wordOfInt (x.pubA.toNat + x.pubW.toInt * d / 256)

/-- The role an axis has: 0 other, 1 azimuth, 2 elevation; an axis whose role a lower one of its head claims is other (R199). -/
def Mach.roleClash (m : Mach) (a : Nat) : Bool :=
  let r := m.fld (aAXS_CFG a) fAXS_CFG_ROLE
  (r == 1 || r == 2) && (List.range a).any (fun b => m.fld (aAXS_CFG b) fAXS_CFG_ROLE == r
    && m.fld (aAXS_CFG b) fAXS_CFG_HEAD == m.fld (aAXS_CFG a) fAXS_CFG_HEAD)

/-- The axis of a head with a role (R199). -/
def Mach.headAxis (m : Mach) (head role : Nat) : Option Nat :=
  (List.range 4).find? (fun a => m.fld (aAXS_CFG a) fAXS_CFG_HEAD == head && m.fld (aAXS_CFG a) fAXS_CFG_ROLE == role)

/-- A head's angle of a role at count `c`; 0 without such an axis. -/
def Mach.headAngle (m : Mach) (head role c : Nat) : Word :=
  match m.headAxis head role with | some a => m.theta a c | none => 0

/-- A publication is about to replace axis a's: PTS keeps the azimuth of its last evaluation, which falls on every eighth cycle (R334). -/
def Mach.ptsNote (m : Mach) (a : Nat) : Mach :=
  if m.headAxis (m.fld aPTS_FRAMECFG fPTS_FRAMECFG_FHEAD) 1 = some a ∧ (m.ax a).published then
    { m with pts := { m.pts with azWas := some (m.theta a (m.cyc / 8 * 8)) } }
  else m

/-! ## State of an axis -/

/-- The axis an axis engine serves. -/
def axisOf (e : Nat) : Nat := engInst e / 2
/-- The engine that holds drive: 0 the primary, 1 the monitor. -/
def Mach.axDrive (m : Mach) (a : Nat) : Nat := m.fld (aAXS_ASTAT a) fAXS_ASTAT_DRIVE
/-- Engine `e` is its axis's drive holder (R175). -/
def Mach.axHolds (m : Mach) (e : Nat) : Bool := m.axDrive (axisOf e) == engInst e % 2
/-- The engine number of axis `a`'s engine `k`: 0 primary, 1 monitor. -/
def axEngine (a k : Nat) : Nat := 272 + 2 * a + k
/-- The axis is enabled. -/
def Mach.axOn (m : Mach) (a : Nat) : Bool := m.flag (aAXS_CFG a) fAXS_CFG_EN
/-- The axis has tripped (R188). -/
def Mach.axTrip (m : Mach) (a : Nat) : Bool := m.flag (aAXS_ASTAT a) fAXS_ASTAT_FE_TRIP
/-- No engine holds drive (R191). -/
def Mach.axFailed (m : Mach) (a : Nat) : Bool := m.flag (aAXS_ASTAT a) fAXS_ASTAT_FAILED

/-- RUN (R177). -/
def Mach.axRun (m : Mach) (a : Nat) : Bool :=
  m.axOn a && !m.axFailed a && !m.axTrip a && (m.e (axEngine a (m.axDrive a))).active && (m.ax a).published

/-- The code on the drive pins: 0 where R178 says so, SAFE when disabled, tripped or FAILED, else what dacw drove (R193). -/
def Mach.axPins (m : Mach) (a : Nat) : Int :=
  match m.dev.st with
  | .off | .reset | .boot | .linked | .shutdown => 0
  | _ => if !m.axOn a || m.axTrip a || m.axFailed a then m.sfld (aAXS_SAFE a) fAXS_SAFE_SAFE else (m.ax a).code

/-- The pins keep SAFE until the next dacw (R188). -/
def Mach.axSafe (m : Mach) (a : Nat) : Mach := m.modAx a (fun x => { x with code := m.sfld (aAXS_SAFE a) fAXS_SAFE_SAFE })

/-- A report of axis `a`. -/
def Mach.axReport (m : Mach) (a code action : Nat) : Mach := m.report (srcId 0x07 (8 + a)) (srcId 0x07 (8 + a)) code action

/-! ## Coefficients and the cross-fade (R181 to R186) -/

/-- The effective value of coefficient `k` of a bank. -/
def Mach.coef (m : Mach) (a b k : Nat) : Int :=
  (m.reg (aAXS_COEFV a b k)).toInt * 2 ^ (32 - m.fld (aAXS_COEFS a b k) fAXS_COEFS_SHIFT)

/-- Snapshot value `k`. -/
def Mach.snap (m : Mach) (a k : Nat) : Int :=
  signed 64 ((m.reg (aAXS_SNAPLO a k)).toNat + 2 ^ 32 * (m.reg (aAXS_SNAPHI a k)).toNat)

/-- The effective value in force. -/
def Mach.effective (m : Mach) (a k : Nat) : Int :=
  let s := aAXS_ASTAT a
  let tgt := m.coef a (m.fld s fAXS_ASTAT_TO) k
  if m.flag s fAXS_ASTAT_FADING then
    let from_ := m.fld s fAXS_ASTAT_FROM
    let src := if from_ = 4 then m.snap a k else m.coef a from_ k
    src + divAway ((tgt - src) * m.fld (aAXS_FADE a) fAXS_FADE_F) 65536
  else tgt

/-- A bank is in use: the current bank, or source or target of a running fade (R186). -/
def Mach.bankUsed (m : Mach) (a b : Nat) : Bool :=
  let s := aAXS_ASTAT a
  m.fld s fAXS_ASTAT_TO == b || (m.flag s fAXS_ASTAT_FADING && m.fld s fAXS_ASTAT_FROM == b)

/-- A new fade to bank `b` (R183). -/
def Mach.fadeStart (m : Mach) (a b len src : Nat) : Mach :=
  let s := aAXS_ASTAT a
  let m := ((m.setFld s fAXS_ASTAT_FADING 1).setFld s fAXS_ASTAT_FROM src).setFld s fAXS_ASTAT_TO b
  ((m.setFld (aAXS_FADE a) fAXS_FADE_LEN len).setFld (aAXS_FADE a) fAXS_FADE_F 0).modAx a (fun x => { x with fadeM := 0 })

/-- The 32 effective values in force copied into the snapshot. -/
def Mach.snapshot (m : Mach) (a : Nat) : Mach :=
  (List.range 32).foldl (fun s k =>
    let v := toField 64 (m.effective a k)
    (s.setReg (aAXS_SNAPLO a k) (word v)).setReg (aAXS_SNAPHI a k) (word (v / 2 ^ 32))) m

/-- A fade request; true when nothing changes (R183). -/
def Mach.fadeTo (m : Mach) (a b len : Nat) : Mach × Bool :=
  let s := aAXS_ASTAT a
  if m.flag s fAXS_ASTAT_FADING then ((m.snapshot a).fadeStart a b len 4, false)
  else if m.fld s fAXS_ASTAT_TO = b then (m, true)
  else (m.fadeStart a b len (m.fld s fAXS_ASTAT_TO), false)

/-- A running fade advances by one control cycle (R185). -/
def Mach.fadeStep (m : Mach) (a : Nat) : Mach :=
  if !m.flag (aAXS_ASTAT a) fAXS_ASTAT_FADING then m
  else
    let m := m.modAx a (fun x => { x with fadeM := x.fadeM + 1 })
    let k := (m.ax a).fadeM
    let len := max 1 (m.fld (aAXS_FADE a) fAXS_FADE_LEN)
    let m := m.setFld (aAXS_FADE a) fAXS_FADE_F (min 65536 (65536 * k / len))
    m.when (decide (len ≤ k)) (fun m => m.setFld (aAXS_ASTAT a) fAXS_ASTAT_FADING 0)

/-! ## Control cycles (R179, R180) -/

/-- Step 1: the average and the encoder count are latched (R194, R195). Before 2^AVG samples exist the average is free. -/
def Mach.ccLatch (m : Mach) (a : Nat) : Mach :=
  let n := 2 ^ min 5 (m.fld (aAXS_CFG a) fAXS_CFG_AVG)
  let l := (m.ax a).samples.take n
  let (avg, m) : Int × Mach :=
    if l.length = n then (divAway (l.map (fun p => p.1)).sum n, m)
    else let (w, m) := m.takeFree; (signed 16 w.toNat, m)
  let enc := m.flag (aAXS_CFG a) fAXS_CFG_ENC_EN
  m.modAx a (fun x => { x with
    avg := avg, avgNew := 3, avgGood := l.all (fun p => !p.2), avgReady := false, latched := x.count
    latchOk := enc && !x.illegal, illegal := false })

/-- Step 2, first part: the following-error timer (R187, R188). -/
def Mach.ccError (m : Mach) (a : Nat) : Mach :=
  let s := aAXS_ASTAT a
  let x := m.ax a
  let t := m.fld s fAXS_ASTAT_FE_TIMER
  if !m.flag (aAXS_CFG a) fAXS_CFG_FE_EN then m.setFld s fAXS_ASTAT_FE_TIMER 0
  else
    let t' := if x.ovl || !x.ferr then satN 16 (t + 1) else t - 1
    let m := m.setFld s fAXS_ASTAT_FE_TIMER t'
    if max 1 (m.fld (aAXS_FETIME a) fAXS_FETIME_TIME) ≤ t' ∧ m.axTrip a = false then
      let m := (m.setFld s fAXS_ASTAT_FE_TRIP 1).axSafe a
      (m.modAx a (fun x => { x with published := false })).axReport a 0x2C 0
    else m

/-- The cycle that ends was a mismatch (R190). -/
def Mach.mismatch (m : Mach) (a : Nat) : Bool :=
  let x := m.ax a
  let hold := if m.axDrive a = 0 then x.prim else x.mon
  let codes : Bool := match x.prim.code, x.mon.code with
    | some p, some q => decide (m.fld (aAXS_MON a) fAXS_MON_DTOL < (p - q).natAbs)
    | _, _ => false
  let tol := m.fld (aAXS_ATOL a) fAXS_ATOL_ATOL
  let angs : Bool := match x.prim.ang, x.mon.ang with
    | some p, some q => tol != 0 && decide (tol < (p - q).toInt.natAbs)
    | _, _ => false
  hold.code.isNone || codes || angs

/-- MISCNT, 0 taken as 1. -/
def Mach.misLimit (m : Mach) (a : Nat) : Nat := max 1 (m.fld (aAXS_MON a) fAXS_MON_MISCNT)

/-- Step 2, second part: the comparisons; the monitor's failure is reported once (R189, R190). -/
def Mach.ccCompare (m : Mach) (a : Nat) : Mach :=
  let x := m.ax a
  let bad := m.mismatch a
  let quiet := x.mon.code.isNone && x.mon.ang.isNone
  let m := m.modAx a (fun x => { x with mis := if bad then x.mis + 1 else 0, silent := if quiet then x.silent + 1 else 0 })
  let m := m.when bad (fun m => m.setFld (aAXS_ASTAT a) fAXS_ASTAT_MISM 1)
  let x := m.ax a
  let failed := !(m.e (axEngine a 1)).active || decide (m.misLimit a ≤ x.silent)
    || (m.axDrive a == 1 && decide (m.misLimit a ≤ x.mis))
  let m := m.when (failed && !x.monBad) (fun m => (m.setFld (aAXS_ASTAT a) fAXS_ASTAT_MON_FAIL 1).axReport a 0x20 0)
  m.modAx a (fun x => { x with monBad := failed })

/-- Step 3: takeover, or FAILED (R191). -/
def Mach.ccTakeover (m : Mach) (a : Nat) : Mach :=
  let x := m.ax a
  let lost := !(m.e (axEngine a (m.axDrive a))).active || decide (m.misLimit a ≤ x.mis)
  if m.axFailed a ∨ !lost then m
  else if m.axDrive a = 0 ∧ m.takeoverOk a then
    let m := m.setFld (aAXS_ASTAT a) fAXS_ASTAT_DRIVE 1
    (m.modAx a (fun x => { x with mis := 0, published := false })).axReport a 0x20 1
  else ((m.setFld (aAXS_ASTAT a) fAXS_ASTAT_FAILED 1).axSafe a).axReport a 0x20 2

/-- What a commit of an axis group brings with it: EN from 0 to 1 restarts the axis (R191), FE_EN = 0 holds the timer at 0 (R187), role
conflicts show (R199). -/
def Mach.axCommitted (m : Mach) (a : Nat) (was : Bool) : Mach :=
  let m := m.when (!was && m.axOn a) (fun m =>
    let s := aAXS_ASTAT a
    let m := ((m.setFld s fAXS_ASTAT_DRIVE 0).setFld s fAXS_ASTAT_FAILED 0).setFld s fAXS_ASTAT_FE_TIMER 0
    (m.modAx a (fun x => { x with mis := 0, silent := 0, published := false, monBad := false, start := none })).axSafe a)
  let m := m.when (!m.flag (aAXS_CFG a) fAXS_CFG_FE_EN) (fun m => m.setFld (aAXS_ASTAT a) fAXS_ASTAT_FE_TIMER 0)
  (List.range 4).foldl (fun m b => m.setFld (aAXS_ASTAT b) fAXS_ASTAT_ROLECONF (bit (m.roleClash b))) m

/-- Step 4: pending commits of the axis's groups apply. -/
def Mach.ccCommit (m : Mach) (a : Nat) : Mach :=
  (m.applyGroups .axs (Blk.axs.page (2 * a)) [0, 1, 2, 3]).axCommitted a (m.axOn a)

/-- A control cycle of axis `a` starts in this core cycle (R180). -/
def Mach.ccStart (m : Mach) (a : Nat) : Mach :=
  let first := (m.ax a).start.isNone
  let m := m.ccLatch a
  let m := m.when (!first) (fun m => (m.ccError a).ccCompare a)
  let m := ((m.ccTakeover a).ccCommit a).fadeStep a
  m.modAx a (fun x => { x with
    start := some m.cyc, prim := { code := none, ang := none }, mon := { code := none, ang := none }, ferr := false, ovl := false })

/-- A firing of the axis's trigger: a control cycle starts unless the previous start is less than 4,000 cycles back (R179). -/
def Mach.ccFire (m : Mach) (a : Nat) : Mach :=
  if !m.axOn a then m
  else
    let soon : Bool := match (m.ax a).start with | some c => decide (m.cyc - c < 4000) | none => false
    if soon then (m.satInc (aAXS_CNT a) fAXS_CNT_CC_SKIP).modAx a (fun x => { x with avgNew := 0 })
    else m.ccStart a

/-- A trigger fires: every axis it paces. -/
def Mach.ccTrigger (m : Mach) (t : Nat) : Mach :=
  (List.range 4).foldl (fun m a => if m.fld (aAXS_CFG a) fAXS_CFG_CC_TRIG = t then m.ccFire a else m) m

/-! ## Instructions -/

/-- Accumulator `k`. -/
def Engine.accu (x : Engine) (k : Nat) : Int := mapGet 0 x.acc k
/-- Accumulator `k` replaced. -/
def Engine.setAccu (x : Engine) (k : Nat) (v : Int) : Engine := { x with acc := mapPut 0 x.acc k v }
/-- An integer clipped to the signed 64-bit range. -/
def clip64 (v : Int) : Int := clampInt (-9223372036854775808) 9223372036854775807 v

/-- macs. -/
def execMacs (e : Nat) (i : FX) (s : State) : Host.Outcome State Fault Refusal :=
  s.run (wfMacs e i) (fun _ m => m.issue e (some .ae) (i.rd == 0 && i.rt == 0 && decide (i.xi.toNat < 128)) (fun m =>
    let k := i.xi.toNat / 32 % 2
    let p := divAway (m.gi e i.rs * m.effective (axisOf e) (i.xi.toNat % 32)) (2 ^ 32)
    let v := (if i.xi.getLsbD 6 then 0 else (m.e e).accu k) + p
    (m.modE e (fun x => (x.setAccu k (clip64 v)).satIf (decide (clip64 v ≠ v)))).retire e))

/-- lim. -/
def execLim (e : Nat) (i : FX) (s : State) : Host.Outcome State Fault Refusal :=
  s.run (wfLim e i) (fun _ m => m.issue e (some .ae) (decide (i.xi.toNat < 32)) (fun m =>
    let k := i.xi.toNat % 2
    let a := (m.e e).accu k
    let v := clip32 a
    let r := min (max v (m.gi e i.rs)) (m.gi e i.rt)
    let m := m.modE e (fun x =>
      let x := x.satIf (decide (v ≠ a))
      let x := if i.xi.getLsbD 2 then x.setPred (i.xi.toNat / 8 % 4) (decide (r ≠ v)) else x
      if i.xi.getLsbD 1 then x.setAccu k 0 else x)
    m.result e i.rd (wordOfInt r)))

/-- ferr. -/
def execFerr (e : Nat) (i : FX) (s : State) : Host.Outcome State Fault Refusal :=
  s.run (wfFerr e i) (fun _ m => m.issue e (some .ae) (i.rt == 0 && i.xi == 0) (fun m =>
    let a := axisOf e
    let big := decide (m.fld (aAXS_FELIM a) fAXS_FELIM_LIM < (m.gi e i.rs).natAbs)
    let trip := m.axTrip a
    let m := m.when (m.axHolds e) (fun m => m.modAx a (fun x => { x with ferr := true, ovl := x.ovl || (big && !trip) }))
    m.result e i.rd (if trip then 2 else if big then 1 else 0)))

/-- xfade. -/
def execXfade (e : Nat) (i : FX) (s : State) : Host.Outcome State Fault Refusal :=
  s.run (wfXfade e i) (fun _ m => m.issue e (some .ae) (i.rt == 0 && decide (i.xi.toNat < 4)) (fun m =>
    if !m.axHolds e then m.result e i.rd 2
    else
      let (m, same) := m.fadeTo (axisOf e) i.xi.toNat (min 4096 (max 1 (m.gn e i.rs)))
      m.result e i.rd (if same then 1 else 0)))

/-- What an engine of an axis did in the running cycle, changed (R190). -/
def Mach.axNote (m : Mach) (e : Nat) (f : AxEng → AxEng) : Mach :=
  m.modAx (axisOf e) (fun x => if engInst e % 2 = 0 then { x with prim := f x.prim } else { x with mon := f x.mon })

/-- pub: before any control-cycle start the time of publication is free. -/
def execPub (e : Nat) (i : FX) (s : State) : Host.Outcome State Fault Refusal :=
  s.run (wfPub e i) (fun _ m => m.issue e (some .ae) (decide (i.xi.toNat < 2)) (fun m =>
    let a := axisOf e
    if !m.axOn a || m.axTrip a || m.axFailed a then m.result e i.rd 3
    else
      let m := m.axNote e (fun n => { n with ang := some (m.g' e i.rs) })
      if !m.axHolds e then m.result e i.rd 4
      else
        let (c, m) : Nat × Mach :=
          if i.xi == 1 then (m.cyc, m)
          else match (m.ax a).start with
            | some c => (c, m)
            | none => let (w, m) := m.takeFree; (w.toNat, m)
        let t := toField 32 ((c : Int) + m.sfld (aAXS_TOFS a) fAXS_TOFS_TOFS)
        let m := m.ptsNote a
        (m.modAx a (fun x => { x with pubA := m.g' e i.rs, pubW := m.g' e i.rt, pubT := t, published := true })).result e i.rd 0))

/-- dacw. -/
def execDacw (e : Nat) (i : FX) (s : State) : Host.Outcome State Fault Refusal :=
  s.run (wfDacw e i) (fun _ m => m.issue e (some .ae) (i.rt == 0 && i.xi == 0) (fun m =>
    let a := axisOf e
    let v := m.gi e i.rs
    let c := clampInt (-32768) 32767 v
    let d := min (max c (m.sfld (aAXS_DLIM a) fAXS_DLIM_DMIN)) (m.sfld (aAXS_DLIM a) fAXS_DLIM_DMAX)
    let m := (m.sat e (decide (c ≠ v))).axNote e (fun n => { n with code := some d })
    if !m.axHolds e then m.result e i.rd 4
    else if !m.axOn a || m.axTrip a || m.axFailed a then m.result e i.rd 3
    else (m.modAx a (fun x => { x with code := d })).result e i.rd (if d = c then 0 else 1)))

/-- What adcr answers: the value and the predicate; sources 0 and 2 mark the value read by this engine. -/
def Mach.adcrRead (m : Mach) (e src : Nat) : Int × Bool × Mach :=
  let a := axisOf e
  let x := m.ax a
  let me := 2 ^ (engInst e % 2)
  match src with
  | 0 =>
    if x.start.isNone then let (w, m) := m.takeFree; (signed 16 w.toNat, false, m)
    else (x.avg, (x.avgNew &&& me) != 0 && x.avgGood, m.modAx a (fun x => { x with avgNew := x.avgNew &&& (3 - me) }))
  | 1 => (x.latched, x.latchOk, m)
  | 2 => (x.index, (x.newIndex &&& me) != 0, m.modAx a (fun x => { x with newIndex := x.newIndex &&& (3 - me) }))
  | _ =>
    match x.samples with
    | s :: _ => (s.1, !s.2, m)
    | [] => let (w, m) := m.takeFree; (signed 16 w.toNat, false, m)

/-- adcr delivers its result; PS in bit 2, PD in [4:3] of its xi. -/
def Mach.adcrEnd (m : Mach) (e xi : Nat) (fin : Mach → Word → Mach) : Mach :=
  let (v, p, m) := m.adcrRead e (xi % 4)
  let m := m.when (xi.testBit 2) (fun m => m.modE e (fun x => x.setPred (xi / 8 % 4) p))
  fin m (wordOfInt v)

/-- adcr; source 0 waits until the average is available. -/
def execAdcr (e : Nat) (i : FX) (s : State) : Host.Outcome State Fault Refusal :=
  s.run (wfAdcr e i) (fun _ m => m.issue e (some .ae) (i.rs == 0 && i.rt == 0 && decide (i.xi.toNat < 32)) (fun m =>
    let x := m.ax (axisOf e)
    let xi := i.xi.toNat
    if xi % 4 = 0 ∧ x.start.isSome ∧ x.avgReady = false then m.waits e (.adcr xi) i.rd 0
    else m.adcrEnd e xi (fun m v => m.result e i.rd v)))

/-- POSITION_AVERAGE_READY: the average is available; an adcr that waits for it ends (R194). -/
def execPositionAverageReady (axis : Nat) (s : State) : Host.Outcome State Fault Refusal :=
  s.run (wfPositionAverageReady axis) (fun _ m =>
    if (m.ax axis).start.isNone then m
    else
      let m := m.modAx axis (fun x => { x with avgReady := true })
      [0, 1].foldl (fun m k =>
        let e := axEngine axis k
        match (m.e e).wait with
        | .adcr xi => m.adcrEnd e xi (fun m v => m.resume e v)
        | _ => m) m)

/-- POSITION_CONVERTER_SAMPLE: an over-range sample reads 0x7FFF or 0x8000 and OVR counts it (R194). -/
def execPositionConverterSample (axis : Nat) (adc : Int) (ovl : Bool) (s : State) : Host.Outcome State Fault Refusal :=
  s.run (wfPositionConverterSample axis adc ovl) (fun _ m =>
    let v : Int := if ovl then (if adc < 0 then -32768 else 32767) else adc
    let m := m.modAx axis (fun x => { x with samples := ((v, ovl) :: x.samples).take 32 })
    m.when ovl (fun m => m.satInc (aAXS_CNT axis) fAXS_CNT_OVR))

/-! ## Register accesses with effects -/

/-- A write of a coefficient word: refused, and counted in BANKREF, while its bank is in use (R186). -/
def Mach.coefWrite (m : Mach) (a b k : Nat) (second : Bool) (v : Word) : Mach :=
  if m.bankUsed a b then (m.satInc (aAXS_CNT a) fAXS_CNT_BANKREF).refuse
  else if second then (m.done 0).setReg (aAXS_COEFS a b k) (v &&& 31)
  else (m.done 0).setReg (aAXS_COEFV a b k) v

/-- COEFFICIENT_WRITE (R186). -/
def execCoefficientWrite (src : Src) (axis bank k : Nat) (second : Bool) (v : Word) (s : State) : Host.Outcome State Fault Refusal :=
  s.run (wfCoefficientWrite src axis bank k second v) (fun _ m =>
    m.asWriter src .axs (2 * axis) (0x1000 + 0x100 * bank + 8 * k + 4 * bit second) (fun m => m.coefWrite axis bank k second v))

/-- A read of AXS_PUBA latches W and T. -/
def Mach.pubLatch (m : Mach) (a : Nat) : Mach :=
  (m.setReg (aAXS_PUBW a) (m.ax a).pubW).setReg (aAXS_PUBT a) (word (m.ax a).pubT)

/-- PUB_READ (R196). -/
def execPubRead (src : Src) (axis : Nat) (s : State) : Host.Outcome State Fault Refusal :=
  s.run (wfPubRead src axis) (fun _ m =>
    match m.mayRead src .axs 0x230 with
    | 0 => (m.done 0).pubLatch axis
    | st => m.done st)

/-- FE_TRIP cleared by the host: the timer is zeroed (R188). -/
def Mach.feClear (m : Mach) (a : Nat) : Mach :=
  if !m.axTrip a then m.done 0
  else (((m.done 0).setFld (aAXS_ASTAT a) fAXS_ASTAT_FE_TRIP 0).setFld (aAXS_ASTAT a) fAXS_ASTAT_FE_TIMER 0).axSafe a

/-- FE_TRIP_CLEAR (R188). -/
def execFeTripClear (src : Src) (axis : Nat) (s : State) : Host.Outcome State Fault Refusal :=
  s.run (wfFeTripClear src axis) (fun _ m => m.asWriter src .axs (2 * axis) 0x220 (fun m => m.feClear axis))

end Sys2Proof.Machine
end

