-- ==== Sys2Proof/Machine/TimeOps.lean ====
section
/-!
DEFINITION. Operations of the time base that other blocks use: steps (R113, R123), the start of time triggers (R121, R122), the time
of a cycle that lies behind (R331), and angles to rectangular directions in fixed point (R329, R339).
-/
namespace Sys2Proof.Machine

/-! ## Device time as one number -/

/-- Device time in units of 2^-32 ns. -/
def DTime.total (t : DTime) : Nat := (t.sec * 1000000000 + t.ns) * 2 ^ 32 + t.frac
/-- The period of device time in those units: SEC counts modulo 2^48. -/
def timePeriod : Nat := 2 ^ 48 * 1000000000 * 2 ^ 32
/-- A number of those units as device time. -/
def DTime.ofTotal (v : Int) : DTime :=
  let n := (v % timePeriod).toNat
  { sec := n / 2 ^ 32 / 1000000000, ns := n / 2 ^ 32 % 1000000000, frac := n % 2 ^ 32 }

/-- The device time of cycle `c`, at or before now, at the increment in force (R331). -/
def Mach.timeAt (m : Mach) (c : Nat) : DTime := DTime.ofTotal (m.time.now.total - ((m.cyc - c) * m.inc : Nat))

/-! ## Triggers (R119, R121, R122) -/

/-- The compare time of trigger `n` as a device time. -/
def Trig.time (x : Trig) : DTime := { sec := x.sec, ns := x.ns, frac := x.frac }
/-- A trigger with another compare time. -/
def Trig.at (x : Trig) (t : DTime) : Trig := { x with sec := t.sec, ns := t.ns, frac := t.frac }
/-- Trigger `n` runs. -/
def Mach.trigRun (m : Mach) (n : Nat) : Bool := m.flag (aTIME_TRIG_STAT n) fTIME_TRIG_STAT_RUN
/-- Device time is at or past the compare time of a trigger (R119). -/
def Mach.trigPast (m : Mach) (x : Trig) : Bool := m.time.now.atOrPast x.sec x.ns

/-- A commit of the group of trigger `n`: it starts from its active compare time, or stops (R121, R122, R124). -/
def Mach.trigCommitted (m : Mach) (n : Nat) : Mach :=
  let c := aTIME_TRIG_CTRL n
  let st := aTIME_TRIG_STAT n
  if !m.flag c fTIME_TRIG_CTRL_EN then m.setFld st fTIME_TRIG_STAT_RUN 0
  else
    let sync := m.flag c fTIME_TRIG_CTRL_MODE
    let sec := 2 ^ 32 * m.fld c fTIME_TRIG_CTRL_SEC_HI + m.fld (aTIME_TRIG_SEC_LO n) fTIME_TRIG_SEC_LO_SEC_LO
    let x : Trig := { sec := sec, ns := m.fld (aTIME_TRIG_NS n) fTIME_TRIG_NS_NS, frac := 0, armed := !sync, lateAt := none, last := (m.trig n).last }
    let x := if !sync && m.trigPast x then { x with lateAt := some (m.cyc + 1) } else x
    ((m.setFld st fTIME_TRIG_STAT_RUN 1).setFld st fTIME_TRIG_STAT_FIRED 0).setTrig n x

/-! ## Steps (R113, R123) -/

/-- A trigger under a step from device time `was` to the present: one with FOLLOW moves along, another that the step has passed fires
in this cycle, late. -/
def Mach.trigStepped (m : Mach) (was : DTime) (n : Nat) : Mach :=
  let x := m.trig n
  if !m.trigRun n || !x.armed then m
  else if m.flag (aTIME_TRIG_CTRL n) fTIME_TRIG_CTRL_FOLLOW then
    m.setTrig n (x.at (DTime.ofTotal (x.time.total + (m.time.now.total - (was.total : Int)))))
  else if !was.atOrPast x.sec x.ns && m.trigPast x then m.setTrig n { x with lateAt := some m.cyc }
  else m

/-- The committed step is applied, or refused with STEP_ERR (R113). -/
def Mach.stepApply (m : Mach) : Mach :=
  let c := aTIME_STEP_CTRL
  let ns := m.fld c fTIME_STEP_CTRL_NS
  let sec := 2 ^ 32 * m.fld aTIME_STEP_SEC_HI fTIME_STEP_SEC_HI_SEC_HI + m.fld aTIME_STEP_SEC_LO fTIME_STEP_SEC_LO_SEC_LO
  if 1000000000 ≤ ns then m.setFld aTIME_STAT fTIME_STAT_STEP_ERR 1
  else
    let was := m.time.now
    let d : Int := ((sec * 1000000000 + ns) * 2 ^ 32 : Nat)
    let now := if m.flag c fTIME_STEP_CTRL_SET then DTime.ofTotal d
      else DTime.ofTotal (was.total + (if m.flag c fTIME_STEP_CTRL_NEG then -d else d))
    let m := { m with time := { m.time with now := now } }
    let m := m.wrapInc aTIME_STAT fTIME_STAT_STEPSEQ
    (List.range 16).foldl (fun m n => m.trigStepped was n) m

/-- The page of TIME. -/
def timePage : Nat := 0x200000

/-- A pending step that is not held applies at a frame boundary (R114, R333). -/
def Mach.stepBoundary (m : Mach) : Mach :=
  if m.ready timePage 1 then (m.applyGroups .time timePage [1]).stepApply else m

/-- The rate after a commit of group 0: clamped, with INC_ERR (R112). -/
def Mach.rateCommitted (m : Mach) : Mach :=
  let v := m.inc
  let w := max 0x13FAE147B (min 0x14051EB85 v)
  if v = w then m
  else
    let m := (m.setFld aTIME_INC_LO fTIME_INC_LO_INC_LO w).setFld aTIME_INC_HI fTIME_INC_HI_INC_HI (w / 2 ^ 32)
    m.setFld aTIME_STAT fTIME_STAT_INC_ERR 1

/-! ## Directions in fixed point -/

/-- π in units of 2^-64. -/
def piFix : Int := 57952155664616982739

/-- The sum of a power series whose next term comes from the last by -x²/(k(k+1)), in units of 2^-60. -/
def trigSeries (x2 : Int) : Nat → Nat → Int → Int
  | 0, _, _ => 0
  | f + 1, k, t => t + trigSeries x2 f (k + 2) (-(t * x2 / 2 ^ 60) / (k * (k + 1)))

/-- Sine and cosine of a first-quadrant angle in 2^-32 turn, in units of 2^-60. -/
def sinCosQ (a : Nat) : Int × Int :=
  let x : Int := (2 * (a : Int) * piFix) / 2 ^ 36
  let x2 := x * x / 2 ^ 60
  (trigSeries x2 16 2 x, trigSeries x2 16 1 (2 ^ 60))

/-- Sine and cosine of an angle in 2^-32 turn, in units of 2^-60. -/
def sinCos (a : Nat) : Int × Int :=
  let a := a % 2 ^ 32
  let (s, c) := sinCosQ (a % 2 ^ 30)
  match a / 2 ^ 30 with
  | 0 => (s, c) | 1 => (c, -s) | 2 => (-s, -c) | _ => (-c, s)

/-- The direction (cos EL cos AZ, cos EL sin AZ, sin EL) in units of 2^-60 (R339). -/
def unitVector (az el : Word) : Int × Int × Int :=
  let (sa, ca) := sinCos az.toNat
  let (se, ce) := sinCos el.toNat
  (ce * ca / 2 ^ 60, ce * sa / 2 ^ 60, se)

/-- The point of a return in the frame of its head, in 2^-32 of 0.1 mm: TOF × 1.220703125 ps × c/2 along its direction (R339). -/
def headPoint (tof : Int) (az el : Word) : Int × Int × Int :=
  let (x, y, z) := unitVector az el
  let f (u : Int) : Int := tof * 149896229 * u / (81920000 * 2 ^ 28)
  (f x, f y, f z)

/-- `M·p + T + V × dt / 1 ms` for a point in 2^-32 of 0.1 mm and `dt` in ns, with the words of an extrinsics table (R339, R350). -/
def Mach.extrinsic (m : Mach) (a : Nat → Nat) (p : Int × Int × Int) (dt : Int) : Int × Int × Int :=
  let w (j : Nat) : Int := (m.reg (a j)).toInt
  let row (i : Nat) : Int :=
    (w (3 * i) * p.1 + w (3 * i + 1) * p.2.1 + w (3 * i + 2) * p.2.2) / 2 ^ 30 + w (9 + i) * 2 ^ 32
      + signed 16 (m.reg (a (12 + i))).toNat * dt * 2 ^ 32 / 1000000
  (row 0, row 1, row 2)

end Sys2Proof.Machine
end

