-- ==== Sys2Proof/Machine/Cam.lean ====
section
/-!
DEFINITION. The colour port (chapter 13): frames and bus lines (R343 to R346), the pipeline (R347), the colour store (R349), colours of
points (R350), sensor sets over I²C (R352, R353), the camera trigger (R354), statistics and frame streams (R355, R356).
-/
namespace Sys2Proof.Machine

/-! ## Configuration -/

def camPage : Nat := 0x7100000
/-- Width, height and exposures of a frame. -/
def Mach.camW (m : Mach) : Nat := m.fld aCAM_SIZE fCAM_SIZE_WIDTH
def Mach.camH (m : Mach) : Nat := m.fld aCAM_SIZE fCAM_SIZE_HEIGHT
def Mach.camNexp (m : Mach) : Nat := max 1 (m.fld aCAM_CTRL fCAM_CTRL_NEXP)
/-- D of the colour store (R349), and the factor of frame stream `k` (R356). -/
def Mach.camD (m : Mach) : Nat := 2 ^ min 3 (m.fld aCAM_CTRL fCAM_CTRL_DS)
def Mach.strmD (m : Mach) (k : Nat) : Nat := 2 ^ min 4 (m.fld (aCAM_STRM k) fCAM_STRM_DS)
/-- Bytes per pixel of a frame stream. -/
def Mach.strmBytes (m : Mach) (k : Nat) : Nat := if m.flag (aCAM_STRM k) fCAM_STRM_FMT then 1 else 2

/-- The port, changed. -/
def Mach.modCam (m : Mach) (f : Cam → Cam) : Mach := { m with cam := f m.cam }
/-- The open frame, changed. -/
def Mach.modFrame (m : Mach) (f : CamFrame → CamFrame) : Mach := m.modCam (fun c => { c with frame := c.frame.map f })

/-- What a commit of groups 0 and 4 breaks: the geometry of the store, or of an enabled stream; CFGERR (R349, R356). -/
def Mach.camCheck (m : Mach) : Mach :=
  let w := m.camW
  let h := m.camH
  let d := m.camD
  let bad := w % d != 0 || h % d != 0 || decide (196608 < w / d * (h / d)) || decide (1024 < w / d)
  let sb := (List.range 2).filter (fun k =>
    let s := m.strmD k
    m.flag (aCAM_STRM k) fCAM_STRM_EN && (w % s != 0 || h % s != 0 || decide (4096 < 4 + w / s * m.strmBytes k)))
  let m := m.modCam (fun c => { c with colBad := bad, strmBad := sb })
  m.when (bad || !sb.isEmpty) (fun m => m.setFld aCAM_FSTAT fCAM_FSTAT_CFGERR 1)

/-! ## The pipeline (R347) -/

/-- An integer clipped to `[0, 2^n)`. -/
def clipU (n : Nat) (v : Int) : Nat := (clampInt 0 ((2 : Int) ^ n - 1) v).toNat
/-- The mean of numbers, rounded halves up; none of no numbers. -/
def meanOf (l : List Nat) : Option Nat := if l.isEmpty then none else some ((2 * l.sum + l.length) / (2 * l.length))

/-- A pixel left-aligned to 16 bits (R343). -/
def Mach.camAlign (m : Mach) (x : Nat) : Nat :=
  let b := min 16 (max 8 (m.fld aCAM_CTRL fCAM_CTRL_BITS))
  x % 2 ^ b * 2 ^ (16 - b)

/-- Stage 1: decompanding. -/
def Mach.camDecomp (m : Mach) (x : Nat) : Nat :=
  let t := 0x7101000 + 132 * m.fld aCAM_PSEL fCAM_PSEL_DSEL
  let dc (k : Nat) : Int := (m.mnat (t + 4 * k) 4 % 2 ^ 20 : Nat)
  let k := x / 2048
  clipU 20 (dc k + (dc (k + 1) - dc k) * (x % 2048 : Nat) / 2048)

/-- Stage 2: merge of the exposures of a pixel, longest first. -/
def Mach.camMerge (m : Mach) (e : List Nat) : Nat :=
  let thr := 256 * m.fld aCAM_MERGE fCAM_MERGE_MTHR
  let e0 := e.getD 0 0
  if e.length ≤ 1 ∨ e0 < thr then e0
  else if e.length = 2 ∨ e.getD 1 0 < thr then clipU 24 (e.getD 1 0 * m.fld aCAM_MERGE fCAM_MERGE_RATIO1 / 256 : Nat)
  else clipU 24 (e.getD 2 0 * m.fld aCAM_MERGE fCAM_MERGE_RATIO2 / 256 : Nat)

/-- BLK of a CFA position. -/
def Mach.camBlack (m : Mach) (c : Nat) : Nat :=
  match c with
  | 0 => m.fld aCAM_BLACK01 fCAM_BLACK01_BLK0 | 1 => m.fld aCAM_BLACK01 fCAM_BLACK01_BLK1
  | 2 => m.fld aCAM_BLACK23 ⟨15, 0⟩ | _ => m.fld aCAM_BLACK23 ⟨31, 16⟩

/-- The defect entries in use up to the first out of order, as (y, x), and whether one was. -/
def Mach.camDefects (m : Mach) : List (Nat × Nat) × Bool :=
  let n := min 512 (m.fld aCAM_PSEL fCAM_PSEL_DEFN)
  let all := (List.range n).map (fun i =>
    let w := m.mnat (0x7104000 + 4 * i) 4
    (w / 2 ^ 16 % 4096, w % 4096))
  let rec go : Option (Nat × Nat) → List (Nat × Nat) → List (Nat × Nat)
    | _, [] => []
    | none, p :: t => p :: go (some p) t
    | some q, p :: t => if 4096 * q.1 + q.2 < 4096 * p.1 + p.2 then p :: go (some p) t else []
  let good := go none all
  (good, decide (good.length < all.length))

/-- Stages 1 to 4 of image line `y`, from its exposures; SATCNT's pixels of the line beside it (R355). -/
def Mach.camRaw (m : Mach) (y : Nat) (exps : List (List Nat)) : List Nat × Nat :=
  let w := m.camW
  let px (x : Nat) : List Nat := exps.map (fun l => m.camAlign (l.getD x 0))
  let merged := (List.range w).map (fun x => m.camMerge ((px x).map m.camDecomp))
  let sat := ((List.range w).filter (fun x => merged.getD x 0 == 0xFFFFFF || (px x).getLast? == some 0xFFFF)).length
  let black := (List.range w).map (fun x => merged.getD x 0 - 16 * m.camBlack (2 * (y % 2) + x % 2))
  let bad := if m.flag aCAM_PSEL fCAM_PSEL_DEF_EN then (m.camDefects.1.filter (fun d => d.1 == y)).map (fun d => d.2) else []
  ((List.range w).map (fun x =>
    if bad.contains x then
      (meanOf ((if 2 ≤ x then [black.getD (x - 2) 0] else []) ++ (if x + 2 < w then [black.getD (x + 2) 0] else []))).getD (black.getD x 0)
    else black.getD x 0), sat)

/-- The colour of a CFA position: 0 red, 1 green, 2 blue. -/
def Mach.cfa (m : Mach) (y x : Nat) : Nat :=
  let p := 2 * (y % 2) + x % 2
  let pat := ([[0, 1, 1, 2], [1, 0, 2, 1], [1, 2, 0, 1], [2, 1, 1, 0]] : List (List Nat)).getD (m.fld aCAM_CTRL fCAM_CTRL_BAYER) []
  pat.getD p 1

/-- An index mirrored at the borders of `n` places. -/
def mirror (n : Nat) (i : Int) : Nat := if i < 0 then (-i).toNat else if (n : Int) ≤ i then 2 * n - 2 - i.toNat else i.toNat

/-- Stage 5: the three colours of pixel x of line y, from its line and the lines above and below, mirrored. -/
def Mach.camDemosaic (m : Mach) (y : Nat) (above mid below : List Nat) (x : Nat) : Nat × Nat × Nat :=
  let w := m.camW
  let near (l : List Nat) (dy : Nat) (dx : Int) : List (Nat × Nat) :=
    let i := mirror w (x + dx)
    match l[i]? with
    | some v => [(m.cfa (y + dy) i, v)]
    | none => []
  let ns := near above 1 (-1) ++ near above 1 0 ++ near above 1 1 ++ near mid 0 (-1) ++ near mid 0 1
    ++ near below 1 (-1) ++ near below 1 0 ++ near below 1 1
  let own := m.cfa y x
  let get (c : Nat) : Nat :=
    if c = own then mid.getD x 0
    else (meanOf ((ns.filter (fun p => p.1 == c)).map (fun p => p.2))).getD (Config.absentColour % 2 ^ 24)
  (get 0, get 1, get 2)

/-- Stages 6 and 7: white balance and colour matrix. -/
def Mach.camMatrix (m : Mach) (p : Nat × Nat × Nat) : Nat × Nat × Nat :=
  let wb (v : Nat) (a : Nat) (f : Fld) : Int := (clipU 24 (v * m.fld a f / 4096 : Nat) : Nat)
  let r := wb p.1 aCAM_WB0 fCAM_WB0_WB_R
  let g := wb p.2.1 aCAM_WB0 fCAM_WB0_WB_G
  let b := wb p.2.2 aCAM_WB1 fCAM_WB1_WB_B
  let c (i j : Nat) : Int := m.sfld (aCAM_CCM (3 * i + j)) fCAM_CCM_C
  let row (i : Nat) : Nat := clipU 24 (divRound (c i 0 * r + c i 1 * g + c i 2 * b) 4096)
  (row 0, row 1, row 2)

/-- Stage 8: the tone curve of a channel. -/
def Mach.camTone (m : Mach) (ch v : Nat) : Nat :=
  let a := 0x7102000 + 514 * (3 * m.fld aCAM_PSEL fCAM_PSEL_TSEL + ch)
  let t (k : Nat) : Int := (m.mnat (a + 2 * k) 2 % 1024 : Nat)
  let k := v / 65536
  clipU 10 (t k + (t (k + 1) - t k) * (v % 65536 : Nat) / 65536)

/-- Stages 5 to 8 of line `y`. -/
def Mach.camLine (m : Mach) (y : Nat) (above mid below : List Nat) : List (Nat × Nat × Nat) :=
  (List.range m.camW).map (fun x =>
    let p := m.camMatrix (m.camDemosaic y above mid below x)
    (m.camTone 0 p.1, m.camTone 1 p.2.1, m.camTone 2 p.2.2))

/-! ## Downscaling and formats -/

/-- The round box means of the last `d` lines, newest first, in boxes `d` wide. -/
def boxRow (d : Nat) (rows : List (List (Nat × Nat × Nat))) : List (Nat × Nat × Nat) :=
  let w := (rows.headD []).length
  let use := rows.take d
  let mean (f : Nat × Nat × Nat → Nat) (i : Nat) : Nat :=
    (meanOf (use.flatMap (fun r => ((r.drop (d * i)).take d).map f))).getD 0
  (List.range (w / d)).map (fun i => (mean (fun p => p.1) i, mean (fun p => p.2.1) i, mean (fun p => p.2.2) i))

/-- RGB565 of a 10-bit triple (R338, R349). -/
def rgb565 (p : Nat × Nat × Nat) : Nat := 2 ^ 11 * (p.1 / 32) + 2 ^ 5 * (p.2.1 / 16) + p.2.2 / 32
/-- Its 8-bit luminance (R355, R356). -/
def luma (p : Nat × Nat × Nat) : Nat := (p.1 + 2 * p.2.1 + p.2.2) / 16

/-- The address of a pixel of the colour store. -/
def storeAddr (buf i : Nat) : Nat := 0x7140000 + 0x60000 * buf + 2 * i

/-! ## Records (R356) -/

/-- Word 0 of a camera record. -/
def camWord (kind idx len : Nat) : List Byte := leBytes 4 (2 ^ 28 * kind + 2 ^ 16 * idx + len)

/-- A camera record offered to a queue; one it refuses is lost, and LINEDROP counts it. True when it was taken. -/
def Mach.camSend (m : Mach) (q : Nat) (r : List Byte) : Mach × Bool :=
  match m.offer q .cam false r with
  | (m, .accepted) => (m, true)
  | (m, _) => (m.satInc aCAM_FCNT fCAM_FCNT_LINEDROP, false)

/-- The target queue of frame stream `k`. -/
def Mach.strmQueue (m : Mach) (k : Nat) : Nat := m.fld (aCAM_STRM k) fCAM_STRM_QUEUE

/-- The frame-start record of a stream. -/
def Mach.camStart (m : Mach) (f : CamFrame) (k : Nat) : Mach :=
  (m.camSend (m.strmQueue k) (camWord 8 0 24 ++ leBytes 4 f.seq ++ f.stamp.bytes
    ++ leBytes 4 (2 ^ 24 * f.setid + m.camW / m.strmD k))).1

/-- A line record of a stream, when `rows` ends a box of it. -/
def Mach.camStreamLine (m : Mach) (rows : List (List (Nat × Nat × Nat))) (y k : Nat) : Mach :=
  let d := m.strmD k
  if (y + 1) % d ≠ 0 then m
  else
    let px := boxRow d rows
    let bs := if m.strmBytes k = 1 then px.flatMap (fun p => leBytes 1 (luma p)) else px.flatMap (fun p => leBytes 2 (rgb565 p))
    let (m, ok) := m.camSend (m.strmQueue k) (camWord 9 (y / d) (4 + bs.length) ++ bs)
    m.when (!ok) (fun m => m.modFrame (fun f => { f with lost := mapPut 0 f.lost k (mapGet 0 f.lost k + 1) }))

/-- A line that ends a box of the colour store is written to the buffer being filled (R349). -/
def Mach.camStoreLine (m : Mach) (rows : List (List (Nat × Nat × Nat))) (y : Nat) : Mach :=
  let d := m.camD
  if m.cam.colBad ∨ (y + 1) % d ≠ 0 then m
  else
    let a := storeAddr m.cam.wrBuf (y / d * (m.camW / d))
    m.setBytes a ((boxRow d rows).flatMap (fun p => leBytes 2 (rgb565 p)))

/-- Statistics take a line (R355). -/
def Mach.camStats (m : Mach) (f : CamFrame) (y : Nat) (row : List (Nat × Nat × Nat)) : CamFrame :=
  ((List.range row.length).zip row).foldl (fun f (x, p) =>
    let z := 16 * (12 * y / m.camH) + 16 * x / m.camW
    let (n, r, g, b) := mapGet (0, 0, 0, 0) f.zones z
    { f with zones := mapPut (0, 0, 0, 0) f.zones z (n + 1, r + p.1, g + p.2.1, b + p.2.2)
             hist := mapPut 0 f.hist (luma p) (mapGet 0 f.hist (luma p) + 1) }) f

/-- Line `y` leaves the pipeline: statistics, store and streams. -/
def Mach.camOut (m : Mach) (y : Nat) (row : List (Nat × Nat × Nat)) : Mach :=
  match m.cam.frame with
  | none => m
  | some f =>
    let rows := (row :: f.out).take 16
    let m := m.modFrame (fun f => { m.camStats f y row with out := rows })
    f.sent.foldl (fun m k => m.camStreamLine rows y k) (m.camStoreLine rows y)

/-- An image line is complete: the lines its demosaic neighbours allow leave the pipeline. -/
def Mach.camImageLine (m : Mach) (y : Nat) (exps : List (List Nat)) : Mach :=
  match m.cam.frame with
  | none => m
  | some f =>
    let (row, sat) := m.camRaw y exps
    let m := m.when (m.flag aCAM_PSEL fCAM_PSEL_DEF_EN && m.camDefects.2) (fun m => m.setFld aCAM_FSTAT fCAM_FSTAT_DEFERR 1)
    let prev := f.rows.getD 0 []
    let m := m.modFrame (fun f => { f with rows := (row :: f.rows).take 2, satcnt := f.satcnt + sat })
    let m := m.when (decide (1 ≤ y)) (fun m => m.camOut (y - 1) (m.camLine (y - 1) (if y = 1 then row else f.rows.getD 1 []) prev row))
    m.when (decide (y + 1 = m.camH)) (fun m => m.camOut y (m.camLine y prev row prev))

/-! ## Frames (R345, R346) -/

/-- Bus lines of a frame. -/
def Mach.camBusLines (m : Mach) : Nat := m.camH * m.camNexp

/-- The current colour frame (R345). -/
def Mach.camCur (m : Mach) : Option ColFrame :=
  match m.cam.next with
  | some (f, c) => if c < m.cyc then some f else m.cam.cur
  | none => m.cam.cur

/-- The last bus line has come: the frame is complete and becomes the current colour frame in the next cycle. -/
def Mach.camComplete (m : Mach) (f : CamFrame) : Mach :=
  if m.cam.colBad then m
  else
    let cur := m.camCur
    m.modCam (fun c => { c with cur := cur, next := some ({ buf := c.wrBuf, time := f.time, old := false }, m.cyc), wrBuf := 1 - c.wrBuf })

/-- BUS_LINE: a bus line of pixels, padded or truncated (R346), ends an image line when it is its last exposure (R344). -/
def execBusLine (pixels : List Nat) (s : State) : Host.Outcome State Fault Refusal :=
  s.run (wfBusLine pixels) (fun _ m =>
    match m.cam.frame with
    | none => m
    | some f =>
      if m.camBusLines ≤ f.lines then m.modFrame (fun f => { f with long := true })
      else
        let w := m.camW
        let odd := pixels.length != w
        let l := (pixels ++ List.replicate (w - pixels.length) (pixels.getLastD 0)).take w
        let m := m.when odd (fun m => (m.satInc aCAM_FCNT fCAM_FCNT_LINEERR).modFrame (fun f => { f with lineErr := true }))
        let exps := f.exps ++ [l]
        let y := f.lines / m.camNexp
        let full := exps.length == m.camNexp
        let m := m.modFrame (fun f => { f with lines := f.lines + 1, exps := if full then [] else exps })
        let m := m.when full (fun m => m.camImageLine y exps)
        m.when (decide (f.lines + 1 = m.camBusLines)) (fun m => m.camComplete f))

/-- The statistics record of a frame (R355). -/
def camStatRecord (f : CamFrame) (flags : Nat) : List Byte :=
  let mean (n v : Nat) : Nat := if n = 0 then 0 else (2 * v + n) / (2 * n)
  camWord 0xC 0 1820 ++ leBytes 4 f.seq ++ f.stamp.bytes ++ leBytes 4 (2 ^ 24 * f.setid + flags) ++ leBytes 4 f.satcnt
    ++ (List.range 192).flatMap (fun z =>
      let (n, r, g, b) := mapGet (0, 0, 0, 0) f.zones z
      leBytes 4 (2 ^ 20 * mean n r + 2 ^ 10 * mean n g + mean n b))
    ++ (List.range 256).flatMap (fun k => leBytes 4 (mapGet 0 f.hist k))

/-- The open frame closes: SHORT when a line is missing; its frame-end and statistics records go out (R345, R355, R356). -/
def Mach.camClose (m : Mach) : Mach :=
  match m.cam.frame with
  | none => m
  | some f =>
    let short := decide (f.lines < m.camBusLines)
    let missing := m.camH - f.lines / m.camNexp
    let flags := bit short + 2 * bit f.long + 4 * bit f.lineErr + 8 * bit f.late + 16 * bit f.nack
    let m := m.when short (fun m => m.satInc aCAM_FCNT fCAM_FCNT_SHORTF)
    let m := m.when f.long (fun m => m.satInc aCAM_FCNT fCAM_FCNT_LONGF)
    let a := aCAM_FSTAT
    let m := ((m.setFld a fCAM_FSTAT_SETID f.setid).setFld a fCAM_FSTAT_FLAGS (flags % 16)).setFld a fCAM_FSTAT_MISSLN missing
    let m := f.sent.foldl (fun m k =>
      (m.camSend (m.strmQueue k) (camWord 0xA 0 12 ++ leBytes 4 f.seq ++ leBytes 4 (2 ^ 16 * mapGet 0 f.lost k + flags))).1) m
    let m := m.when (!short && m.flag aCAM_STATQ fCAM_STATQ_EN) (fun m =>
      (m.camSend (m.fld aCAM_STATQ fCAM_STATQ_QUEUE) (camStatRecord f flags)).1)
    let cur := m.camCur
    let m := m.modCam (fun c => if short then { c with cur := cur.map (fun x => { x with old := true }), next := none } else c)
    let m := m.when (!short) (fun m => m.modCam (fun c => { c with skip := (List.range 2).foldl (fun l k =>
      mapPut 0 l k (if f.sent.contains k then m.fld (aCAM_STRM k) fCAM_STRM_SKIP else mapGet 0 l k - 1)) c.skip }))
    m.modCam (fun c => { c with frame := none })

/-! ## Sensor sets (R352, R353) -/

/-- A sequence in a command buffer reads from the sensor: some transaction has READ; at most `n` headers. -/
def i2cReads : Nat → List Byte → Bool
  | 0, _ => false
  | _, [] => false
  | n + 1, h :: t => if h = 0 then false else h.getLsbD 7 || i2cReads n (t.drop (h.toNat % 64))

/-- A commit of group 2 has applied: its buffer is transmitted at once. -/
def Mach.i2cStart (m : Mach) : Mach :=
  let a := aCAM_SET
  let on := m.flag aCAM_CTRL fCAM_CTRL_EN
  let r : I2cRun := { buf := m.fld a fCAM_SET_BSEL, setid := m.fld a fCAM_SET_SETID, delay := max 1 (m.fld a fCAM_SET_SENSOR_DELAY)
                      frame := m.cam.frames + 1, on := on }
  (m.modCam (fun c => { c with i2c := some r })).setFld aCAM_I2CSTAT fCAM_I2CSTAT_BUSY 1

/-- I2C_TRANSFER_DONE: a transfer ends, acknowledged or not; `rd` holds the last 4 bytes read (R353). -/
def execI2cTransferDone (nack : Bool) (rd : Word) (s : State) : Host.Outcome State Fault Refusal :=
  s.run (wfI2cTransferDone nack rd) (fun _ m =>
    match m.cam.i2c with
    | none => m
    | some r =>
      let m := (m.modCam (fun c => { c with i2c := none })).setFld aCAM_I2CSTAT fCAM_I2CSTAT_BUSY 0
      if nack then (m.setFld aCAM_I2CSTAT fCAM_I2CSTAT_NACK 1).modFrame (fun f => { f with nack := true })
      else
        let m := m.when (i2cReads 128 (m.bytes (0x7105000 + 128 * r.buf) 128)) (fun m => m.setReg aCAM_I2CRD rd)
        let last := m.cam.frames
        let late := r.on && last != r.frame
        let from_ := if r.on then last + r.delay else last + 1
        let m := m.modCam (fun c => { c with sets := c.sets ++ [(from_, r.setid)] })
        m.when late (fun m => (m.satInc aCAM_I2CSTAT fCAM_I2CSTAT_I2C_LATE).modFrame (fun f => { f with late := true })))

/-- A frame opens with the set in effect for it; the streams whose turn it is choose it (R345, R353, R356). -/
def Mach.camOpen (m : Mach) (t : DTime) : Mach :=
  let n := (m.cam.frames + 1) % 2 ^ 32
  let set_ := (m.cam.sets.filter (fun x => decide (x.1 ≤ n))).foldl (fun (b : Nat × Nat) x => if b.1 ≤ x.1 then x else b)
    (0, m.fld aCAM_I2CSTAT fCAM_I2CSTAT_INEFFECT)
  let sent := (List.range 2).filter (fun k =>
    m.flag (aCAM_STRM k) fCAM_STRM_EN && !m.cam.strmBad.contains k && mapGet 0 m.cam.skip k == 0)
  let f : CamFrame := { seq := n, time := t, stamp := m.stampOf t, cyc := m.cyc, setid := set_.2, lines := 0, exps := [], rows := [], out := []
                        long := false, lineErr := false, late := false, nack := false, sent := sent, lost := [], zones := [], hist := []
                        satcnt := 0 }
  let m := m.modCam (fun c => { c with frames := n, frame := some f, sets := c.sets.filter (fun x => decide (n < x.1)) })
  let m := m.setFld aCAM_I2CSTAT fCAM_I2CSTAT_INEFFECT set_.2
  sent.foldl (fun m k => m.camStart f k) m

/-- What a boundary of groups 0, 1, 2 and 4 brings with it. -/
def Mach.camApply (m : Mach) : Mach :=
  let geo := m.ready camPage 0 || m.ready camPage 4
  let set_ := m.cam.i2c.isNone && m.ready camPage 2
  let m := m.applyGroups .cam camPage ([0, 1, 4] ++ (if set_ then [2] else []))
  (m.when geo Mach.camCheck).when set_ Mach.i2cStart

/-- CAM_VS_EDGE: an active VS edge, in the second half of the cycle when `half`: the open frame closes, held commits apply, a new frame
opens (R345, R348, R353). -/
def execCamVsEdge (half : Bool) (s : State) : Host.Outcome State Fault Refusal :=
  s.run (wfCamVsEdge half) (fun _ m =>
    let t := if half then DTime.ofTotal (m.time.now.total + m.inc / 2 : Nat) else m.time.now
    let m := m.camClose.camApply
    m.when (m.flag aCAM_CTRL fCAM_CTRL_EN) (fun m => m.camOpen t))

/-- CAM_FRAME_TIMEOUT: the open frame closes 1 s after its VS edge (R345). -/
def execCamFrameTimeout (s : State) : Host.Outcome State Fault Refusal :=
  s.run wfCamFrameTimeout (fun _ m =>
    match m.cam.frame with
    | none => m
    | some f => (m.advanceTo (f.cyc + 800000000)).camClose)

/-! ## The camera trigger (R354) -/

/-- A firing of time trigger `t` restarts the delay and the width of CAM_TRIG. -/
def Mach.camTrigger (m : Mach) (t : Nat) : Mach :=
  let a := aCAM_TRIG
  if m.flag a fCAM_TRIG_TRIG_EN && m.fld a fCAM_TRIG_TRIG == t then
    m.modCam (fun c => { c with trigDue := some (m.cyc + 4 * m.fld a fCAM_TRIG_TRIG_DLY) })
  else m

/-- CAM_TRIG_ACTIVE: the delay is over. -/
def execCamTrigActive (s : State) : Host.Outcome State Fault Refusal :=
  s.run wfCamTrigActive (fun _ m =>
    match m.cam.trigDue with
    | none => m
    | some d =>
      let m := m.advanceTo d
      let w := 800 * max 1 (m.fld aCAM_TRIG fCAM_TRIG_TRIG_W)
      m.modCam (fun c => { c with trigDue := none, trigOn := true, trigEnd := d + w }))

/-- CAM_TRIG_INACTIVE: the width is over. -/
def execCamTrigInactive (s : State) : Host.Outcome State Fault Refusal :=
  s.run wfCamTrigInactive (fun _ m =>
    if m.cam.trigOn && m.cam.trigDue.isNone then (m.advanceTo m.cam.trigEnd).modCam (fun c => { c with trigOn := false }) else m)

/-- The level of the CAM_TRIG pin. -/
def Mach.camTrigPin (m : Mach) : Bool := m.cam.trigOn != m.flag aCAM_TRIG fCAM_TRIG_TPOL

/-! ## Colours of points (R350) -/

/-- Signed Q4.28 or Q16.16 word of the camera model. -/
def Mach.intr (m : Mach) (j : Nat) : Int := (m.reg (aCAM_INTR j)).toInt

/-- A computed image coordinate: the exact one in 2^-16 pixels, off by at most 1/16 pixel. -/
def pixelNear (v : Int) : Int := v + clampInt (-4096) 4096 (Config.pixelOff v)

/-- The projection of a point in camera axes, in 2^-32 of 0.1 mm, to u and v in 2^-16 pixels; none in front of ZMIN. -/
def Mach.project (m : Mach) (q : Int × Int × Int) : Option (Int × Int) :=
  let z := q.2.2
  if z < 2 ^ 32 * (m.fld aCAM_COL fCAM_COL_ZMIN : Int) ∨ z = 0 then none
  else
    let o : Int := 2 ^ 40
    let x := q.1 * o / z
    let y := q.2.1 * o / z
    let r2 := (x * x + y * y) / o
    let r4 := r2 * r2 / o
    let r6 := r4 * r2 / o
    let k (j : Nat) := m.intr (3 + j)
    let g := o + (k 1 * r2 + k 2 * r4 + k 3 * r6) / 2 ^ 28
    let xy := x * y / o
    let p1 := k 4
    let p2 := k 5
    let xd := x * g / o + (2 * p1 * xy + p2 * (r2 + 2 * (x * x / o))) / 2 ^ 28
    let yd := y * g / o + (p1 * (r2 + 2 * (y * y / o)) + 2 * p2 * xy) / 2 ^ 28
    some (pixelNear (m.intr 0 * xd / o + m.intr 2), pixelNear (m.intr 1 * yd / o + m.intr 3))

/-- The colour of a return of port `p` at point time `t` in ns: COLOUR and OLDCOL, or none (NOCOL). -/
def Mach.colourOf (m : Mach) (p : Nat) (t : Int) (tof : Int) (az el : Word) : Option (Nat × Bool) :=
  if !m.flag aCAM_COL fCAM_COL_COL_EN || m.cam.colBad then none
  else match m.camCur with
  | none => none
  | some f =>
    let a := aCAM_EXT (p / 48)
    let tvs : Int := f.time.nanos
    let pc (dt : Int) := m.extrinsic a (headPoint tof az el) dt
    let tv (v : Int) : Int := tvs + (m.reg aCAM_RS_OFS).toInt + v * (m.reg aCAM_RS_LINE).toNat / 65536
    match m.project (pc 0) with
    | none => none
    | some (_, v0) =>
      match m.project (pc (tv v0 - t)) with
      | none => none
      | some (u, v) =>
        let w : Int := m.camW
        let h : Int := m.camH
        let age : Int := 1000000 * (max 1 (m.fld aCAM_COL fCAM_COL_COLAGE) : Nat)
        if u < 0 ∨ v < 0 ∨ w * 65536 ≤ u ∨ h * 65536 ≤ v ∨ age < t - tvs then none
        else
          let d := m.camD
          let x := u.toNat / 65536 / d
          let y := v.toNat / 65536 / d
          some (m.mnat (storeAddr f.buf (y * (m.camW / d) + x)) 2, f.old)

/-- What a commit of group 5 brings with it: colourisation that is switched on has no frame yet (R350). -/
def Mach.colCommitted (m : Mach) (was : Bool) : Mach :=
  if m.flag aCAM_COL fCAM_COL_COL_EN && !was then m.modCam (fun c => { c with cur := none, next := none }) else m

end Sys2Proof.Machine
end

