-- ==== Sys2Proof/Machine/Dram.lean ====
section
/-!
DEFINITION. DRAM and its arbiters (R407 to R417): capacity and interleaving, initialisation, channel failure with all it
brings, patrol scrub and refresh, the burst arbiter; and the supply monitor trips, one of which fails DRAM (R43).
-/
namespace Sys2Proof.Machine

/-- The first address of DRAM (R24). -/
def dramBase : Nat := 0x80_0000_0000

/-- The enabled channels, ascending. -/
def Mach.dramCh (m : Mach) : List Nat := bitsOf 4 (m.fld aMEM_CFG fMEM_CFG_CHEN)

/-- Capacity of one channel in bytes: RANKS × 2^DENS GB, with values out of range taken as R408's table says. -/
def Mach.dramC (m : Mach) : Nat :=
  let r := m.fld aMEM_CFG fMEM_CFG_RANKS
  let d := m.fld aMEM_CFG fMEM_CFG_DENS
  (if r = 2 then 2 else 1) * 2 ^ (min d 4) * 2 ^ 30

/-- The usable capacity U: 7/8 of the whole with ECC (R409). -/
def Mach.dramU (m : Mach) : Nat :=
  let n := m.dramCh.length * m.dramC
  if m.flag aMEM_CFG fMEM_CFG_ECC then n / 8 * 7 else n

/-- The size of an interleave granule, 0 for ILV 0 (R409). -/
def Mach.dramGran (m : Mach) : Nat :=
  match m.fld aMEM_CFG fMEM_CFG_ILV with
  | 0 => 0 | 2 => 4096 | _ => 256

/-- The channel an offset maps to (R409). -/
def Mach.dramChan (m : Mach) (o : Nat) : Nat :=
  let n := m.dramCh.length
  let i := if m.dramGran = 0 then (if m.dramU = 0 then 0 else o * n / m.dramU) else (if n = 0 then 0 else o / m.dramGran % n)
  m.dramCh.getD i 0

/-- The channels that offsets from `o` on, `len` bytes, map to. -/
def Mach.dramChans (m : Mach) (o len : Nat) : List Nat :=
  if len = 0 then []
  else if m.dramGran = 0 then
    m.dramCh.filter (fun c => (List.range 4).any (fun i =>
      m.dramCh.getD i 4 == c && decide (o * m.dramCh.length / max 1 m.dramU ≤ i)
        && decide (i ≤ (o + len - 1) * m.dramCh.length / max 1 m.dramU)))
  else
    let first := o / m.dramGran
    let last := (o + len - 1) / m.dramGran
    m.dramCh.filter (fun c => (List.range (min 4 (last + 1 - first))).any (fun i => m.dramChan ((first + i) * m.dramGran) == c))

/-- Channel `ch` has failed (R412). -/
def Mach.chanFailed (m : Mach) (ch : Nat) : Bool := (m.fld aMEM_STAT fMEM_STAT_FAILED).testBit ch

/-- The status of an access to `len` bytes of DRAM at offset `o`: NODRAM beyond the usable capacity, while DRAM is not
READY, or on a failed channel (R408, R409, R412). -/
def Mach.dramStatus (m : Mach) (o len : Nat) : Nat :=
  if !m.flag aMEM_STAT fMEM_STAT_READY || decide (m.dramU < o + len) || (m.dramChans o len).any m.chanFailed then 5 else 0

/-- The buffer of queue `q` lies on channel `ch` in some granule. -/
def Mach.qOnChan (m : Mach) (q ch : Nat) : Bool :=
  decide (dramBase ≤ m.qBase q) && (m.dramChans (m.qBase q - dramBase) (m.qSize q)).contains ch

/-- Channel `ch` has failed: a sun map in use whose path it lies on is off (R310). -/
def Mach.mapFails (m : Mach) (ch root : Nat) : Mach :=
  let base := 0x1000000 * m.fld aREJ_SUNBASE fREJ_SUNBASE_BASE
  let mapped := m.flag aREJ_SUNCFG fREJ_SUNCFG_MAP_EN && (m.dramChans base 0xC00000).contains ch
  m.when (mapped && !m.flag aREJ_MAPSTAT fREJ_MAPSTAT_MAPFAIL) (fun s =>
    (s.setFld aREJ_MAPSTAT fREJ_MAPSTAT_MAPFAIL 1).report (srcId 0x0D 0) root 0x20 1)

/-- A DRAM channel fails (R412): FAILED sets and one report goes out with `code` and `root`; queues whose buffer maps to
it set DEGR, each block of 16 reporting once; recorder rings among them freeze with cause 4; the sun map sets MAPFAIL. -/
def Mach.dramFail (m : Mach) (ch code root : Nat) : Mach :=
  if m.chanFailed ch then m
  else
    let m := m.setFld aMEM_STAT fMEM_STAT_FAILED (m.fld aMEM_STAT fMEM_STAT_FAILED ||| 2 ^ ch)
    let m := m.report (srcId 0x14 ch) root code 1
    let qs := m.queuesOn.filter (fun q => m.qOnChan q ch)
    let m := qs.foldl (fun s q =>
      let s := s.setFld (qdesc q 0) fQ_DEGR 1
      if s.qRing q then s.freeze q 4 else s) m
    let m := ((qs.map (fun q => q / 16)).eraseDups).foldl (fun s b => s.report (srcId 0x16 b) root 0x20 1) m
    m.mapFails ch root

/-- Channels fail training (R408): TRAINERR, and each is treated as failed. -/
def Mach.trainFail (m : Mach) (failing : Nat) : Mach :=
  let bad := m.dramCh.filter (fun c => failing.testBit c)
  let m := m.setFld aMEM_STAT fMEM_STAT_TRAINERR (ofBits bad)
  bad.foldl (fun s c => s.dramFail c 0x20 (srcId 0x14 c)) m

/-- An uncorrectable error on a channel (R410, R412): UE counts, one report, and more than UE_LIM within a second fail it. -/
def Mach.dramUe (m : Mach) (ch : Nat) : Mach :=
  let m := (m.satInc (aMEM_ECC ch) fMEM_ECC_UE).report (srcId 0x14 ch) (srcId 0x14 ch) 0x22 0
  let start := mapGet 0 m.dram.ueCyc ch
  let new := decide (800000000 ≤ m.cyc - start) || mapGet 0 m.dram.ue ch == 0
  let n := if new then 1 else mapGet 0 m.dram.ue ch + 1
  let m := { m with dram := { m.dram with ue := mapPut 0 m.dram.ue ch n
                                          ueCyc := mapPut 0 m.dram.ueCyc ch (if new then m.cyc else start) } }
  m.when (decide (m.fld aMEM_REF fMEM_REF_UE_LIM < n)) (fun m => m.dramFail ch 0x22 (srcId 0x14 ch))

/-- The notification of a starvation flag that newly set (R398, R417). -/
def Mach.starved (m : Mach) : Mach := m.raiseAll 2 (leBytes 4 (m.reg aARB_STAT).toNat)

/-- A write of GO to MEM_INIT (R408): initialisation starts unless READY is 1. -/
def Mach.memInit (m : Mach) : Mach :=
  let m := m.done 0
  if m.flag aMEM_STAT fMEM_STAT_READY then m
  else { m with dram := { m.dram with initDue := some (m.cyc + 4000000) } }

/-! ## Commands -/

/-- DRAM_INIT (R408). -/
def execDramInit (src : Src) (s : State) : Host.Outcome State Fault Refusal :=
  s.run (wfDramInit src) (fun _ m => m.asWriter src .mem 0 4 Mach.memInit)

/-- DRAM_READY: initialisation ends; READY sets, and TRAINERR marks channels that failed training (R408). -/
def execDramReady (failing : Nat) (s : State) : Host.Outcome State Fault Refusal :=
  s.run (wfDramReady failing) (fun _ m =>
    match m.dram.initDue with
    | none => m
    | some _ =>
      let m := { m with dram := { m.dram with initDue := none } }
      (m.setFld aMEM_STAT fMEM_STAT_READY 1).trainFail failing)

/-- DRAM_RESTORE: in BOOT after a host reset with KEEP_DRAM the controllers leave self-refresh; READY and KEPT_DRAM set, and
a failing channel sets TRAINERR (R49). -/
def execDramRestore (failing : Nat) (s : State) : Host.Outcome State Fault Refusal :=
  s.run (wfDramRestore failing) (fun _ m =>
    if m.dev.st = .boot ∧ m.dev.dramKept then
      let m := { m with dev := { m.dev with dramKept := false } }
      let m := (m.setFld aMEM_STAT fMEM_STAT_READY 1).setFld aPWR_RST_CAUSE fPWR_RST_CAUSE_KEPT_DRAM 1
      m.trainFail failing
    else m)

/-- DRAM_CHANNEL_FAIL: an enabled channel stops answering for 10 µs (R412). -/
def execDramChannelFail (ch : Nat) (s : State) : Host.Outcome State Fault Refusal :=
  s.run (wfDramChannelFail ch) (fun _ m =>
    if m.flag aMEM_STAT fMEM_STAT_READY ∧ ch ∈ m.dramCh then m.dramFail ch 0x27 (srcId 0x14 ch) else m)

/-- PATROL_SCRUB: the scrub reads the channel's next word; an error it finds is corrected and counted, or counts as
uncorrectable (R410). Nothing is checked with ECC = 0, with SCRUB 0, or on a channel out of use. -/
def execPatrolScrub (ch : Nat) (corrected uncorrectable : Bool) (s : State) : Host.Outcome State Fault Refusal :=
  s.run (wfPatrolScrub ch corrected uncorrectable) (fun _ m =>
    if m.flag aMEM_STAT fMEM_STAT_READY ∧ m.flag aMEM_CFG fMEM_CFG_ECC ∧ m.fld aMEM_REF fMEM_REF_SCRUB ≠ 0
        ∧ ch ∈ m.dramCh ∧ m.chanFailed ch = false then
      let words := m.dramC / 8 * 7 / 8
      let next := if words = 0 then 0 else (mapGet 0 m.dram.scrubPos ch + 1) % words
      let m := { m with dram := { m.dram with scrubPos := mapPut 0 m.dram.scrubPos ch next } }
      let m := m.when corrected (fun m => m.satInc (aMEM_ECC ch) fMEM_ECC_CORR)
      m.when uncorrectable (fun m => m.dramUe ch)
    else m)

/-- The refresh rate of a channel in eighths of the base rate: the JEDEC rate for the reported temperature times REF of
the band in force, and no less than what MR4 requires (R411). `quarters` is that rate in quarters of the base rate. -/
def Mach.refreshRate (m : Mach) (quarters : Nat) : Nat :=
  let b := m.fld aTHM_STAT fTHM_STAT_BAND
  let mult2 := match m.fld aMEM_REF fMEM_REF_REF / 4 ^ b % 4 with | 0 => 2 | 1 => 4 | 2 => 8 | _ => 1
  max (quarters * mult2) (quarters * 2)

/-- REFRESH: a refresh command goes out between bursts, at the rate in force from then on (R411, R414). -/
def execRefresh (ch : Nat) (s : State) : Host.Outcome State Fault Refusal :=
  s.run (wfRefresh ch) (fun _ m =>
    if m.flag aMEM_STAT fMEM_STAT_READY ∧ ch ∈ m.dramCh then
      { m with dram := { m.dram with
          rate := mapPut 0 m.dram.rate ch (m.refreshRate (mapGet 4 m.dram.mr4 ch))
          refreshes := mapPut 0 m.dram.refreshes ch (mapGet 0 m.dram.refreshes ch + 1) } }
    else m)

/-- MR4_READ: the controller reads the rate that the DRAM's temperature requires, in quarters of the base rate (R407, R411). -/
def execMr4Read (ch quarters : Nat) (s : State) : Host.Outcome State Fault Refusal :=
  s.run (wfMr4Read ch quarters) (fun _ m =>
    if m.flag aMEM_STAT fMEM_STAT_READY ∧ ch ∈ m.dramCh then
      { m with dram := { m.dram with mr4 := mapPut 4 m.dram.mr4 ch quarters } }
    else m)

/-- DSTARVE in core cycles, 0 taken as 1 ns; the limit is exceeded when more time has passed (R417). -/
def Mach.dstarve (m : Mach) : Nat := max 1 (m.fld aARB_STARVE fARB_STARVE_DSTARVE) * 4 / 5

/-- A request takes part in arbitration; the perturbation of R504 delays its class. -/
def Mach.dramEligible (m : Mach) (r : DReq) : Bool :=
  let dly := if m.pertActs && m.flag aTST_PERT2 fTST_PERT2_EN && m.fld aTST_PERT2 fTST_PERT2_DCLASS == r.cls
    then m.fld aTST_PERT2 fTST_PERT2_DLY else 0
  decide (r.cyc + dly ≤ m.cyc)

/-- The first of `cands` after `last` in ascending cyclic order of a key below `n`. -/
def cyclicFirst (n last : Nat) (key : α → Nat) (cands : List α) : Option α :=
  (List.range n).findSome? (fun i => cands.find? (fun c => key c == (last + 1 + i) % n))

/-- The request a channel's arbiter serves next (R414, R417): a starving one first with AGE_EN, else the class of highest
PRI, equal PRI in cyclic order after the last winner, and within a class the requesters in cyclic order. -/
def Mach.dramPick (m : Mach) (ch : Nat) : Option DReq :=
  let cands := m.dram.reqs.filter (fun r => r.ch == ch && m.dramEligible r)
  let starving := cands.filter (fun r => decide (m.dstarve < m.cyc - r.cyc))
  let pool := if m.flag aARB_STARVE fARB_STARVE_AGE_EN && !starving.isEmpty then starving else cands
  let top := pool.foldl (fun k r => max k (m.fld (aARB_PRI r.cls) fARB_PRI_PRI)) 0
  let best := pool.filter (fun r => m.fld (aARB_PRI r.cls) fARB_PRI_PRI == top)
  match cyclicFirst 5 (mapGet 4 m.dram.lastCls ch) (fun r => r.cls) best with
  | none => none
  | some r => cyclicFirst 32768 (mapGet 32767 m.dram.lastWho (5 * ch + r.cls)) (fun x => x.who) (best.filter (fun x => x.cls == r.cls))

/-- DRAM_BURST_GRANT: one burst of up to 256 bytes (R414); MAXWAIT of the class takes the wait when a request is first served. -/
def execDramBurstGrant (ch : Nat) (s : State) : Host.Outcome State Fault Refusal :=
  s.run (wfDramBurstGrant ch) (fun _ m =>
    match m.dramPick ch with
    | none => m
    | some r =>
      let rest := m.dram.reqs.filter (fun x => x != r)
      let reqs := if r.left ≤ 256 then rest else rest ++ [{ r with left := r.left - 256, cyc := m.cyc }]
      let m := { m with dram := { m.dram with
        reqs := reqs, lastCls := mapPut 4 m.dram.lastCls ch r.cls
        lastWho := mapPut 32767 m.dram.lastWho (5 * ch + r.cls) r.who } }
      m.setFld (aARB_WAIT r.cls) fARB_WAIT_MAXWAIT
        (max (m.fld (aARB_WAIT r.cls) fARB_WAIT_MAXWAIT) (satN 16 ((m.cyc - r.cyc) / 8))))

/-- DRAM_STARVE: a request of class k has waited longer than DSTARVE; its STARVE bit sets, raising cause 2 (R417). -/
def execDramStarve (k : Nat) (s : State) : Host.Outcome State Fault Refusal :=
  s.run (wfDramStarve k) (fun _ m =>
    match m.dram.reqs.find? (fun r => r.cls == k) with
    | none => m
    | some r =>
      let m := m.advanceTo (r.cyc + m.dstarve + 1)
      let b := m.fld aARB_STAT fARB_STAT_DRAM
      if b.testBit k then m else (m.setFld aARB_STAT fARB_STAT_DRAM (b ||| 2 ^ k)).starved)

/-- SUPPLY_MONITOR_TRIP: the monitors in the mask trip within the same 2 µs. TRIP records each; the most severe response
applies: a device reset for VDD_CORE, VDD_SRAM, VDDA_PLL or VDD_IO, else OASIS for VDD_GRD (with a guard fault), VDDA_TS, VDDA_RX or
VDD_LANE, else the failure of all DRAM channels for VDDQ_DRAM (R43, R44, R218). -/
def execSupplyMonitorTrip (which : Nat) (s : State) : Host.Outcome State Fault Refusal :=
  s.run (wfSupplyMonitorTrip which) (fun _ m =>
    let new := which &&& (0x1FF ^^^ (m.dev.low &&& 0x1FF))
    if new = 0 ∨ m.dev.st = .off then m
    else
      let low := m.dev.low ||| new
      let m := { m with dev := { m.dev with low := low } }
      let m := m.setFld aPWR_SUPPLY_STAT fPWR_SUPPLY_STAT_OK (0x1FF - low)
      let m := m.setFld aPWR_SUPPLY_STAT fPWR_SUPPLY_STAT_TRIP (m.fld aPWR_SUPPLY_STAT fPWR_SUPPLY_STAT_TRIP ||| new)
      if m.dev.st = .shutdown then m
      else if new &&& 0x10B ≠ 0 then m.reset' .supply
      else
        let oasis := (bitsOf 9 new).filter (fun i => i == 2 || i == 4 || i == 5 || i == 6)
        match oasis with
        | [] => if new.testBit 7 then (List.range 4).foldl (fun s c => s.dramFail c 0x20 (srcId 0x00 7)) m else m
        | i :: _ =>
          let m := m.when (new.testBit 2) (fun m => m.guardFails (.supply true) (srcId 0x00 2))
          if new.testBit 2 then m
          else (m.report (srcId 0x00 i) (srcId 0x00 i) 0x20 3).enterOasis (.supply false))

end Sys2Proof.Machine
end

