-- ==== Sys2Proof/Machine/Rej.lean ====
section
/-!
DEFINITION. The rejection unit (chapter 11): the code generator and plan lock (R314, R316), thresholds and the background loop
(R299 to R303), the sun map (R304 to R310), obscurant density and haboob mode (R311, R312), and the mirage detector (R318 to R324).
-/
namespace Sys2Proof.Machine

/-! ## Codes (R314, R316) -/

/-- The powers of α, a root of x^4 + x + 1. -/
def gfExp (k : Nat) : Nat := [1, 2, 4, 8, 3, 6, 12, 11, 5, 10, 7, 14, 15, 13, 9].getD (k % 15) 0
/-- The exponent of a field element other than 0. -/
def gfLog (v : Nat) : Nat := ((List.range 15).find? (fun k => gfExp k == v)).getD 0
/-- The product in GF(16). -/
def gfMul (a b : Nat) : Nat := if a = 0 ∨ b = 0 then 0 else gfExp (gfLog a + gfLog b)

/-- The position of step `i` of code `c` (R314). -/
def codePos (c i : Nat) : Nat :=
  let mt := [1, 11, 7, 13].getD (c / 4096 % 4) 1
  let v := i % 16
  let x := if v = 15 then 0 else gfExp (mt * v)
  (c / 256 % 16) ^^^ gfMul (c / 16 % 16) x ^^^ gfMul (c % 16) (gfMul x x)

/-- code may select code `c`: the plan is unlocked or assigns it (R134, R316). -/
def Mach.codeAllowed (m : Mach) (c : Nat) : Bool :=
  !m.flag aREJ_PLAN fREJ_PLAN_LOCK
    || (List.range 16).any (fun k => m.flag (aREJ_ASSIGN k) fREJ_ASSIGN_V && m.fld (aREJ_ASSIGN k) fREJ_ASSIGN_CODE == c)

/-- The slot of a nanosecond part (R318). -/
def Mach.slotOf (m : Mach) (ns : Nat) : Nat :=
  let us := max 1 (m.fld aREJ_PLAN fREJ_PLAN_SLOT_US)
  let frame := (m.fld aREJ_PLAN fREJ_PLAN_SLOTSM1 + 1) * us * 1000
  ns % frame / (us * 1000)

/-- A slot plan that applies (R316). -/
def slotPlanOk (slotsM1 slot us : Nat) : Bool := us != 0 && 1000000 % ((slotsM1 + 1) * us) == 0 && decide (slot ≤ slotsM1)

/-- What a commit of group 2 brings with it (R316); `was` is REJ_PLAN before it. -/
def Mach.planCommitted (m : Mach) (was : Word) : Mach :=
  let badK := (List.range 16).filter (fun k => m.flag (aREJ_ASSIGN k) fREJ_ASSIGN_V && m.fld (aREJ_ASSIGN k) fREJ_ASSIGN_CODE % 256 == 0)
  let m := badK.foldl (fun m k => m.setFld (aREJ_ASSIGN k) fREJ_ASSIGN_V 0) m
  let f (x : Fld) := m.fld aREJ_PLAN x
  let ok := slotPlanOk (f fREJ_PLAN_SLOTSM1) (f fREJ_PLAN_SLOT) (f fREJ_PLAN_SLOT_US)
  let m := if ok then m
    else [fREJ_PLAN_SLOTSM1, fREJ_PLAN_SLOT, fREJ_PLAN_SLOT_US].foldl (fun m x => m.setFld aREJ_PLAN x (x.get was)) m
  let m := m.when (!ok || !badK.isEmpty) (fun m => m.setFld aREJ_PLANSTAT fREJ_PLANSTAT_PLANERR 1)
  m.wrapInc aREJ_PLANSTAT fREJ_PLANSTAT_PLANSEQ

/-! ## The sun map (R304 to R310) -/

/-- The head a port belongs to (R311). -/
def headOf (p : Nat) : Nat := p / 48

/-- The map is on (R304). -/
def Mach.mapOn (m : Mach) : Bool :=
  m.flag aREJ_SUNCFG fREJ_SUNCFG_MAP_EN && m.flag aREJ_SUNCFG fREJ_SUNCFG_VALID && !m.flag aREJ_MAPSTAT fREJ_MAPSTAT_MAPFAIL

/-- Row, bin and sun-disk test of a direction on head `h` at count `c` of AXS_CYC (R305). -/
def Mach.sunAt (m : Mach) (h c : Nat) : Nat × Nat × Bool :=
  let az := (m.headAngle h 1 c).toNat + 2 ^ 32 - 65536 * m.fld (aREJ_SUN h) fREJ_SUN_SUN_AZ
  let el := (m.headAngle h 2 c).toNat + 2 ^ 32 - 65536 * m.fld (aREJ_SUN h) fREJ_SUN_SUN_EL
  let r : Int := 2 ^ 20 * m.fld aREJ_SUNCFG fREJ_SUNCFG_DISK_R
  let near (v : Nat) : Bool := decide (-r ≤ signed 32 v) && decide (signed 32 v ≤ r)
  ((clampInt 0 63 (32 + signed 32 el / 2 ^ 23)).toNat, az % 2 ^ 32 / 2 ^ 22, near az && near el)

/-- A direction lies in the sun disk: never while the map is off (R304). -/
def Mach.inDisk (m : Mach) (h c : Nat) : Bool := m.mapOn && (m.sunAt h c).2.2

/-- The address of a line of the map (R306). -/
def Mach.mapAddr (m : Mach) (p row line : Nat) : Nat :=
  dramBase + 0x1000000 * m.fld aREJ_SUNBASE fREJ_SUNBASE_BASE + 0x20000 * p + 0x800 * row + 64 * line

/-- The cached lines of a port. -/
def Mach.mapLines (m : Mach) (p : Nat) : List MapLine := mapGet [] m.rej.lines p
/-- The cached lines of a port replaced. -/
def Mach.setLines (m : Mach) (p : Nat) (l : List MapLine) : Mach :=
  { m with rej := { m.rej with lines := mapPut [] m.rej.lines p l } }

/-- A line that leaves the cache is written back when it was written (R308). -/
def Mach.writeBack (m : Mach) (p : Nat) (l : MapLine) : Mach :=
  if l.dirty then m.setBytes (m.mapAddr p l.row l.line) (l.ents.flatMap (leBytes 2)) else m

/-- A line is asked for by the sun-map class of the DRAM arbiter, unless it is present or asked for already (R308). -/
def Mach.wantLine (m : Mach) (p row line : Nat) : Mach :=
  let w : MapWant := { port := p, row := row, line := line }
  if (m.mapLines p).any (fun l => l.row == row && l.line == line) || m.rej.wants.contains w then m
  else
    let ch := m.dramChan (m.mapAddr p row line - dramBase)
    { m with rej := { m.rej with wants := m.rej.wants ++ [w] }
             dram := { m.dram with reqs := m.dram.reqs ++ [{ cls := 2, who := p, ch := ch, cyc := m.cyc, left := 64 }] } }

/-- The line after `line` in the direction of the azimuth axis's published rate is prefetched (R308). -/
def Mach.prefetch (m : Mach) (p row line : Nat) : Mach :=
  match m.headAxis (headOf p) 1 with
  | none => m
  | some a =>
    let w := (m.ax a).pubW.toInt
    if w = 0 then m else m.wantLine p row (if 0 < w then (line + 1) % 32 else (line + 31) % 32)

/-- A shot of port `p` looks its line up: the entry when the line is present, else MAP_LATE counts and the line is fetched (R308). -/
def Mach.mapLookup (m : Mach) (p row bin : Nat) : Option Nat × Mach :=
  let ls := m.mapLines p
  let hit (l : MapLine) : Bool := l.row == row && l.line == bin / 32
  match ls.find? hit with
  | none => (none, (m.satInc aREJ_MAPSTAT fREJ_MAPSTAT_MAP_LATE).wantLine p row (bin / 32))
  | some l => (some (l.ents.getD (bin % 32) 0), (m.setLines p (l :: ls.filter (fun x => !hit x))).prefetch p row (bin / 32))

/-- Every cached line written back and dropped, as a commit of group 1 does before its settings hold (R309); after a failure of the map's
path the lines are lost (R310). -/
def Mach.mapFlush (m : Mach) : Mach :=
  let m := m.when (!m.flag aREJ_MAPSTAT fREJ_MAPSTAT_MAPFAIL) (fun m =>
    m.rej.lines.foldl (fun m (p, ls) => ls.foldl (fun m l => m.writeBack p l) m) m)
  { m with rej := { m.rej with lines := [], wants := [] }
           dram := { m.dram with reqs := m.dram.reqs.filter (fun r => r.cls != 2) } }

/-- MAP_LINE_FETCH: the line a port has asked for longest arrives; the line used longest ago leaves (R308). -/
def execMapLineFetch (p : Nat) (s : State) : Host.Outcome State Fault Refusal :=
  s.run (wfMapLineFetch p) (fun _ m =>
    match m.rej.wants.find? (fun w => w.port == p) with
    | none => m
    | some w =>
      let a := m.mapAddr p w.row w.line
      let m := { m with rej := { m.rej with wants := m.rej.wants.erase w }
                        dram := { m.dram with reqs := m.dram.reqs.eraseP (fun r => r.cls == 2 && r.who == p) } }
      if !m.mapOn || m.dramStatus (a - dramBase) 64 != 0 then m
      else
        let l : MapLine := { row := w.row, line := w.line, ents := (List.range 32).map (fun i => m.mnat (a + 2 * i) 2)
                             dirty := false, bumped := [] }
        let m := ((m.mapLines p).drop 1).foldl (fun m x => m.writeBack p x) m
        m.setLines p ((m.mapLines p).take 1 ++ [l]))

/-! ## Thresholds and the background loop (R299 to R303) -/

/-- A quotient by a power of two, or a product, rounded with halves away from zero. -/
def scale2 (v : Int) (k : Int) : Int := if 0 ≤ k then v * 2 ^ k.toNat else divAway v (2 ^ (-k).toNat)

/-- ADJ of a port. -/
def Mach.adj (m : Mach) (p : Nat) : Int := m.sfld (aREJ_PBG p) fREJ_PBG_ADJ
/-- ADJ of a port replaced, clipped to OFSMIN to OFSMAX. -/
def Mach.ofsClip (m : Mach) (v : Int) : Int :=
  min (max v (m.sfld aREJ_BGLIM fREJ_BGLIM_OFSMIN)) (m.sfld aREJ_BGLIM fREJ_BGLIM_OFSMAX)
/-- ADJ of a port replaced. -/
def Mach.setAdj (m : Mach) (p : Nat) (v : Int) : Mach := m.setFld (aREJ_PBG p) fREJ_PBG_ADJ (toField 10 v)

/-- ADAPT of a port. -/
def Mach.adapts (m : Mach) (p : Nat) : Bool := m.flag (aPRT_FE p) fPRT_FE_ADAPT

/-- The rejection unit at a shot's decision on port `p` (R300, R301, R303, R305, R308): the offset, the sun-disk test, and
where the shot's map entry stands when its line is present. -/
def Mach.rejDecide (m : Mach) (p gain : Nat) : (Int × Bool × Option (Nat × Nat)) × Mach :=
  let old := ((m.p p).gainWas).getD gain
  let m := m.modP p (fun x => { x with gainWas := some gain })
  let adj := if m.adapts p then (if old = gain then m.adj p else m.ofsClip (scale2 (m.adj p) ((gain : Int) - old))) else 0
  let m := m.setAdj p adj
  if !m.mapOn then
    let m := m.setFld (aREJ_PBG p) fREJ_PBG_DISK 0
    ((m.ofsClip adj, false, none), m)
  else
    let (row, bin, disk) := m.sunAt (headOf p) m.axsCyc
    let m := m.setFld (aREJ_PBG p) fREJ_PBG_DISK (bit disk)
    let (ent, m) := m.mapLookup p row bin
    let ff := match ent with
      | none => 0
      | some e => clampInt (-512) 511 (scale2 (signed 10 e) ((gain : Int) - m.fld aREJ_SUNCFG fREJ_SUNCFG_MAPGAIN))
    let ofs := if disk then m.sfld aREJ_BGLIM fREJ_BGLIM_OFSMAX else m.ofsClip (adj + ff)
    ((ofs, disk, ent.map (fun _ => (row, bin))), m)

/-- The map learns from a shot after its RATE update (R307). -/
def Mach.mapLearn (m : Mach) (p : Nat) (x : PShot) : Mach :=
  match x.mapAt with
  | none => m
  | some (row, bin) =>
    if !m.mapOn || !m.flag aREJ_SUNCFG fREJ_SUNCFG_LEARN_EN || !m.adapts p || x.disk then m
    else
      let k := bin % 32
      let step := scale2 (m.adj p) ((m.fld aREJ_SUNCFG fREJ_SUNCFG_MAPGAIN : Int) - x.gain - m.fld aREJ_SUNCFG fREJ_SUNCFG_LRATE)
      m.setLines p ((m.mapLines p).map (fun l =>
        if l.row == row && l.line == bin / 32 then
          let e := l.ents.getD k 0
          let v := toField 10 (clampInt (-512) 511 (signed 10 e + step))
          let conf := if l.bumped.contains k then e / 4096 % 16 else min 15 (e / 4096 % 16 + 1)
          { l with ents := l.ents.set k (4096 * conf + v), dirty := true
                   bumped := if l.bumped.contains k then l.bumped else l.bumped ++ [k] }
        else l))

/-- The background loop takes an accumulated shot with `r` background events (R299, R300). -/
def Mach.background (m : Mach) (p : Nat) (x : PShot) (r : Nat) : Mach :=
  let a := aREJ_PBG p
  let rate : Int := m.fld a fREJ_PBG_RATE
  let rate' := rate + (256 * (r : Int) - rate) / 2 ^ m.fld aREJ_BGCFG fREJ_BGCFG_TAU
  let m := m.setFld a fREJ_PBG_RATE rate'.toNat
  let k : Int := if m.flag aREJ_MODE fREJ_MODE_HABOOB then 2 else 1
  let step : Int := max 1 (m.fld aREJ_BGCFG fREJ_BGCFG_STEP)
  let up : Bool := decide (k * m.fld aREJ_BGTGT fREJ_BGTGT_HI < rate')
  let down : Bool := decide (rate' < k * m.fld aREJ_BGTGT fREJ_BGTGT_LO)
  let adj := m.adj p + (if up then step else 0) - (if down then step else 0)
  (m.setAdj p (if m.adapts p then m.ofsClip adj else 0)).mapLearn p x

/-- The background loop runs, and the shot's interval of `len` LSB from time zero covered the window (R299). -/
def Mach.bgCovers (m : Mach) (len : Int) : Bool :=
  let n := m.fld aREJ_BGWIN fREJ_BGWIN_BG_LEN
  m.flag aREJ_BGCFG fREJ_BGCFG_EN && n != 0 && decide (32 * ((m.fld aREJ_BGWIN fREJ_BGWIN_BG_START + n : Nat) : Int) ≤ len)

/-- An event at `t` LSB lies in the background window (R299). -/
def Mach.inBgWindow (m : Mach) (t : Int) : Bool :=
  let s := m.fld aREJ_BGWIN fREJ_BGWIN_BG_START
  decide (32 * (s : Int) ≤ t) && decide (t < 32 * ((s + m.fld aREJ_BGWIN fREJ_BGWIN_BG_LEN : Nat) : Int))

/-! ## Return records (R289) -/

/-- TOF of a return, in 1/16 LSB. -/
def retTof (r : List Word) : Int := (r.getD 0 0).toInt
/-- AMP of a return. -/
def retAmp (r : List Word) : Nat := (r.getD 1 0).toNat / 2 ^ 16
/-- CLASS of a return. -/
def retClass (r : List Word) : Nat := (r.getD 2 0).toNat / 2 ^ 12 % 16
/-- PROG of a return. -/
def retProg (r : List Word) : Nat := (r.getD 3 0).toNat % 2 ^ 16

/-! ## Obscurants and haboob mode (R311, R312) -/

/-- A head's haboob timing. -/
def Mach.hbHead (m : Mach) (h : Nat) : Haboob := mapGet Haboob.reset m.rej.heads h
/-- D of a head. -/
def Mach.density (m : Mach) (h : Nat) : Nat := m.fld aREJ_HBSTAT (if h = 0 then fREJ_HBSTAT_D0 else fREJ_HBSTAT_D1)
/-- HOLD in core cycles. -/
def Mach.hbHold (m : Mach) : Nat := 8000000 * max 1 (m.fld aREJ_HBCFG fREJ_HBCFG_HOLD)

/-- A condition's beginning: kept while it holds, now when it begins, none when it does not hold. -/
def since (now : Nat) (holds : Bool) (o : Option Nat) : Option Nat := if holds then some (o.getD now) else none

/-- A condition has held without a break for HOLD. -/
def Mach.heldFor (m : Mach) (o : Option Nat) : Bool := match o with | some c => decide (c + m.hbHold ≤ m.cyc) | none => false

/-- QUAL and HABOOB follow the densities and CTL (R312). -/
def Mach.hbJudge (m : Mach) : Mach :=
  let q (h : Nat) : Bool := m.heldFor (m.hbHead h).on
  let clear := m.heldFor (m.hbHead 0).off && m.heldFor (m.hbHead 1).off
  let m := m.setFld aREJ_MODE fREJ_MODE_QUAL (bit (q 0) + 2 * bit (q 1))
  let old := m.flag aREJ_MODE fREJ_MODE_HABOOB
  let new := match m.fld aREJ_MODE fREJ_MODE_CTL with
    | 1 => false
    | 2 => true
    | _ => if q 0 || q 1 then true else if clear then false else old
  if new = old then m
  else (m.setFld aREJ_MODE fREJ_MODE_HABOOB (bit new)).wrapInc aREJ_MODE fREJ_MODE_MODEGEN

/-- The densities compared with ON and OFF, then QUAL and HABOOB (R312); also after a commit of group 3. -/
def Mach.hbTrack (m : Mach) : Mach :=
  let m := (List.range 2).foldl (fun m h =>
    let d := 100 * m.density h
    let x := m.hbHead h
    let x : Haboob := { on := since m.cyc (decide (65536 * m.fld aREJ_HBCFG fREJ_HBCFG_ON ≤ d)) x.on
                        off := since m.cyc (decide (d ≤ 65536 * m.fld aREJ_HBCFG fREJ_HBCFG_OFF)) x.off }
    { m with rej := { m.rej with heads := mapPut Haboob.reset m.rej.heads h x } }) m
  m.hbJudge

/-- The density takes a group (R311). -/
def Mach.hbGroup (m : Mach) (g : Posted) : Mach :=
  if g.flags.testBit 4 || g.abandoned then m
  else
    let lim : Int := 2733 * m.fld aREJ_HBCFG fREJ_HBCFG_NEAR
    let obs := g.recs.any (fun r => (retClass r == 2 || retClass r == 3) && decide (retTof r ≤ lim))
    let h := headOf g.port
    let d : Int := m.density h
    let d' := d + ((if obs then 65536 else 0) - d) / 1024
    (m.setFld aREJ_HBSTAT (if h = 0 then fREJ_HBSTAT_D0 else fREJ_HBSTAT_D1) d'.toNat).hbTrack

/-- HABOOB_SWITCH: a HOLD time has run out; the mode is judged anew (R312). -/
def execHaboobSwitch (s : State) : Host.Outcome State Fault Refusal :=
  s.run wfHaboobSwitch (fun _ m =>
    let due := [(m.hbHead 0).on, (m.hbHead 1).on, (m.hbHead 0).off, (m.hbHead 1).off].filterMap (fun o => o.map (fun c => c + m.hbHold))
    match (due.filter (fun c => decide (m.cyc < c))) with
    | [] => m.hbJudge
    | c :: t => (m.advanceTo (t.foldl min c)).hbJudge)

/-! ## The mirage detector and table (R319 to R324) -/

/-- The address of entry `i` of the mirage table. -/
def mirAddr (i : Nat) : Nat := 0x6010000 + 16 * i

/-- The arrival of a foreign pulse: seconds and whole nanoseconds (R319). -/
def arrival (t0 : Stamp) (tof : Int) : Nat × Nat :=
  let q := (4096 * (t0.ns : Int) + t0.frac + 5 * tof) / 4096
  (toField 48 ((t0.sec : Int) + q / 1000000000), (q % 1000000000).toNat)

/-- The observations of a group enter the detector's queue (R319, R321). -/
def Mach.mirGroup (m : Mach) (g : Posted) : Mach :=
  if !m.flag aREJ_MIRCFG fREJ_MIRCFG_EN then m
  else
    (g.recs.filter (fun r => retClass r == 4)).foldl (fun m r =>
      if retProg r / 2 ^ 15 % 2 = 1 then m.satInc aREJ_MIRCNT1 fREJ_MIRCNT1_SELF
      else if 256 ≤ m.rej.obs.length then m.satInc aREJ_MIRCNT0 fREJ_MIRCNT0_DROP
      else
        let (sec, ns) := arrival g.t0 (retTof r)
        let o : MirObs := { head := headOf g.port, az := (m.headAngle (headOf g.port) 1 g.tref).toNat / 2 ^ 22
                            slot := m.slotOf ns, sec := sec % 2 ^ 32, amp := retAmp r, port := g.port }
        { m with rej := { m.rej with obs := m.rej.obs ++ [o] } }) m

/-- Word `k` of entry `i` of the mirage table. -/
def Mach.mir (m : Mach) (i k : Nat) : Nat := m.mnat (mirAddr i + 4 * k) 4
/-- Entry `i` is in use. -/
def Mach.mirValid (m : Mach) (i : Nat) : Bool := (m.mir i 0).testBit 23

/-- The distance of two azimuth bins round the circle. -/
def binDist (a b : Nat) : Nat := let d := (a + 1024 - b) % 1024; min d (1024 - d)

/-- The first of the indexes with the least key. -/
def leastBy (key : Nat → Nat) : List Nat → Option Nat
  | [] => none
  | i :: t => match leastBy key t with
    | some j => if key j < key i then some j else some i
    | none => some i

/-- The entry an observation matches: the nearest AZ, then the lowest index (R320). -/
def Mach.mirMatch (m : Mach) (o : MirObs) : Option Nat :=
  let az (i : Nat) := m.mir i 0 / 2 ^ 7 % 1024
  leastBy (fun i => binDist (az i) o.az) ((List.range 4096).filter (fun i =>
    let w := m.mir i 0
    w.testBit 23 && w / 2 ^ 21 % 2 == o.head && w / 2 ^ 17 % 16 == o.slot
      && decide (binDist (az i) o.az ≤ m.fld aREJ_MIRCFG fREJ_MIRCFG_AZTOL)))

/-- Entry `i` written: its SEQ counts up in both words (R320, R324). -/
def Mach.mirStore (m : Mach) (i : Nat) (o : MirObs) (count amax : Nat) : Mach :=
  let seq := (m.mir i 0 / 2 ^ 24 + 1) % 256
  let hot := decide (m.fld aREJ_MIRCFG2 fREJ_MIRCFG2_HOT_N ≤ count)
  let w0 := 2 ^ 24 * seq + 2 ^ 23 + 2 ^ 22 * bit hot + 2 ^ 21 * o.head + 2 ^ 17 * o.slot + 2 ^ 7 * o.az + o.port
  m.setBytes (mirAddr i) ([w0, count, o.sec, 2 ^ 24 * seq + amax].flatMap (leBytes 4))

/-- A record of entry `i` is offered to MIRQ, within NOTE_MAX per millisecond of device time (R323). -/
def Mach.mirNote (m : Mach) (i : Nat) : Mach :=
  let ms := m.time.now.nanos / 1000000
  let n := if m.rej.noteMs = ms then m.rej.noteN else 0
  if m.fld aREJ_MIRCFG2 fREJ_MIRCFG2_NOTE_MAX ≤ n then m.satInc aREJ_MIRCNT1 fREJ_MIRCNT1_NOTEDROP
  else
    let m := { m with rej := { m.rej with noteMs := ms, noteN := n + 1 } }
    match m.offer (m.fld aREJ_MIRCFG fREJ_MIRCFG_MIRQ) .rej false (m.bytes (mirAddr i) 16) with
    | (m, .accepted) => m
    | (m, _) => m.satInc aREJ_MIRCNT1 fREJ_MIRCNT1_NOTEDROP

/-- ENTRIES changed by `k`. -/
def Mach.mirCount (m : Mach) (k : Int) : Mach :=
  m.setFld aREJ_MIRSTAT fREJ_MIRSTAT_ENTRIES ((m.fld aREJ_MIRSTAT fREJ_MIRSTAT_ENTRIES : Int) + k).toNat

/-- An observation without a match takes the lowest free entry, or the one with the oldest LAST (R320). -/
def Mach.mirNew (m : Mach) (o : MirObs) : Mach :=
  match (List.range 4096).find? (fun i => !m.mirValid i) with
  | some i => (((m.mirStore i o 1 o.amp).mirCount 1).satInc aREJ_MIRSTAT fREJ_MIRSTAT_NEW).mirNote i
  | none =>
    let i := (leastBy (fun i => m.mir i 2) (List.range 4096)).getD 0
    (((m.mirStore i o 1 o.amp).satInc aREJ_MIRSTAT fREJ_MIRSTAT_NEW).satInc aREJ_MIRCNT0 fREJ_MIRCNT0_EVICT).mirNote i

/-- MIRAGE_OBSERVATION: the oldest observation is processed (R320, R321). -/
def execMirageObservation (s : State) : Host.Outcome State Fault Refusal :=
  s.run wfMirageObservation (fun _ m =>
    match m.rej.obs with
    | [] => m
    | o :: t =>
      let m := { m with rej := { m.rej with obs := t } }
      match m.mirMatch o with
      | none => m.mirNew o
      | some i =>
        let was := (m.mir i 0).testBit 22
        let m := m.mirStore i o (satN 32 (m.mir i 1 + 1)) (max (m.mir i 3 % 2 ^ 16) o.amp)
        if !was && (m.mir i 0).testBit 22 then m.mirNote i else m)

/-- Entry `i` no longer in use. -/
def Mach.mirFree (m : Mach) (i : Nat) : Mach :=
  if m.mirValid i then (m.setMnat (mirAddr i) 4 (m.mir i 0 - 2 ^ 23)).mirCount (-1) else m

/-- MIRAGE_ENTRY_AGE: an entry whose age exceeds AGE seconds is freed; a negative age counts as 0 (R322). -/
def execMirageEntryAge (i : Nat) (s : State) : Host.Outcome State Fault Refusal :=
  s.run (wfMirageEntryAge i) (fun _ m =>
    let age := signed 32 (m.time.now.sec % 2 ^ 32 + 2 ^ 32 - m.mir i 2)
    if (max 1 (m.fld aREJ_MIRCFG fREJ_MIRCFG_AGE) : Int) < age then m.mirFree i else m)

/-- A write of REJ_MIRCTRL: CLR invalidates every entry (R324). -/
def Mach.mirClear (m : Mach) : Mach := (List.range 4096).foldl Mach.mirFree (m.done 0)

/-- MIRAGE_CLEAR. -/
def execMirageClear (src : Src) (s : State) : Host.Outcome State Fault Refusal :=
  s.run (wfMirageClear src) (fun _ m => m.asWriter src .rej 0 0x114 Mach.mirClear)

end Sys2Proof.Machine
end

