-- ==== Sys2Proof/Machine/Cells.lean ====
section
/-!
DEFINITION. Cells and banks (chapter 09): counting shots (R135, R136, R266), barchan windows (R138, R261), settling a shot into its
bank (R257 to R264, R267), the swap (R268), and the commands that assign, flush and write banks (R255, R265, R271, R274).
-/
namespace Sys2Proof.Machine

/-! ## Counting (R135, R136, R266) -/

/-- The page of a port. -/
def prtPage (p : Nat) : Nat := 0x2000000 + 0x1000 * p

/-- A port is armed for shot `id`: pending commits of groups 0 and 1 apply (R29, R224). -/
def Mach.portArmed (m : Mach) (p id : Nat) : Mach :=
  let fe := m.ready (prtPage p) 0
  let m := m.applyGroups .prt (prtPage p) [0, 1]
  m.when fe (fun m => m.modP p (fun x => { x with feAt := m.now, feShot := some id }))

/-- A cell as it opens at a shot on bank `b`: it copies its context (R256). -/
def Mach.newCell (m : Mach) (x : Shot) (b seq : Nat) : Cell :=
  let c := aERG_HCTX_CFG x.hctx
  let w (f : Fld) := m.fld c f
  { bank := b, seq := seq, hctx := x.hctx, n := x.n, coded := x.coded, code := if x.coded then x.code else 0
    k := min 4 (w fERG_HCTX_CFG_K), log2nb := min 14 (max 10 (w fERG_HCTX_CFG_LOG2NB))
    narrowExcl := w fERG_HCTX_CFG_NARROW_EXCL != 0, preEn := w fERG_HCTX_CFG_PRE_EN != 0
    w := [w fERG_HCTX_CFG_W0, w fERG_HCTX_CFG_W1, w fERG_HCTX_CFG_W2, w fERG_HCTX_CFG_W3]
    gate := max 1 (m.fld (aERG_HCTX_GATE x.hctx) fERG_HCTX_GATE_GATE)
    astart := m.fld (aERG_HCTX_ASPAN x.hctx) fERG_HCTX_ASPAN_ASTART
    alen := min 4096 (m.fld (aERG_HCTX_ASPAN x.hctx) fERG_HCTX_ASPAN_ALEN)
    counted := 0, done := 0, closed := false, acc := 0, wf := 0, subs := [], flags := 0, t0 := none, cnt := List.replicate 8 0
    peak := none, wins := [], last := 0 }

/-- The open cell of a port, or one opened at shot `x`; none when the port has no FREE bank: BANK_MISS (R135, R266). -/
def Mach.cellFor (m : Mach) (p : Nat) (x : Shot) : Option Cell × Mach :=
  match (m.p p).openCell with
  | some c => (some c, m)
  | none =>
    match m.freeBank p with
    | none => (none, m.satInc (aERG_PCNT p) fERG_PCNT_BANK_MISS)
    | some b =>
      let c := m.newCell x b (m.p p).cellSeq
      (some c, (m.setBankSt b 2).modP p (fun y =>
        { y with cells := y.cells ++ [c], lastBank := some b, cellSeq := (y.cellSeq + 1) % 2 ^ 32 }))

/-- The thresholds of a port as committed. -/
def Mach.thrs (m : Mach) (p : Nat) : List Nat :=
  [m.fld (aPRT_THR01 p) fPRT_THR01_THR0, m.fld (aPRT_THR01 p) fPRT_THR01_THR1,
   m.fld (aPRT_THR23 p) fPRT_THR23_THR2, m.fld (aPRT_THR23 p) fPRT_THR23_THR3]

/-- A decided shot counts on one port of its descriptor, granted or denied (R136). -/
def Mach.countOn (m : Mach) (x : Shot) (granted : Bool) (p : Nat) : Mach :=
  match m.cellFor p x with
  | (none, m) => m
  | (some c, m) =>
    let on := m.flag (aPRT_CTRL p) fPRT_CTRL_EN
    let m := m.when (!on) (fun m => m.satInc (aPRT_LOST3 p) fPRT_LOST3_OFF_SHOTS)
    let gain := m.fld (aPRT_FE p) fPRT_FE_GAIN
    let ((ofs, disk, at_), m) := m.rejDecide p gain
    let s : PShot := { id := x.id, bank := c.bank, status := if !granted then some 1 else if on then none else some 5
                       str := x.str, edge := x.edge, d := if x.coded then x.pos else 0, covloss := x.covloss, gain := gain, base := m.thrs p
                       ofs := ofs, disk := disk, mapAt := at_, settle := max m.now x.edge, iv := none }
    let n := c.counted + 1
    let c := { c with counted := n, closed := decide (c.n ≤ n), flags := c.flags ||| (if x.covloss then 2 else 0) }
    (m.modP p (fun y => { y.setLast c with shots := y.shots ++ [s] })).pstat p

/-- A decided shot counts on every port of its descriptor. -/
def Mach.countShot (m : Mach) (x : Shot) (granted : Bool) : Mach := x.ports.foldl (fun m p => m.countOn x granted p) m

/-! ## Barchan windows (R138, R261) -/

/-- A window that has not been placed. -/
def Window.none_ : Window :=
  { start := 0, fromId := 0, offId := none, restarts := 0, shots := 0, scnt := 0, smax := 0, smin := 0, trk := [] }

/-- Window `w` of the open cell of a port placed at START for shots from `nextId` on; a placed window restarts, its bins cleared. -/
def Mach.zoomAt (m : Mach) (p w start : Nat) : Mach :=
  match (m.p p).openCell with
  | none => m
  | some c =>
    let old := c.wins.find? (fun x => x.1 == w)
    let r := match old with | some (_, x) => satN 8 (x.restarts + 1) | none => 0
    let win := { Window.none_ with start := start, fromId := m.emt.nextId, restarts := r }
    let m := m.splice (bankBase c.bank + 0xB00 + 0x200 * w) 0x200 []
    m.modP p (fun y => y.setLast { c with wins := mapInsert (mapErase c.wins w) w win })

/-- Window `w` of the open cell of a port stops collecting and keeps its bins. -/
def Mach.zoomOffAt (m : Mach) (p w : Nat) : Mach :=
  match (m.p p).openCell with
  | none => m
  | some c =>
    m.modP p (fun y => y.setLast { c with wins := c.wins.map (fun (k, x) =>
      if k = w then (k, { x with offId := some (x.offId.getD m.emt.nextId) }) else (k, x)) })

/-! ## What a shot delivers (R234 to R238) -/

/-- An event (R237). -/
structure Ev where
  u   : Int
  c   : Nat
  t   : Int
  tot : Nat
  coin : Bool
  narrow : Bool
  openend : Bool
  recov : Bool
deriving DecidableEq, Repr

/-- A span in coarse periods from time zero: start and end. -/
abbrev CSpan := Int × Int

/-- The hull of spans (R244). -/
def hull : List CSpan → Option CSpan
  | [] => none
  | s :: t => match hull t with
    | none => some s
    | some h => some (min s.1 h.1, max s.2 h.2)

/-- An overload from `a` to `b` LSB, still running at the close when `b` is none, as a span with `rest` periods of recovery. -/
def spanOf (t0 : Int) (opened close : Nat) (rest : Int) (o : Nat × Option Nat) : CSpan :=
  let a : Int := (max o.1 opened : Nat)
  let b : Int := (min (o.2.getD close) close : Nat)
  ((a - t0) / 32, -(-(b - t0) / 32) + rest)

/-- Time zero of an interval in LSB. -/
def Interval.t0 (v : Interval) : Int := (v.start.getD 0 + 32) / 64

/-- OWN0, OWN1, TILE of an interval (R244). -/
def Interval.spans (v : Interval) : Option CSpan × Option CSpan × Option CSpan :=
  let close := v.closed.getD v.opened
  let own := v.own.map (spanOf v.t0 v.opened close 40)
  (own.head?, hull (own.drop 1), hull (v.tile.map (spanOf v.t0 v.opened close 10)))

/-- A leading edge as an event (R234, R235), `dt` LSB added to T by a timing perturbation (R504). -/
def Interval.event (v : Interval) (dt : Int) (sp : List CSpan) (e : Edge) : Ev :=
  let u0 := v.start.getD 0
  let t0 := (e.lead - u0 + 32) / 64
  let t := t0 + dt
  let coin := decide (-1 ≤ t) && decide (t ≤ 1)
  let (tot, nar, oe) : Nat × Bool × Bool := match e.trail with
    | none => (4095, false, true)
    | some f =>
      let d := (f - u0 + 32) / 64 - t0
      if 4095 < d then (4095, false, true) else if d < 41 then (0, true, false) else (d.toNat, false, false)
  let t' := if coin then 0 else t
  { u := e.lead, c := e.c, t := t', tot := tot, coin := coin, narrow := nar, openend := oe
    recov := sp.any (fun s => decide (32 * s.1 ≤ t') && decide (t' < 32 * s.2)) }

/-- Events in time order, comparators ascending at one instant. -/
def insertEv (e : Ev) : List Ev → List Ev
  | [] => [e]
  | x :: t => if e.u < x.u ∨ (e.u = x.u ∧ e.c < x.c) then e :: x :: t else x :: insertEv e t

/-- The events of a shot in time order with how many are too early and how many exceed 64 (R235, R236). -/
def Interval.events (v : Interval) (dt : Int) (sp : List CSpan) : List Ev × Nat × Nat :=
  let all := (v.edges.map (v.event dt sp)).foldl (fun l e => insertEv e l) []
  let ok := all.filter (fun e => decide (-2048 ≤ e.t))
  (ok.take 64, all.length - ok.length, ok.length - 64)

/-! ## Settling a shot (R257 to R264, R267) -/

/-- A saturating 16-bit increment in memory; true when it clips (R257). -/
def Mach.add16 (m : Mach) (a w : Nat) : Mach × Bool :=
  let v := m.mnat a 2 + w
  (m.setMnat a 2 (min 0xFFFF v), decide (0xFFFF < v))

/-- A counter of the cell header raised (R263). -/
def Cell.count (c : Cell) (i k : Nat) : Cell := { c with cnt := c.cnt.set i (satN 16 (c.cnt.getD i 0 + k)) }
/-- Flag bits of the cell header set when `b`. -/
def Cell.flag (c : Cell) (i : Nat) (b : Bool) : Cell := if b then { c with flags := c.flags ||| 2 ^ i } else c

/-- The sub-histogram of a gain: one already open, a new one, or none (R259). -/
def Cell.subFor (c : Cell) (gain : Nat) : Option Nat × Cell :=
  let room := min 4 (16384 / 2 ^ c.log2nb)
  match c.subs.findIdx? (fun s => s.1 == gain) with
  | some i => (some i, { c with subs := c.subs.set i (gain, (c.subs.getD i (0, 0)).2 + 1) })
  | none => if c.subs.length < room then (some c.subs.length, { c with subs := c.subs ++ [(gain, 1)] }) else (none, c)

/-- Window `w` collects from shot `id`. -/
def Window.takes (x : Window) (id : Nat) : Bool :=
  decide (x.fromId ≤ id) && (match x.offId with | some o => decide (id < o) | none => true)

/-- A width tracker takes an event (R262). -/
def Track.take (t : Track) (tot : Nat) : Track :=
  { count := satN 11 (t.count + 1), sum := satN 21 (t.sum + tot), max := Nat.max t.max tot
    min := if t.count = 0 then tot else Nat.min t.min tot }

/-- A window takes an event that leads inside it: its bin by the comparator's weight, its tracker whatever the weight (R261, R262). -/
def Mach.winEvent (m : Mach) (c : Cell) (id : Nat) (e : Ev) (binOk : Bool) (k : Nat) (x : Window) : Mach × Cell :=
  if !x.takes id || decide (e.t < x.start) || decide ((x.start : Int) + 256 ≤ e.t) || decide ((c.gate : Int) ≤ e.t) then (m, c)
  else
    let wt := c.w.getD e.c 0
    let (m, sat) := if binOk && wt != 0 then m.add16 (bankBase c.bank + 0xB00 + 0x200 * k + 2 * (e.t - x.start).toNat) wt else (m, false)
    let trk : Track := mapGet { count := 0, sum := 0, max := 0, min := 0 } x.trk e.c
    let x := { x with trk := mapInsert (mapErase x.trk e.c) e.c (trk.take e.tot) }
    (m, { c.flag 11 sat with wins := mapInsert (mapErase c.wins k) k x })

/-- The windows of a cell take an event. -/
def Mach.winsEvent (m : Mach) (c : Cell) (id : Nat) (e : Ev) (binOk : Bool) : Mach × Cell :=
  c.wins.foldl (fun (m, c) (k, _) => m.winEvent c id e binOk k (mapGet Window.none_ c.wins k)) (m, c)

/-- An event enters the cell (R257 to R259, R261 to R263). -/
def Mach.cellEvent (m : Mach) (c : Cell) (id : Nat) (sub : Option Nat) (e : Ev) : Mach × Cell :=
  let c := ((((c.count 0 1).count 2 (bit e.coin)).count 3 (bit e.narrow)).count 4 (bit e.openend)).count 5 (bit e.recov)
  let wt := c.w.getD e.c 0
  let binOk := !(e.narrow && c.narrowExcl)
  let base := bankBase c.bank
  let nb := 2 ^ c.log2nb
  let span : Int := (nb * 8 * 2 ^ c.k : Nat)
  let go := binOk && wt != 0
  let (m, c) : Mach × Cell :=
    if e.t < 0 then
      let c := c.count 6 1
      if go && c.preEn && sub.isSome then
        let (m, s) := m.add16 (base + 0x900 + 2 * ((e.t + 2048) / 8).toNat) wt
        (m, c.flag 2 s)
      else (m, c)
    else if e.t < span then
      match sub with
      | some i =>
        if go then
          let (m, s) := m.add16 (base + 0x8000 + 2 * nb * i + 2 * (e.t.toNat / (8 * 2 ^ c.k))) wt
          (m, c.flag 2 s)
        else (m, c)
      | none => (m, c)
    else (m, c.count 1 1)
  m.winsEvent c id e binOk

/-- A window's sample tracker takes a code at time `t` from time zero (R262). -/
def Window.sample (x : Window) (t : Int) (code : Nat) : Window :=
  if t < x.start ∨ (x.start : Int) + 256 ≤ t then x
  else { x with scnt := satN 16 (x.scnt + 1), smax := max x.smax code, smin := if x.scnt = 0 then code else min x.smin code }

/-- A sample enters the cell (R240, R260, R262); `added` when the shot's samples are added. -/
def Mach.cellSample (m : Mach) (c : Cell) (id : Nat) (added : Bool) (t0 : Int) (s : Sample) : Mach × Cell :=
  let j := ((s.t : Int) - t0) / 32
  if j < c.astart ∨ (c.astart + c.alen : Nat) ≤ j then (m, c)
  else
    let o := j.toNat - c.astart
    let a := bankBase c.bank + 0x4000 + 4 * o
    let w := m.mnat a 4
    if s.blank then (m.setMnat a 4 (w ||| 2 ^ 25), c)
    else
      let c := { c with wins := c.wins.map (fun (k, x) => (k, if x.takes id then x.sample ((s.t : Int) - t0) s.code else x)) }
      if !added then (m, c)
      else
        let sum := w % 2 ^ 24 + s.code
        let clip := s.code == 0 || s.code == 0x3FF
        let w' := (w / 2 ^ 25 * 2 ^ 25) ||| (w / 2 ^ 24 % 2 * 2 ^ 24) ||| (if clip then 2 ^ 24 else 0) ||| min 0xFFFFFF sum
        let c := (c.flag 3 (decide (0xFFFFFF < sum)))
        let c := match c.peak with
          | none => { c with peak := some (s.code, o) }
          | some (v, _) => if v < s.code then { c with peak := some (s.code, o) } else c
        (m.setMnat a 4 w', c)

/-- The word of an optional span; absent ones read start 0x7FFF, end 0x8000 (R264). -/
def spanWord : Option CSpan → Nat
  | none => 0x80007FFF
  | some (a, b) => 2 ^ 16 * toField 16 (clampInt (-32768) 32767 b) + toField 16 (clampInt (-32768) 32767 a)

/-- An entry of the shot table written (R264). -/
def Mach.shotEntry (m : Mach) (b i : Nat) (ws : List Nat) : Mach := m.setBytes (bankBase b + 0x100 + 32 * i) (ws.flatMap (leBytes 4))

/-- What the timing perturbation adds to the events of a port (R504). -/
def Mach.pertOfs (m : Mach) (p : Nat) : Int :=
  if m.pertActs && m.flag aTST_PERT0 fTST_PERT0_EN && m.fld aTST_PERT0 fTST_PERT0_PORT == p then signed 16 (m.fld aTST_PERT0 fTST_PERT0_OFS) else 0

/-- An accumulated shot enters its cell, with what REJ takes from it (R257 to R264, R299). -/
def Mach.accumulate (m : Mach) (p : Nat) (x : PShot) (v : Interval) (c : Cell) : Mach × Cell :=
  let (own0, own1, tile) := v.spans
  let (evs, pre, cap) := v.events (m.pertOfs p) ([own0, own1, tile].filterMap id)
  let m := (m.satAdd (aPRT_LOST0 p) fPRT_LOST0_PRE_LOST pre).satAdd (aPRT_LOST1 p) fPRT_LOST1_EVT_CAP cap
  let evs := if v.dllErr then [] else evs
  let m := m.modP p (fun y => { y with lastEvs := evs.length })
  let m := m.satAdd (aPRT_OVL p) fPRT_OVL_COINC (evs.filter (fun e => e.coin)).length
  let samples := if v.wfSkip then [] else v.samples
  let m := m.when (!evs.isEmpty || !samples.isEmpty) (fun m => m.wrapInc (aPRT_SHOTS p) fPRT_SHOTS_SHOTS)
  let c := if c.acc = 0 then { c with t0 := some v.stamp } else c
  let (sub, c) := c.subFor x.gain
  let i := c.done
  let c := ((({ c with acc := c.acc + 1 }.flag 5 v.uncal).flag 6 v.dllErr).flag 7 v.thrChg).flag 10 (v.chFail != 0)
  let (m, c) := if sub.isNone then (m.satInc (aERG_PCNT p) fERG_PCNT_GAINDROP, c.count 7 1) else (m, c)
  let c := { c with wins := c.wins.map (fun (k, w) => (k, if w.takes x.id then { w with shots := satN 8 (w.shots + 1) } else w)) }
  let (m, c) := evs.foldl (fun (m, c) e => m.cellEvent c x.id sub e) (m, c)
  let sub0 := (c.subs.headD (8, 0)).1 == x.gain
  let added := sub0 && !v.wfSkip && c.alen != 0
  let c := c.flag 9 (sub0 && v.wfSkip)
  let c := if added then { c with wf := c.wf + 1 } else c
  let (m, c) := samples.foldl (fun (m, c) s => m.cellSample c x.id added v.t0 s) (m, c)
  let w0 := 2 ^ 28 * bit v.wfSkip + 2 ^ 27 * bit v.dllErr + 2 ^ 26 * bit v.uncal + 2 ^ 25 * bit v.thrChg + 2 ^ 24 * bit sub.isNone
    + 2 ^ 20 * v.chFail + 2 ^ 16 * x.d + 2 ^ 13 * x.gain + 2 ^ 11 * sub.getD 0 + 2 ^ 10 * bit x.covloss + 2 ^ 5 * (v.t0 % 32).toNat
  let m := m.shotEntry c.bank i [w0, x.edge / 64 % 2 ^ 32, spanWord own0, spanWord own1, spanWord tile]
  let r := (evs.filter (fun e => e.c == 0 && m.inBgWindow e.t && !e.coin && !e.recov)).length
  let m := m.when (m.bgCovers ((v.closed.getD 0 : Int) - v.t0)) (fun m => m.background p x r)
  (m, c)

/-- A cell of a port replaced, by its bank. -/
def Port.setCell (x : Port) (c : Cell) : Port := { x with cells := x.cells.map (fun d => if d.bank = c.bank then c else d) }

/-- The STATUS a shot settles with, and its instant in LSB, once both are known (R264, R267). -/
def PShot.ready (x : PShot) : Option (Nat × Nat) :=
  match x.status, x.iv with
  | some 3, some v => v.closed.map (fun t => (3, t))
  | some st, _ => some (st, x.settle)
  | none, some v =>
    match v.closed with
    | some t => if v.start.isSome then some (if v.settled then 0 else 4, max t v.startAt) else none
    | none => none
  | none, none => none

/-- SHOT_SETTLE: the oldest shot of a port settles: everything it adds is written and CSHOTS counts it (R267). -/
def execShotSettle (p : Nat) (s : State) : Host.Outcome State Fault Refusal :=
  s.run (wfShotSettle p) (fun _ m =>
    match (m.p p).shots with
    | [] => m
    | x :: rest =>
      match x.ready, (m.p p).cells.find? (fun c => c.bank == x.bank) with
      | some (st, t), some c =>
        let m := m.advanceToFine t
        let m := m.modP p (fun y => { y with shots := rest, lastEvs := 0 })
        let (m, c) : Mach × Cell := match st, x.iv with
          | 0, some v => m.accumulate p x v c
          | _, _ => (m.shotEntry c.bank c.done
              [2 ^ 29 * st + 2 ^ 16 * x.d + 2 ^ 10 * bit x.covloss, x.edge / 64 % 2 ^ 32, 0, 0, 0], c)
        let m := m.when (st == 4) (fun m => m.satInc (aPRT_LOST2 p) fPRT_LOST2_SETTLE_LOST)
        let c := { c with done := c.done + 1, last := max c.last (divCeil t 64) }
        (m.modP p (fun y => y.setCell c)).pstat p
      | _, _ => m)

/-! ## The swap (R268) -/

/-- The bytes of the cell header (R263). -/
def Cell.header (c : Cell) (p : Nat) : List Byte :=
  let b1 (v : Nat) := leBytes 1 v
  let b4 (v : Nat) := leBytes 4 v
  let subB (f : Nat × Nat → Nat) (d : Nat) := (List.range 4).flatMap (fun i => b1 (match c.subs[i]? with | some s => f s | none => d))
  let short := bit (decide (c.done < c.n))
  let flags := c.flags ||| short ||| (if c.acc = 0 then 16 else 0)
  let win (w : Nat) : List Byte := match c.wins.find? (fun x => x.1 == w) with
    | none => b4 0 ++ b4 0 ++ b4 0
    | some (_, x) => b4 (2 ^ 31 + 2 ^ 30 * bit x.offId.isSome + x.start) ++ b4 (2 ^ 16 * x.scnt + 2 ^ 8 * x.restarts + x.shots)
        ++ b4 (2 ^ 16 * x.smax + x.smin)
  let trk (w k : Nat) : List Byte :=
    let t : Track := mapGet { count := 0, sum := 0, max := 0, min := 0 } (mapGet Window.none_ c.wins w).trk k
    b4 (2 ^ 21 * t.count + t.sum) ++ b4 (2 ^ 12 * t.max + t.min)
  b4 c.seq ++ b1 p ++ b1 c.hctx ++ b1 c.n ++ b1 c.done ++ b1 c.acc ++ b1 c.wf ++ b1 c.subs.length
    ++ b1 (if c.coded then 128 + (c.n - 1) else 0) ++ leBytes 2 c.code ++ leBytes 2 flags ++ (c.t0.getD Stamp.zero).bytes
    ++ b4 (c.k + 2 ^ 4 * c.log2nb + 2 ^ 8 * bit c.narrowExcl + 2 ^ 9 * bit c.preEn
        + ((List.range 4).map (fun i => 2 ^ (16 + 2 * i) * c.w.getD i 0)).sum)
    ++ b4 c.gate ++ b4 (c.astart + 2 ^ 16 * c.alen) ++ subB (fun s => s.1) 0xFF ++ subB (fun s => s.2) 0
    ++ c.cnt.flatMap (leBytes 2) ++ b4 (match c.peak with | some (v, o) => 2 ^ 31 + 2 ^ 16 * v + o | none => 0)
    ++ List.replicate 12 0 ++ (List.range 4).flatMap win ++ (List.range 4).flatMap (fun w => (List.range 4).flatMap (trk w))

/-- CELL_SWAP: the oldest cell of a port swaps, once closed and settled, 16 cycles after its last settle instant (R268, R270);
pending commits of the port's groups 2 and 3 apply (R29). -/
def execCellSwap (p : Nat) (s : State) : Host.Outcome State Fault Refusal :=
  s.run (wfCellSwap p) (fun _ m =>
    match (m.p p).cells with
    | [] => m
    | c :: rest =>
      if !c.closed || c.done != c.counted then m
      else
        let m := m.advanceTo (c.last + 16)
        let ecc := (m.byte (bankBase c.bank + 0xF)).getLsbD 0
        let c := c.flag 8 ecc
        let m := m.setBytes (bankBase c.bank) (c.header p)
        let m := m.when (decide (c.done < c.n)) (fun m => m.satInc (aERG_PCNT p) fERG_PCNT_SHORTCELLS)
        let gen := (m.bankGen c.bank + 1) % 256
        let m := (m.setFld (aERG_BANK c.bank) fERG_BANK_GEN gen).setBankSt c.bank 3
        let m := m.wrapInc aERG_CELLS fERG_CELLS_CELLS
        let dly := if m.pertActs && m.flag aTST_PERT2 fTST_PERT2_EN && m.fld aTST_PERT2 fTST_PERT2_POOL == m.portPool p then m.fld aTST_PERT2 fTST_PERT2_DLY else 0
        let m := m.modPool (m.portPool p) (fun x => { x with queue := x.queue ++ [{ bank := c.bank, gen := gen, red := 0, at_ := m.cyc + dly }] })
        let m := (m.modP p (fun y => { y with cells := rest })).pstat p
        m.applyGroups .prt (prtPage p) [2, 3])

/-! ## Banks by command (R255, R265, R271, R274) -/

/-- A write of ERG_BANK_b (R265): EN and PORT change only while the bank is UNASSIGNED or FREE. -/
def Mach.bankWrite (m : Mach) (b : Nat) (v : Word) : Mach :=
  let m := m.done 0
  let en := fERG_BANK_EN.get v
  let port := fERG_BANK_PORT.get v
  if en = m.fld (aERG_BANK b) fERG_BANK_EN ∧ port = m.bankPort b then m
  else if m.bankSt b = 5 then m
  else if 1 < m.bankSt b ∨ 95 < port then m.satInc aERG_STAT fERG_STAT_ALLOC_REF
  else
    let was := m.bankPort b
    let m := (m.setFld (aERG_BANK b) fERG_BANK_EN en).setFld (aERG_BANK b) fERG_BANK_PORT port
    ((m.setBankSt b en).pstat was).pstat port

/-- BANK_ASSIGN. -/
def execBankAssign (src : Src) (b : Nat) (v : Word) (s : State) : Host.Outcome State Fault Refusal :=
  s.run (wfBankAssign src b v) (fun _ m => m.asWriter src .erg 0 (0x400 + 4 * b) (fun m => m.bankWrite b v))

/-- A write of FLUSH (R271): in LINKED, LOADED and OASIS every DONE bank returns to FREE as by a release; its handle is gone. -/
def Mach.flush (m : Mach) : Mach :=
  let m := m.done 0
  if m.dev.st = .linked ∨ m.dev.st = .loaded ∨ m.dev.st = .oasis then
    let done := (List.range 192).filter (fun b => m.bankSt b == 3)
    let m := done.foldl (fun m b => (m.releaseBank b (m.bankGen b)).satInc aERG_WAITS fERG_WAITS_FLUSHED) m
    (List.range 8).foldl (fun m p => m.modPool p (fun x => { x with
      queue := x.queue.filter (fun h => !done.contains h.bank), lost := x.lost.filter (fun h => !done.contains h.bank) })) m
  else m

/-- FLUSH. -/
def execFlush (src : Src) (s : State) : Host.Outcome State Fault Refusal :=
  s.run (wfFlush src) (fun _ m => m.asWriter src .erg 0 0 Mach.flush)

/-- A word written to the erg data window over the link (R255): the Owner, into a bank that is UNASSIGNED or FREE; an engine into a
bank it holds (R273). -/
def Mach.ergWrite (m : Mach) (s : Src) (b off : Nat) (w : Word) : Mach :=
  match s with
  | .link c _ =>
    if !m.ctxOn c then m.done 7
    else if m.dev.st = .shutdown then m.done 1
    else if c ≠ m.owner then m.done 3
    else if 1 < m.bankSt b then m.done 2
    else if bankResv off then m.done 0
    else (m.done 0).setMword (bankBase b + off) w
  | .eng e =>
    if !(m.e e).held.any (fun h => h.bank == b) then m.done 3
    else if bankResv off then m.done 0
    else (m.done 0).setMword (bankBase b + off) w

/-- ERG_WINDOW_WRITE. -/
def execErgWindowWrite (src : Src) (b off : Nat) (w : Word) (s : State) : Host.Outcome State Fault Refusal :=
  s.run (wfErgWindowWrite src b off w) (fun _ m => m.ergWrite src b off w)

/-- ERG_ECC_ERROR: an uncorrectable error in bank b (R274): ECCERR in an ACTIVE, DONE or HELD bank, which fails at its release; a FREE
bank fails at once; one report for each bank. -/
def execErgEccError (b : Nat) (s : State) : Host.Outcome State Fault Refusal :=
  s.run (wfErgEccError b) (fun _ m =>
    let st := m.bankSt b
    let a := bankBase b + 0xF
    let bad := (m.byte a).getLsbD 0
    let src := srcId 0x0B b
    if st = 1 then (((m.clearBank b).setBankSt b 5).pstat (m.bankPort b)).report src src 0x22 0
    else if st = 2 ∨ st = 3 ∨ st = 4 then
      if bad then m else (m.setByte a (m.byte a ||| 1)).report src src 0x22 0
    else m)

end Sys2Proof.Machine
end

