-- ==== Sys2Proof/Machine/Crypto.lean ====
section
/-!
DEFINITION. SHA-256 and the verification of ECDSA P-256 signatures (R217, R423). The spec names both by name; their
constants are those of the published standards (PRESUMED, see the log).
-/
namespace Sys2Proof.Machine

/-! ## SHA-256 -/

/-- The 64 round constants. -/
def shaK : List Nat :=
  [0x428a2f98, 0x71374491, 0xb5c0fbcf, 0xe9b5dba5, 0x3956c25b, 0x59f111f1, 0x923f82a4, 0xab1c5ed5,
   0xd807aa98, 0x12835b01, 0x243185be, 0x550c7dc3, 0x72be5d74, 0x80deb1fe, 0x9bdc06a7, 0xc19bf174,
   0xe49b69c1, 0xefbe4786, 0x0fc19dc6, 0x240ca1cc, 0x2de92c6f, 0x4a7484aa, 0x5cb0a9dc, 0x76f988da] ++
  [0x983e5152, 0xa831c66d, 0xb00327c8, 0xbf597fc7, 0xc6e00bf3, 0xd5a79147, 0x06ca6351, 0x14292967,
   0x27b70a85, 0x2e1b2138, 0x4d2c6dfc, 0x53380d13, 0x650a7354, 0x766a0abb, 0x81c2c92e, 0x92722c85,
   0xa2bfe8a1, 0xa81a664b, 0xc24b8b70, 0xc76c51a3, 0xd192e819, 0xd6990624, 0xf40e3585, 0x106aa070] ++
  [0x19a4c116, 0x1e376c08, 0x2748774c, 0x34b0bcb5, 0x391c0cb3, 0x4ed8aa4a, 0x5b9cca4f, 0x682e6ff3,
   0x748f82ee, 0x78a5636f, 0x84c87814, 0x8cc70208, 0x90befffa, 0xa4506ceb, 0xbef9a3f7, 0xc67178f2]

/-- The initial hash value. -/
def shaInit : List Nat :=
  [0x6a09e667, 0xbb67ae85, 0x3c6ef372, 0xa54ff53a, 0x510e527f, 0x9b05688c, 0x1f83d9ab, 0x5be0cd19]

/-- A 32-bit word rotated right. -/
def rotr (x n : Nat) : Nat := (x / 2 ^ n) ||| (x * 2 ^ (32 - n) % 2 ^ 32)

/-- The next message-schedule word from the last 16, newest first. -/
def shaNext (w : List Nat) : Nat :=
  let g (i : Nat) := w.getD (i - 1) 0
  let s0 := rotr (g 15) 7 ^^^ rotr (g 15) 18 ^^^ (g 15 / 8)
  let s1 := rotr (g 2) 17 ^^^ rotr (g 2) 19 ^^^ (g 2 / 1024)
  (g 16 + s0 + g 7 + s1) % 2 ^ 32

/-- The message schedule, oldest first, from the last 16 words, newest first: `n` further words. -/
def shaSchedule : Nat → List Nat → List Nat
  | 0, _ => []
  | n + 1, w => let x := shaNext w; x :: shaSchedule n (x :: w.take 15)

/-- One round. -/
def shaRound (h : List Nat) (kw : Nat × Nat) : List Nat :=
  match h with
  | [a, b, c, d, e, f, g, hh] =>
    let s1 := rotr e 6 ^^^ rotr e 11 ^^^ rotr e 25
    let ch := (e &&& f) ^^^ ((0xFFFFFFFF ^^^ e) &&& g)
    let t1 := (hh + s1 + ch + kw.1 + kw.2) % 2 ^ 32
    let s0 := rotr a 2 ^^^ rotr a 13 ^^^ rotr a 22
    let mj := (a &&& b) ^^^ (a &&& c) ^^^ (b &&& c)
    [(t1 + s0 + mj) % 2 ^ 32, a, b, c, (d + t1) % 2 ^ 32, e, f, g]
  | _ => h

/-- The hash value after one block of 16 words. -/
def shaBlock (h block : List Nat) : List Nat :=
  let w := block ++ shaSchedule 48 block.reverse
  (h.zip ((shaK.zip w).foldl shaRound h)).map (fun (a, b) => (a + b) % 2 ^ 32)

/-- Bytes as big-endian words. -/
def beWords : List Byte → List Nat
  | a :: b :: c :: d :: t => (((a.toNat * 256 + b.toNat) * 256 + c.toNat) * 256 + d.toNat) :: beWords t
  | _ => []

/-- The hash value over `n` blocks of words. -/
def shaBlocks : Nat → List Nat → List Nat → List Nat
  | 0, h, _ => h
  | n + 1, h, w => shaBlocks n (shaBlock h (w.take 16)) (w.drop 16)

/-- The `n` low bytes of a number, most significant first. -/
def beBytes (n v : Nat) : List Byte := (leBytes n v).reverse

/-- SHA-256 of a list of bytes: 32 bytes in the digest's own order. -/
def sha256 (l : List Byte) : List Byte :=
  let n := l.length
  let zeros := (119 - n % 64) % 64
  let w := beWords (l ++ 0x80 :: List.replicate zeros 0 ++ beBytes 8 (8 * n))
  (shaBlocks (w.length / 16) shaInit w).flatMap (beBytes 4)

/-! ## ECDSA P-256 -/

def p256P : Nat := 0xffffffff00000001000000000000000000000000ffffffffffffffffffffffff
def p256N : Nat := 0xffffffff00000000ffffffffffffffffbce6faada7179e84f3b9cac2fc632551
def p256B : Nat := 0x5ac635d8aa3a93e7b3ebbd55769886bc651d06b0cc53b0f63bce3c3e27d2604b
/-- The base point. -/
def p256G : Nat × Nat :=
  (0x6b17d1f2e12c4247f8bce6e563a440f277037d812deb33a0f4a13945d898c296,
   0x4fe342e2fe1a7f9b8ee7eb4a7c0f9e162bce33576b315ececbb6406837bf51f5)

/-- `b ^ k mod q` over `n` bits of `k`. -/
def powMod (q b : Nat) : Nat → Nat → Nat
  | 0, _ => 1 % q
  | n + 1, k => let h := powMod q b n (k / 2); let s := h * h % q; if k % 2 = 1 then s * b % q else s

/-- The inverse modulo a prime. -/
def invMod (q a : Nat) : Nat := powMod q (a % q) 256 (q - 2)

/-- A difference modulo q. -/
def subMod (q a b : Nat) : Nat := (a + q - b % q) % q

/-- A point in Jacobian coordinates; Z = 0 is the point at infinity. -/
structure JPoint where
  x : Nat
  y : Nat
  z : Nat
deriving DecidableEq, Repr

/-- A point doubled. -/
def jDouble (p : JPoint) : JPoint :=
  let q := p256P
  if p.z = 0 ∨ p.y = 0 then { x := 1, y := 1, z := 0 }
  else
    let zz := p.z * p.z % q
    let mm := 3 * (subMod q p.x zz * ((p.x + zz) % q)) % q
    let yy := p.y * p.y % q
    let s := 4 * p.x * yy % q
    let x := subMod q (mm * mm) (2 * s)
    { x := x, y := subMod q (mm * subMod q s x) (8 * yy * yy), z := 2 * p.y * p.z % q }

/-- The sum of two points. -/
def jAdd (a b : JPoint) : JPoint :=
  let q := p256P
  if a.z = 0 then b
  else if b.z = 0 then a
  else
    let za := a.z * a.z % q
    let zb := b.z * b.z % q
    let u1 := a.x * zb % q
    let u2 := b.x * za % q
    let s1 := a.y * zb * b.z % q
    let s2 := b.y * za * a.z % q
    if u1 = u2 then (if s1 = s2 then jDouble a else { x := 1, y := 1, z := 0 })
    else
      let h := subMod q u2 u1
      let r := subMod q s2 s1
      let hh := h * h % q
      let hhh := h * hh % q
      let v := u1 * hh % q
      let x := subMod q (r * r) (hhh + 2 * v)
      { x := x, y := subMod q (r * subMod q v x) (s1 * hhh), z := h * a.z * b.z % q }

/-- `k` times a point, over `n` bits of `k`. -/
def jMul (p : JPoint) : Nat → Nat → JPoint
  | 0, _ => { x := 1, y := 1, z := 0 }
  | n + 1, k => let d := jDouble (jMul p n (k / 2)); if k % 2 = 1 then jAdd d p else d

/-- The affine x of a point, 0 at infinity. -/
def jX (p : JPoint) : Nat := let i := invMod p256P p.z; p.x * (i * i % p256P) % p256P

/-- `(r, s)` is a signature of the digest `e` under the public key `(x, y)`. -/
def ecdsaOk (x y e r s : Nat) : Bool :=
  let q := p256P
  let onCurve := decide (x < q) && decide (y < q) && y * y % q == (subMod q (x * x * x) (3 * x) + p256B) % q
  if !onCurve || r = 0 || s = 0 || decide (p256N ≤ r) || decide (p256N ≤ s) then false
  else
    let w := invMod p256N s
    let p := jAdd (jMul { x := p256G.1, y := p256G.2, z := 1 } 256 (e * w % p256N)) (jMul { x := x, y := y, z := 1 } 256 (r * w % p256N))
    p.z != 0 && jX p % p256N == r

end Sys2Proof.Machine
end

