-- ==== Sys2Proof/Machine/Signed.lean ====
section
/-!
DEFINITION. What the guard and the safety functions share: request records (R217, R423), the checks of a signed
configuration in their order, and writes that a pending commit refuses (R33).
-/
namespace Sys2Proof.Machine

/-! ## Commit registers of a page -/

/-- REFUSED and APPLIED of a page (BLOCK_CSTAT). -/
def aCSTAT (page : Nat) : Nat := page + 0x7FC
def fCSTAT_REFUSED : Fld := ⟨31, 16⟩
def fCSTAT_APPLIED : Fld := ⟨15, 0⟩

/-- A write refused while its group is pending: the access ends REFUSED and REFUSED counts it (R33). -/
def Mach.refusePending (m : Mach) (page : Nat) : Mach := (m.satInc (aCSTAT page) fCSTAT_REFUSED).refuse

/-- A pending commit of a group ends without applying (R34, R217). -/
def Mach.dropCommit (m : Mach) (page grp : Nat) : Mach :=
  { m with commits := m.commits.filter (fun c => !(c.page == page && c.grp == grp)) }

/-! ## Request records -/

/-- A word of a request record stored, and the words written since the record last cleared. -/
def recordMask (mask off : Nat) : Nat := mask ||| 2 ^ (off / 4 % 32)

/-- Every word of the record has been written. -/
def recordFull (mask : Nat) : Bool := mask == 2 ^ 32 - 1

/-- A key slot's public key: programmed and not revoked (R507). -/
def Otp.key (o : Otp) (k : Nat) : Option (List Byte) := if o.revoked.testBit k then none else (o.slots.find? (fun s => s.1 == k)).map (fun s => s.2)

/-- A field of a record: `n` bytes from offset `o`. -/
def recPart (r : List Byte) (o n : Nat) : List Byte := (r.drop o).take n

/-- The signature of a record verifies under the key of its slot (R217, R507). -/
def Otp.signedBy (o : Otp) (r : List Byte) : Bool :=
  match o.key (leNat (recPart r 0xC 4) % 4) with
  | none => false
  | some k => ecdsaOk (beNat (k.take 32)) (beNat (k.drop 32)) (beNat (sha256 (r.take 0x30))) (beNat (recPart r 0x30 32)) (beNat (recPart r 0x50 32))

/-- VERR of a configuration: the first failed check, 0 when all pass (R217, R423). `header` is the block's own header check of
the image; LENGTH, CFGVER, KEYSLOT and the reserved bytes of the record belong to check 2. -/
def verifyErr (o : Otp) (full : Bool) (ra rb img : List Byte) (header : Bool) (seqMax : Option Nat) (minver : Nat) : Nat :=
  let w (off : Nat) := leNat (recPart ra off 4)
  let iw (off : Nat) := leNat (recPart img off 4)
  if !full || ra != rb then 1
  else if !header || w 8 != iw 8 || w 4 != iw 12 || decide (4 ≤ w 12) || (ra.drop 0x70).any (fun b => b != 0) then 2
  else if sha256 img != recPart ra 0x10 32 then 3
  else if !o.signedBy ra then 4
  else if !(match seqMax with | none => true | some q => decide (q < w 0)) then 5
  else if w 4 < minver then 6 else 0

end Sys2Proof.Machine
end

