-- ==== Sys2Proof/Machine/Guard.lean ====
section
/-!
DEFINITION. The emission guard (chapter 07): the active image, motion sensing (R210 to R214), temperatures and the gate (R215,
R216), the decision (R200 to R209), and the signed configuration (R217, R218). Its encoder pins are also those of the
scanner axes (R195).
-/
namespace Sys2Proof.Machine

/-! ## The image -/

def grdPage : Nat := 0x1200000
/-- The staging image, the active image, the deny map, the levels. -/
def grdStage : Nat := 0x1240000
def grdImg : Nat := 0x1280000
def grdDeny : Nat := 0x12C0000
def grdLevels : Nat := 0x12D0000
/-- LENGTH of the image. -/
def grdLen : Nat := 0x31200

/-- Word at an offset of the active image. -/
def Mach.gw (m : Mach) (o : Nat) : Nat := m.mnat (grdImg + o) 4
/-- Word `k` of head record `h`. -/
def Mach.hw (m : Mach) (h k : Nat) : Nat := m.gw (0x40 + 32 * h + 4 * k)
/-- Guard cycles since the device left RESET, at the nominal rate (R46). -/
def Mach.gcyc (m : Mach) : Nat := m.cyc / 16

def Mach.azSrc (m : Mach) (h : Nat) : Nat := m.hw h 0 / 2 ^ 30
def Mach.azAxis (m : Mach) (h : Nat) : Nat := m.hw h 0 / 2 ^ 28 % 4
def Mach.elSrc (m : Mach) (h : Nat) : Nat := m.hw h 0 / 2 ^ 26 % 4
def Mach.elAxis (m : Mach) (h : Nat) : Nat := m.hw h 0 / 2 ^ 24 % 4
def Mach.resumeN (m : Mach) (h : Nat) : Nat := m.hw h 0 / 2 ^ 8 % 256
def Mach.ztol (m : Mach) (h : Nat) : Nat := m.hw h 0 % 256
def Mach.cpr (m : Mach) (h : Nat) : Nat := m.hw h 1
def Mach.stallGap (m : Mach) (h : Nat) : Nat := m.hw h 3 / 2 ^ 16
def Mach.stallWin (m : Mach) (h : Nat) : Nat := m.hw h 3 / 2 ^ 8 % 256

/-- The guard has an active configuration. -/
def Mach.grdOn (m : Mach) : Bool := m.flag aGRD_STAT fGRD_STAT_ACTIVE

/-! ## Sensing (R210 to R214) -/

/-- What the guard senses of head `h`. -/
def Mach.head (m : Mach) (h : Nat) : HeadSense := mapGet HeadSense.reset m.grd.heads h
/-- What the guard senses of head `h`, changed. -/
def Mach.modHead (m : Mach) (h : Nat) (f : HeadSense → HeadSense) : Mach :=
  { m with grd := { m.grd with heads := mapPut HeadSense.reset m.grd.heads h (f (m.head h)) } }

/-- The last position sample of an axis. -/
def Mach.gpos (m : Mach) (a : Nat) : Int := (mapGet [] m.grd.pos a).headD 0

/-- The position-sourced axes of head `h`. -/
def Mach.posAxes (m : Mach) (h : Nat) : List Nat :=
  (if m.azSrc h = 2 then [m.azAxis h] else []) ++ (if m.elSrc h = 2 then [m.elAxis h] else [])

/-- AZ(h) (R211). -/
def Mach.gAz (m : Mach) (h : Nat) : Nat :=
  match m.azSrc h with
  | 1 =>
    let c : Int := m.cpr h
    if c = 0 then 0 else ((((m.head h).count + m.hw h 2) % c) * 256 / c).toNat
  | 2 => (((m.gpos (m.azAxis h) - signed 16 (m.hw h 6 / 2 ^ 16)) * (m.hw h 6 % 2 ^ 16 : Nat) / 65536) % 256).toNat
  | _ => m.hw h 2 % 256

/-- EL(h) (R211). -/
def Mach.gEl (m : Mach) (h : Nat) : Int :=
  let base : Int := (m.hw h 3 % 64 : Nat)
  if m.elSrc h = 2 then base + (m.gpos (m.elAxis h) - signed 16 (m.hw h 4 / 2 ^ 16)) * (m.hw h 4 % 2 ^ 16 : Nat) / 65536 else base

/-- A position of head `h` lies outside POS_LO to POS_HI (R211). -/
def Mach.posOut (m : Mach) (h : Nat) : Bool :=
  (m.posAxes h).any (fun a => decide (m.gpos a < signed 16 (m.hw h 5 / 2 ^ 16)) || decide (signed 16 (m.hw h 5) < m.gpos a))

/-- Motion is valid on head `h` (R213). -/
def Mach.motionOk (m : Mach) (h : Nat) : Bool :=
  let x := m.head h
  (m.azSrc h != 1 || (x.known && decide (m.resumeN h ≤ x.resume))) && ((m.posAxes h).isEmpty || x.moving)

/-- Module `k` is hot or stale (R215). -/
def Mach.modBad (m : Mach) (k : Nat) : Bool :=
  match m.grd.temp.find? (fun t => t.1 == k) with
  | none => true
  | some (_, t, c) => decide (80000000 < m.cyc - c) || decide (signed 16 (m.gw (0x84 + 8 * k)) < t)

/-- GRD_STAT and GRD_SENSE follow what is sensed; a stall ends when motion on every head of the image is valid; the gate is open
with an active configuration and without fault, stall or cold hold (R214, R216). -/
def Mach.grdShow (m : Mach) : Mach :=
  let ok (h : Nat) : Bool := m.grdOn && m.motionOk h
  let m := m.when (ok 0 && ok 1) (fun m => (m.modHead 0 (fun x => { x with stalled := false })).modHead 1 (fun x => { x with stalled := false }))
  let m := m.setFld aGRD_STAT fGRD_STAT_MOTION (bit (ok 0) + 2 * bit (ok 1))
  let m := m.setFld aGRD_STAT fGRD_STAT_MODHOT (if m.grdOn then ofBits ((List.range 4).filter m.modBad) else 0)
  let m := (List.range 2).foldl (fun m h =>
    let a := aGRD_SENSE h
    let m := m.setFld a fGRD_SENSE_VALID (bit (ok h))
    (m.setFld a fGRD_SENSE_AZ (if m.grdOn then m.gAz h else 0)).setFld a fGRD_SENSE_EL (if m.grdOn then toField 6 (m.gEl h) else 0)) m
  let open_ := m.grdOn && !m.flag aGRD_STAT fGRD_STAT_FAULT && !m.flag aGRD_STAT fGRD_STAT_COLD
    && !(m.head 0).stalled && !(m.head 1).stalled
  m.setFld aGRD_STAT fGRD_STAT_GATE (bit open_)

/-- A stall is declared on head `h` (R214). -/
def Mach.stallNow (m : Mach) (h : Nat) : Mach :=
  let m := m.modHead h (fun x => { x with stalled := true, resume := 0, got := 0, moving := false })
  let m := m.setFld aGRD_STAT fGRD_STAT_STALL (m.fld aGRD_STAT fGRD_STAT_STALL ||| 2 ^ h)
  (m.grdShow).report (srcId 0x06 0) (srcId 0x06 0) 0x25 0

/-- The encoder azimuth of head `h` becomes unknown, and IDXERR sets (R212). -/
def Mach.azLost (m : Mach) (h : Nat) : Mach :=
  (m.modHead h (fun x => { x with known := false })).setFld aGRD_STAT fGRD_STAT_IDXERR (m.fld aGRD_STAT fGRD_STAT_IDXERR ||| 2 ^ h)

/-- The heads whose azimuth comes from the encoder of axis `a`. -/
def Mach.encHeads (m : Mach) (a : Nat) : List Nat :=
  if m.grdOn then (List.range 2).filter (fun h => m.azSrc h == 1 && m.azAxis h == a) else []

/-- The count's step for a change of levels A + 2 B from `o` to `n`: 0 none or illegal. A leads B upwards or downwards as the
encoder of the axis counts, which the spec leaves open. -/
def quadStep (a o n : Nat) : Int :=
  let pos (v : Nat) := [0, 1, 3, 2].findIdx (fun x => x == v)
  let d := (pos n + 4 - pos o) % 4
  let s : Int := if d = 1 then 1 else if d = 3 then -1 else 0
  if Config.encoderUp a then s else -s

/-- An edge on the encoder of head `h` (R212, R213). -/
def Mach.headEdge (m : Mach) (h : Nat) (step : Int) : Mach :=
  let now := m.gcyc
  let m := m.modHead h (fun x => { x with
    count := x.count + step, lastEdge := some now
    resume := match x.lastEdge with
      | none => x.resume
      | some l => if now - l ≤ m.stallGap h then x.resume + 1 else 0 })
  m.when ((m.head h).known && decide (m.cpr h + m.ztol h < (m.head h).count.natAbs)) (fun m => m.azLost h)

/-- ENCODER_EDGE: new levels of ENC_A and ENC_B. One change moves the axis count and the guard's; a change of both counts in QERR
and makes the guard's azimuth unknown (R195, R212). -/
def execEncoderEdge (axis : Nat) (a b : Bool) (s : State) : Host.Outcome State Fault Refusal :=
  s.run (wfEncoderEdge axis a b) (fun _ m =>
    let n := bit a + 2 * bit b
    let o := (m.ax axis).encAb
    if n = o then m
    else
      let double := n ^^^ o == 3
      let on := m.flag (aAXS_CFG axis) fAXS_CFG_ENC_EN
      let m := m.modAx axis (fun x => { x with
        encAb := n, count := if on then x.count + quadStep axis o n else x.count, illegal := x.illegal || (on && double) })
      let m := m.when (on && double) (fun m => m.satInc (aAXS_CNT axis) fAXS_CNT_QERR)
      ((m.encHeads axis).foldl (fun m h => if double then m.azLost h else m.headEdge h (quadStep axis o n)) m).grdShow)

/-- An index on head `h` (R212). -/
def Mach.headIndex (m : Mach) (h : Nat) : Mach :=
  let x := m.head h
  let c : Int := max 1 (m.cpr h)
  let r := x.count % c
  let far := decide ((m.ztol h : Int) < min r (c - r))
  let m := if x.known then m.when far (fun m => m.azLost h) else m.modHead h (fun x => { x with known := true })
  m.modHead h (fun x => { x with count := 0 })

/-- ENCODER_INDEX: a rising edge of ENC_Z captures the axis count, which ZRST also sets to 0; the guard resets its count (R195, R212). -/
def execEncoderIndex (axis : Nat) (s : State) : Host.Outcome State Fault Refusal :=
  s.run (wfEncoderIndex axis) (fun _ m =>
    let z := m.flag (aAXS_CFG axis) fAXS_CFG_ZRST
    let m := m.modAx axis (fun x => { x with index := x.count, newIndex := 3, count := if z then 0 else x.count })
    ((m.encHeads axis).foldl Mach.headIndex m).grdShow)

/-- The last span of every position axis of head `h` kept MOVE_MIN (R213). -/
def Mach.spansOk (m : Mach) (h : Nat) : Bool :=
  (m.posAxes h).all (fun a =>
    let l := mapGet [] m.grd.pos a
    decide (m.hw h 7 % 2 ^ 16 ≤ (l.headD 0 - l.getD (m.stallWin h) 0).natAbs))

/-- GUARD_POSITION_SAMPLE: the guard's converter samples an axis; a span below MOVE_MIN on a valid head is a stall (R210, R213, R214). -/
def execGuardPositionSample (axis adc : Nat) (s : State) : Host.Outcome State Fault Refusal :=
  s.run (wfGuardPositionSample axis adc) (fun _ m =>
    let m := { m with grd := { m.grd with pos := mapPut [] m.grd.pos axis ((signed 12 adc :: mapGet [] m.grd.pos axis).take 5) } }
    if !m.grdOn then m
    else
      let m := ((List.range 2).filter (fun h => (m.posAxes h).contains axis)).foldl (fun m h =>
        let was := m.motionOk h
        let m := m.modHead h (fun x => { x with got := x.got + 1 })
        let full := decide (m.stallWin h * (m.posAxes h).length < (m.head h).got)
        let ok := m.spansOk h
        let m := m.modHead h (fun x => { x with moving := full && ok })
        m.when (was && full && !ok) (fun m => m.stallNow h)) m
      m.grdShow)

/-- STALL: STALL_GAP guard cycles have passed without an edge on a head that was valid, or its position no longer moves (R214). -/
def execStall (h : Nat) (s : State) : Host.Outcome State Fault Refusal :=
  s.run (wfStall h) (fun _ m =>
    if !m.grdOn || !m.motionOk h then m
    else if m.azSrc h = 1 then
      match (m.head h).lastEdge with
      | none => m
      | some l => (m.advanceTo (16 * (l + m.stallGap h))).stallNow h
    else if (m.posAxes h).isEmpty || m.spansOk h then m else m.stallNow h)

/-- MODULE_STALE: 100 ms have passed since the last reading of module k's temperature (R215). -/
def execModuleStale (k : Nat) (s : State) : Host.Outcome State Fault Refusal :=
  s.run (wfModuleStale k) (fun _ m =>
    match m.grd.temp.find? (fun t => t.1 == k) with
    | none => m
    | some (_, _, c) => (m.advanceTo (c + 80000001)).grdShow)

/-- GUARD_FAULT: an uncorrectable error, a disagreement of the decision paths, or a wrong gate readback (R218). -/
def execGuardFault (s : State) : Host.Outcome State Fault Refusal :=
  s.run wfGuardFault (fun _ m =>
    if m.dev.st = .off ∨ m.dev.st = .reset ∨ m.dev.st = .shutdown then m
    else (m.guardFails (.fault .guard) (srcId 0x06 0)).grdShow)

/-! ## Levels (R205, R208) -/

/-- T_w in guard cycles (R205). -/
def guardT (w : Nat) : Nat := [5400, 5400000, 540000000].getD w 1
/-- LIM_w(s). -/
def Mach.lim (m : Mach) (s w : Nat) : Nat := m.gw (0x1200 + 12 * s + 4 * w)
/-- A_w(s) at its last update. -/
def Mach.level (m : Mach) (s w : Nat) : Nat := m.mnat (grdLevels + 12 * s + 4 * w) 4
/-- A_w(s) replaced. -/
def Mach.setLevel (m : Mach) (s w v : Nat) : Mach := m.setMnat (grdLevels + 12 * s + 4 * w) 4 v

/-- The three levels of a sector decay to now. -/
def Mach.decay (m : Mach) (s : Nat) : Mach :=
  let d := m.gcyc - mapGet m.grd.base m.grd.updated s
  let m := (List.range 3).foldl (fun m w => m.setLevel s w (m.level s w - m.lim s w * d / (2 * guardT w))) m
  { m with grd := { m.grd with updated := mapPut m.grd.base m.grd.updated s m.gcyc } }

/-- The levels as a first activation finds them: 0, or half the limit with START_FULL (R208). -/
def Mach.startLevels (m : Mach) : Mach :=
  let full := (m.gw 0x10).testBit 1
  let words := if full then (m.image (grdImg + 0x1200) 0x30000) else []
  let rec halve : Nat → List Byte → List Host.Cell
    | a, b0 :: b1 :: b2 :: b3 :: t =>
      let bs := leBytes 4 (leNat [b0, b1, b2, b3] / 2)
      ((List.range 4).zip bs).filterMap (fun (i, b) => if b = 0 then none else some (a + i, b)) ++ halve (a + 4) t
    | _, _ => []
  let m := m.splice grdLevels 0x30000 (halve grdLevels words)
  { m with grd := { m.grd with base := m.gcyc, updated := [], firstAct := false } }

/-! ## The decision (R200 to R209) -/

/-- The device fires as a matrix (R154). -/
def Mach.matrix (m : Mach) : Bool := m.flag aEMT_MODE fEMT_MODE_MATRIX

/-- The entries of a shot in the emitter map (R203). -/
def Mach.entries (m : Mach) (x : Shot) : List Nat :=
  if m.matrix then (bitsOf 32 x.emit).map (fun c => 32 * x.index + c) else (bitsOf 16 x.emit).map (fun e => 16 * x.index + e)

/-- An entry's head. -/
def Mach.entryHead (m : Mach) (i : Nat) : Nat := m.gw (0x100 + 4 * i) / 2 ^ 31
/-- An entry's row (R203). -/
def Mach.entryEl (m : Mach) (i : Nat) : Int := m.gEl (m.entryHead i) + signed 7 (m.gw (0x100 + 4 * i) / 2 ^ 16)
/-- An entry's azimuth (R203). -/
def Mach.entryAz (m : Mach) (i : Nat) : Nat :=
  (((m.gAz (m.entryHead i) : Int) + signed 8 (m.gw (0x100 + 4 * i) / 2 ^ 23)) % 256).toNat
/-- The energy of an entry in a shot (R204). -/
def Mach.entryE (m : Mach) (x : Shot) (i : Nat) : Nat :=
  let ch := if x.proof then m.fld aEMT_PROOF fEMT_PROOF_PROOF_CHG else x.charge
  ch * x.width * (m.gw (0x100 + 4 * i) % 2 ^ 16) / 65536

/-- The shot's energy in each sector it touches, ascending (R204). -/
def Mach.shotEnergy (m : Mach) (x : Shot) : List (Nat × Option Nat) :=
  (m.entries x).foldl (fun l i =>
    let s := 256 * (m.entryEl i).toNat + m.entryAz i
    mapPut none l s (some ((mapGet none l s).getD 0 + m.entryE x i))) []

/-- The first sector of a list with a property. -/
def failing (l : List (Nat × Option Nat)) (t : Nat → Nat → Bool) : Option Nat :=
  (l.find? (fun p => t p.1 (p.2.getD 0))).map (fun p => p.1)

/-- The verdict on a shot: reason (0 granted) and first failing sector; levels of touched sectors have decayed (R202, R205, R209). -/
def Mach.guardJudge (m : Mach) (x : Shot) : (Nat × Nat) × Mach :=
  let es := m.entries x
  if m.flag aGRD_STAT fGRD_STAT_FAULT then ((2, 0), m)
  else if !m.hot || !m.grdOn || (m.gw 0x10).testBit 0 != m.matrix then ((1, 0), m)
  else if m.flag aGRD_STAT fGRD_STAT_COLD then ((3, 0), m)
  else if (m.head 0).stalled || (m.head 1).stalled || es.any (fun i => !m.motionOk (m.entryHead i)) then ((4, 0), m)
  else if es.any (fun i => decide (m.entryEl i < 0) || decide (63 < m.entryEl i) || m.posOut (m.entryHead i)) then ((5, 0), m)
  else
    let l := m.shotEnergy x
    let m := l.foldl (fun m p => m.decay p.1) m
    if (List.range 4).any (fun k => (m.gw (0x80 + 8 * k)).testBit x.str && m.modBad k) then ((6, 0), m)
    else
      match failing l (fun s e => decide (m.gw (0x1100 + 4 * (s / 256)) < e)) with
      | some s => ((7, s), m)
      | none =>
        let ovl (w : Nat) := failing l (fun s e => decide (m.lim s w / 2 < m.level s w + e))
        match ovl 0, ovl 1, ovl 2 with
        | some s, _, _ => ((8, s), m)
        | none, some s, _ => ((9, s), m)
        | none, none, some s => ((10, s), m)
        | none, none, none => ((0, 0), m)

/-- A denial is counted and remembered (R209). -/
def Mach.guardDeny (m : Mach) (x : Shot) (reason sector : Nat) : Mach :=
  let m := m.satInc (aGRD_DENY (reason - 1)) fGRD_DENY_COUNT
  let a := aGRD_LASTDENY
  let m := ((m.setFld a fGRD_LASTDENY_REASON reason).setFld a fGRD_LASTDENY_SQ x.sq).setFld a fGRD_LASTDENY_INDEX x.index
  let m := m.setFld a fGRD_LASTDENY_SECTOR sector
  let b := (m.byte (grdDeny + sector)).toNat
  m.setByte (grdDeny + sector) (BitVec.ofNat 8 (min 255 (b + 1)))

/-- The guard decides a request (R200, R201): the reason of its denial, 0 when it is granted. -/
def Mach.guardDecide (m : Mach) (x : Shot) (late : Bool) : Nat × Mach :=
  let ((r, s), m) := if late && !m.flag aGRD_STAT fGRD_STAT_FAULT then ((11, 0), m) else m.guardJudge x
  if r = 0 then
    (0, (m.shotEnergy x).foldl (fun m p => (List.range 3).foldl (fun m w => m.setLevel p.1 w (m.level p.1 w + p.2.getD 0)) m) m)
  else (r, m.guardDeny x r s)

/-! ## The signed configuration (R217) -/

/-- The header check of an image, but for what the record must repeat (R217). -/
def grdHeaderOk (img : List Byte) : Bool :=
  let w (o : Nat) := leNat (recPart img o 4)
  let head (h : Nat) : Bool :=
    let f (k : Nat) := w (0x40 + 32 * h + 4 * k)
    let az := f 0 / 2 ^ 30
    let el := f 0 / 2 ^ 26 % 4
    az != 3 && (el == 0 || el == 2) && f 0 / 2 ^ 16 % 256 == 0 && f 3 / 64 % 4 == 0 && f 7 / 2 ^ 16 == 0
      && (az != 1 || (decide (256 ≤ f 1) && decide (f 1 ≤ 2 ^ 24)))
      && (!(az == 2 || el == 2) || (decide (1 ≤ f 3 / 2 ^ 8 % 256) && decide (f 3 / 2 ^ 8 % 256 ≤ 4)))
  w 0 == 0x47524443 && w 4 == 1 && w 8 == grdLen && decide (w 0x10 < 4) && (recPart img 0x14 44).all (fun b => b == 0)
    && head 0 && head 1 && (List.range 4).all (fun k => decide (w (0x80 + 8 * k) < 2 ^ 16) && decide (w (0x84 + 8 * k) < 2 ^ 16))

/-- Both records clear, keeping their contents (R217). -/
def Mach.grdRecordsClear (m : Mach) : Mach :=
  let m := { m with grd := { m.grd with wrA := 0, wrB := 0 } }
  (m.setFld aGRD_VSTAT fGRD_VSTAT_REQ_A 0).setFld aGRD_VSTAT fGRD_VSTAT_REQ_B 0

/-- Verification of a commit that is not held starts (R37, R217). -/
def Mach.grdVerify (m : Mach) : Mach :=
  { m with grd := { m.grd with verifyDue := some (m.cyc + 4000000) } }.setFld aGRD_VSTAT fGRD_VSTAT_BUSY 1

/-- A pending commit of the configuration is cancelled (R217). -/
def Mach.grdCancel (m : Mach) : Mach :=
  { m with grd := { m.grd with verifyDue := none } }.grdRecordsClear.setFld aGRD_VSTAT fGRD_VSTAT_BUSY 0

/-- The staged image becomes the active one (R208, R217, R534). -/
def Mach.grdActivate (m : Mach) (seqno : Nat) : Mach :=
  let old (h : Nat) := m.image (grdImg + 0x40 + 32 * h) 32
  let fresh (h : Nat) : Bool := m.grd.firstAct || old h != m.image (grdStage + 0x40 + 32 * h) 32
  let f0 := fresh 0
  let f1 := fresh 1
  let m := m.copyRange grdStage grdImg grdLen
  let m := m.when f0 (fun m => m.modHead 0 (fun _ => HeadSense.reset))
  let m := m.when f1 (fun m => m.modHead 1 (fun _ => HeadSense.reset))
  let m := m.when m.grd.firstAct Mach.startLevels
  let m := { m with grd := { m.grd with seqMax := some seqno } }
  let m := (m.setFld aGRD_SEQNO fGRD_SEQNO_SEQNO seqno).setFld aGRD_CFGID fGRD_CFGID_CFGVER (m.gw 12)
  (m.setFld aGRD_STAT fGRD_STAT_ACTIVE 1).grdShow

/-- GUARD_VERIFY_DONE: the image becomes active, or VERR records the first failed check (R217). -/
def execGuardVerifyDone (s : State) : Host.Outcome State Fault Refusal :=
  s.run wfGuardVerifyDone (fun otp m =>
    match m.grd.verifyDue with
    | none => m
    | some _ =>
      let ra := m.bytes (grdPage + 0x100) 128
      let rb := m.bytes (grdPage + 0x180) 128
      let img := m.image grdStage grdLen
      let e := verifyErr otp (recordFull m.grd.wrA && recordFull m.grd.wrB) ra rb img (grdHeaderOk img) m.grd.seqMax otp.gminver
      let m := ({ m with grd := { m.grd with verifyDue := none } }.setFld aGRD_VSTAT fGRD_VSTAT_BUSY 0).setFld aGRD_VSTAT fGRD_VSTAT_VERR e
      let m := m.grdRecordsClear.dropCommit grdPage 0
      if e = 0 then (m.grdActivate (leNat (recPart ra 0 4))).applied grdPage else m)

/-- A word written to the staging image: refused while the commit is pending (R217). -/
def Mach.grdStageWrite (m : Mach) (off : Nat) (w : Word) : Mach :=
  if m.isPending grdPage 0 then m.refusePending grdPage else (m.done 0).setMword (grdStage + off) w

/-- GUARD_STAGING_WRITE. -/
def execGuardStagingWrite (src : Src) (off : Nat) (w : Word) (s : State) : Host.Outcome State Fault Refusal :=
  s.run (wfGuardStagingWrite src off w) (fun _ m => m.asWriter src .grd 0 (0x40000 + off) (fun m => m.grdStageWrite off w))

/-- A word of request record `r` (0 A, 1 B) written by context `c` over group `g`: the Safety context alone, each record over its
own group, and not while the commit is pending (R217). -/
def Mach.grdRecordWrite (m : Mach) (c g r off : Nat) (w : Word) : Mach :=
  if !m.ctxOn c then m.done 7
  else if m.dev.st = .shutdown then m.done 1
  else if c ≠ m.safetyCtx ∨ g ≠ r then m.done 3
  else if m.isPending grdPage 0 then m.refusePending grdPage
  else
    let m := (m.done 0).setMword (grdPage + 0x100 + 0x80 * r + off) w
    if r = 0 then
      let m := { m with grd := { m.grd with wrA := recordMask m.grd.wrA off } }
      m.setFld aGRD_VSTAT fGRD_VSTAT_REQ_A (bit (recordFull m.grd.wrA))
    else
      let m := { m with grd := { m.grd with wrB := recordMask m.grd.wrB off } }
      m.setFld aGRD_VSTAT fGRD_VSTAT_REQ_B (bit (recordFull m.grd.wrB))

/-- REQUEST_RECORD_WRITE: the Safety context writes GRD_REQ_A over group A, GRD_REQ_B over group B. -/
def execRequestRecordWrite (ctx grp off : Nat) (w : Word) (s : State) : Host.Outcome State Fault Refusal :=
  s.run (wfRequestRecordWrite ctx grp off w) (fun _ m => m.grdRecordWrite ctx grp grp off w)

end Sys2Proof.Machine
end

