-- ==== Sys2Proof/Machine/Ports.lean ====
section
/-!
DEFINITION. Receive ports and timing (chapter 08): listening intervals (R230, R231), comparator edges with blanking and dead time
(R232 to R235), waveform samples (R239 to R242), overloads (R243 to R245), the input current (R227 to R229), and the DLLs, spare
rotation, tests and failures of timing channels and slices (R246 to R253). Instants are in LSB of 19.53125 ps, edges in 1/64 LSB.
-/
namespace Sys2Proof.Machine

/-! ## Channels (R219, R234) -/

/-- The slot of a tile that comparator `c` of port `p` is (R219). -/
def slotOfComp (p c : Nat) : Nat := 4 * (p % 4) + c
/-- The physical index that serves slot `k` of tile `t`: the channel itself, or the spare (R219, R249). -/
def Mach.physOf (m : Mach) (t k : Nat) : Nat :=
  17 * t + (if m.flag (aTDC_TILE t) fTDC_TILE_SUBST_V && m.fld (aTDC_TILE t) fTDC_TILE_SUBST == k then 16 else k)
/-- The physical channel that times comparator `c` of port `p`. -/
def Mach.physComp (m : Mach) (p c : Nat) : Nat := m.physOf (p / 4) (slotOfComp p c)
/-- CHOFS of a physical channel (R234). -/
def Mach.chofs (m : Mach) (i : Nat) : Int := m.sfld (aTDC_CHCAL i) fTDC_CHCAL_CHOFS
/-- POFS of a logical channel (R234). -/
def Mach.pofs (m : Mach) (j : Nat) : Int := m.sfld (aTDC_POFS j) fTDC_POFS_POFS
/-- A raw time of comparator `c` of port `p`, corrected (R234). -/
def Mach.corrected (m : Mach) (p c t : Nat) : Int := t - m.chofs (m.physComp p c) - (m.p p).pofs.getD c 0
/-- A raw time of start channel `s`, corrected (R234). -/
def Mach.startCorrected (m : Mach) (s t : Nat) : Int := t - mapGet 0 m.tdc.startOfs s - mapGet 0 m.tdc.startPofs s

/-- POFS reaches the start channel of string `s`; no start window of the string is open (R485). -/
def Mach.latchStart (m : Mach) (s : Nat) : Mach :=
  { m with tdc := { m.tdc with startPofs := mapPut 0 m.tdc.startPofs s (m.pofs (384 + s)) } }

/-! ## Calibration records (R486) -/

/-- The address of the record of calibrated item `i`. -/
def calRecAddr (i : Nat) : Nat := 0x502000 + 8 * i

/-- A calibration of item `i` has completed: COUNT, RESULT and the time of completion, in one cycle. -/
def Mach.calRecord (m : Mach) (i result : Nat) : Mach :=
  let n := satN 16 (m.mnat (calRecAddr i + 2) 2 + 1)
  let t := m.time.now
  m.setBytes (calRecAddr i) (leBytes 4 (2 ^ 16 * n + 2 ^ 14 * result + t.ns / 1000000) ++ leBytes 4 t.sec)

/-- A handover of item `i` was abandoned: RESULT 2; no calibration has completed. -/
def Mach.calAbandoned (m : Mach) (i : Nat) : Mach :=
  m.setMnat (calRecAddr i) 4 (m.mnat (calRecAddr i) 4 / 2 ^ 16 * 2 ^ 16 + 2 * 2 ^ 14 + m.mnat (calRecAddr i) 4 % 2 ^ 14)

/-! ## Failures seen (R252) -/

/-- The comparators of a port without a channel (R252). -/
def Mach.chFail (m : Mach) (p : Nat) : Nat := m.fld (aPRT_STAT p) fPRT_STAT_CHFAIL
/-- A comparator of a port produces edges (R223). -/
def Mach.compOn (m : Mach) (p c : Nat) : Bool := (m.fld (aPRT_FE p) fPRT_FE_COMP_EN).testBit c && !(m.chFail p).testBit c

/-! ## DLL pairs (R246, R247); pair 24 is that of the start channels -/

/-- DLL in service, and whether DLL `d` of a pair is locked. -/
def Mach.dllSel (m : Mach) (k : Nat) : Nat := if k = 24 then m.tdc.startSel else m.fld (aTDC_TILE k) fTDC_TILE_DLL_SEL
def Mach.dllLocked (m : Mach) (k d : Nat) : Bool :=
  if k = 24 then m.tdc.startLock.testBit d else m.flag (aTDC_TILE k) (if d = 0 then fTDC_TILE_LOCK0 else fTDC_TILE_LOCK1)
/-- The DLL in service of a pair is locked. -/
def Mach.pairOk (m : Mach) (k : Nat) : Bool := m.dllLocked k (m.dllSel k)
/-- A swap of a pair is due. -/
def Mach.dllDue (m : Mach) (k : Nat) : Bool := if k = 24 then m.tdc.startDue else (m.tile k).swapDue
/-- The lock bit of a DLL, the DLL in service of a pair, the mark of a due swap. -/
def Mach.setDllLock (m : Mach) (k d : Nat) (b : Bool) : Mach :=
  if k = 24 then
    { m with tdc := { m.tdc with startLock := if b then m.tdc.startLock ||| 2 ^ d else m.tdc.startLock &&& (3 - 2 ^ d) } }
  else m.setFld (aTDC_TILE k) (if d = 0 then fTDC_TILE_LOCK0 else fTDC_TILE_LOCK1) (bit b)
def Mach.setDllSel (m : Mach) (k d : Nat) : Mach :=
  if k = 24 then { m with tdc := { m.tdc with startSel := d } } else m.setFld (aTDC_TILE k) fTDC_TILE_DLL_SEL d
def Mach.setDllDue (m : Mach) (k : Nat) (b : Bool) : Mach :=
  if k = 24 then { m with tdc := { m.tdc with startDue := b } } else m.modTile k (fun x => { x with swapDue := b })

/-- TDC_DLLSTAT follows the pairs. -/
def Mach.showDll (m : Mach) : Mach :=
  let ok := (List.range 24).filter m.pairOk
  let m := (m.setFld aTDC_DLLSTAT fTDC_DLLSTAT_TILE_LOCK (ofBits ok)).setFld aTDC_DLLSTAT fTDC_DLLSTAT_START_LOCK (bit (m.pairOk 24))
  m.setFld aTDC_DLLSTAT fTDC_DLLSTAT_ALL_LOCK (bit (ok.length == 24 && m.pairOk 24))

/-- Source ID of a DLL pair (R488). -/
def pairSrc (k : Nat) : Nat := srcId 0x09 (424 + k)

/-- A due swap to a locked standby is done (R247). -/
def Mach.dllSwap (m : Mach) (k : Nat) : Mach :=
  let d := 1 - m.dllSel k
  if m.dllDue k && m.dllLocked k d then ((m.setDllSel k d).setDllDue k false).showDll else m

/-- The interval of a port is open. -/
def Port.listening (x : Port) : Option PShot := x.shots.find? (fun s => match s.iv with | some v => v.closed.isNone | none => false)
/-- An interval of a tile is open. -/
def Mach.tileOpen (m : Mach) (t : Nat) : Bool := (List.range 4).any (fun j => (m.p (4 * t + j)).listening.isSome)
/-- The interval of a shot changed. -/
def PShot.modIv (x : PShot) (f : Interval → Interval) : PShot := { x with iv := x.iv.map f }
/-- The open interval of a port changed. -/
def Port.modOpen (x : Port) (f : Interval → Interval) : Port :=
  { x with shots := x.shots.map (fun s => s.modIv (fun v => if v.closed.isNone then f v else v)) }

/-- DLL_LOCK_REQUEST: a write of REQ starts locking in every pair (R246). -/
def Mach.dllRequest (m : Mach) : Mach := { m with tdc := { m.tdc with req := true } }.done 0

/-- DLL_LOCK_REQUEST. -/
def execDllLockRequest (src : Src) (s : State) : Host.Outcome State Fault Refusal :=
  s.run (wfDllLockRequest src) (fun _ m => m.asWriter src .tdc 0 0 Mach.dllRequest)

/-- DLL_LOCK: a DLL locks, once locking has been requested (R246); it stands by, or serves at once when the pair needs it and no
interval of the tile is open (R247). -/
def execDllLock (pair d : Nat) (s : State) : Host.Outcome State Fault Refusal :=
  s.run (wfDllLock pair d) (fun _ m =>
    if !m.tdc.req then m
    else
      let m := m.setDllLock pair d true
      let m := if m.pairOk pair then m.setDllDue pair false else m
      (m.when (pair == 24 || !m.tileOpen pair) (fun m => m.dllSwap pair)).showDll)

/-- Every port of tile `t` shows DLLERR, and the shots in flight lose their events (R247). -/
def Mach.tileDllErr (m : Mach) (t : Nat) : Mach :=
  let m := m.setFld (aTDC_TILE t) fTDC_TILE_DLLERR 1
  (List.range 4).foldl (fun m j =>
    let p := 4 * t + j
    (m.setFld (aPRT_STAT p) fPRT_STAT_DLLERR 1).modP p (fun x => x.modOpen (fun v => { v with dllErr := true }))) m

/-- DLL `d` of a pair loses lock (R247). Lost lock of the start pair, or of several tiles, is also a lost arming condition (R57). -/
def Mach.dllLoses (m : Mach) (pair d : Nat) : Mach :=
  if !m.dllLocked pair d then m
  else
    let serving := m.dllSel pair == d
    let m := m.setDllLock pair d false
    if !serving then m
    else
      let m := m.setDllDue pair true
      let m := m.when (pair != 24) (fun m => m.tileDllErr pair)
      let m := m.report (pairSrc pair) (pairSrc pair) 0x21 (if m.dllLocked pair (1 - d) then 1 else 2)
      let m := (m.when (pair == 24 || !m.tileOpen pair) (fun m => m.dllSwap pair)).showDll
      let lost := ((List.range 24).filter (fun k => !m.pairOk k)).length
      m.when (decide (1 < lost) || !m.pairOk 24) Mach.lostArming

/-- DLL_LOCK_LOSS. -/
def execDllLockLoss (pair d : Nat) (s : State) : Host.Outcome State Fault Refusal :=
  s.run (wfDllLockLoss pair d) (fun _ m => m.dllLoses pair d)

/-- DLL_SWAP: at the next shot boundary the pair swaps to its standby (R247). -/
def execDllSwap (pair : Nat) (s : State) : Host.Outcome State Fault Refusal :=
  s.run (wfDllSwap pair) (fun _ m => m.dllSwap pair)

/-! ## Failures and takeovers (R252) -/

/-- Whether physical channel `k` of tile `t` has failed. -/
def Mach.physFailed (m : Mach) (t k : Nat) : Bool := (m.fld (aTDC_TILE t) fTDC_TILE_FAIL).testBit k
/-- The spare of a tile is free: working and serving no slot. -/
def Mach.spareFree (m : Mach) (t : Nat) : Bool := !m.physFailed t 16 && !m.flag (aTDC_TILE t) fTDC_TILE_SUBST_V

/-- Slot `k` of tile `t` has no channel: its comparator stands in CHFAIL. -/
def Mach.slotLost (m : Mach) (t k : Nat) : Mach :=
  let a := aPRT_STAT (4 * t + k / 4)
  m.setFld a fPRT_STAT_CHFAIL (m.fld a fPRT_STAT_CHFAIL ||| 2 ^ (k % 4))

/-- The spare takes over the slots that wait for it: the first, further ones are lost. -/
def Mach.takeover (m : Mach) (t : Nat) : Mach :=
  let due := (m.tile t).takeover
  let m := m.modTile t (fun x => { x with takeover := [] })
  due.foldl (fun m k =>
    if m.spareFree t then (m.setFld (aTDC_TILE t) fTDC_TILE_SUBST_V 1).setFld (aTDC_TILE t) fTDC_TILE_SUBST k else m.slotLost t k) m

/-- Physical channel `k` of tile `t` fails. -/
def Mach.physFails (m : Mach) (t k : Nat) : Mach :=
  if m.physFailed t k then m
  else
    let a := aTDC_TILE t
    let subst := m.flag a fTDC_TILE_SUBST_V
    let slot := m.fld a fTDC_TILE_SUBST
    let free := m.spareFree t && (m.tile t).takeover.isEmpty
    let m := m.setFld a fTDC_TILE_FAIL (m.fld a fTDC_TILE_FAIL ||| 2 ^ k)
    let src := srcId 0x09 (17 * t + k)
    let m := (m.setFld a fTDC_TILE_ROT_STOP 1).report src src 0x20 (if k = 16 ∧ !subst ∨ k ≠ 16 ∧ free then 1 else 2)
    if k = 16 then (if subst then m.slotLost t slot else m)
    else if subst && slot == k then m
    else if free then
      let m := m.modTile t (fun x => { x with takeover := [k] })
      m.when (!m.tileOpen t) (fun m => m.takeover t)
    else m.slotLost t k

/-- A start channel fails: its string's shots become NOSTART. -/
def Mach.startFails (m : Mach) (s : Nat) : Mach :=
  let f := m.fld aTDC_STSTAT fTDC_STSTAT_FAIL
  if f.testBit s then m
  else (m.setFld aTDC_STSTAT fTDC_STSTAT_FAIL (f ||| 2 ^ s)).report (srcId 0x09 (408 + s)) (srcId 0x09 (408 + s)) 0x20 2

/-- The out slice of a port takes over a phase (0 even, 1 odd), or waveform evidence stops. -/
def Mach.sliceTake (m : Mach) (n phase : Nat) : Mach :=
  let a := aWCV_PORT n
  let out := m.fld a fWCV_PORT_OUT
  if out = 3 ∨ (m.fld a fWCV_PORT_FAIL).testBit out then m.setFld (aPRT_STAT n) fPRT_STAT_WF_OFF 1
  else (m.setFld a (if phase = 0 then fWCV_PORT_EVEN else fWCV_PORT_ODD) out).setFld a fWCV_PORT_OUT 3

/-- The slices that are due on a port change. -/
def Mach.slicesDue (m : Mach) (n : Nat) : Mach :=
  let due := (m.p n).sliceDue
  due.foldl (fun m ph => m.sliceTake n ph) (m.modP n (fun x => { x with sliceDue := [] }))

/-- Slice `s` of port `n` fails. -/
def Mach.sliceFails (m : Mach) (n s : Nat) : Mach :=
  let a := aWCV_PORT n
  if (m.fld a fWCV_PORT_FAIL).testBit s then m
  else
    let out := m.fld a fWCV_PORT_OUT
    let ok := out != 3 && out != s && !(m.fld a fWCV_PORT_FAIL).testBit out
    let m := m.setFld a fWCV_PORT_FAIL (m.fld a fWCV_PORT_FAIL ||| 2 ^ s)
    let m := m.setFld (aPRT_STAT n) fPRT_STAT_SLICE_DEG 1
    let src := srcId 0x0A (3 * n + s)
    let serving := m.fld a fWCV_PORT_EVEN == s || m.fld a fWCV_PORT_ODD == s
    let m := m.report src src 0x20 (if !serving then 0 else if ok then 1 else 2)
    if !serving then m.setFld a fWCV_PORT_OUT 3
    else
      let ph := if m.fld a fWCV_PORT_EVEN = s then 0 else 1
      let m := m.modP n (fun x => { x with sliceDue := x.sliceDue ++ [ph] })
      m.when (m.p n).listening.isNone (fun m => m.slicesDue n)

/-- SPARE_TAKEOVER: at the next shot boundary of tile t, after a due swap (R253), the spare takes over the failed channel's slot, and
slices that are due change (R252). -/
def execSpareTakeover (t : Nat) (s : State) : Host.Outcome State Fault Refusal :=
  s.run (wfSpareTakeover t) (fun _ m =>
    (List.range 4).foldl (fun m j => m.slicesDue (4 * t + j)) ((m.dllSwap t).takeover t))

/-! ## Calibration and rotation (R248 to R250) -/

/-- The rotation of a tile runs. -/
def Mach.rotates (m : Mach) (t : Nat) : Bool := m.flag aTDC_ROT fTDC_ROT_ROT_EN && !m.flag (aTDC_TILE t) fTDC_TILE_ROT_STOP

/-- A calibration of physical channel `k` of tile `t` has ended: the rotation goes on to the overlap it was for. -/
def Mach.rotCalibrated (m : Mach) (t k : Nat) : Mach :=
  let x := m.tile t
  if x.phase = 0 ∧ k = 16 then m.modTile t (fun x => { x with phase := 1, slot := if x.slot = 16 then 0 else x.slot, shots := 0 })
  else if x.phase = 2 ∧ k = x.slot then m.modTile t (fun x => { x with phase := 3, shots := 0 })
  else m

/-- CHANNEL_CALIBRATION_DONE: the calibration of physical channel i, of start channel i - 408, or of slice i - 424 ends (R248, R250). For
a slice the operands spell WCV_SCAL: OFS, and SKEW with GAIN. -/
def execChannelCalibrationDone (i : Nat) (ok : Bool) (dnlmax : Nat) (chofs : Int) (s : State) : Host.Outcome State Fault Refusal :=
  s.run (wfChannelCalibrationDone i ok dnlmax chofs) (fun _ m =>
    let m := m.calRecord i (bit !ok)
    if i < 424 then
      let m := { m with tdc := { m.tdc with cald := if m.tdc.cald.contains i then m.tdc.cald else m.tdc.cald ++ [i] } }
      if i < 408 then
        let t := i / 17
        let m := (m.setFld (aTDC_CHCAL i) fTDC_CHCAL_DNLMAX dnlmax).setFld (aTDC_CHCAL i) fTDC_CHCAL_CHOFS (toField 16 chofs)
        if ok then m.rotCalibrated t (i % 17) else m.physFails t (i % 17)
      else
        let m := { m with tdc := { m.tdc with startOfs := mapPut 0 m.tdc.startOfs (i - 408) chofs } }
        if ok then m else m.startFails (i - 408)
    else
      let n := (i - 424) / 3
      let k := (i - 424) % 3
      let m := m.setReg (aWCV_SCAL n k) (word (dnlmax + 256 * toField 16 chofs))
      if ok then m else m.sliceFails n k)

/-- Shots an overlap compares. -/
def Mach.hoShots (m : Mach) : Nat := max 1 (m.fld aTDC_ROT fTDC_ROT_HO_SHOTS)

/-- A handover of tile `t` is judged by the largest difference of its overlap in LSB (R249, R250). -/
def Mach.handover (m : Mach) (t diff : Nat) : Mach :=
  let x := m.tile t
  let a := aTDC_TILE t
  if !m.rotates t || x.swapDue || !x.takeover.isEmpty || decide (x.shots < m.hoShots) || (x.phase != 1 && x.phase != 3) then m
  else if m.fld aTDC_ROT fTDC_ROT_HO_TOL < diff then
    let k := if x.phase = 1 then 16 else x.slot
    let m := (m.setFld a fTDC_TILE_HOERR 1).calAbandoned (17 * t + k)
    let m := m.modTile t (fun x => { x with phase := x.phase - 1, mis := x.mis + 1 })
    m.when (decide (1 ≤ x.mis)) (fun m => m.physFails t k)
  else if x.phase = 1 then
    ((m.setFld a fTDC_TILE_SUBST_V 1).setFld a fTDC_TILE_SUBST x.slot).modTile t (fun x => { x with phase := 2, mis := 0 })
  else
    (m.setFld a fTDC_TILE_SUBST_V 0).modTile t (fun x =>
      if x.slot = 15 then { x with slot := 16, phase := 0, mis := 0 } else { x with slot := x.slot + 1, phase := 1, mis := 0, shots := 0 })

/-- A slice handover of port `n`: the out slice takes the phase of the slice next in number, which goes out (R249, and the log). -/
def Mach.sliceHandover (m : Mach) (n diff : Nat) : Mach :=
  let a := aWCV_PORT n
  let out := m.fld a fWCV_PORT_OUT
  if !m.flag aWCV_CTRL fWCV_CTRL_ROT_EN || out == 3 || m.fld a fWCV_PORT_FAIL != 0 then m
  else if 4 < diff then (m.setFld a fWCV_PORT_HOERR 1).calAbandoned (424 + 3 * n + out)
  else
    let next := (out + 1) % 3
    (m.setFld a (if m.fld a fWCV_PORT_EVEN = next then fWCV_PORT_EVEN else fWCV_PORT_ODD) out).setFld a fWCV_PORT_OUT next

/-- ROTATION_HANDOVER: the overlap of tile t, or of the slices of port t - 24, ends (R249, R250). -/
def execRotationHandover (t diff : Nat) (s : State) : Host.Outcome State Fault Refusal :=
  s.run (wfRotationHandover t diff) (fun _ m => if t < 24 then m.handover t diff else m.sliceHandover (t - 24) diff)

/-- A change of the temperature band restarts the rotation of every tile (R249). -/
def Mach.rotationRestart (m : Mach) : Mach :=
  (List.range 24).foldl (fun m t =>
    if m.rotates t then
      (m.setFld (aTDC_TILE t) fTDC_TILE_SUBST_V 0).modTile t (fun x => { x with slot := 16, phase := 0, shots := 0, mis := 0 })
    else m) m

/-! ## Tests (R251) -/

/-- Physical channel `k` of tile `t` serves a slot. -/
def Mach.physServes (m : Mach) (t k : Nat) : Bool :=
  let v := m.flag (aTDC_TILE t) fTDC_TILE_SUBST_V
  !m.physFailed t k && (if k = 16 then v else !(v && m.fld (aTDC_TILE t) fTDC_TILE_SUBST == k))

/-- TEST_EDGE: channel i (408 + s start channel s, 424 + 3n + s slice s of port n) is tested; `off` is how far the result lies off (R251). -/
def execTestEdge (i off : Nat) (s : State) : Host.Outcome State Fault Refusal :=
  s.run (wfTestEdge i off) (fun _ m =>
    if i < 424 then
      let on := if i < 408 then m.physServes (i / 17) (i % 17) else !(m.fld aTDC_STSTAT fTDC_STSTAT_FAIL).testBit (i - 408)
      if !on then m
      else if off ≤ m.fld aTDC_ROT fTDC_ROT_TEST_TOL then
        { m with tdc := { m.tdc with bad := m.tdc.bad.filter (fun k => k != i) } }
      else if m.tdc.bad.contains i then
        let m := { m with tdc := { m.tdc with bad := m.tdc.bad.filter (fun k => k != i) } }
        if i < 408 then m.physFails (i / 17) (i % 17) else m.startFails (i - 408)
      else { m with tdc := { m.tdc with bad := m.tdc.bad ++ [i] } }
    else
      let n := (i - 424) / 3
      let k := (i - 424) % 3
      let a := aWCV_PORT n
      if m.fld a fWCV_PORT_EVEN ≠ k ∧ m.fld a fWCV_PORT_ODD ≠ k then m
      else if off ≤ 16 then m.modP n (fun x => { x with sliceBad := x.sliceBad.filter (fun j => j != k) })
      else if (m.p n).sliceBad.contains k then (m.modP n (fun x => { x with sliceBad := x.sliceBad.filter (fun j => j != k) })).sliceFails n k
      else m.modP n (fun x => (({ x with sliceBad := x.sliceBad ++ [k] } : Port).modOpen (fun v => { v with wfSkip := true, samples := [] }))))

/-! ## Listening intervals (R230, R231) -/

/-- The samples of a port's shots are left out (R242, R251, R252). -/
def Mach.wfSkips (m : Mach) (p : Nat) : Bool :=
  let a := aWCV_PORT p
  !m.flag (aPRT_CTRL p) fPRT_CTRL_WF_EN || m.flag (aPRT_STAT p) fPRT_STAT_WF_OFF
    || (m.p p).sliceBad.any (fun k => m.fld a fWCV_PORT_EVEN == k || m.fld a fWCV_PORT_ODD == k)

/-- At least one channel that times a shot of string `s` on port `p` has not been calibrated since lock (R248). -/
def Mach.uncal (m : Mach) (p s : Nat) : Bool :=
  !m.tdc.cald.contains (408 + s) || (List.range 4).any (fun c => m.compOn p c && !m.tdc.cald.contains (m.physComp p c))

/-- The interval of a shot as it opens; overloads in force reach into it (R244). -/
def Mach.newInterval (m : Mach) (p : Nat) (x : PShot) : Interval :=
  let at_ := x.edge - 2048
  let tile := p / 4
  { opened := at_, start := none, startAt := 0, stamp := Stamp.zero, thrChg := false, dllErr := !m.pairOk tile, uncal := m.uncal p x.str
    chFail := m.chFail p, wfSkip := m.wfSkips p, settled := true, edges := [], samples := []
    own := if (m.p p).ovl.isSome then [(at_, none)] else []
    tile := ((List.range 4).filter (fun j => 4 * tile + j != p && (m.p (4 * tile + j)).ovl.isSome)).map (fun _ => (at_, none))
    closed := none }

/-- The open interval of a port closes at an instant; a rotation of its tile counts the shot (R249). -/
def Mach.closeInterval (m : Mach) (p at_ : Nat) : Mach :=
  let m := m.modP p (fun x => { x.modOpen (fun v => { v with closed := some at_ }) with lastClose := some at_ })
  let t := p / 4
  let x := m.tile t
  m.when ((x.phase == 1 || x.phase == 3) && x.slot / 4 == p % 4) (fun m => m.modTile t (fun x => { x with shots := x.shots + 1 }))

/-- LISTEN_OPEN: the interval of the port's next granted shot opens 40 ns before its edge and cuts one that is still open (R230). -/
def execListenOpen (p : Nat) (s : State) : Host.Outcome State Fault Refusal :=
  s.run (wfListenOpen p) (fun _ m =>
    match (m.p p).shots.find? (fun x => x.status.isNone && x.iv.isNone) with
    | none => m
    | some x =>
      let at_ := x.edge - 2048
      let m := m.advanceToFine at_
      let m := if (m.p p).listening.isSome then (m.closeInterval p at_).satInc (aPRT_LOST2 p) fPRT_LOST2_GATE_CUT else m
      let v := m.newInterval p x
      m.modP p (fun y => { y with pofs := (List.range 4).map (fun c => m.pofs (4 * p + c))
                                  shots := y.shots.map (fun z => if z.id = x.id then { z with iv := some v } else z) }))

/-- The gate of the cell a shot belongs to. -/
def Mach.gateOf (m : Mach) (p : Nat) (x : PShot) : Nat :=
  match (m.p p).cells.find? (fun c => c.bank == x.bank) with | some c => c.gate | none => 1

/-- The latest acceptance of a start for an edge at `t` on string `s` (R155). -/
def Mach.startEnd (m : Mach) (s t : Nat) : Nat :=
  t + m.fld (aEMT_STR_CFG0 s) fEMT_STR_CFG0_OST_DLY + m.fld (aEMT_STR_CFG0 s) fEMT_STR_CFG0_OST_WIN + 256

/-- LISTEN_CLOSE: the interval closes at the range gate, or at the latest acceptance of the start of a NOSTART shot (R230). -/
def execListenClose (p : Nat) (s : State) : Host.Outcome State Fault Refusal :=
  s.run (wfListenClose p) (fun _ m =>
    match (m.p p).listening with
    | none => m
    | some x =>
      match x.iv with
      | none => m
      | some v =>
        if x.status = some 3 then
          let t := m.startEnd x.str x.edge
          (m.advanceToFine t).closeInterval p t
        else if v.start.isSome then
          let t := (v.t0 + m.gateOf p x).toNat
          (m.advanceToFine t).closeInterval p t
        else m)

/-- The thresholds a shot uses (R223). -/
def shiftThrs (base : List Nat) (o : Int) : List Nat := base.map (fun (b : Nat) => (clampInt 0 1023 ((b : Int) + o)).toNat)

/-- The accepted start reaches shot `id` on port `p`: time zero, the offset and thresholds in effect, whether the front end had settled
(R223 to R225, R302). -/
def Mach.portStart (m : Mach) (id s t p : Nat) : Mach :=
  let y := m.p p
  match y.shots.find? (fun x => x.id == id && x.status.isNone) with
  | none => m
  | some x =>
    let u := m.startCorrected s t
    let t0 := (u + 32) / 64
    let ofs := if m.adapts p then (match y.lastClose with
      | some c => if t0 - c < 5120 then y.ofs else x.ofs
      | none => x.ofs) else 0
    let thr := shiftThrs x.base ofs
    let cell := (y.cells.find? (fun c => c.bank == x.bank)).map (fun c => c.seq)
    let chg := cell.isSome && y.lastThrSeq == cell && y.lastThr != thr
    let ready : Nat := max y.feAt (y.lastClose.getD 0)
    let settled := !(y.feShot == some id && decide (t0 - ready < 5120))
    let f (v : Interval) : Interval :=
      { v with start := some u, startAt := divCeil t 64, stamp := m.stamp, thrChg := chg, settled := settled }
    let m := m.modP p (fun y => { y with
      shots := y.shots.map (fun z => if z.id = id then z.modIv f else z), ofs := ofs, lastThr := thr, lastThrSeq := cell })
    let m := (m.setFld (aPRT_THRA01 p) fPRT_THRA01_A0 (thr.getD 0 0)).setFld (aPRT_THRA01 p) fPRT_THRA01_A1 (thr.getD 1 0)
    (m.setFld (aPRT_THRA23 p) fPRT_THRA23_A2 (thr.getD 2 0)).setFld (aPRT_THRA23 p) fPRT_THRA23_A3 (thr.getD 3 0)

/-- Shot `id` has no start: it delivers nothing on port `p`, and NOSTART counts it (R231). -/
def Mach.portNoStart (m : Mach) (id p : Nat) : Mach :=
  if (m.p p).shots.any (fun x => x.id == id && x.status.isNone) then
    (m.modP p (fun y => { y with shots := y.shots.map (fun z => if z.id = id ∧ z.status.isNone then { z with status := some 3 } else z) })).satInc
      (aPRT_LOST3 p) fPRT_LOST3_NOSTART
  else m

/-- Shot `id` was blocked at the gate: it is not accumulated on port `p` (R216, R264). -/
def Mach.portBlocked (m : Mach) (id p : Nat) : Mach :=
  m.modP p (fun y => { y with
    lastClose := if y.shots.any (fun z => z.id == id && z.iv.isSome) then some m.now else y.lastClose
    shots := y.shots.map (fun z => if z.id = id ∧ z.status.isNone then { z with status := some 2, settle := z.edge, iv := none } else z) })

/-! ## Blanking (R232, R233) -/

/-- The edges of granted shots that stand or have left lately: string and time. -/
def Mach.grantedEdges (m : Mach) : List (Nat × Nat) :=
  (m.emt.shots.filter (fun s => s.stage == .granted)).map (fun s => (s.str, s.edge)) ++ m.emt.edges

/-- The level of BLANK pin `i` whose effect reaches instant `t` in 1/64 LSB. -/
def Mach.pinLevel (m : Mach) (i t : Nat) : Bool :=
  match (mapGet [] m.tdc.pins i).find? (fun c => decide (64 * (c.1 + 256) ≤ t)) with
  | some (_, l) => l
  | none => false

/-- Blanking is in force on a port at an instant in 1/64 LSB. -/
def Mach.blanked (m : Mach) (p t : Nat) : Bool :=
  let len := m.fld (aPRT_BLANK p) fPRT_BLANK_BLK_LEN
  let start := m.sfld (aPRT_BLANK p) fPRT_BLANK_BLK_START
  let strs := m.fld (aPRT_BLKSEL p) fPRT_BLKSEL_STRMASK
  let pins := m.fld (aPRT_BLKSEL p) fPRT_BLKSEL_PINMASK
  let self := m.grantedEdges.any (fun (x, e) =>
    let a : Int := 64 * (e + 32 * start)
    strs.testBit x && decide (a ≤ t) && decide ((t : Int) < a + 2048 * len))
  let byPin := (List.range 4).any (fun i => pins.testBit i && (m.pinLevel i t != (m.fld aTDC_BPIN fTDC_BPIN_POL).testBit i))
  (len != 0 && self) || byPin

/-- BLANK_PIN: a BLANK pin changes at instant t in LSB (R232). -/
def execBlankPin (i : Nat) (level : Bool) (t : Nat) (s : State) : Host.Outcome State Fault Refusal :=
  s.run (wfBlankPin i level t) (fun _ m =>
    let m := m.advanceToFine t
    { m with tdc := { m.tdc with pins := mapPut [] m.tdc.pins i (((t, level) :: mapGet [] m.tdc.pins i).take 16) } })

/-! ## Edges (R223, R233 to R235) -/

/-- A trailing edge: dropped with its leading edge, or it ends the last open edge of its comparator. -/
def Port.trail (x : Port) (c : Nat) (u : Int) : Port :=
  if x.drop.contains c then { x with drop := x.drop.filter (fun d => d != c) }
  else
    x.modOpen (fun v =>
      match (v.edges.reverse.span (fun e => !(e.c == c && e.trail.isNone))) with
      | (a, e :: b) => { v with edges := (a ++ { e with trail := some u } :: b).reverse }
      | (_, []) => v)

/-- A leading edge joins the edges of an interval; before the start at most 8 of a comparator stand (R235). -/
def Interval.lead (v : Interval) (e : Edge) : Interval × Bool :=
  let mine := v.edges.filter (fun x => x.c == e.c)
  if v.start.isNone ∧ 8 ≤ mine.length then
    match v.edges.span (fun x => x.c != e.c) with
    | (a, _ :: b) => ({ v with edges := a ++ b ++ [e] }, true)
    | (_, []) => (v, false)
  else ({ v with edges := v.edges ++ [e] }, false)

/-- COMPARATOR_EDGE: comparator c of port p switches at raw time t in 1/64 LSB (R233 to R235). -/
def execComparatorEdge (p c : Nat) (rising : Bool) (t : Nat) (s : State) : Host.Outcome State Fault Refusal :=
  s.run (wfComparatorEdge p c rising t) (fun _ m =>
    let m := m.advanceToFine (divCeil t 64)
    let u := m.corrected p c t
    let y := m.p p
    if !rising then m.modP p (fun y => y.trail c u)
    else if !m.compOn p c then m
    else
      let dropped (m : Mach) : Mach := m.modP p (fun y => { y with drop := if y.drop.contains c then y.drop else y.drop ++ [c] })
      let open_ := y.listening.isSome
      let dead := match y.lead.find? (fun l => l.1 == c) with | some (_, l) => decide ((t : Int) - l < 4096) | none => false
      if dead then (m.when open_ (fun m => m.satInc (aPRT_LOST0 p) fPRT_LOST0_DEAD_LOST)) |> dropped
      else
        let m := m.modP p (fun y => { y with lead := mapInsert (mapErase y.lead c) c (t : Int) })
        if !open_ || m.tdc.bad.contains (m.physComp p c) then dropped m
        else if m.blanked p t then dropped (m.satInc (aPRT_LOST1 p) fPRT_LOST1_BLANKED)
        else
          let e : Edge := { c := c, lead := u, trail := none }
          let ovl := match y.listening with | some { iv := some v, .. } => (v.lead e).2 | _ => false
          let m := m.modP p (fun y => { y.modOpen (fun v => (v.lead e).1) with drop := y.drop.filter (fun d => d != c) })
          m.when ovl (fun m => m.satInc (aPRT_LOST0 p) fPRT_LOST0_PRE_LOST))

/-! ## Waveform samples (R239 to R242) -/

/-- A converter code corrected by its slice and clamped (R239). -/
def Mach.sampleCode (m : Mach) (p slice adc : Nat) : Nat :=
  let a := aWCV_SCAL p slice
  let ofs := m.sfld a fWCV_SCAL_OFS
  let gain := m.sfld a fWCV_SCAL_GAIN
  (clampInt 0 1023 (divRound ((4 * adc + ofs) * (4096 + gain)) 16384)).toNat

/-- WAVEFORM_SAMPLE: the slice on a phase of port p samples in cycle k (R221, R240). -/
def execWaveformSample (p : Nat) (odd : Bool) (k adc : Nat) (s : State) : Host.Outcome State Fault Refusal :=
  s.run (wfWaveformSample p odd k adc) (fun _ m =>
    let t := 64 * k + 32 * bit odd
    let m := m.advanceToFine t
    let slice := m.fld (aWCV_PORT p) (if odd then fWCV_PORT_ODD else fWCV_PORT_EVEN)
    let x : Sample := { t := t, code := m.sampleCode p slice adc, blank := m.blanked p (64 * t) }
    m.modP p (fun y => y.modOpen (fun v => if v.wfSkip then v else { v with samples := v.samples ++ [x] })))

/-! ## Overloads (R243 to R245) -/

/-- The other ports of a port's tile. -/
def neighbours (p : Nat) : List Nat := ((List.range 4).map (fun j => 4 * (p / 4) + j)).filter (fun q => q != p)

/-- OVERLOAD_TRIP: the overload detector of port p trips at instant t. -/
def execOverloadTrip (p t : Nat) (s : State) : Host.Outcome State Fault Refusal :=
  s.run (wfOverloadTrip p t) (fun _ m =>
    let m := m.advanceToFine t
    if (m.p p).ovl.isSome then m
    else
      let m := m.satInc (aPRT_OVL p) fPRT_OVL_OVL
      let m := m.modP p (fun y => { y.modOpen (fun v => { v with own := v.own ++ [(t, none)] }) with ovl := some t })
      (neighbours p).foldl (fun m q => m.modP q (fun y => y.modOpen (fun v => { v with tile := v.tile ++ [(t, none)] }))) m)

/-- The first running overload that began at `a`, or at the opening after it, ends at `t`. -/
def endOver (opened a t : Nat) : List (Nat × Option Nat) → List (Nat × Option Nat)
  | [] => []
  | (b, none) :: l => if b = max a opened then (b, some t) :: l else (b, none) :: endOver opened a t l
  | o :: l => o :: endOver opened a t l

/-- OVERLOAD_RELEASE: the detector releases at instant t. -/
def execOverloadRelease (p t : Nat) (s : State) : Host.Outcome State Fault Refusal :=
  s.run (wfOverloadRelease p t) (fun _ m =>
    let m := m.advanceToFine t
    match (m.p p).ovl with
    | none => m
    | some a =>
      let m := m.modP p (fun y => { y.modOpen (fun v => { v with own := endOver v.opened a t v.own }) with ovl := none })
      (neighbours p).foldl (fun m q => m.modP q (fun y => y.modOpen (fun v => { v with tile := endOver v.opened a t v.tile }))) m)

/-! ## Input current (R227 to R229) -/

/-- IBIAS of a current in pA: round(2,048 log2(I / 10 nA)), from the exact powers. -/
def ibiasCode (pA : Nat) : Nat :=
  if pA < 10000 then 0 else if 2000000000 < pA then 36065 else (Nat.log2 (pA ^ 4096 / 10000 ^ 4096) + 1) / 2

/-- IBIAS_READING: the port's averaged input current, and whether its DC level lies more than 250 mV above VCM (R227 to R229). -/
def execIbiasReading (p pA : Nat) (high : Bool) (s : State) : Host.Outcome State Fault Refusal :=
  s.run (wfIbiasReading p pA high) (fun _ m =>
    let a := aPRT_IMON p
    let code := ibiasCode pA
    let m := (m.setFld a fPRT_IMON_IBIAS code).setFld a fPRT_IMON_LOW (bit (decide (pA < 10000)))
    let m := m.setFld a fPRT_IMON_HIGH (bit (decide (2000000000 < pA)))
    let ilim := m.fld (aPRT_BIAS p) fPRT_BIAS_ILIM
    let above := decide (ilim ≤ 36065) && decide (ilim < code)
    let m := m.modP p (fun y => { y with high := if above then min 3 (y.high + 1) else 0, openN := if high then min 10 (y.openN + 1) else 0 })
    let src := srcId 0x08 p
    let ovl := (m.p p).high == 3 && !m.flag (aPRT_STAT p) fPRT_STAT_OVERCUR
    let m := m.when ovl (fun m => (m.setFld (aPRT_STAT p) fPRT_STAT_OVERCUR 1).report src src 0x24 0)
    let isOpen := (m.p p).openN == 10
    let fresh := isOpen && !m.flag a fPRT_IMON_OPEN
    let m := m.setFld a fPRT_IMON_OPEN (bit isOpen)
    m.when fresh (fun m => (m.setFld (aPRT_STAT p) fPRT_STAT_OPEN_SEEN 1).report src src 0x23 0))

end Sys2Proof.Machine
end

