-- ==== Sys2Proof/Machine/Emt.lean ====
section
/-!
DEFINITION. Caravans and the emitter driver (chapter 05): the sequencer profile (fire, proof, arm, code, pat, zoom, wangle), string
arbitration and frame slots (R141 to R151), the guard's decision (R127), frames and FIRE edges (R147 to R149, R128), optical starts
(R155 to R157), isolation walks (R161), proof-late (R159), and the handover to a standby (R171, R172).
-/
namespace Sys2Proof.Machine

/-! ## Sequencers -/

/-- The engine of sequencer `n`. -/
abbrev Mach.sq (m : Mach) (n : Nat) : Engine := m.e (256 + n)
/-- The profile state of a sequencer, changed; SEQ_ARMST and SEQ_CODE follow. -/
def Mach.modSeq (m : Mach) (n : Nat) (f : SeqProfile → SeqProfile) : Mach :=
  (m.modE (256 + n) (fun x => { x with seq := f x.seq })).showSeq n (m.fld (aSEQ_ARMST n) fSEQ_ARMST_SET)
/-- Sequencer `n` runs in shadow (R171, R172). -/
def Mach.inShadow (m : Mach) (n : Nat) : Bool :=
  m.flag (aSEQ_STBY n) fSEQ_STBY_EN && !(m.flag (aSEQ_STBY n) fSEQ_STBY_LIVE && (m.sq n).seq.live)
/-- LEAD in force. -/
def Mach.lead (m : Mach) (n : Nat) : Nat := max 500 (m.fld (aSEQ_FIRECFG n) fSEQ_FIRECFG_LEAD)
/-- The ports of a port set. -/
def Mach.pset (m : Mach) (n k : Nat) : List Nat :=
  (List.range 3).flatMap (fun w => (bitsOf 32 (m.reg (aSEQ_PSET n k w)).toNat).map (fun j => 32 * w + j))
/-- The waiting engine goes on with `v` in its destination, its state changing in cycle `c`, which may lie ahead. -/
def Mach.resumeAt (m : Mach) (e c : Nat) (v : Nat) : Mach :=
  let m := m.modE e (fun x => x.enter (max m.cyc c) .running)
  m.result e (BitVec.ofNat 4 (m.e e).wrd) (word v)

/-- The open cells of the ports of ARMSET that the sequencer still owns close (R134, R135). -/
def Mach.closeArmed (m : Mach) (n : Nat) : Mach :=
  ((m.sq n).seq.armset.filter (fun p => m.ownerOf p == some n)).foldl Mach.closeCell m

/-- A sequencer instruction issues. -/
def Mach.seqIssue (m : Mach) (e : Nat) (legal : Bool) (f : Mach → Mach) : Mach := m.issue e (some .sq) legal f

/-! ## arm, code, pat, zoom -/

/-- arm: ARMSET takes the owned ports of a set (R135). A shadow takes those its primary owns too and returns 0 (R171). -/
def execArm (e : Nat) (i : FX) (s : State) : Host.Outcome State Fault Refusal :=
  s.run (wfArm e i) (fun _ m => m.seqIssue e (i.rt == 0) (fun m =>
    let n := engInst e
    let m := m.when (m.flag (aSEQ_STBY n) fSEQ_STBY_LIVE) (fun m => m.modSeq n (fun q => { q with live := true }))
    let sh := m.inShadow n
    let k := m.gn e i.rs
    let q := (m.sq n).seq
    let cnt := i.xi.toNat % 64 + 1
    if 15 < k then m.result e i.rd (if sh then 0 else 4)
    else if q.coding ∧ cnt ≠ q.len then m.result e i.rd (if sh then 0 else 2)
    else
      let all := m.pset n k
      let mine (o : Option Nat) : Bool := o == some n || (sh && o == some (m.fld (aSEQ_STBY n) fSEQ_STBY_FOR))
      let own := all.filter (fun p => mine (m.ownerOf p))
      let m := m.modSeq n (fun q => { q with armset := own, armn := cnt, armh := i.xi.toNat / 64 % 8 })
      let m := m.setFld (aSEQ_ARMST n) fSEQ_ARMST_SET k
      m.result e i.rd (if sh ∨ own.length = all.length then 0 else if own.isEmpty then 3 else 1)))

/-- arm with CLOSE: the open cells of the owned ports of a set close, short (R135). -/
def execArmClose (e : Nat) (i : FX) (s : State) : Host.Outcome State Fault Refusal :=
  s.run (wfArmClose e i) (fun _ m => m.seqIssue e (i.rt == 0 && i.xi &&& 0x1FF == 0) (fun m =>
    let n := engInst e
    let m := m.when (m.flag (aSEQ_STBY n) fSEQ_STBY_LIVE) (fun m => m.modSeq n (fun q => { q with live := true }))
    let sh := m.inShadow n
    let k := m.gn e i.rs
    if 15 < k then m.result e i.rd (if sh then 0 else 4)
    else
      let own := (m.pset n k).filter (fun p => m.ownerOf p == some n)
      (m.when (!sh) (fun m => own.foldl Mach.closeCell m)).result e i.rd 0))

/-- code: selects a firing code (R134). -/
def execCode (e : Nat) (i : FX) (s : State) : Host.Outcome State Fault Refusal :=
  s.run (wfCode e i) (fun _ m => m.seqIssue e (i.xi == 0) (fun m =>
    let n := engInst e
    let sh := m.inShadow n
    let c := m.gn e i.rs
    let l := m.gn e i.rt
    if 16383 < c ∨ l < 8 ∨ 64 < l then m.result e i.rd (if sh then 0 else 1)
    else if !m.codeAllowed c then m.result e i.rd (if sh then 0 else 2)
    else
      let m := m.when (!sh) (fun m => m.closeArmed n)
      (m.modSeq n (fun q => { q with code := c, len := l, step := 0, coding := true, armn := l })).result e i.rd 0))

/-- code off. -/
def execCodeOff (e : Nat) (i : FX) (s : State) : Host.Outcome State Fault Refusal :=
  s.run (wfCodeOff e i) (fun _ m => m.seqIssue e (i.xi == 1 && i.rs == 0 && i.rt == 0) (fun m =>
    let n := engInst e
    let m := m.when (!m.inShadow n) (fun m => m.closeArmed n)
    (m.modSeq n (fun q => { q with coding := false })).result e i.rd 0))

/-- pat: the emitter pattern; rd shows which of it is held. -/
def execPat (e : Nat) (i : FX) (s : State) : Host.Outcome State Fault Refusal :=
  s.run (wfPat e i) (fun _ m => m.seqIssue e (i.xi == 0) (fun m =>
    let v := m.g' e i.rs
    let hold := m.fld (aEMT_HOLD (m.gn e i.rt % 16)) fEMT_HOLD_HOLD
    (m.modSeq (engInst e) (fun q => { q with pat := v })).result e i.rd (if m.matrix then 0 else word (v.toNat % 65536 &&& hold))))

/-- The ports a zoom names, or none (rd = 1). -/
def Mach.zoomPorts (m : Mach) (e : Nat) (i : FX) : Option (List Nat) :=
  let set_ := (m.e e).seq.armset
  let p := m.gn e i.rt
  if i.xi.getLsbD 2 then some set_ else if set_.contains p then some [p] else none

/-- zoom: places barchan window WIN of the open cells, for the shots that follow (R138). -/
def execZoom (e : Nat) (i : FX) (s : State) : Host.Outcome State Fault Refusal :=
  s.run (wfZoom e i) (fun _ m => m.seqIssue e (decide (i.xi.toNat < 16)) (fun m =>
    let start := m.gn e i.rs
    if m.inShadow (engInst e) then m.result e i.rd 0
    else match m.zoomPorts e i with
      | none => m.result e i.rd 1
      | some t =>
        if 2 ^ 18 ≤ start then m.result e i.rd 2
        else (t.foldl (fun m p => m.zoomAt p (i.xi.toNat % 4) start) m).result e i.rd 0))

/-- zoom with OFF. -/
def execZoomOff (e : Nat) (i : FX) (s : State) : Host.Outcome State Fault Refusal :=
  s.run (wfZoomOff e i) (fun _ m => m.seqIssue e (decide (i.xi.toNat < 16)) (fun m =>
    if m.inShadow (engInst e) then m.result e i.rd 0
    else match m.zoomPorts e i with
      | none => m.result e i.rd 1
      | some t => (t.foldl (fun m p => m.zoomOffAt p (i.xi.toNat % 4)) m).result e i.rd 0))

/-! ## wangle (R132, R133) -/

/-- The signed distance of axis `a`'s angle from a target in cycle `c`. -/
def Mach.offTarget (m : Mach) (a c target : Nat) : Int := (m.theta a c - word target).toInt

/-- wangle: rd = 3 when the axis is not running, else a wait judged every 8 cycles. -/
def execWangle (e : Nat) (i : FX) (s : State) : Host.Outcome State Fault Refusal :=
  s.run (wfWangle e i) (fun _ m => m.seqIssue e (decide (i.xi.toNat < 256)) (fun m =>
    let a := i.xi.toNat % 4
    let t := m.gn e i.rt
    if !m.axRun a then m.result e i.rd 3
    else m.waits e (.wangle a t (i.xi.getLsbD 2) (i.xi.getLsbD 3) (i.xi.toNat / 16 % 16) false false (m.offTarget a m.cyc t)) i.rd (m.gn e i.rs)))

/-- WANGLE_EVALUATION: the next evaluation, in 8-cycle steps from issue: crossing 0, timeout 1, stale 2, the lowest first (R133). -/
def execWangleEvaluation (e : Nat) (s : State) : Host.Outcome State Fault Refusal :=
  s.run (wfWangleEvaluation e) (fun _ m =>
    match (m.e e).wait with
    | .wangle a t down both trig crossed fired last =>
      let x := m.e e
      let m := m.advanceTo (x.issue + 8 * ((m.cyc - x.issue) / 8 + 1))
      let d := m.offTarget a m.cyc t
      let crossed := crossed || (if down then decide (0 < last) && decide (d ≤ 0) else decide (last < 0) && decide (0 ≤ d))
      let age := signed 32 (m.cyc + 2 ^ 32 - (m.ax a).pubT % 2 ^ 32)
      let limit : Int := 800 * (max 1 (m.fld (aSEQ_FIRECFG (engInst e)) fSEQ_FIRECFG_STALE) : Nat)
      if crossed && (!both || fired) then m.resume e 0
      else if x.limit ≠ 0 ∧ x.issue + x.limit ≤ m.cyc then m.resume e 1
      else if limit < age then m.resume e 2
      else m.modE e (fun x => { x with wait := .wangle a t down both trig crossed fired d })
    | _ => m)

/-! ## Requests (R127, R131) -/

/-- A request of sequencer `n` as it issues, before its descriptor is built. -/
def Mach.ask (m : Mach) (n : Nat) (x : Shot) : Mach :=
  { m with emt := { m.emt with nextId := m.emt.nextId + 1, shots := m.emt.shots ++ [{ x with id := m.emt.nextId, sq := n, issue := m.cyc }] } }

/-- A shot with nothing decided. -/
def Shot.blank : Shot :=
  { id := 0, sq := 0, stage := .asked, proof := false, walk := 0, index := 0, str := 0, emit := 0, charge := 0, width := 0, bins := 0
    issue := 0, edge := 0, coded := false, code := 0, step := 0, pos := 0, ports := [], hctx := 0, n := 1, covloss := false
    heldPat := 0, pre := 0, slot := 0, framed := false }

/-- A fire issues (R134, R139): the code step advances, ports are armed, and outside shadow the request is made. A coded fire with coding
off has no step and is not permitted. -/
def Mach.fireNow (m : Mach) (n : Nat) (i : FX) : Mach :=
  let e := 256 + n
  let m := m.applyGroups .seq (engPage e) [0]
  let q := (m.sq n).seq
  let coded := i.xi.getLsbD 0 && q.coding
  let ports := if i.xi.getLsbD 1 then [] else q.armset
  let x : Shot := { Shot.blank with
    index := m.gn e i.rs % 32, emit := q.pat.toNat, charge := m.gn e i.rt % 1024, coded := coded, code := if coded then q.code else 0
    step := if coded then q.step else 0, pos := if coded then codePos q.code q.step else 0, ports := ports, hctx := q.armh, n := q.armn
    pre := if i.xi.getLsbD 0 && !q.coding then 4 else 0 }
  let id := m.emt.nextId
  let m := m.modSeq n (fun q => { q with step := if coded then (q.step + 1) % q.len else q.step, stall := none })
  if m.inShadow n then m.waits e .fire i.rd 0
  else
    let m := (m.ask n x).waits e .fire i.rd 0
    (ports.filter (fun p => m.ownerOf p == some n)).foldl (fun m p => m.portArmed p id) m

/-- fire (R139): two granted edges that have not left stall it before issue (R129). -/
def execFire (e : Nat) (i : FX) (s : State) : Host.Outcome State Fault Refusal :=
  s.run (wfFire e i) (fun _ m => m.seqIssue e (decide (i.xi.toNat < 4)) (fun m =>
    let n := engInst e
    if 2 ≤ m.edgesLeft n then (m.modSeq n (fun q => { q with stall := some i })).waits e .fire i.rd 0
    else m.fireNow n i))

/-- The emitters of string `s` up to NLAST. -/
def Mach.populated (m : Mach) (s : Nat) : Nat := 2 ^ (m.fld (aEMT_STR_CFG1 s) fEMT_STR_CFG1_NLAST + 1) - 1
/-- HOLD of string `s`. -/
def Mach.hold (m : Mach) (s : Nat) : Nat := m.fld (aEMT_HOLD s) fEMT_HOLD_HOLD

/-- proof (R139, R140). -/
def execProof (e : Nat) (i : FX) (s : State) : Host.Outcome State Fault Refusal :=
  s.run (wfProof e i) (fun _ m => m.seqIssue e (i.xi == 0 && i.rt == 0) (fun m =>
    let n := engInst e
    let m := m.applyGroups .seq (engPage e) [0]
    let s := m.gn e i.rs % 16
    let m := m.waits e .proof i.rd 0
    if m.inShadow n then m else m.ask n { Shot.blank with proof := true, index := s, emit := m.populated s }))

/-- proof with WALK: an isolation walk of string s starts (R161); a second one on the string returns 4. -/
def execProofWalk (e : Nat) (i : FX) (s : State) : Host.Outcome State Fault Refusal :=
  s.run (wfProofWalk e i) (fun _ m => m.seqIssue e (i.xi == 1 && i.rt == 0) (fun m =>
    let n := engInst e
    let m := m.applyGroups .seq (engPage e) [0]
    let s := m.gn e i.rs % 16
    let todo := bitsOf 16 (m.populated s &&& (0xFFFF - m.hold s))
    if m.inShadow n then m.waits e (.walk s) i.rd 0
    else if m.emt.walks.any (fun w => w.str == s) then m.result e i.rd 4
    else if todo.isEmpty then (m.setFld (aEMT_STR_STAT s) fEMT_STR_STAT_DEAD 1).result e i.rd 8
    else
      let w : Walk := { str := s, sq := n, todo := todo, all := ofBits todo, newly := 0, seen := 0, final := false, due := m.cyc, done := none }
      ({ m with emt := { m.emt with walks := m.emt.walks ++ [w] } }.showWalks).waits e (.walk s) i.rd 0))

/-! ## Isolation walks (R161) -/

/-- The walk of string `s`, changed. -/
def Mach.modWalk (m : Mach) (s : Nat) (f : Walk → Walk) : Mach :=
  { m with emt := { m.emt with walks := m.emt.walks.map (fun w => if w.str = s then f w else w) } }
/-- The spacing of walk shots in cycles. -/
def Mach.gap (m : Mach) : Nat := 800 * max 1 (m.fld aEMT_PROOF fEMT_PROOF_GAP)

/-- A walk ends with status `rd`, 32 cycles after its last edge at `t` in LSB. -/
def Mach.walkEnd (m : Mach) (w : Walk) (rd t : Nat) : Mach :=
  let m := { m with emt := { m.emt with walks := m.emt.walks.filter (fun x => x.str != w.str) } }.showWalks
  match (m.sq w.sq).wait with
  | .walk _ => m.resumeAt (256 + w.sq) (t / 64 + 32) rd
  | _ => m

/-- Every single-emitter shot of a walk is over and none was seen: its holds are undone and the string is DEAD. -/
def Mach.walkDead (m : Mach) (w : Walk) (t : Nat) : Mach :=
  let a := aEMT_HOLD w.str
  let m := m.setFld a fEMT_HOLD_HOLD (m.hold w.str &&& (0xFFFF - w.newly))
  (m.setFld (aEMT_STR_STAT w.str) fEMT_STR_STAT_DEAD 1).walkEnd w 8 t

/-- A single-emitter shot of the walk of string `s` is still out. -/
def Mach.walkOut (m : Mach) (s : Nat) : Bool := m.emt.shots.any (fun x => x.walk == 1 && x.index == s)

/-- A shot of a walk is over: `res` 0 start, 1 NOSTART, 2 blocked at the gate. -/
def Mach.walkOutcome (m : Mach) (x : Shot) (res : Nat) : Mach :=
  let m := if x.walk = 1 then m.modWalk x.index (fun w => { w with
      seen := if res = 0 then w.seen + 1 else w.seen, newly := if res = 1 then w.newly ||| x.emit else w.newly }) else m
  let m := m.when (x.walk == 1 && res == 1) (fun m => m.setFld (aEMT_HOLD x.index) fEMT_HOLD_HOLD (m.hold x.index ||| x.emit))
  match m.emt.walks.find? (fun w => w.str == x.index) with
  | none => m
  | some w =>
    if x.walk = 2 then
      if res = 0 then (m.setFld (aEMT_STR_STAT x.index) fEMT_STR_STAT_FLAG 0).walkEnd w (if w.newly = 0 then 0 else 7) x.edge
      else m.walkEnd w 6 x.edge
    else if w.todo.isEmpty && !w.final && !m.walkOut x.index && w.seen == 0 then m.walkDead w x.edge
    else m

/-- A shot of a walk is denied with status `st`: busy and late ones are tried again a GAP later, others end the walk. -/
def Mach.walkDenied (m : Mach) (x : Shot) (st : Nat) : Mach :=
  match m.emt.walks.find? (fun w => w.str == x.index && w.sq == x.sq) with
  | none => m
  | some w =>
    if st = 2 ∨ st = 3 then
      m.modWalk w.str (fun w => if x.walk = 2 then { w with final := false } else { w with todo := bitsOf 16 x.emit ++ w.todo })
    else
      let last := m.emt.shots.foldl (fun t y => if y.walk ≠ 0 ∧ y.sq = x.sq then max t y.edge else t) 0
      m.walkEnd w st last

/-- WALK_SHOT: the next shot of the walk on string s is requested: the next emitter's, or the final one once all outcomes are known. -/
def execWalkShot (s : Nat) (st : State) : Host.Outcome State Fault Refusal :=
  st.run (wfWalkShot s) (fun _ m =>
    match m.emt.walks.find? (fun w => w.str == s) with
    | none => m
    | some w =>
      let go (m : Mach) (emit kind : Nat) (f : Walk → Walk) : Mach :=
        let m := m.advanceTo w.due
        (m.ask w.sq { Shot.blank with proof := true, walk := kind, index := s, str := s, emit := emit }).modWalk s
          (fun w => { f w with due := m.cyc + m.gap })
      if w.final then m
      else match w.todo with
        | e :: t => go m (2 ^ e) 1 (fun w => { w with todo := t })
        | [] => if m.walkOut s then m else go m (w.all &&& (0xFFFF - w.newly)) 2 (fun w => { w with final := true }))

/-! ## Descriptors (R130, R131, R150, R151) -/

/-- The pulse width of a string in the temperature band in force (R151). -/
def Mach.pulseWidth (m : Mach) (s : Nat) : Nat :=
  let b := m.fld aTHM_STAT fTHM_STAT_BAND
  let w := (m.reg (if b < 4 then aEMT_PW0 s else aEMT_PW1 s)).toNat / 2 ^ (8 * (b % 4)) % 256
  if w = 0 then 0 else min 160 (max 13 w)

/-- The entries of the trim table a shot uses: of its emitters, or of its row (R150). -/
def Mach.trims (m : Mach) (index emit : Nat) : List Nat :=
  if m.matrix then [index] else (bitsOf 16 emit).map (fun e => 16 * index + e)

/-- The effective charge (R150). -/
def Mach.effCharge (m : Mach) (chg index emit : Nat) : Nat :=
  let ts := (m.trims index emit).map (fun k => m.sfld (aEMT_TRIM k) fEMT_TRIM_PTRIM)
  let t := ts.foldl (fun a b => min a b) (ts.headD 0)
  min 1023 (((chg : Int) * (256 + t) + 128) / 256).toNat

/-- The wavelength bins of a shot. -/
def Mach.binsOf (m : Mach) (index emit : Nat) : Nat :=
  ofBits ((m.trims index emit).map (fun k => m.fld (aEMT_TRIM k) fEMT_TRIM_WBIN))

/-- A string may be fired by a sequencer (R141, R142, R163). -/
def Mach.permitted (m : Mach) (n s : Nat) : Bool :=
  (m.fld (aEMT_SQCFG n) fEMT_SQCFG_STRMASK).testBit s && m.flag (aEMT_STR_CFG0 s) fEMT_STR_CFG0_EN
    && !m.flag (aEMT_STR_STAT s) fEMT_STR_STAT_DEAD

/-- The ports of a shot: those still owned, and in a coded caravan only those with an open cell or at step 0 (R136, R137); the numbers
left out for either reason. -/
def Mach.shotPorts (m : Mach) (x : Shot) : List Nat × Nat × Nat :=
  let own := x.ports.filter (fun p => m.ownerOf p == some x.sq)
  let coding := (m.sq x.sq).seq.coding
  let ok := own.filter (fun p => !coding || (x.coded && x.step == 0) || (m.p p).openCell.isSome)
  (ok, x.ports.length - own.length, own.length - ok.length)

/-- The descriptor of a request in its decision cycle, and whether it is permitted. -/
def Mach.describe (m : Mach) (x : Shot) : Shot × Bool :=
  let mat := m.matrix
  let real := mat || decide (x.index < 16)
  let str := if mat then 0 else x.index
  let hold := if mat || !real then 0 else m.hold x.index
  let pop := if !real then 0 else if mat && !x.proof then 2 ^ 32 - 1 else m.populated x.index
  let pat := x.emit
  let emit := pat &&& pop &&& (2 ^ 32 - 1 - hold)
  let held := if x.proof then 0 else pat % 65536 &&& hold
  let fdly := if real then m.fld (aEMT_STR_CFG1 str) fEMT_STR_CFG1_FDLY else 0
  let chg := if x.proof then m.fld aEMT_PROOF fEMT_PROOF_PROOF_CHG else x.charge
  let width := if real then m.pulseWidth str else 0
  let y := { x with
    str := str, emit := emit, charge := m.effCharge chg x.index emit, width := width, bins := m.binsOf x.index emit
    edge := 64 * (x.issue + m.lead x.sq + x.pos) + fdly, ports := (m.shotPorts x).1, covloss := held != 0, heldPat := held }
  (y, real && x.pre == 0 && m.permitted x.sq str && emit != 0 && width != 0)

/-! ## String arbiter and bus scheduler (R141 to R149) -/

/-- MINREP of a string in LSB. -/
def Mach.minrep (m : Mach) (s : Nat) : Nat := 512 * max 45 (m.fld (aEMT_STR_CFG0 s) fEMT_STR_CFG0_MINREP)

/-- Two edges lie less than `r` apart. -/
def near (r a b : Nat) : Bool := decide (a < b + r) && decide (b < a + r)

/-- The order in which the arbiter prefers requests for a string (R145). -/
def Mach.arbKey (m : Mach) (x : Shot) : Nat :=
  16 * (7 - m.fld (aEMT_SQCFG x.sq) fEMT_SQCFG_PRI) + (x.sq + 31 - mapGet 15 m.emt.tie x.str) % 16

/-- A request placed by preference. -/
def Mach.arbInsert (m : Mach) (x : Shot) : List Shot → List Shot
  | [] => [x]
  | y :: t => if m.arbKey x < m.arbKey y then x :: y :: t else y :: m.arbInsert x t

/-- The requests of one cycle for a string, preferred first: the ids that lose, and the first winner over an equal priority. -/
def Mach.contest (m : Mach) (r : Nat) : List Shot → List Shot → List Nat × Option Nat
  | _, [] => ([], none)
  | won, x :: t =>
    match won.find? (fun y => near r x.edge y.edge) with
    | none => m.contest r (won ++ [x]) t
    | some y =>
      let (l, w) := m.contest r won t
      let same := m.fld (aEMT_SQCFG x.sq) fEMT_SQCFG_PRI == m.fld (aEMT_SQCFG y.sq) fEMT_SQCFG_PRI
      (x.id :: l, if same then some y.sq else w)

/-- The ids that lose a tie among permitted requests, string by string, with the tie-winners moved (R145). -/
def Mach.ties (m : Mach) (l : List Shot) : List Nat × Mach :=
  (List.range 16).foldl (fun (lost, m) s =>
    let mine := (l.filter (fun x => x.str == s)).foldl (fun acc x => m.arbInsert x acc) []
    let (lo, w) := m.contest (m.minrep s) [] mine
    (lost ++ lo, match w with
      | some q => { m with emt := { m.emt with tie := mapPut 15 m.emt.tie s q } }
      | none => m)) ([], m)

/-- A granted edge or a reservation of the string lies less than MINREP from the request's edge (R144). -/
def Mach.stringBusy (m : Mach) (x : Shot) : Bool :=
  let r := m.minrep x.str
  m.emt.shots.any (fun y => y.str == x.str && (y.stage == .granted || (y.stage == .reserved && y.pre == 0)) && near r x.edge y.edge)
    || m.emt.edges.any (fun y => y.1 == x.str && near r x.edge y.2)

/-- The latest latch instant at or before `c` and at or after `lo` at least 20 cycles from every reserved one (R148, R149). -/
def latestSlot (slots : List Nat) (lo : Nat) : Nat → Nat → Option Nat
  | 0, _ => none
  | f + 1, c =>
    if c < lo then none
    else match (slots.filter (fun s => near 20 c s)).min? with
      | none => some c
      | some s => if s < 20 then none else latestSlot slots lo f (s - 20)

/-- The frame slot of a request (R149, R154). -/
def Mach.frameSlot (m : Mach) (x : Shot) : Option Nat :=
  let prev := m.emt.shots.foldl (fun (b : Nat × Nat) y =>
    if y.stage = .granted ∧ y.index = x.index ∧ y.edge < x.edge ∧ b.1 ≤ y.edge then (y.edge, y.edge + 4 * y.width) else b)
      (0, mapGet 0 m.emt.pulse x.index)
  let lo := max (x.issue + 180) (if prev.2 = 0 then 0 else divCeil (prev.2 + 1024) 64)
  let pre := if m.matrix then 512 * min 38 (m.fld aEMT_MODE fEMT_MODE_PRE) + 1024 else 0
  let last (lead : Nat) : Nat := (x.edge - max lead pre) / 64
  let ll := 128 * max 160 (m.fld aEMT_BUS fEMT_BUS_LATCH_LEAD)
  let n := m.emt.slots.length + 1
  match latestSlot m.emt.slots lo n (last ll) with
  | some l => some l
  | none => latestSlot m.emt.slots lo n (last 20480)

/-- A busy denial counts; at LIMIT the sequencer starves (R146). -/
def Mach.busyCount (m : Mach) (n : Nat) : Mach :=
  let k := mapGet 0 m.emt.busy n + 1
  let m := { m with emt := { m.emt with busy := mapPut 0 m.emt.busy n k } }
  let lim := m.fld aEMT_STARVE fEMT_STARVE_LIMIT
  let st := m.fld aEMT_ARBSTAT fEMT_ARBSTAT_STARVE
  if lim ≠ 0 ∧ lim ≤ k ∧ !st.testBit n then
    (m.setFld aEMT_ARBSTAT fEMT_ARBSTAT_STARVE (st ||| 2 ^ n)).report (srcId 0x04 n) (srcId 0x04 n) 0x26 0
  else m

/-- A shot of the list replaced. -/
def Mach.putShot (m : Mach) (x : Shot) : Mach :=
  { m with emt := { m.emt with shots := m.emt.shots.map (fun y => if y.id = x.id then x else y) } }
/-- A shot of the list removed. -/
def Mach.dropShot (m : Mach) (x : Shot) : Mach :=
  { m with emt := { m.emt with shots := m.emt.shots.filter (fun y => y.id != x.id) } }

/-- One request judged in its decision cycle: the lowest status that applies (R139). A denial counts its shot (R136). -/
def Mach.judge (m : Mach) (lost : List Nat) (x : Shot) (perm : Bool) : Mach :=
  let real := m.matrix || decide (x.index < 16)
  let slot := m.frameSlot x
  let st := if !real then 4 else if lost.contains x.id || m.stringBusy x then 2
    else if m.flag aEMT_STAT fEMT_STAT_ALLOFF || slot.isNone then 3 else if !perm then 4 else 0
  let deny := aSEQ_DENY x.sq
  match st with
  | 0 =>
    let l := slot.getD 0
    { m.putShot { x with stage := .reserved, slot := l } with emt := { (m.putShot { x with stage := .reserved, slot := l }).emt with
        slots := m.emt.slots ++ [l] } }
  | st =>
    let m := m.putShot { x with stage := .reserved, pre := st }
    let m := if st = 2 then (m.satInc deny fSEQ_DENY_BUSY).busyCount x.sq
      else if st = 3 then (m.satInc deny fSEQ_DENY_LATE).satInc aEMT_STAT fEMT_STAT_LATECNT
      else m.satInc deny fSEQ_DENY_NOTPERM
    m.countShot x false

/-- The earliest issue cycle of the requests not yet decided. -/
def Mach.nextAsk (m : Mach) : Option Nat := ((m.emt.shots.filter (fun x => x.stage == .asked)).map (fun x => x.issue)).min?

/-- Requests by ascending sequencer. -/
def insertBySq (x : Shot) : List Shot → List Shot
  | [] => [x]
  | y :: t => if x.sq < y.sq then x :: y :: t else y :: insertBySq x t

/-- STRING_ARBITRATION: the string arbiter and the bus scheduler decide the requests of one cycle (R127). -/
def execStringArbitration (s : State) : Host.Outcome State Fault Refusal :=
  s.run wfStringArbitration (fun _ m =>
    match m.nextAsk with
    | none => m
    | some c =>
      let m := m.advanceTo (c + 8)
      let m := { m with emt := { m.emt with slots := m.emt.slots.filter (fun l => decide (m.cyc < l + 20)) } }
      let asked := (m.emt.shots.filter (fun x => x.stage == .asked && x.issue == c)).foldl (fun l x => insertBySq x l) []
      let m := asked.foldl (fun m x =>
        let (_, un, al) := m.shotPorts x
        (m.satAdd (aSEQ_SKIP x.sq) fSEQ_SKIP_UNOWNED un).satAdd (aSEQ_SKIP x.sq) fSEQ_SKIP_CODE_ALIGN al) m
      let ds := asked.map m.describe
      let (lost, m) := m.ties ((ds.filter (fun d => d.2)).map (fun d => d.1))
      ds.foldl (fun m d => m.judge lost d.1 d.2) m)

/-! ## The guard's decision (R127, R169) -/

/-- A sequencer that is to stop does so when nothing of it is undecided or granted any more (R168, R170). -/
def Mach.seqSettled (m : Mach) (n : Nat) : Mach :=
  match (m.sq n).stopping with
  | some c => if (m.sq n).active then m.stopSeq n c else m
  | none => m

/-- The instruction behind a denied shot ends with its status. -/
def Mach.shotDenied (m : Mach) (x : Shot) (st : Nat) : Mach :=
  let m := m.dropShot x
  if x.walk ≠ 0 then m.walkDenied x st
  else match (m.sq x.sq).wait with
    | .fire | .proof => m.resume (256 + x.sq) (word st)
    | _ => m

/-- A shot is granted: counters, the cells of its ports, and a fire retires (R127, R136, R146, R159). -/
def Mach.shotGranted (m : Mach) (x : Shot) : Mach :=
  let m := m.putShot { x with stage := .granted }
  let m := { m with emt := { m.emt with
    busy := mapErase m.emt.busy x.sq, lastGrant := mapInsert (mapErase m.emt.lastGrant x.str) x.str m.cyc } }
  let m := (m.wrapInc (aSEQ_SHOTS x.sq) fSEQ_SHOTS_SHOTS).wrapInc aEMT_GRANTS fEMT_GRANTS_GRANTS
  let m := m.countShot x true
  match (m.sq x.sq).wait with
  | .fire => m.resume (256 + x.sq) 0
  | _ => m

/-- A fire or proof of a sequencer in shadow ends when it would have for its primary (R171). -/
def Mach.shadowEnd (m : Mach) (n : Nat) : Mach :=
  let x := m.sq n
  let e := 256 + n
  match x.wait with
  | .fire => if x.seq.stall.isSome then m else (m.advanceTo (x.issue + 160)).resume e 0
  | .proof => m.resumeAt e (x.issue + m.lead n + 32) 0
  | .walk s =>
    let k := popCount 16 (m.populated s &&& (0xFFFF - m.hold s))
    m.resumeAt e (x.issue + k * m.gap + m.lead n + 32) 0
  | _ => m

/-- GUARD_DECISION: at D the guard decides the request of sequencer n, and the fire retires (R127, R200, R202). `late`: no answer by D. -/
def execGuardDecision (n : Nat) (late : Bool) (s : State) : Host.Outcome State Fault Refusal :=
  s.run (wfGuardDecision n late) (fun _ m =>
    match m.emt.shots.find? (fun x => x.sq == n && x.stage == .reserved) with
    | none => if m.emt.shots.any (fun x => x.sq == n && (x.stage == .asked || x.proof)) || m.emt.walks.any (fun w => w.sq == n) then m
        else m.shadowEnd n
    | some x =>
      let m := m.advanceTo (x.issue + 160)
      let m := if x.pre ≠ 0 then m.shotDenied x x.pre
        else
          let (r, m) := m.guardDecide x late
          if r = 0 then m.shotGranted x
          else
            let m := { m with emt := { m.emt with slots := m.emt.slots.filter (fun l => l != x.slot) } }
            ((m.satInc (aSEQ_DENY n) fSEQ_DENY_GUARD).countShot x false).shotDenied x 1
      m.seqSettled n)

/-! ## Frames and edges (R147 to R149, R128) -/

/-- The pattern frame of a shot (R147). -/
def Mach.frameOf (m : Mach) (x : Shot) : Nat :=
  let mat := m.matrix
  let ty := if x.proof then 3 else if mat then 2 else 1
  let pre := if mat && !x.proof then min 38 (m.fld aEMT_MODE fEMT_MODE_PRE) else 0
  let mask := if mat && !x.proof then x.emit else 65535 - x.emit % 65536
  let low := 2 ^ 43 * x.charge + 2 ^ 38 * x.index + 2 ^ 32 * pre + mask
  2 ^ 61 * ty + 2 ^ 53 * crc8 56 (2 ^ 53 * ty + low) 0 + low

/-- A frame is shifted out; EMP_LATCH rises at its latch instant. -/
def Mach.sendFrame (m : Mach) (x : Shot) : Mach :=
  let f := m.frameOf x
  let m := m.putShot { x with framed := true }
  { m with emt := { m.emt with frame := f, latch := 64 * x.slot } }

/-- The shot least by a key. -/
def leastShot (key : Shot → Nat) : List Shot → Option Shot
  | [] => none
  | x :: t => match leastShot key t with
    | none => some x
    | some y => if key y < key x then some y else some x

/-- PATTERN_FRAME: the next frame of a granted shot goes out (R148). -/
def execPatternFrame (s : State) : Host.Outcome State Fault Refusal :=
  s.run wfPatternFrame (fun _ m =>
    match leastShot (fun x => x.slot) (m.emt.shots.filter (fun x => x.stage == .granted && !x.framed)) with
    | none => m
    | some x => (m.advanceTo x.slot).sendFrame x)

/-- A proof shot is over: the instruction retires 32 cycles after its edge (R139). -/
def Mach.proofDone (m : Mach) (x : Shot) (rd : Nat) : Mach :=
  match (m.sq x.sq).wait with
  | .proof => m.resumeAt (256 + x.sq) (x.edge / 64 + 32) rd
  | _ => m

/-- A stalled fire issues once fewer than two granted edges are left (R129). -/
def Mach.unstall (m : Mach) (n : Nat) : Mach :=
  let x := m.sq n
  match x.wait, x.seq.stall with
  | .fire, some i => if x.stopping.isNone ∧ m.edgesLeft n < 2 then m.fireNow n i else m
  | _, _ => m

/-- FIRE_EDGE: the next granted edge leaves, or meets a closed gate and is blocked (R128, R216). -/
def execFireEdge (s : State) : Host.Outcome State Fault Refusal :=
  s.run wfFireEdge (fun _ m =>
    match leastShot (fun x => x.edge) (m.emt.shots.filter (fun x => x.stage == .granted)) with
    | none => m
    | some x =>
      let m := if x.framed then m else m.sendFrame x
      let m := m.advanceToFine x.edge
      let m := if m.emt.shots.any (fun y => y.stage == .left && y.str == x.str) then m else m.latchStart x.str
      let m := { m with emt := { m.emt with
        edges := (x.str, x.edge) :: m.emt.edges.filter (fun y => decide (x.edge < y.2 + 140000))
        pulse := mapPut 0 m.emt.pulse x.index (x.edge + 4 * x.width) } }
      let m := if m.flag aGRD_STAT fGRD_STAT_GATE then
          { m.putShot { x with stage := .left, framed := true } with
            emt := { (m.putShot { x with stage := .left, framed := true }).emt with fire := some (x.str, x.edge) } }
        else
          let m := (m.dropShot x).satInc aGRD_STAT fGRD_STAT_BLOCKED
          let m := x.ports.foldl (fun m p => m.portBlocked x.id p) m
          if x.walk ≠ 0 then m.walkOutcome x 2 else if x.proof then m.proofDone x 6 else m
      (m.seqSettled x.sq).unstall x.sq)

/-! ## Optical starts (R155 to R157) -/

/-- The oldest shot on string `s` whose start is awaited. -/
def Mach.awaited (m : Mach) (s : Nat) : Option Shot :=
  leastShot (fun x => x.edge) (m.emt.shots.filter (fun x => x.stage == .left && x.str == s))

/-- The counts of consecutive NOSTART shots a shot concerns: its emitters, or its row (R156). -/
def Mach.diagKeys (m : Mach) (x : Shot) : List Nat :=
  if m.matrix then [x.index] else (bitsOf 16 x.emit).map (fun e => 16 * x.str + e)

/-- The start channel of string `s` can take a start (R247, R252). -/
def Mach.startOk (m : Mach) (s : Nat) : Bool := m.pairOk 24 && !(m.fld aTDC_STSTAT fTDC_STSTAT_FAIL).testBit s

/-- A start is accepted for a shot at raw time `t` in 1/64 LSB. -/
def Mach.started (m : Mach) (x : Shot) (t : Nat) : Mach :=
  let dly : Int := ((t + 32) / 64 : Nat) - (x.edge : Int)
  let a := aEMT_STR_DIAG x.str
  let win : Int := m.fld (aEMT_STR_CFG0 x.str) fEMT_STR_CFG0_OST_WIN
  let off := (dly - (m.fld (aEMT_STR_CFG0 x.str) fEMT_STR_CFG0_OST_DLY : Int)).natAbs
  let m := m.setFld a fEMT_STR_DIAG_LASTDLY (clampInt 0 1023 dly).toNat
  let m := m.when (decide (win < off)) (fun m => m.satInc a fEMT_STR_DIAG_SKEWCNT)
  let m := { m with emt := { m.emt with nostart := (m.diagKeys x).foldl mapErase m.emt.nostart } }
  let m := (m.dropShot x).advanceToFine (divCeil t 64)
  let m := x.ports.foldl (fun m p => m.portStart x.id x.str t p) m
  if x.walk ≠ 0 then m.walkOutcome x 0 else if x.proof then m.proofDone x 0 else m

/-- OPTICAL_START: an edge on start channel s at raw time t in 1/64 LSB: the first within 5 ns of the window is the start (R155). -/
def execOpticalStart (s t : Nat) (st : State) : Host.Outcome State Fault Refusal :=
  st.run (wfOpticalStart s t) (fun _ m =>
    match m.awaited s with
    | none => m
    | some x =>
      let dly : Int := ((t + 32) / 64 : Nat) - (x.edge : Int)
      let off := (dly - (m.fld (aEMT_STR_CFG0 s) fEMT_STR_CFG0_OST_DLY : Int)).natAbs
      if !m.startOk s || decide (m.fld (aEMT_STR_CFG0 s) fEMT_STR_CFG0_OST_WIN + 256 < off) then m else m.started x t)

/-- A shot is NOSTART: counts, FLAG at the second in a row of an emitter, and its ports (R156, R157, R231). -/
def Mach.notStarted (m : Mach) (x : Shot) : Mach :=
  let a := aEMT_STR_STAT x.str
  let m := m.satInc a fEMT_STR_STAT_NOSTART
  let m := { m with emt := { m.emt with nostart := (m.diagKeys x).foldl (fun l k => mapPut 0 l k (mapGet 0 l k + 1)) m.emt.nostart } }
  let hit := (m.diagKeys x).any (fun k => decide (2 ≤ mapGet 0 m.emt.nostart k))
  let m := m.when (hit && !m.flag a fEMT_STR_STAT_FLAG) (fun m =>
    (m.setFld a fEMT_STR_STAT_FLAG 1).report (srcId 0x05 x.str) (srcId 0x05 x.str) 0x2A 0)
  let m := x.ports.foldl (fun m p => m.portNoStart x.id p) (m.dropShot x)
  if x.walk ≠ 0 then m.walkOutcome x 1 else if x.proof then m.proofDone x 6 else m

/-- NOSTART: no start has come by 5 ns after the window of string s closed (R155). -/
def execNoStart (s : Nat) (st : State) : Host.Outcome State Fault Refusal :=
  st.run (wfNoStart s) (fun _ m =>
    match m.awaited s with
    | none => m
    | some x => (m.advanceToFine (m.startEnd s x.edge)).notStarted x)

/-! ## Proof late, handover (R159, R172) -/

/-- PROOF_LATE: an enabled string has gone 101 ms without a granted shot (R159). -/
def execProofLate (s : Nat) (st : State) : Host.Outcome State Fault Refusal :=
  st.run (wfProofLate s) (fun _ m =>
    match m.emt.lastGrant.find? (fun x => x.1 == s) with
    | none => m
    | some (_, c) =>
      let m := m.advanceTo (c + 80800000)
      let m := { m with emt := { m.emt with lastGrant := mapErase m.emt.lastGrant s } }
      (m.setFld (aEMT_STR_STAT s) fEMT_STR_STAT_PROOF_LATE 1).report (srcId 0x05 s) (srcId 0x05 s) 0x2B 0)

/-- A word of the register page of EMT set in both copies. -/
def Mach.setBoth (m : Mach) (a : Nat) (w : Word) : Mach := (m.setReg a w).setShadow a w

/-- SEQUENCER_HANDOVER: the standby of sequencer p takes its caravan over in one cycle (R172). -/
def execSequencerHandover (p : Nat) (st : State) : Host.Outcome State Fault Refusal :=
  st.run (wfSequencerHandover p) (fun _ m =>
    match m.standbyOf p with
    | none => m
    | some s =>
      let ports := m.ownedBy p
      let m := m.setBoth (aEMT_SQCFG s) (m.reg (aEMT_SQCFG p))
      let m := ports.foldl (fun m q =>
        let f : Fld := ⟨5 * (q % 6) + 3, 5 * (q % 6)⟩
        let a := aEMT_PORTOWN (q / 6)
        (m.setReg a (f.set (m.reg a) s)).setShadow a (f.set (m.shadowReg a) s)) m
      let m := ports.foldl Mach.closeCell m
      let m := m.setFld (aSEQ_STBY s) fSEQ_STBY_LIVE 1
      if (m.sq p).active then m.stopSeq p 6 else m.modE (256 + p) (fun x => { x with stopCause := 6 }))

end Sys2Proof.Machine
end

