-- ==== Sys2Proof/Machine/Saf.lean ====
section
/-!
DEFINITION. Safety functions (R420 to R457): the signed configuration and its activation, protective fields and periods, channel B,
field-set switching, safety inputs and test pulses, OSSD pairs, and safe messages.
-/
namespace Sys2Proof.Machine

/-- The register page, the records, channel B's ring and the staging area of SAF (R423, R432). -/
def safPage : Nat := 0xA000000
def safRing : Nat := 0xA020000
def safStage : Nat := 0xA040000
/-- LENGTH of a safety image. -/
def safLen : Nat := 0x21000

/-- A configuration is evaluated: one has been activated, and channel B's confirmation has not failed (R424, R429). -/
def Mach.safRuns (m : Mach) : Bool := m.saf.periodCyc.isSome

/-! ## Inputs as the pairs see them (R439, R441, R442) -/

/-- What evaluator `ev` (0 A, 1 B) holds of input `i`. -/
def Mach.safIn (m : Mach) (ev i : Nat) : SafIn := mapGet SafIn.reset m.saf.ins (8 * ev + i)
/-- What evaluator `ev` holds of input `i`, changed. -/
def Mach.modSafIn (m : Mach) (ev i : Nat) (f : SafIn → SafIn) : Mach :=
  { m with saf := { m.saf with ins := mapPut SafIn.reset m.saf.ins (8 * ev + i) (f (m.safIn ev i)) } }
/-- The field of SAF_IN_i that holds an evaluator's state. -/
def safStF (ev : Nat) : Fld := if ev = 0 then fSAF_IN_STATE_A else fSAF_IN_STATE_B
/-- The state of input `i` in evaluator `ev`. -/
def Mach.inSt (m : Mach) (ev i : Nat) : Nat := m.fld (aSAF_IN i) (safStF ev)

/-- Input `i` allows its pairs in evaluator `ev`: types 1, 2 and 4 in OK, type 3 in ACTIVE, the others always (R439, R441). -/
def Mach.inAllows (m : Mach) (ev i : Nat) : Bool :=
  match m.safInType i with
  | 1 | 2 | 4 => m.inSt ev i == 2
  | 3 => m.inSt ev i == 8
  | _ => true

/-- Every input of OSSDMASK allows pair `p` in both evaluators. -/
def Mach.inputsAllow (m : Mach) (p : Nat) : Bool :=
  (List.range 8).all (fun i => !(m.safInMask i).testBit p || (m.inAllows 0 i && m.inAllows 1 i))

/-! ## OSSD pairs (R447 to R449) -/

/-- The cause that keeps pair `p` off, 0 when every condition of R447 but the restart interlock holds. Among several the order is
lockout, device state, cold hold, field switching, heartbeat, input, field (DESIGN CHOICE, see the log). -/
def Mach.ossdWhy (m : Mach) (p : Nat) : Nat :=
  if m.ossdSt p = 4 then 7
  else if m.dev.st ≠ .running ∨ m.flag aSAF_STAT fSAF_STAT_ACTIVE = false then 5
  else if m.flag aTHM_STAT fTHM_STAT_COLD then 6
  else if m.flag aSAF_STAT fSAF_STAT_FSWERR then 3
  else if !m.heart then 4
  else if !m.inputsAllow p then 2
  else if (m.ossd p).offA || !(m.ossd p).bEn then 1 else 0

/-- Pair `p` judged: on or switching on it goes off when a condition fails. Channel A's field verdict alone leaves the low-side switch
to channel B's gate, which opens with EN = 0 or at the deadline (R433, R447). -/
def Mach.ossdJudge1 (m : Mach) (p : Nat) : Mach :=
  let why := m.ossdWhy p
  let st := m.ossdSt p
  let on := st == 1 || st == 2 || st == 3
  if why = 0 then m
  else if why = 1 ∧ (m.ossd p).bEn then
    m.when on (fun m => let ls := m.fld (aSAF_OSSD p) fSAF_OSSD_LS; (m.ossdOff p 1).setFld (aSAF_OSSD p) fSAF_OSSD_LS ls)
  else m.ossdOff p why

/-- Both pairs judged. -/
def Mach.ossdJudge (m : Mach) : Mach := (m.ossdJudge1 0).ossdJudge1 1

/-- Pair `p` needs a RESTART. -/
def Mach.needRestart (m : Mach) (p : Nat) : Mach :=
  (m.modOssd p (fun x => { x with needRst := true })).setFld (aSAF_OSSD p) fSAF_OSSD_WAIT_RST 1

/-! ## Field-set switching (R437, R438, R443) -/

/-- The code of the field-select inputs, evaluator A's; none while one is undecided. -/
def Mach.inputCode (m : Mach) : Option Nat :=
  let sel := (List.range 8).filter (fun i => m.safInType i == 5)
  if sel.all (fun i => m.inSt 0 i == 9 || m.inSt 0 i == 10) then
    some (sel.foldr (fun i acc => bit (m.inSt 0 i == 10) + 2 * acc) 0)
  else none

/-- The selection code of the sources in use; none when it is undecided or the sources differ (R437). -/
def Mach.selCode (m : Mach) : Option Nat :=
  match m.safFsrc with
  | 0 => m.inputCode
  | 1 => m.saf.msgCode
  | _ => if m.inputCode = m.saf.msgCode then m.inputCode else none

/-- Selection entry `k`: V and SET. -/
def Mach.selEntry (m : Mach) (k : Nat) : Bool × Nat :=
  let w := m.safW (0x80 + 4 * k)
  (w.testBit 31, w % 32)

/-- The code shown follows its sources; a code that changes starts to hold anew (R438). -/
def Mach.codeChanged (m : Mach) : Mach :=
  if !m.safRuns then m
  else
    let c := m.selCode
    let v := match c with | some k => (m.selEntry k).1 | none => false
    let n := c.getD 0
    if bit v = m.fld aSAF_FIELD fSAF_FIELD_CVALID ∧ n = m.fld aSAF_FIELD fSAF_FIELD_CODE then m
    else
      let m := ((m.setFld aSAF_FIELD fSAF_FIELD_CVALID (bit v)).setFld aSAF_FIELD fSAF_FIELD_CODE n).setFld aSAF_FIELD fSAF_FIELD_PEND 0
      { m with saf := { m.saf with codeCyc := m.cyc, noCode := some (m.saf.noCode.getD m.cyc) } }

/-- The valid code shown has held for 2 ms. -/
def Mach.codeHeld (m : Mach) : Bool :=
  m.safRuns && m.flag aSAF_FIELD fSAF_FIELD_CVALID && decide (m.saf.codeCyc + 1600000 ≤ m.cyc)

/-- A valid code that has held for 2 ms ends FSWERR, and its set awaits the period end (R438). The device notices it in the first
safety command that comes after it. -/
def Mach.selSettle (m : Mach) : Mach :=
  if !m.codeHeld then m
  else
    let m := { m with saf := { m.saf with noCode := none } }
    let m := m.setFld aSAF_STAT fSAF_STAT_FSWERR 0
    let set := (m.selEntry (m.fld aSAF_FIELD fSAF_FIELD_CODE)).2
    if m.saf.setOn ∧ set = m.fld aSAF_FIELD fSAF_FIELD_SET then m
    else (m.setFld aSAF_FIELD fSAF_FIELD_PEND 1).setFld aSAF_FIELD fSAF_FIELD_NEXT set

/-- At a period end a pending set takes effect (R438). -/
def Mach.applySet (m : Mach) : Mach :=
  if m.flag aSAF_FIELD fSAF_FIELD_PEND then
    let m := (m.setFld aSAF_FIELD fSAF_FIELD_SET (m.fld aSAF_FIELD fSAF_FIELD_NEXT)).setFld aSAF_FIELD fSAF_FIELD_PEND 0
    let m := m.satInc aSAF_FIELD fSAF_FIELD_FSWCNT
    { m with saf := { m.saf with setOn := true } }
  else m

/-- A safety command: what time has settled first, and both pairs judged after it. -/
def Mach.safCmd (m : Mach) (f : Mach → Mach) : Mach := (f m.selSettle).ossdJudge

/-! ## Safety inputs (R440 to R443) -/

/-- One step of the states of types 1, 2 and 4, from the released levels of the two channels: the next state and the channel that
moved first (R441). -/
def inStep (c0 c1 : Bool) (st first : Nat) : Nat × Nat :=
  let f := if first = 0 then c0 else c1
  let o := if first = 0 then c1 else c0
  match st with
  | 0 => if c0 && c1 then (2, first) else if c0 then (1, 0) else if c1 then (1, 1) else (0, first)
  | 1 => if !f then (0, first) else if o then (2, first) else (1, first)
  | 2 => if c0 && c1 then (2, first) else (3, if !c0 then 0 else 1)
  | 3 => if f then (4, first) else if !o then (0, first) else (3, first)
  | 4 => if !c0 && !c1 then (0, first) else (4, first)
  | s => (s, first)

/-- One step of a two-hand function, from the buttons actuated and released (R442). -/
def twoStep (a0 a1 r0 r1 : Bool) (st first : Nat) : Nat × Nat :=
  match st with
  | 4 => if r0 && r1 then (5, first) else (4, first)
  | 5 => if r0 && r1 then (6, first) else (5, first)
  | 6 => if a0 then (7, 0) else if a1 then (7, 1) else (6, first)
  | 7 => if a0 && a1 then (8, first) else if (if first = 0 then r0 else r1) then (5, first) else (7, first)
  | 8 => if a0 && a1 then (8, first) else (5, first)
  | s => (s, first)

/-- The level of channel `c` of input `i` after the inversion of ANTI (R439). -/
def Mach.inLevel (m : Mach) (ev i c : Nat) : Bool :=
  let l := (m.safIn ev i).ch.testBit c
  if c = 1 ∧ m.safInAnti i then !l else l

/-- Input `i` takes state `st` in evaluator `ev`; a departure from OK or ACTIVE counts, and an emergency stop that leaves OK needs a
RESTART for its pairs (R445). -/
def Mach.inGoes (m : Mach) (ev i st : Nat) : Mach :=
  let old := m.inSt ev i
  if st = old then m
  else
    let left := old == 2 || old == 8
    let m := m.setFld (aSAF_IN i) (safStF ev) st
    let m := m.when (left && ev == 0) (fun m => m.satInc (aSAF_IN i) fSAF_IN_DEMANDS)
    m.when (left && m.safInType i == 1) (fun m =>
      (List.range 2).foldl (fun m p => m.when ((m.safInMask i).testBit p) (fun m => m.needRestart p)) m)

/-- Whether the evaluators differ for input `i` is followed, with the cycle since which they do (R440). -/
def Mach.inDiffer (m : Mach) (i : Nat) : Mach :=
  if m.inSt 0 i = m.inSt 1 i then { m with saf := { m.saf with diffCyc := mapErase m.saf.diffCyc i } }
  else if m.saf.diffCyc.any (fun x => x.1 == i) then m
  else { m with saf := { m.saf with diffCyc := mapInsert m.saf.diffCyc i m.cyc } }

/-- Evaluator `ev` evaluates an input of type 1, 2 or 4: at most three steps of R441 follow from one sample. -/
def Mach.evalSingle (m : Mach) (ev i : Nat) : Mach :=
  let c0 := m.inLevel ev i 0
  let c1 := m.inLevel ev i 1
  let step (p : Nat × Nat) := inStep c0 c1 p.1 p.2
  let s0 := (m.inSt ev i, (m.safIn ev i).first)
  let (st, first) := step (step (step s0))
  let dis := st == 1 || st == 3
  let m := m.modSafIn ev i (fun x => { x with first := first, dis := dis, since := if st = s0.1 then x.since else m.cyc })
  m.inGoes ev i st

/-- Evaluator `ev` evaluates the two-hand function of inputs 2k and 2k + 1 (R442). -/
def Mach.evalTwo (m : Mach) (ev k : Nat) : Mach :=
  let i := 2 * k
  let l (j c : Nat) := m.inLevel ev (i + j) c
  let a (j : Nat) := l j 0 && l j 1
  let r (j : Nat) := !l j 0 && !l j 1
  let step (p : Nat × Nat) := twoStep (a 0) (a 1) (r 0) (r 1) p.1 p.2
  let s0 := (m.inSt ev i, (m.safIn ev i).first)
  let (st, first) := step (step (step s0))
  let m := (List.range 2).foldl (fun m j => m.modSafIn ev (i + j) (fun x =>
    let dis := !(a j || r j)
    { x with dis := dis, since := if dis && !x.dis then m.cyc else x.since })) m
  let m := m.modSafIn ev i (fun x => { x with first := first, two := if st = 7 ∧ s0.1 ≠ 7 then m.cyc else x.two })
  (m.inGoes ev i st).inGoes ev (i + 1) st

/-- The state of a field-select input (R443). -/
def selState (ch : Nat) : Nat := if ch % 4 = 1 then 10 else if ch % 4 = 2 then 9 else 11

/-- Evaluator `ev` evaluates input `i`. -/
def Mach.evalInput (m : Mach) (ev i : Nat) : Mach :=
  if !m.safRuns then m
  else match m.safInType i with
    | 1 | 2 | 4 => m.evalSingle ev i
    | 3 => m.evalTwo ev (i / 2)
    | 5 => m.setFld (aSAF_IN i) (safStF ev) (selState (m.safIn ev i).ch)
    | _ => m.setFld (aSAF_IN i) (safStF ev) 15

/-- Input `i` enters FAULT in evaluator `ev`, a two-hand function with both of its inputs (R441, R442). -/
def Mach.inFault (m : Mach) (ev i : Nat) : Mach :=
  match m.safInType i with
  | 1 | 2 | 4 => (m.modSafIn ev i (fun x => { x with dis := false })).inGoes ev i 4
  | 3 => (m.inGoes ev (i / 2 * 2) 4).inGoes ev (i / 2 * 2 + 1) 4
  | _ => m

/-- The evaluators that the bits of `evs` name: bit 0 A, bit 1 B. -/
def evalsOf (evs : Nat) : List Nat := (List.range 2).filter (fun e => evs.testBit e)

/-- INPUT_LEVEL: pin SIN_k has held a level for FILT in the evaluators `evs` names, and its input changes state (R440 to R443). -/
def execInputLevel (k : Nat) (level : Bool) (evs : Nat) (s : State) : Host.Outcome State Fault Refusal :=
  s.run (wfInputLevel k level evs) (fun _ m => m.safCmd (fun m =>
    let i := k / 2
    let c := k % 2
    let m := (evalsOf evs).foldl (fun m ev =>
      let m := m.modSafIn ev i (fun x => { x with ch := x.ch - 2 ^ c * bit (x.ch.testBit c) + 2 ^ c * bit level })
      m.evalInput ev i) m
    let m := m.when (evs.testBit 0) (fun m => m.setFld (aSAF_IN i) (if c = 0 then fSAF_IN_CH0 else fSAF_IN_CH1) (bit level))
    ((m.inDiffer (i / 2 * 2)).inDiffer (i / 2 * 2 + 1)).codeChanged))

/-- DISCREPANCY_EXPIRY: DISC elapses for input `i`, and DISCERR sets (R441, R442). -/
def execDiscrepancyExpiry (i : Nat) (s : State) : Host.Outcome State Fault Refusal :=
  s.run (wfDiscrepancyExpiry i) (fun _ m => m.safCmd (fun m =>
    let run := (List.range 2).filter (fun ev => (m.safIn ev i).dis)
    if !m.safRuns || run.isEmpty then m
    else
      let due := (run.map (fun ev => (m.safIn ev i).since)).foldl min (m.safIn (run.headD 0) i).since + m.safInDisc i
      let m := m.advanceTo due
      let m := (run.filter (fun ev => decide ((m.safIn ev i).since + m.safInDisc i ≤ m.cyc))).foldl (fun m ev => m.inFault ev i) m
      let m := m.setFld (aSAF_IN i) fSAF_IN_DISCERR 1
      (m.inDiffer (i / 2 * 2)).inDiffer (i / 2 * 2 + 1)))

/-- TWO_HAND_TIMEOUT: 0.5 s have passed in ONE; the function of input `k` returns to WAIT (R442). -/
def execTwoHandTimeout (k : Nat) (s : State) : Host.Outcome State Fault Refusal :=
  s.run (wfTwoHandTimeout k) (fun _ m => m.safCmd (fun m =>
    let i := k / 2 * 2
    let run := (List.range 2).filter (fun ev => m.safInType i == 3 && m.inSt ev i == 7)
    if !m.safRuns || run.isEmpty then m
    else
      let due := (run.map (fun ev => (m.safIn ev i).two)).foldl min (m.safIn (run.headD 0) i).two + 400000000
      let m := m.advanceTo due
      let m := (run.filter (fun ev => decide ((m.safIn ev i).two + 400000000 ≤ m.cyc))).foldl (fun m ev =>
        ((m.inGoes ev i 5).inGoes ev (i + 1) 5).evalInput ev i) m
      (m.inDiffer i).inDiffer (i + 1)))

/-- EVALUATOR_DISAGREE: the evaluators have differed for input `i` for more than 1 ms, a safety fault (R440). -/
def execEvaluatorDisagree (i : Nat) (s : State) : Host.Outcome State Fault Refusal :=
  s.run (wfEvaluatorDisagree i) (fun _ m => m.safCmd (fun m =>
    match m.saf.diffCyc.find? (fun x => x.1 == i) with
    | none => m
    | some (_, c) => if m.safRuns then (m.advanceTo (c + 800001)).safetyFault 3 else m))

/-! ## Test pulses (R444) -/

/-- The level of pin SAF_TP_k: high at rest once a configuration is active, low for TPW from the start of each pulse. -/
def Mach.tpPin (m : Mach) (k : Nat) : Bool :=
  m.safRuns && (match m.saf.tpCyc.find? (fun x => x.1 == k) with
    | none => true
    | some (_, c) => decide (c + m.safTpw ≤ m.cyc))

/-- TEST_PULSE: source `k` goes low for TPW, and TPP later again. -/
def execTestPulse (k : Nat) (s : State) : Host.Outcome State Fault Refusal :=
  s.run (wfTestPulse k) (fun _ m => m.safCmd (fun m =>
    match m.saf.tpDue.find? (fun x => x.1 == k) with
    | none => m
    | some (_, d) =>
      let m := m.advanceTo d
      { m with saf := { m.saf with tpCyc := mapInsert (mapErase m.saf.tpCyc k) k d
                                   tpDue := mapInsert (mapErase m.saf.tpDue k) k (d + m.safTpp) } }))

/-- Channel SIN_n is judged against test pulses, and reads 1 outside their windows. -/
def Mach.tpFed (m : Mach) (n : Nat) : Bool := m.safInTpen (n / 2) && (m.safIn 0 (n / 2)).ch.testBit (n % 2)

/-- One judgment of channel SIN_n: two failures in a row set TPERR and move its input to FAULT (R441, R444). -/
def Mach.tpJudge (m : Mach) (n : Nat) (bad : Bool) : Mach :=
  let k := if bad then mapGet 0 m.saf.tpFail n + 1 else 0
  let m := { m with saf := { m.saf with tpFail := mapPut 0 m.saf.tpFail n k, tpCross := m.saf.tpCross.filter (fun x => x != n) } }
  if k < 2 then m
  else
    let i := n / 2
    let m := m.setFld (aSAF_IN i) fSAF_IN_TPERR 1
    let m := (m.inFault 0 i).inFault 1 i
    (m.inDiffer (i / 2 * 2)).inDiffer (i / 2 * 2 + 1)

/-- TEST_PULSE_JUDGE: at the end of source k's window each channel it feeds is judged. Bit n of `failed`: SIN_n did not read 0 within
its own window, or read 0 within the other source's; the latter counts in the channel's next judgment. -/
def execTestPulseJudge (k failed : Nat) (s : State) : Host.Outcome State Fault Refusal :=
  s.run (wfTestPulseJudge k failed) (fun _ m => m.safCmd (fun m =>
    match m.saf.tpCyc.find? (fun x => x.1 == k) with
    | none => m
    | some (_, c) =>
      if !m.safRuns then m
      else
        let m := m.advanceTo (c + m.safTpw + 16000)
        let fed := (List.range 16).filter m.tpFed
        let own := fed.filter (fun n => n % 2 == k)
        let cross := fed.filter (fun n => n % 2 != k && failed.testBit n && !m.saf.tpCross.contains n)
        let m := own.foldl (fun m n => m.tpJudge n (failed.testBit n || m.saf.tpCross.contains n)) m
        { m with saf := { m.saf with tpCross := m.saf.tpCross ++ cross } }))

/-! ## Fields and the ring of channel B (R425 to R428, R432, R434) -/

/-- RANGE of a time of flight, in half millimetres, clipped to 20 bits (R337). -/
def rangeOf (tof : Int) : Nat := (clampInt 0 0xFFFFF (divAway (tof * 149896229) 409600000)).toNat

/-- A class of a return that OBJX excludes (R426). -/
def excluded (objx cls : Nat) : Bool := decide (2 ≤ cls) && decide (cls ≤ 5) && objx.testBit (cls - 2)

/-- The nearest object among a group's returns: its range in cm, its class and its time of flight (R426). -/
def nearestObject (nearmin objx : Nat) (recs : List (List Word)) : Option (Nat × Nat × Word) :=
  recs.foldl (fun best r =>
    let rg := rangeOf (r.getD 0 0).toInt / 20
    let cls := (r.getD 2 0).toNat / 2 ^ 12 % 16
    if rg < nearmin || excluded objx cls then best
    else match best with
      | some (d, c, t) => if rg < d then some (rg, cls, r.getD 0 0) else some (d, c, t)
      | none => some (rg, cls, r.getD 0 0)) none

/-- The cell of a direction on head `h`, numbered 1024 h + 128 b + c; none outside the bands (R425). -/
def Mach.safCell (m : Mach) (port tref : Nat) : Option Nat :=
  let h := port / 48
  let w := m.safW (0x180 + 4 * port)
  let az := toField 32 (((m.headAngle h 1 tref).toNat : Int) + 65536 * signed 16 (w / 2 ^ 16))
  let el := signed 32 (toField 32 (((m.headAngle h 2 tref).toNat : Int) + 65536 * signed 16 w))
  let hw := m.safW (0x60 + 4 * h)
  let b := (el - 65536 * signed 16 (hw / 2 ^ 16)) / 2 ^ (hw / 2 ^ 8 % 32)
  if b < 0 ∨ 7 < b then none else some (1024 * h + 128 * b.toNat + az / 2 ^ 25)

/-- The field in use for pair `p`: 0xFF for none. -/
def Mach.safFieldOf (m : Mach) (p : Nat) : Nat := m.safW (0x100 + 4 * m.fld aSAF_FIELD fSAF_FIELD_SET) / 2 ^ (8 * p) % 256

/-- The range limit of a cell in field `f`. -/
def Mach.safLim (m : Mach) (f cell : Nat) : Nat := if f = 0xFF then 0 else m.mnat (safImgA + 0x1000 + 0x1000 * f + 2 * cell) 2

/-- The flags that keep a group from covering: COVLOSS, UNCAL, DLLERR, ECCERR, CHFAIL, and EMPTY (R427). -/
def uncoverFlags : Nat := 0x562 ||| 0x10

/-- The group covers its cell (R427). -/
def Mach.safCovers (m : Mach) (g : Posted) : Bool :=
  g.flags &&& uncoverFlags == 0 && !g.abandoned && (m.safHctxmask).testBit g.hctx
    && (m.fld aGRD_STAT fGRD_STAT_MOTION).testBit (g.port / 48)

/-- A digest enters channel B's ring; with the ring full it is lost, a safety fault (R432, R434). -/
def Mach.safDigest (m : Mach) (l : List Nat) : Mach :=
  let wr := m.fld aSAF_BRING fSAF_BRING_WR
  if (wr + 1) % 4096 = m.fld aSAF_BRING fSAF_BRING_RD then (m.setFld aSAF_BRING fSAF_BRING_BOVF 1).safetyFault 5
  else (m.setBytes (safRing + 16 * wr) (l.flatMap (leBytes 4))).setFld aSAF_BRING fSAF_BRING_WR (wr + 1)

/-- A group that PTS accepts reaches channel A in the same cycle (R421, R425 to R428, R432). -/
def Mach.safGroup (m : Mach) (g : Posted) : Mach :=
  if !m.safRuns || !m.safFport g.port then m
  else
    let cover := m.safCovers g
    let obj := nearestObject m.safNearmin m.safObjx g.recs
    let m := match m.safCell g.port g.tref with
      | none => m
      | some cell =>
        if !cover then m
        else
          let m := { m with saf := { m.saf with covered := mapPut 0 m.saf.covered cell (mapGet 0 m.saf.covered cell + 1) } }
          match obj with
          | none => m
          | some (d, _, _) =>
            (List.range 2).foldl (fun m p =>
              if d < m.safLim (m.safFieldOf p) cell then
                let k := 2048 * p + cell
                { m with saf := { m.saf with hits := mapPut 0 m.saf.hits k (mapGet 0 m.saf.hits k + 1) } }
              else m) m
    let w0 := 2 ^ 25 * g.port + 2 ^ 24 * bit cover + 2 ^ 20 * (match obj with | some (_, c, _) => c | none => 15)
      + m.fld aSAF_PERIOD fSAF_PERIOD_PERIOD % 2 ^ 20
    (m.safDigest [w0, g.tref, (match obj with | some (_, _, t) => t.toNat | none => 0x7FFFFFFF), g.cellseq]).ossdJudge

/-! ## Periods (R428 to R431) -/

/-- The first violated cell of a limit table, ascending: whether it was uncovered, and its number (R428). -/
def firstViolated (cov hits : Nat → Nat) (minhits : Nat) : Nat → List Byte → Option (Bool × Nat)
  | i, lo :: hi :: t =>
    if lo.toNat + 256 * hi.toNat = 0 then firstViolated cov hits minhits (i + 1) t
    else if cov i = 0 then some (true, i)
    else if minhits ≤ hits i then some (false, i)
    else firstViolated cov hits minhits (i + 1) t
  | _, _ => none

/-- Pair p's field is violated in the period that ends, and the first violated cell. Before a set has taken effect the field counts as
violated (DEDUCED, see the log). -/
def Mach.safViolated (m : Mach) (p : Nat) : Bool × Option (Bool × Nat) :=
  if !m.saf.setOn then (true, none)
  else
    let f := m.safFieldOf p
    if f = 0xFF then (false, none)
    else
      let v := firstViolated (mapGet 0 m.saf.covered) (fun i => mapGet 0 m.saf.hits (2048 * p + i)) m.safMinhits 0
        (m.image (safImgA + 0x1000 + 0x1000 * f) 4096)
      (v.isSome, v)

/-- Pair `p` at the end of a period: the verdicts of the period before are compared, then VA, VCNT, CCNT, channel A's outcome and
the last violation follow (R428 to R431). -/
def Mach.pairEnd (m : Mach) (p : Nat) : Mach :=
  let a := aSAF_OSSD p
  let x := m.ossd p
  let differ := if x.bSeen && m.fld a fSAF_OSSD_VA != m.fld a fSAF_OSSD_VB then x.differ + 1 else 0
  let (v, cell) := m.safViolated p
  let vc := if v then min 255 (m.fld a fSAF_OSSD_VCNT + 1) else 0
  let cc := if v then 0 else min 255 (m.fld a fSAF_OSSD_CCNT + 1)
  let off := if m.safMulti ≤ vc then true else if m.safClearn ≤ cc then false else x.offA
  let m := m.modOssd p (fun x => { x with differ := differ, offA := off, bSeen := false })
  let m := ((m.setFld a fSAF_OSSD_VA (bit v)).setFld a fSAF_OSSD_VCNT vc).setFld a fSAF_OSSD_CCNT cc
  match cell with
  | none => m
  | some (unc, i) =>
    let b := aSAF_VIOL p
    (((m.setFld b fSAF_VIOL_UNCOV (bit unc)).setFld b fSAF_VIOL_HEAD (i / 1024)).setFld b fSAF_VIOL_BAND (i / 128)).setFld b
      fSAF_VIOL_COL i

/-- PERIOD_END: verdicts, counts, the set that awaited the period end, the STATUS message (R429 to R431, R438, R454). A disagreement that
reaches CMPN periods is a safety fault. -/
def execPeriodEnd (s : State) : Host.Outcome State Fault Refusal :=
  s.run wfPeriodEnd (fun _ m =>
    match m.saf.periodCyc with
    | none => m
    | some c =>
      let m := (m.advanceTo (c + m.safPeriod)).selSettle
      let m := (m.pairEnd 0).pairEnd 1
      let per := m.fld aSAF_PERIOD fSAF_PERIOD_PERIOD
      let m := { m with saf := { m.saf with covered := [], hits := [], periodCyc := some (c + m.safPeriod) } }
      let m := (m.wrapInc aSAF_PERIOD fSAF_PERIOD_PERIOD).applySet
      let m := (List.range 2).foldl (fun m p => m.modOssd p (fun x =>
        { x with bDue := some (x.bDue.getD (per, c + m.safPeriod + m.safTblat)) })) m
      let m := m.when ((m.ossd 0).differ == m.safCmpn || (m.ossd 1).differ == m.safCmpn) (fun m => m.safetyFault 2)
      m.ossdJudge.sendSafe 0x81)

/-! ## Channel B (R424, R433) -/

/-- A write of SAF_BRES_p: a verdict for the period last ended sets VB and the gate, one for another period does nothing. A write
after T_BLAT closes the gate, since the latest write has then not arrived in time (R433). -/
def Mach.bresSet (m : Mach) (p : Nat) (v : Word) : Mach :=
  let m := (m.done 0).setReg (aSAF_BRES p) (v &&& 0xFFFFF003)
  let per := m.fld aSAF_PERIOD fSAF_PERIOD_PERIOD
  match m.saf.periodCyc with
  | none => m
  | some c =>
    if per = 0 ∨ fSAF_BRES_PERIOD.get v ≠ (per - 1) % 2 ^ 20 then m
    else
      let inTime := decide (m.cyc ≤ c + m.safTblat)
      let m := m.when inTime (fun m => m.setFld (aSAF_OSSD p) fSAF_OSSD_VB (fSAF_BRES_VIOL.get v))
      (m.modOssd p (fun x =>
        { x with bEn := inTime && fSAF_BRES_EN.get v == 1, bSeen := x.bSeen || inTime
                 bDue := if inTime && x.bDue.any (fun d => d.1 == per - 1) then none else x.bDue })).ossdJudge

/-- BRES_WRITE. -/
def execBresWrite (src : Src) (p : Nat) (v : Word) (s : State) : Host.Outcome State Fault Refusal :=
  s.run (wfBresWrite src p v) (fun _ m => m.asWriter src .saf 0 (0x30 + 4 * p) (fun m => m.selSettle.bresSet p v))

/-- BLAT_DEADLINE: a period without a write reaches its deadline; LS_p goes off, a safety fault (R433). -/
def execBlatDeadline (p : Nat) (s : State) : Host.Outcome State Fault Refusal :=
  s.run (wfBlatDeadline p) (fun _ m => m.safCmd (fun m =>
    match (m.ossd p).bDue with
    | none => m
    | some (_, c) =>
      if !m.safRuns then m
      else ((m.advanceTo c).modOssd p (fun x => { x with bDue := none, bEn := false })).ossdJudge.safetyFault 4))

/-- A write of SAF_BCONF: SAF_OK sets when it matches SAF_ICRC within its time (R424). -/
def Mach.bconfSet (m : Mach) (v : Word) : Mach :=
  let m := (m.done 0).setReg aSAF_BCONF v
  if m.saf.confDue.isSome ∧ v = m.reg aSAF_ICRC then
    ({ m with saf := { m.saf with confDue := none } }.setFld aSAF_STAT fSAF_STAT_ACTIVE 1).setFld aSAF_VSTAT fSAF_VSTAT_BOK 1
  else m

/-- BCONF_WRITE. -/
def execBconfWrite (src : Src) (v : Word) (s : State) : Host.Outcome State Fault Refusal :=
  s.run (wfBconfWrite src v) (fun _ m => m.asWriter src .saf 0 0x14 (fun m => m.bconfSet v))

/-- BCONF_TIMEOUT: no configuration is active, VERR is 7 (R424). -/
def execBconfTimeout (s : State) : Host.Outcome State Fault Refusal :=
  s.run wfBconfTimeout (fun _ m =>
    match m.saf.confDue with
    | none => m
    | some c =>
      let m := m.advanceTo c
      let m := { m with saf := { m.saf with confDue := none, periodCyc := none, noCode := none, tpDue := [], tpCyc := [] } }
      (m.setFld aSAF_VSTAT fSAF_VSTAT_VERR 7).ossdOffAll 5)

/-! ## The signed configuration (R423, R424) -/

/-- The input entries of an image obey R439 and R443. -/
def safInputsOk (w : Nat → Nat) : Bool :=
  let e (i : Nat) := w (0x40 + 4 * i)
  (List.range 8).all (fun i =>
    let t := e i % 16
    let anti := (e i).testBit 4
    e i &&& 0xFCC0 == 0 && decide (t ≤ 5) && (t != 1 || !anti) && (t != 4 || !anti) && (t != 5 || anti)
      && (t != 3 || (anti && e (i ^^^ 1) % 16 == 3 && e (i ^^^ 1) / 256 % 4 == e i / 256 % 4)))
    && decide (((List.range 8).filter (fun i => e i % 16 == 5)).length ≤ 5)

/-- The content checks of an image, each rule marked in its table and every bit it marks 0 (R423). -/
def safContentOk (w : Nat → Nat) : Bool :=
  let within (o hi lo a b : Nat) : Bool := let v := w o / 2 ^ lo % 2 ^ (hi + 1 - lo); decide (a ≤ v) && decide (v ≤ b)
  within 0x14 31 24 1 255 && within 0x14 23 20 1 15 && within 0x14 19 0 1000 1000000
    && within 0x18 30 24 0 0 && within 0x18 23 16 1 255 && within 0x18 15 0 10 10000
    && within 0x1C 31 28 0 0 && within 0x1C 27 24 1 15 && within 0x1C 23 20 0 0 && within 0x1C 15 0 30 0xFFFF
    && within 0x20 31 16 1 65535 && within 0x20 15 10 0 0 && within 0x20 9 8 0 2 && within 0x24 31 16 200 65535
    && within 0x28 31 24 1 255 && within 0x28 23 16 50 255 && within 0x28 15 8 1 255 && within 0x28 7 4 0 0
    && within 0x28 3 2 0 1 && within 0x28 1 0 0 1 && within 0x2C 31 24 0 0 && within 0x2C 23 8 1 1000 && within 0x2C 7 0 10 255
    && w 0x3C == 0 && (List.range 6).all (fun i => w (0x68 + 4 * i) == 0)
    && (List.range 2).all (fun h => within (0x60 + 4 * h) 15 13 0 0 && within (0x60 + 4 * h) 12 8 16 28 && within (0x60 + 4 * h) 7 0 0 0)
    && (List.range 32).all (fun k => within (0x80 + 4 * k) 30 5 0 0)
    && (List.range 32).all (fun k => let x := w (0x100 + 4 * k)
        x / 2 ^ 16 == 0 && (decide (x / 256 < 32) || x / 256 == 255) && (decide (x % 256 < 32) || x % 256 == 255))
    && (List.range 832).all (fun i => w (0x300 + 4 * i) == 0)

/-- The header check of an image, but for what the record must repeat (R217, R423). -/
def safHeaderOk (img : List Byte) : Bool :=
  let w (o : Nat) := leNat (recPart img o 4)
  w 0 == 0x53414643 && w 4 == 1 && w 8 == safLen && safContentOk w && safInputsOk w

/-- Both records clear, keeping their contents (R217, R423). -/
def Mach.safRecordsClear (m : Mach) : Mach :=
  let m := { m with saf := { m.saf with wrA := 0, wrB := 0 } }
  (m.setFld aSAF_VSTAT fSAF_VSTAT_REQ_A 0).setFld aSAF_VSTAT fSAF_VSTAT_REQ_B 0

/-- Verification of a commit that is not held starts; it leaves channel B its millisecond within the 5 ms of R59. -/
def Mach.safVerify (m : Mach) : Mach :=
  { m with saf := { m.saf with verifyDue := some (m.cyc + 3200000) } }.setFld aSAF_VSTAT fSAF_VSTAT_BUSY 1

/-- A pending commit of the configuration is cancelled. -/
def Mach.safCancel (m : Mach) : Mach :=
  { m with saf := { m.saf with verifyDue := none } }.safRecordsClear.setFld aSAF_VSTAT fSAF_VSTAT_BUSY 0

/-- The starting state of an input of a type: DEMAND, WAIT, or what the levels say (R441, R442). -/
def startState : Nat → Nat
  | 1 | 2 | 4 => 0
  | 3 => 5
  | 5 => 11
  | _ => 15

/-- The staged image becomes both active copies; counters, verdicts, PERIOD, pairs and inputs start anew; channel B has 1 ms (R424). -/
def Mach.safActivate (m : Mach) (seqno : Nat) : Mach :=
  let img := m.image safStage safLen
  let m := (m.setFld aSAF_STAT fSAF_STAT_ACTIVE 0).setFld aSAF_VSTAT fSAF_VSTAT_BOK 0
  let m := (m.copyRange safStage safImgA safLen).copyRange safStage safImgB safLen
  let m := (m.setReg aSAF_ICRC (word (crc32c img))).setReg aSAF_PERIOD 0
  let m := (m.setFld aSAF_SEQNO fSAF_SEQNO_SEQNO seqno).setFld aSAF_CFGID fSAF_CFGID_CFGVER (m.safW 12)
  let m := { m with saf := { m.saf with
    seqMax := some seqno, confDue := some (m.cyc + 800000), periodCyc := some m.cyc, covered := [], hits := [], ossd := []
    diffCyc := [], tpFail := [], tpCyc := [], tpCross := [], setOn := false, beatCyc := m.cyc, txMsn := 0
    tpDue := [(0, m.cyc + m.safTpp), (1, m.cyc + m.safTpp + m.safTpp / 2)], codeCyc := m.cyc, noCode := some m.cyc } }
  let m := (List.range 2).foldl (fun m p =>
    m.setReg (aSAF_OSSD p) (fSAF_OSSD_WAIT_RST.set (fSAF_OSSD_FB.set 0 (m.fld (aSAF_OSSD p) fSAF_OSSD_FB)) 1)) m
  let m := (m.setFld aSAF_STAT fSAF_STAT_FSWERR 0).setFld aSAF_STAT fSAF_STAT_HEART 1
  let m := ((m.setFld aSAF_FIELD fSAF_FIELD_PEND 0).setFld aSAF_FIELD fSAF_FIELD_CVALID 0).setFld aSAF_FIELD fSAF_FIELD_CODE 0
  let m := (List.range 8).foldl (fun m i => (List.range 2).foldl (fun m ev =>
    (m.modSafIn ev i (fun x => { SafIn.reset with ch := x.ch })).setFld (aSAF_IN i) (safStF ev) (startState (m.safInType i))) m) m
  let m := (List.range 8).foldl (fun m i => ((m.evalInput 0 i).evalInput 1 i)) m
  ((List.range 8).foldl Mach.inDiffer m).codeChanged

/-- SAFETY_VERIFY_DONE: the image becomes active, or VERR records the first failed check (R423, R424). -/
def execSafetyVerifyDone (s : State) : Host.Outcome State Fault Refusal :=
  s.run wfSafetyVerifyDone (fun otp m =>
    match m.saf.verifyDue with
    | none => m
    | some _ =>
      let ra := m.bytes (safPage + 0x100) 128
      let rb := m.bytes (safPage + 0x180) 128
      let img := m.image safStage safLen
      let e := verifyErr otp (recordFull m.saf.wrA && recordFull m.saf.wrB) ra rb img (safHeaderOk img) m.saf.seqMax otp.sminver
      let m := ({ m with saf := { m.saf with verifyDue := none } }.setFld aSAF_VSTAT fSAF_VSTAT_BUSY 0).setFld aSAF_VSTAT fSAF_VSTAT_VERR e
      let m := m.safRecordsClear.dropCommit safPage 0
      if e = 0 then (m.safActivate (leNat (recPart ra 0 4))).applied safPage else m)

/-- A word written to the staging area: refused while the commit is pending (R423). -/
def Mach.safStageWrite (m : Mach) (off : Nat) (w : Word) : Mach :=
  if m.isPending safPage 0 then m.refusePending safPage else (m.done 0).setMword (safStage + off) w

/-- SAFETY_STAGING_WRITE. -/
def execSafetyStagingWrite (src : Src) (off : Nat) (w : Word) (s : State) : Host.Outcome State Fault Refusal :=
  s.run (wfSafetyStagingWrite src off w) (fun _ m => m.asWriter src .saf 0 (0x40000 + off) (fun m => m.safStageWrite off w))

/-- A word of record `r` (0 A, 1 B) written by context `c` over group `g` (R423). -/
def Mach.safRecordWrite (m : Mach) (c g r off : Nat) (w : Word) : Mach :=
  if !m.ctxOn c then m.done 7
  else if m.dev.st = .shutdown then m.done 1
  else if c ≠ m.safetyCtx ∨ g ≠ r then m.done 3
  else if m.isPending safPage 0 then m.refusePending safPage
  else
    let m := (m.done 0).setMword (safPage + 0x100 + 0x80 * r + off) w
    if r = 0 then
      let m := { m with saf := { m.saf with wrA := recordMask m.saf.wrA off } }
      m.setFld aSAF_VSTAT fSAF_VSTAT_REQ_A (bit (recordFull m.saf.wrA))
    else
      let m := { m with saf := { m.saf with wrB := recordMask m.saf.wrB off } }
      m.setFld aSAF_VSTAT fSAF_VSTAT_REQ_B (bit (recordFull m.saf.wrB))

/-- SAFETY_RECORD_WRITE: the Safety context writes SAF_REQ_A over group A, SAF_REQ_B over group B. -/
def execSafetyRecordWrite (ctx grp off : Nat) (w : Word) (s : State) : Host.Outcome State Fault Refusal :=
  s.run (wfSafetyRecordWrite ctx grp off w) (fun _ m => m.safRecordWrite ctx grp grp off w)

/-! ## OSSD commands (R447 to R450) -/

/-- A check of R448 fails: FBERR names it, the pair is locked out, a safety fault (R455). -/
def Mach.fbFails (m : Mach) (p code : Nat) : Mach := (m.setFld (aSAF_OSSD p) fSAF_OSSD_FBERR code).safetyFault 1

/-- The level of OSSD_FB_p taken; a locked-out pair that FAULT_ACK has named goes OFF once it reads 0 (R450). -/
def Mach.fbSeen (m : Mach) (p : Nat) (fb : Bool) : Mach :=
  let m := m.setFld (aSAF_OSSD p) fSAF_OSSD_FB (bit fb)
  if m.ossdSt p = 4 ∧ (m.ossd p).acked ∧ !fb then
    (m.modOssd p (fun x => { x with acked := false })).setFld (aSAF_OSSD p) fSAF_OSSD_STATE 0
  else m

/-- SWITCH_ON: with every condition of R447 holding, HS goes on (R448 step 1). -/
def execSwitchOn (p : Nat) (s : State) : Host.Outcome State Fault Refusal :=
  s.run (wfSwitchOn p) (fun _ m => m.safCmd (fun m =>
    if m.ossdSt p = 0 ∧ m.ossdWhy p = 0 ∧ (m.ossd p).needRst = false then
      let a := aSAF_OSSD p
      let m := ((m.setFld a fSAF_OSSD_STATE 1).setFld a fSAF_OSSD_HS 1).setFld a fSAF_OSSD_LS 0
      (m.setFld a fSAF_OSSD_OFFCAUSE 0).modOssd p (fun x => { x with checkDue := some (m.cyc + m.safFbt) })
    else m))

/-- FB_CHECK: OSSD_FB_p is judged when FBT expires in a step of the switch-on, and read in a test (R448). -/
def execFbCheck (p : Nat) (fb : Bool) (s : State) : Host.Outcome State Fault Refusal :=
  s.run (wfFbCheck p fb) (fun _ m => m.safCmd (fun m =>
    let a := aSAF_OSSD p
    match m.ossdSt p with
    | 1 =>
      let m := (m.advanceTo ((m.ossd p).checkDue.getD m.cyc)).fbSeen p fb
      if fb then ((m.setFld a fSAF_OSSD_STATE 2).setFld a fSAF_OSSD_LS 1).modOssd p (fun x => { x with checkDue := some (m.cyc + m.safFbt) })
      else m.fbFails p 1
    | 2 =>
      let m := (m.advanceTo ((m.ossd p).checkDue.getD m.cyc)).fbSeen p fb
      if fb then m.fbFails p 2
      else (m.setFld a fSAF_OSSD_STATE 3).modOssd p (fun x =>
        { x with checkDue := none, testing := false, testDue := m.cyc + m.safOffp, been := true })
    | _ => (m.modOssd p (fun x => { x with seen := x.seen || (x.testing && fb) })).fbSeen p fb))

/-- OFFP_TEST: OFFP has passed while ON; LS goes off for OFFT (R448). -/
def execOffpTest (p : Nat) (s : State) : Host.Outcome State Fault Refusal :=
  s.run (wfOffpTest p) (fun _ m => m.safCmd (fun m =>
    if m.ossdSt p = 3 ∧ (m.ossd p).testing = false then
      let m := m.advanceTo (m.ossd p).testDue
      (m.setFld (aSAF_OSSD p) fSAF_OSSD_LS 0).modOssd p (fun x =>
        { x with testing := true, seen := false, checkDue := some (m.cyc + m.safOfft), testDue := x.testDue + m.safOffp })
    else m))

/-- OFFT_TEST_END: LS returns if FB has read 1 in the test, else the pair is locked out with FBERR 3 (R448). -/
def execOfftTestEnd (p : Nat) (fb : Bool) (s : State) : Host.Outcome State Fault Refusal :=
  s.run (wfOfftTestEnd p fb) (fun _ m => m.safCmd (fun m =>
    if m.ossdSt p = 3 ∧ (m.ossd p).testing then
      let m := (m.advanceTo ((m.ossd p).checkDue.getD m.cyc)).fbSeen p fb
      if fb || (m.ossd p).seen then
        (m.setFld (aSAF_OSSD p) fSAF_OSSD_LS 1).modOssd p (fun x => { x with testing := false, seen := false, checkDue := none })
      else m.fbFails p 3
    else m))

/-- FB_HIGH_TIMEOUT: FB has read 1 for longer than FBT with both switches off, or while ON outside a test (R448). -/
def execFbHighTimeout (p : Nat) (s : State) : Host.Outcome State Fault Refusal :=
  s.run (wfFbHighTimeout p) (fun _ m => m.safCmd (fun m =>
    let m := m.fbSeen p true
    let off := m.ossdSt p == 0 && !m.flag (aSAF_OSSD p) fSAF_OSSD_HS && !m.flag (aSAF_OSSD p) fSAF_OSSD_LS
    if !m.safRuns then m
    else if off then m.fbFails p 4
    else if m.ossdSt p = 3 ∧ (m.ossd p).testing = false then m.fbFails p 5 else m))

/-- FSWERR: no valid code has held for FSW_T; both pairs are demanded off (R438). -/
def execFswerr (s : State) : Host.Outcome State Fault Refusal :=
  s.run wfFswerr (fun _ m => m.safCmd (fun m =>
    match m.saf.noCode with
    | none => m
    | some c =>
      if m.safRuns then
        let m := (m.advanceTo (c + m.safFswT)).selSettle
        if m.saf.noCode.isSome then m.setFld aSAF_STAT fSAF_STAT_FSWERR 1 else m
      else m))

/-! ## Safe messages (R399, R451 to R453) -/

/-- A matched message counts as a heartbeat (R452, R453). -/
def Mach.beat (m : Mach) : Mach :=
  { m with saf := { m.saf with beatCyc := m.cyc } }.setFld aSAF_STAT fSAF_STAT_HEART 1

/-- A matched message: with a MSN above LASTMSN it is taken for execution, else STALE counts it (R452). -/
def Mach.safMatched (m : Mach) (x : SafMsg) : Mach :=
  let last := m.fld aSAF_MSG fSAF_MSG_LASTMSN
  if signed 32 (x.msn + 2 ^ 32 - last) ≤ 0 then m.satInc aSAF_MSGCNT fSAF_MSGCNT_STALE
  else
    let m := (m.setFld aSAF_MSG fSAF_MSG_LASTMSN x.msn).beat
    { m with saf := { m.saf with matched := m.saf.matched ++ [x] } }

/-- A host message has its LENGTH, and byte 13 of its header and the bits beside KIND are 0 (R451). -/
def safFormed (spec payload : List Byte) : Bool :=
  payload.length == 32 && leNat (recPart spec 5 1) == 0 && decide (leNat (recPart payload 4 4) < 256)

/-- SCHK and SEQNO of a host message are right, and header and payload agree (R451). -/
def Mach.safMsgOk (m : Mach) (spec payload : List Byte) : Bool :=
  let w (o : Nat) := leNat (recPart payload o 4)
  m.safRuns && leNat (recPart spec 0 4) == w 0 && leNat (recPart spec 4 1) == w 4
    && w 0x18 == m.fld aSAF_SEQNO fSAF_SEQNO_SEQNO && w 0x1C == crc32c (leBytes 4 (m.safW 0x10) ++ payload.take 0x1C)

/-- A copy of a host message on group `g` (R452). -/
def Mach.safCopy (m : Mach) (g : Nat) (payload : List Byte) : Mach :=
  let w (o : Nat) := leNat (recPart payload o 4)
  let x : SafMsg := { grp := g, msn := w 0, kind := w 4, bytes := payload, cyc := m.cyc }
  let drop (h : SafMsg) := { m with saf := { m.saf with held := m.saf.held.filter (fun y => y.msn != h.msn) } }
  if x.kind = 0 ∨ 5 < x.kind then m.satInc aSAF_MSGCNT fSAF_MSGCNT_MISMATCH
  else match m.saf.held.find? (fun h => h.msn == x.msn) with
    | some h =>
      if h.grp = g then m.satInc aSAF_MSGCNT fSAF_MSGCNT_LONE
      else if h.bytes = payload then (drop h).safMatched x
      else (drop h).satAdd aSAF_MSGCNT fSAF_MSGCNT_MISMATCH 2
    | none =>
      if 4 ≤ m.saf.held.length then m.satInc aSAF_MSGCNT fSAF_MSGCNT_LONE
      else { m with saf := { m.saf with held := m.saf.held ++ [x] } }

/-- SAFE: a packet of type 0x18 on group `g`. Another context's, and a malformed one, is discarded and counted in BADPKT (R392, R399); the checks of R451 follow, then the
twin's (R452). -/
def execSafe (g ctx : Nat) (spec payload : List Byte) (s : State) : Host.Outcome State Fault Refusal :=
  s.run (wfSafe g ctx spec payload) (fun _ m =>
    m.arrives g (fun m =>
      if m.dev.st = .shutdown then m
      else if !m.ctxOn ctx then m.badPkt 0
      else if ctx ≠ m.safetyCtx ∨ safFormed spec payload = false then m.badPkt ctx
      else m.safCmd (fun m =>
        if m.safMsgOk spec payload then m.safCopy g payload else m.satInc aSAF_MSGCNT fSAF_MSGCNT_SCHKERR)))

/-- SAFE_COPY_TIMEOUT: the oldest copy held from group `g` has waited MSG_SKEW and is discarded (R452). -/
def execSafeCopyTimeout (g : Nat) (s : State) : Host.Outcome State Fault Refusal :=
  s.run (wfSafeCopyTimeout g) (fun _ m => m.safCmd (fun m =>
    match m.saf.held.find? (fun h => h.grp == g) with
    | none => m
    | some h =>
      let m := m.advanceTo (h.cyc + m.safSkew)
      { m with saf := { m.saf with held := m.saf.held.filter (fun y => y.msn != h.msn) } }.satInc aSAF_MSGCNT fSAF_MSGCNT_LONE))

/-- The first matched message of a kind executes (R452). -/
def Mach.safExec (m : Mach) (kind : Nat) (f : SafMsg → Mach → Mach) : Mach :=
  match m.saf.matched.find? (fun x => x.kind == kind) with
  | none => m
  | some x => m.safCmd (fun m => f x { m with saf := { m.saf with matched := m.saf.matched.erase x } })

/-- ARG0 of a message. -/
def SafMsg.arg0 (x : SafMsg) : Nat := leNat (recPart x.bytes 8 4)

/-- HEARTBEAT (R452, R453). -/
def execHeartbeat (s : State) : Host.Outcome State Fault Refusal :=
  s.run wfHeartbeat (fun _ m => m.safExec 1 (fun _ m => m.beat))

/-- FIELDSEL: the message source of the selection code (R437). -/
def execFieldsel (s : State) : Host.Outcome State Fault Refusal :=
  s.run wfFieldsel (fun _ m => m.safExec 2 (fun x m =>
    { m with saf := { m.saf with msgCode := some (x.arg0 % 32) } }.codeChanged))

/-- RESTART: releases the restart interlock of the named pairs for which every other condition of R447 holds; earlier it is
ignored (R449). -/
def execRestart (s : State) : Host.Outcome State Fault Refusal :=
  s.run wfRestart (fun _ m => m.safExec 3 (fun x m =>
    (List.range 2).foldl (fun m p =>
      if (x.arg0).testBit p ∧ m.ossdSt p = 0 ∧ m.ossdWhy p = 0 then
        (m.modOssd p (fun y => { y with needRst := false })).setFld (aSAF_OSSD p) fSAF_OSSD_WAIT_RST 0
      else m) m))

/-- FAULT_ACK: TPERR and DISCERR of the named inputs clear; a named pair leaves LOCKOUT for OFF once its FB reads 0 (R450, R452). -/
def execFaultAck (s : State) : Host.Outcome State Fault Refusal :=
  s.run wfFaultAck (fun _ m => m.safExec 4 (fun x m =>
    let m := (List.range 8).foldl (fun m i => m.when ((x.arg0).testBit (8 + i)) (fun m =>
      (m.setFld (aSAF_IN i) fSAF_IN_TPERR 0).setFld (aSAF_IN i) fSAF_IN_DISCERR 0)) m
    (List.range 2).foldl (fun m p =>
      if (x.arg0).testBit p ∧ m.ossdSt p = 4 then
        (m.modOssd p (fun y => { y with acked := true })).fbSeen p (m.flag (aSAF_OSSD p) fSAF_OSSD_FB)
      else m) m))

/-- OASIS: the device enters OASIS with cause 0x01 (R452). -/
def execOasis (s : State) : Host.Outcome State Fault Refusal :=
  s.run wfOasis (fun _ m => m.safExec 5 (fun _ m => m.enterOasis .host))

/-- HEARTBEAT_TIMEOUT: no matched message for MSG_TMO; both pairs are demanded off (R453). -/
def execHeartbeatTimeout (s : State) : Host.Outcome State Fault Refusal :=
  s.run wfHeartbeatTimeout (fun _ m => m.safCmd (fun m =>
    if m.safMsgTmo = 0 ∨ m.safRuns = false then m
    else (m.advanceTo (m.saf.beatCyc + m.safMsgTmo)).setFld aSAF_STAT fSAF_STAT_HEART 0))

end Sys2Proof.Machine
end

