-- ==== Sys2Proof/Machine/Hk.lean ====
section
/-!
DEFINITION. Housekeeping (R458 to R473), die temperatures and what follows from them (R474 to R481), calibration sets and the
calibration of the converter (R482 to R487).
-/
namespace Sys2Proof.Machine

/-- The page of HK. -/
def hkPage : Nat := 0x600000

/-- The housekeeping front end, changed. -/
def Mach.modHk (m : Mach) (f : Hk → Hk) : Mach := { m with hk := f m.hk }
/-- Entry `e`. -/
def Mach.hkEnt (m : Mach) (e : Nat) : HkEnt := mapGet HkEnt.reset m.hk.ents e
/-- Entry `e` changed. -/
def Mach.modEnt (m : Mach) (e : Nat) (f : HkEnt → HkEnt) : Mach :=
  m.modHk (fun h => { h with ents := mapPut HkEnt.reset h.ents e (f (m.hkEnt e)) })
/-- Conversions are held (R464). -/
def Mach.hkHeld (m : Mach) : Bool := m.flag aHK_STAT fHK_STAT_HELD
/-- EN of the sequence. -/
def Mach.hkOn (m : Mach) : Bool := m.flag aHK_SEQCFG fHK_SEQCFG_EN
/-- MODE of the sequence, 3 taken as 0. -/
def Mach.hkMode (m : Mach) : Nat := let k := m.fld aHK_SEQCFG fHK_SEQCFG_MODE; if k = 3 then 0 else k

/-! ## The reference buffer and the actions of HK_CTRL (R58, R463, R464, R472) -/

/-- REF_EN set: the 2 ms start; cleared: HKREF_OK clears and conversions are held at once, and an arming condition is lost (R57). -/
def Mach.hkRef (m : Mach) (on : Bool) : Mach :=
  let was := m.flag aHK_CTRL fHK_CTRL_REF_EN
  let m := m.setFld aHK_CTRL fHK_CTRL_REF_EN (bit on)
  if on = was then m
  else if on then m.modHk (fun h => { h with refDue := some (m.cyc + 1600000) })
  else
    let m := (m.setFld aHK_CTRL fHK_CTRL_HKREF_OK 0).setFld aHK_STAT fHK_STAT_HELD 1
    (m.modHk (fun h => { h with refDue := none, fixRun := none })).lostArming

/-- GO: one pass in MODE 2, ignored during a pass and while EN = 0. -/
def Mach.hkGoReq (m : Mach) : Mach :=
  if m.hkOn ∧ m.hkMode = 2 ∧ m.hk.pos = none ∧ m.hk.req = none then m.modHk (fun h => { h with req := some m.cyc }) else m

/-- A write of HK_CTRL. -/
def Mach.hkCtrl (m : Mach) (v : Word) : Mach :=
  let m := (m.done 0).hkRef (fHK_CTRL_REF_EN.get v == 1)
  let m := m.when (fHK_CTRL_SYNC.get v == 1) (fun m => m.modHk (fun h => { h with sync := true }))
  m.when (fHK_CTRL_GO.get v == 1) Mach.hkGoReq

/-- A value of HK_CTRL with the present REF_EN and one action bit. -/
def Mach.hkAction (m : Mach) (f : Fld) : Word := f.set (fHK_CTRL_REF_EN.set 0 (m.fld aHK_CTRL fHK_CTRL_REF_EN)) 1

/-- HK_REF_EN (R464). -/
def execHkRefEn (src : Src) (on : Bool) (s : State) : Host.Outcome State Fault Refusal :=
  s.run (wfHkRefEn src on) (fun _ m => m.asWriter src .hk 0 0 (fun m => m.hkCtrl (fHK_CTRL_REF_EN.set 0 (bit on))))

/-- HK_GO (R463). -/
def execHkGo (src : Src) (s : State) : Host.Outcome State Fault Refusal :=
  s.run (wfHkGo src) (fun _ m => m.asWriter src .hk 0 0 (fun m => m.hkCtrl (m.hkAction fHK_CTRL_GO)))

/-- HK_SYNC (R472). -/
def execHkSync (src : Src) (s : State) : Host.Outcome State Fault Refusal :=
  s.run (wfHkSync src) (fun _ m => m.asWriter src .hk 0 0 (fun m => m.hkCtrl (m.hkAction fHK_CTRL_SYNC)))

/-- HKREF_OK_SET: 2 ms after the enable; conversions start, a fixed-pair block falls due, and the filters reset (R58, R465, R472). -/
def execHkrefOkSet (s : State) : Host.Outcome State Fault Refusal :=
  s.run wfHkrefOkSet (fun _ m =>
    match m.hk.refDue with
    | none => m
    | some c =>
      let m := ((m.advanceTo c).setFld aHK_CTRL fHK_CTRL_HKREF_OK 1).setFld aHK_STAT fHK_STAT_HELD 0
      m.modHk (fun h => { h with refDue := none, freeAt := m.cyc, fixDue := m.cyc, sync := true }))

/-- A firing of time trigger `t`: in MODE 1 a pass, or OVERRUN during one (R463). -/
def Mach.hkTrigger (m : Mach) (t : Nat) : Mach :=
  if !m.hkOn || m.hkMode != 1 || m.fld aHK_SEQCFG fHK_SEQCFG_TRIG != t then m
  else if m.hk.pos.isSome || m.hk.req.isSome then m.satInc aHK_STAT fHK_STAT_OVERRUN
  else if m.hkHeld then m
  else m.modHk (fun h => { h with req := some m.cyc })

/-! ## Passes and entries (R458 to R463) -/

/-- HK_PASS_START: without a gap in MODE 0, at a firing or GO in the others; a requested synchronising reset takes effect (R463, R472). -/
def execHkPassStart (s : State) : Host.Outcome State Fault Refusal :=
  s.run wfHkPassStart (fun _ m =>
    let at_ := if m.hkMode = 0 then some m.cyc else m.hk.req
    match at_ with
    | none => m
    | some c =>
      if !m.hkOn || m.hkHeld || m.hk.pos.isSome then m
      else
        let m := (m.advanceTo (max m.hk.freeAt c)).setFld aHK_STAT fHK_STAT_RUN 1
        let clear := m.hk.sync
        m.modHk (fun h => { h with
          pos := some 0, req := none, sync := false, freeAt := max h.freeAt c
          ents := if clear then h.ents.map (fun (e, x) => (e, { HkEnt.reset with res := x.res })) else h.ents }))

/-- The cycle the next calibration slot falls due; none with HKCAL_S = 0 (R487). -/
def Mach.calSlotDue (m : Mach) : Option Nat :=
  let k := m.fld aCAL_CFG fCAL_CFG_HKCAL_S
  if k = 0 then none else some (m.hk.calLast + 800000000 * k)

/-- A block is due at cycle `c`. -/
def Mach.blockDue (m : Mach) (c : Nat) : Bool :=
  decide (m.hk.fixDue ≤ c) || (match m.calSlotDue with | some d => decide (d ≤ c) | none => false)

/-- The connections of entry `e` are valid: pins shared only as R458 allows. -/
def Mach.entryOk (m : Mach) (e : Nat) : Bool :=
  let f (x : Fld) := m.fld (aHK_ENTA e) x
  let pos := f fHK_ENTA_POS
  let neg := if f fHK_ENTA_NEG_AG = 1 then none else some (f fHK_ENTA_NEG)
  let exc := if f fHK_ENTA_IEXC = 0 then none else some (f fHK_ENTA_EXC)
  let bias := if f fHK_ENTA_BIAS_EN = 0 then none else some (f fHK_ENTA_BIAS)
  let same (a b : Option Nat) : Bool := a.isSome && a == b
  !same neg (some pos) && !same bias (some pos) && !same neg exc && !same exc bias

/-- Conversions of entry `e`. -/
def Mach.entryN (m : Mach) (e : Nat) : Nat := m.fld (aHK_ENTB e) fHK_ENTB_NCONVM1 + 1
/-- How long entry `e` runs, in core cycles (R458, R461). -/
def Mach.entryLen (m : Mach) (e : Nat) : Nat :=
  if m.entryOk e then 800 + 800 * m.fld (aHK_ENTB e) fHK_ENTB_SETTLE + 400 * m.entryN e else 800
/-- A driving current flows at the POS pin of entry `e` (R466). -/
def Mach.entryDriven (m : Mach) (e : Nat) : Bool :=
  let f (x : Fld) := m.fld (aHK_ENTA e) x
  f fHK_ENTA_BO != 0 || (f fHK_ENTA_IEXC != 0 && f fHK_ENTA_EXC == f fHK_ENTA_POS)

/-- A conversion is over range: beyond 105 % of full scale (R459). -/
def convOver (c : Int) : Bool := decide (137625 < c) || decide (c < -137625)
/-- A conversion clamped to 18 bits. -/
def convClamp (c : Int) : Int := clampInt (-131072) 131071 c

/-- The entry result of conversions: their mean in 1/32 LSB and the marks (R461, R467). -/
def entryMean (codes : List Int) (driven : Bool) (gain : Nat) : HkRes :=
  let n := codes.length
  let tail := codes.drop (n - divCeil n 5)
  { value := divAway (32 * (codes.map convClamp).sum) n, gain := gain, ovr := codes.any convOver
    open_ := driven && tail.any (fun c => decide (137625 < c)) }

/-- An entry result with the lead entry's subtracted (R462). -/
def subtractLead (r l : HkRes) (k : Nat) : Int × Bool × Bool :=
  if k = 0 then (r.value, r.ovr, r.open_)
  else
    let d : Int :=
      if l.gain ≤ r.gain then r.value - k * l.value * 2 ^ (r.gain - l.gain)
      else divAway (r.value * 2 ^ (l.gain - r.gain) - k * l.value) (2 ^ (l.gain - r.gain))
    (clampInt (-8388607) 8388607 d, r.ovr || l.ovr, r.open_ || l.open_)

/-! ## The filter engine (R470 to R473) -/

/-- Sums of `r` consecutive elements, newest first. -/
def boxcar (r : Nat) : List Int → List Int
  | [] => []
  | x :: t => ((x :: t).take r).sum :: boxcar r t

/-- The sinc filter of an order over a history: `order` box sums of length `r` one after another. -/
def sincSum : Nat → Nat → List Int → Int
  | 0, _, l => l.headD 0
  | k + 1, r, l => sincSum k r (boxcar r l)

/-- The median of an odd number of values. -/
def median (l : List Int) : Int :=
  let rec ins (x : Int) : List Int → List Int
    | [] => [x]
    | y :: t => if x ≤ y then x :: y :: t else y :: ins x t
  (l.foldl (fun a x => ins x a) []).getD (l.length / 2) 0

/-- ORD of entry `e`. -/
def Mach.hkOrd (m : Mach) (e : Nat) : Nat := min 4 (m.fld (aHK_ENTF e) fHK_ENTF_ORD)
/-- R of entry `e`; 1 with the filter off. -/
def Mach.hkR (m : Mach) (e : Nat) : Nat := if m.hkOrd e = 0 then 1 else m.fld (aHK_ENTF e) fHK_ENTF_RM1 + 1
/-- The median window of entry `e`; 0 when off. -/
def Mach.hkMed (m : Mach) (e : Nat) : Nat :=
  match m.fld (aHK_ENTF e) fHK_ENTF_MEDW with | 0 => 0 | 1 => 3 | _ => 5

/-- An entry result enters the filter of entry `e` at the end `c` of its sampling time; every R results an output value comes, and from
period L_SETTLE + 1 on an output word 2 µs later (R470 to R472). -/
def Mach.hkFilter (m : Mach) (e c : Nat) (r : Int × Bool × Bool) : Mach :=
  let ord := m.hkOrd e
  let rr := m.hkR e
  let med := m.hkMed e
  let x := m.hkEnt e
  let hist := (r :: x.hist).take 5120
  let n := x.n + 1
  if n % rr ≠ 0 then m.modEnt e (fun x => { x with hist := hist, n := n })
  else
    let v := divAway (sincSum ord rr (hist.map (fun h => h.1))) (rr ^ ord)
    let outs := (v :: x.outs).take 5
    let m := m.modEnt e (fun x => { x with hist := hist, n := n, outs := outs })
    let period := n / rr
    if period ≤ ord + med then m
    else
      let value := if med = 0 then v else median (outs.take med)
      let span := hist.take (max 1 (ord * rr) * max 1 med)
      let w := 2 ^ 30 * bit (period == ord + med + 1) + 2 ^ 29 * bit (span.any (fun h => h.2.2)) + 2 ^ 28 * bit (span.any (fun h => h.2.1))
        + toField 24 value
      let st := m.stampOf (m.timeAt (c - 200 * m.entryN e))
      m.modHk (fun h => { h with words := h.words ++ [{ entry := e, word := word w, due := c + 1600, stamp := st }] })

/-- The status of entry `e` after a result; the first OPEN since OPEN_SEEN was cleared is reported (R468). -/
def Mach.hkStatus (m : Mach) (e : Nat) (r : Int × Bool × Bool) : Mach :=
  let a := aHK_EST e
  let first := r.2.2 && !m.flag a fHK_EST_OPEN_SEEN
  let m := (m.setFld a fHK_EST_OPEN_NOW (bit r.2.2)).setFld a fHK_EST_CFGERR 0
  let m := m.when r.2.2 (fun m => m.setFld a fHK_EST_OPEN_SEEN 1)
  let m := m.when r.2.1 (fun m => m.setFld a fHK_EST_OVR_SEEN 1)
  m.when first (fun m => m.report (srcId 0x11 e) (srcId 0x11 e) 0x23 0)

/-- A pass ends: PASSN counts, and the commits it held apply (R463). -/
def Mach.hkPassEnd (m : Mach) : Mach :=
  let m := (m.setFld aHK_STAT fHK_STAT_RUN 0).wrapInc aHK_STAT fHK_STAT_PASSN
  let filt := m.ready hkPage 1
  let m := m.applyGroups .hk hkPage [0, 1]
  m.modHk (fun h => { h with pos := none, sync := h.sync || filt })

/-- HK_ENTRY_DONE: the next entry's sampling time ends with the given conversions; an invalid entry ends without a result (R458, R461). A
block that was due before the entry began has to run first. -/
def execHkEntryDone (codes : List Int) (s : State) : Host.Outcome State Fault Refusal :=
  s.run (wfHkEntryDone codes) (fun _ m =>
    match m.hk.pos with
    | none => m
    | some e =>
      let ok := m.entryOk e
      if m.hkHeld || m.hk.fixRun.isSome || m.blockDue m.hk.freeAt || (ok && codes.length != m.entryN e) then m
      else
        let c := m.hk.freeAt + m.entryLen e
        let m := (m.advanceTo c).modHk (fun h => { h with freeAt := c, pos := some (e + 1) })
        let m :=
          if ok then
            let r := entryMean codes (m.entryDriven e) (m.fld (aHK_ENTA e) fHK_ENTA_GAIN)
            let lead := (m.hkEnt (m.fld (aHK_ENTB e) fHK_ENTB_LREF)).res
            let v := subtractLead r lead (min 2 (m.fld (aHK_ENTB e) fHK_ENTB_LSUB))
            ((m.modEnt e (fun x => { x with res := r })).hkStatus e v).hkFilter e c v
          else m.setFld (aHK_EST e) fHK_EST_CFGERR 1
        if e = m.fld aHK_SEQCFG fHK_SEQCFG_LAST then m.hkPassEnd else m)

/-- OUTPUT_WORD: the oldest word of entry `e` on its way is written to HK_OUT_e, and offered with QEN = 1 (R470, R473). -/
def execOutputWord (e : Nat) (s : State) : Host.Outcome State Fault Refusal :=
  s.run (wfOutputWord e) (fun _ m =>
    match m.hk.words.find? (fun w => w.entry == e) with
    | none => m
    | some w =>
      let m := (m.advanceTo w.due).modHk (fun h => { h with words := h.words.erase w })
      let m := (m.setReg (aHK_OUT e) (fHK_OUT_NEW.set w.word 1)).wrapInc (aHK_EST e) fHK_EST_WORDS
      if m.flag (aHK_ENTF e) fHK_ENTF_QEN then
        let r := leBytes 4 (6 * 2 ^ 28 + 2 ^ 24 * e + 20) ++ leBytes 4 w.word.toNat ++ w.stamp.bytes
        match m.offer (m.fld aHK_QCFG fHK_QCFG_QUEUE) .hk false r with
        | (m, .accepted) => m
        | (m, _) => m.satInc aHK_QCFG fHK_QCFG_QDROP
      else m)

/-! ## Inserted blocks (R465, R469, R487) -/

/-- A converter free at `freeAt` starts a block due at `d`: none while an entry that began before runs. -/
def Mach.blockStart (m : Mach) (d : Nat) : Option Nat :=
  if m.hkHeld || m.hk.fixRun.isSome || (m.hk.pos.isSome && decide (m.hk.freeAt < d)) then none else some (max m.hk.freeAt d)

/-- FIXED_PAIR_BLOCK: a block starts at the first entry boundary after it fell due, and lasts 280 µs. -/
def execFixedPairBlock (s : State) : Host.Outcome State Fault Refusal :=
  s.run wfFixedPairBlock (fun _ m =>
    match m.blockStart m.hk.fixDue with
    | none => m
    | some c => (m.advanceTo c).modHk (fun h => { h with fixRun := some (c, 0), freeAt := c + 224000, fixDue := h.fixDue + 4000000 }))

/-- R(t)/R(0) - 1 of a platinum sensor at n/128 °C by IEC 60751, in 10^-15 × 128^-4 (PRESUMED: the standard's coefficients). -/
def ptRatio (n : Int) : Int :=
  3908300000000 * n * 128 ^ 3 - 577500000 * n ^ 2 * 128 ^ 2 - (if n < 0 then 4183 * (n - 12800) * n ^ 3 else 0)

/-- The greatest of the numbers from `lo` below `hi` that satisfies a test, by halving. -/
def bisect (t : Int → Bool) : Nat → Int → Int → Int
  | 0, lo, _ => lo
  | k + 1, lo, hi => let mid := (lo + hi) / 2; if t mid then bisect t k mid hi else bisect t k lo mid

/-- The temperature of a fixed pair in 1/128 °C from the sum of its 100 conversions: 15/65,536 Ω each at 100 µA and gain 4; none outside
-60 °C to 200 °C (R469). -/
def pairTemp (sum : Int) : Option Int :=
  let v := (15 * sum - 65536000) * (10 ^ 15 * 128 ^ 4)
  let at_ (n : Int) : Int := ptRatio n * 65536000
  if v < at_ (-7680) ∨ at_ 25600 < v then none else some (bisect (fun n => decide (at_ n ≤ v)) 16 (-7680) 25601)

/-- FIXED_PAIR_RESULT: pair `k` of the running block, 70 µs after the one before, to HK_FIX_k and to the guard (R469, R215). -/
def execFixedPairResult (k : Nat) (sum : Int) (ovl : Bool) (s : State) : Host.Outcome State Fault Refusal :=
  s.run (wfFixedPairResult k sum ovl) (fun _ m =>
    match m.hk.fixRun with
    | none => m
    | some (c, n) =>
      if n ≠ k then m
      else
        let m := m.advanceTo (c + 56000 * (k + 1))
        let t := if ovl then none else pairTemp sum
        let a := aHK_FIX k
        let m := ((m.setFld a fHK_FIX_AGE 0).setFld a fHK_FIX_FIXERR (bit t.isNone)).setFld a fHK_FIX_TEMP (toField 16 (t.getD 0x7FFF))
        let m := m.modHk (fun h => { h with
          fixRun := if k = 3 then none else some (c, k + 1), fixAt := mapInsert (mapErase h.fixAt k) k m.cyc })
        { m with grd := { m.grd with temp := mapInsert (mapErase m.grd.temp k) k (t.getD 0x7FFF, m.cyc) } }.grdShow)

/-- AGE of a fixed pair: milliseconds since its last result, as it is read. -/
def Mach.fixAge (m : Mach) (k : Nat) : Nat :=
  match m.hk.fixAt.find? (fun x => x.1 == k) with
  | none => 255
  | some (_, c) => min 255 ((m.cyc - c) / 800000)

/-- HK_CALIBRATION_SLOT: a due slot of 200 µs measures zero and full scale at the next gain and updates record 712; a due fixed-pair block
runs first (R465, R486, R487). -/
def execHkCalibrationSlot (zero full : Int) (s : State) : Host.Outcome State Fault Refusal :=
  s.run (wfHkCalibrationSlot zero full) (fun _ m =>
    match m.calSlotDue with
    | none => m
    | some d =>
      match m.blockStart d with
      | none => m
      | some c =>
        if m.hk.fixDue ≤ c then m
        else
          let m := m.advanceTo (c + 160000)
          let m := m.modHk (fun h => { h with
            freeAt := c + 160000, calLast := d, calGain := (h.calGain + 1) % 8
            corr := mapInsert (mapErase h.corr h.calGain) h.calGain (zero, full) })
          m.calRecord 712 0)

/-! ## Die temperatures (R474 to R481) -/

/-- Sensor `t` has failed. -/
def Mach.dieFailed (m : Mach) (t : Nat) : Bool := m.flag (aTHM_TEMP t) fTHM_TEMP_FAIL

/-- The working sensor nearest to tile `t`, the lower number on a tie. -/
def Mach.nearestDie (m : Mach) (t : Nat) : Option Nat :=
  let dist (u : Nat) := if u ≤ t then t - u else u - t
  leastBy dist ((List.range 24).filter (fun u => !m.dieFailed u))
where
  /-- The first of the indexes with the least key. -/
  leastBy (key : Nat → Nat) : List Nat → Option Nat
    | [] => none
    | i :: t => match leastBy key t with
      | some j => if key j < key i then some j else some i
      | none => some i

/-- Twice the median of 24 readings: the 12th and the 13th added (R475). -/
def twiceMedian (l : List Int) : Int :=
  let s := l.foldl (fun a x => ins x a) []
  s.getD 11 0 + s.getD 12 0
where
  /-- A number placed in an ascending list. -/
  ins (x : Int) : List Int → List Int
    | [] => [x]
    | y :: t => if x ≤ y then x :: y :: t else y :: ins x t

/-- A reading judged: a sensor fails outside -60 °C to 160 °C, or 100 readings in a row more than 25 °C from the median (R475). -/
def Mach.dieJudge (m : Mach) (med2 : Int) (t : Nat) (v : Int) : Mach :=
  let far := decide (6400 < 2 * v - med2) || decide (2 * v - med2 < -6400)
  let n := if far then mapGet 0 m.thm.far t + 1 else 0
  let m := { m with thm := { m.thm with far := mapPut 0 m.thm.far t n } }
  if m.dieFailed t || !(decide (v < -7680) || decide (20480 < v) || decide (100 ≤ n)) then m
  else
    let m := m.setFld (aTHM_TEMP t) fTHM_TEMP_FAIL 1
    let m := m.setFld aTHM_STAT fTHM_STAT_NFAIL (((List.range 24).filter m.dieFailed).length)
    m.report (srcId 0x12 t) (srcId 0x12 t) 0x20 0

/-- The value at which band `b` is entered rising, in 1/128 °C; it is left falling 3 °C lower (R476). -/
def bandEntry (b : Nat) : Int := 128 * (30 * (b : Int) - 50)

/-- The band that follows band `b` at JMAX: as many bands up or down as the table gives. -/
def bandNext (jmax : Int) (b : Nat) : Nat :=
  let up := ((List.range 6).filter (fun k => decide (1 ≤ k) && decide (bandEntry k ≤ jmax))).foldl max 0
  if b ≤ up then up
  else ((List.range (b + 1)).filter (fun k => k == 0 || decide (bandEntry k - 384 ≤ jmax))).foldl max 0

/-- HEATING: the load runs while the cold hold is in force, HEAT > 0, from LINKED onward and not in SHUTDOWN (R481). -/
def Mach.heating (m : Mach) : Bool :=
  m.flag aTHM_STAT fTHM_STAT_COLD && m.fld aTHM_CFG fTHM_CFG_HEAT != 0
    && (match m.dev.st with | .linked | .loaded | .armed | .running | .oasis => true | _ => false)
/-- THM_STAT HEATING follows. -/
def Mach.heatShow (m : Mach) : Mach := m.setFld aTHM_STAT fTHM_STAT_HEATING (bit m.heating)

/-- A new band is published: its consumers take it (R477). -/
def Mach.bandTo (m : Mach) (b : Nat) : Mach :=
  if b = m.fld aTHM_STAT fTHM_STAT_BAND then m
  else
    let m := ((m.advance 1).setFld aTHM_STAT fTHM_STAT_BAND b).satInc aTHM_CNT fTHM_CNT_BANDCHG
    (m.rotationRestart).eqBand b

/-- The high and low warnings at extremes from sensors `th` and `tl` (R478). -/
def Mach.warnings (m : Mach) (jmax jmin : Int) (th tl : Nat) : Mach :=
  let hi := 128 * m.sfld aTHM_CFG fTHM_CFG_HIWARN
  let lo := 128 * m.sfld aTHM_CFG fTHM_CFG_LOWARN
  let m :=
    if m.thm.hiArmed ∧ hi ≤ jmax then
      ({ m with thm := { m.thm with hiArmed := false } }.setFld aTHM_STAT fTHM_STAT_HIWARN_F 1).report (srcId 0x12 th) (srcId 0x12 th) 0x29 0
    else if jmax < hi - 384 then { m with thm := { m.thm with hiArmed := true } } else m
  if m.thm.loArmed ∧ jmin < lo then
    ({ m with thm := { m.thm with loArmed := false } }.setFld aTHM_STAT fTHM_STAT_LOWARN_F 1).report (srcId 0x12 tl) (srcId 0x12 tl) 0x29 0
  else if lo + 384 < jmin then { m with thm := { m.thm with loArmed := true } } else m

/-- The cold hold from JMIN, through the guard and the OSSD conditions (R480). -/
def Mach.coldTo (m : Mach) (jmin : Int) : Mach :=
  let was := m.flag aTHM_STAT fTHM_STAT_COLD
  let now := if jmin < -5760 then true else if -5120 < jmin then false else was
  if now = was then m
  else (((m.setFld aTHM_STAT fTHM_STAT_COLD (bit now)).setFld aGRD_STAT fGRD_STAT_COLD (bit now)).grdShow).ossdJudge

/-- Entry to SHUTDOWN (R52, R53, R106, R384, R479): every engine stops, outputs are off, the link keeps lanes 0 and 4. -/
def Mach.enterShutdown (m : Mach) : Mach :=
  if m.dev.st = .off ∨ m.dev.st = .shutdown then m
  else
    let cause := if m.hot then 5 else 0
    let m := (List.range 282).foldl (fun m e =>
      if !(m.e e).active then m
      else match engClass e with
        | .sq => m.haltSeqAs (engInst e) .stopped cause
        | .re => (m.haltEngine e .stopped cause).loseHandle e
        | _ => m.haltEngine e .stopped cause) m
    let m := (m.emtOff.ossdOffAll 5).goto .shutdown
    (({ m with dev := { m.dev with resetDue := none } }).linkShutdown).heatShow

/-- DIE_SENSOR_READ: the 24 sensors read every 50 µs, in 1/128 °C; failures, extremes, band, warnings, cold hold, shutdown (R474 to
R480). -/
def execDieSensorRead (temps : List Int) (s : State) : Host.Outcome State Fault Refusal :=
  s.run (wfDieSensorRead temps) (fun _ m =>
    if m.dev.st = .off ∨ m.dev.st = .reset ∨ m.dev.st = .shutdown then m
    else
      let m := m.advanceTo m.thm.dieDue
      let m := { m with thm := { m.thm with dieDue := m.thm.dieDue + 40000 } }
      let before := ((List.range 24).filter (fun t => !m.dieFailed t)).length
      let med2 := twiceMedian temps
      let m := (List.range 24).foldl (fun m t => m.dieJudge med2 t (temps.getD t 0)) m
      let work := (List.range 24).filter (fun t => !m.dieFailed t)
      let m := (List.range 24).foldl (fun m t =>
        match m.nearestDie t with
        | some u => m.setFld (aTHM_TEMP t) fTHM_TEMP_TEMP (toField 16 (temps.getD u 0))
        | none => m) m
      let m := m.when (decide (12 ≤ before) && decide (work.length < 12)) (fun m => m.enterOasis (.fault .sensors))
      match work with
      | [] => m
      | w :: ws =>
        let t (u : Nat) := temps.getD u 0
        let th := ws.foldl (fun b u => if t b < t u then u else b) w
        let tl := ws.foldl (fun b u => if t u < t b then u else b) w
        let m := (m.setFld aTHM_JT fTHM_JT_JMAX (toField 16 (t th))).setFld aTHM_JT fTHM_JT_JMIN (toField 16 (t tl))
        let m := (m.warnings (t th) (t tl) th tl).coldTo (t tl)
        let sd := 128 * (min 140 (max 100 (m.fld aTHM_CFG fTHM_CFG_SD_T)) : Nat)
        let hot := if (sd : Int) ≤ t th then m.thm.hot + 1 else 0
        let band := bandNext (t th) (if m.thm.seen then m.fld aTHM_STAT fTHM_STAT_BAND else 0)
        let m := { m with thm := { m.thm with seen := true, hot := hot } }
        let m := (m.bandTo band).heatShow
        if 2 ≤ hot then (m.report (srcId 0x12 th) (srcId 0x12 th) 0x29 5).enterShutdown else m)

/-! ## Calibration sets (R482 to R485) -/

/-- The address of set `q`. -/
def calSet (q : Nat) : Nat := 0x510000 + 64 * q

/-- The source temperature of a set's word 0, when it has one (R482, R483). -/
def Mach.calSource (m : Mach) (w0 : Nat) : Option Int :=
  let i := w0 % 32
  match w0 / 2 ^ 14 % 4 with
  | 0 => if i < 24 then some (m.sfld (aTHM_TEMP i) fTHM_TEMP_TEMP) else none
  | 1 =>
    if i < 4 ∧ m.hk.fixAt.any (fun x => x.1 == i) ∧ m.flag (aHK_FIX i) fHK_FIX_FIXERR = false then
      some (m.sfld (aHK_FIX i) fHK_FIX_TEMP)
    else none
  | 2 => some (m.sfld aTHM_JT fTHM_JT_JMAX)
  | _ => none

/-- Temperatures rise strictly. -/
def risesStrictly : List (Int × Int) → Bool
  | a :: b :: t => decide (a.1 < b.1) && risesStrictly (b :: t)
  | _ => true

/-- The value of the points at `th`, which lies at or above the first (R483). -/
def interpolate (th : Int) : List (Int × Int) → Int
  | (t, v) :: (t', v') :: r =>
    if th < t' then v + divAway ((v' - v) * (th - t)) (t' - t).toNat else interpolate th ((t', v') :: r)
  | [(_, v)] => v
  | [] => 0

/-- The points in use of set `q`. -/
def Mach.calPoints (m : Mach) (q w0 : Nat) : List (Int × Int) :=
  (List.range (w0 / 2 ^ 24 % 8 + 1)).map (fun k =>
    let w := m.mnat (calSet q + 4 + 4 * k) 4
    (signed 16 (w / 2 ^ 16), signed 16 w))

/-- Set `q` evaluated: its value reaches TDC_POFS_q or CAL_OUT_k when it is used and its source has a temperature; SETERR follows. -/
def Mach.calEval (m : Mach) (q : Nat) : Mach :=
  let w0 := m.mnat (calSet q) 4
  let valid := w0.testBit 31
  let ps := m.calPoints q w0
  let ok := risesStrictly ps
  let m := m.setFld (aCAL_SETERR (q / 32)) ⟨q % 32, q % 32⟩ (bit (valid && !ok))
  if !valid || !ok then m
  else match m.calSource w0, ps with
    | some th, (t0, v0) :: _ =>
      let last := (ps.getLast?.getD (t0, v0)).1
      let v := if th ≤ t0 then v0 else interpolate th ps
      let m := m.when (decide (1 < ps.length) && (decide (th < t0) || decide (last < th))) (fun m => m.satInc aCAL_STAT fCAL_STAT_EXTRAP)
      if q < 400 then m.setFld (aTDC_POFS q) fTDC_POFS_POFS (toField 16 v) else m.setFld (aCAL_OUT (q - 400)) fCAL_OUT_VALUE (toField 16 v)
    | _, _ => m

/-- CAL_SET_EVALUATION: every 200 µs each set is evaluated (R483). -/
def execCalSetEvaluation (s : State) : Host.Outcome State Fault Refusal :=
  s.run wfCalSetEvaluation (fun _ m =>
    let m := m.advanceTo m.hk.evalDue
    let m := m.modHk (fun h => { h with evalDue := h.evalDue + 160000 })
    let m := (List.range 512).foldl Mach.calEval m
    m.setFld aCAL_STAT fCAL_STAT_NBAD (((List.range 16).map (fun w => popCount 32 (m.reg (aCAL_SETERR w)).toNat)).sum))

end Sys2Proof.Machine
end

