-- ==== Sys2Proof/Machine/Probe.lean ====
section
/-!
DEFINITION. Probe capture (R498 to R502): the probe words, the trigger conditions, the capture and its buffer.
-/
namespace Sys2Proof.Machine

/-! ## Probe words (R498) -/

/-- STATE of an engine's STAT register. -/
def EngState.code : EngState → Nat
  | .stopped => 0 | .running => 1 | .waiting => 2 | .halted => 3 | .faulted => 4

/-- WAITKIND of an engine's STAT register. -/
def Wait.kind : Wait → Nat
  | .none => 0
  | .sem _ => 1
  | .trig _ => 2
  | .mbox _ => 3
  | .queue _ => 4
  | .dram .. => 5
  | .ctl .. => 6
  | .take | .rel .. | .fire | .proof | .walk _ | .wangle .. | .adcr _ => 7

/-- STAT of an engine as it reads. -/
def Mach.engStat (m : Mach) (e : Nat) : Word :=
  let x := m.e e
  word (2 ^ 20 * x.reqErr + 2 ^ 16 * x.stopCause + 2 ^ 12 * (if x.st = .waiting then x.wait.kind else 0)
    + 2 ^ 9 * bit x.verifyDue.isSome + 2 ^ 8 * bit x.verified + x.st.code)

/-- The probe words of an engine. -/
def Mach.engProbe (m : Mach) (e sig : Nat) : Nat :=
  let x := m.e e
  match sig with
  | 0 => x.pc / 4 % 2 ^ 16
  | 1 => 2 ^ 12 * x.st.code + 2 ^ 8 * (if x.st = .waiting then x.wait.kind else 0) + x.stopCause
  | 2 => x.mbox.length
  | 3 => (m.cyc - x.startCyc) % 2 ^ 16
  | _ => 0

/-- The probe word that a PSEL and a SIG name; one not listed reads 0. -/
def Mach.probeWord (m : Mach) (psel sig : Nat) : Nat :=
  let i := psel % 2048
  match psel / 2048, sig with
  | 0x02, _ => if i < 2 then m.engProbe (280 + i) sig else 0
  | 0x04, _ => if i < 16 then m.engProbe (256 + i) sig else 0
  | 0x07, _ =>
    if i < 8 then m.engProbe (272 + i) sig
    else if i < 12 then
      match sig with
      | 0 => toField 16 (m.ax (i - 8)).code
      | 1 => toField 16 (m.ax (i - 8)).avg
      | 2 => m.fld (aAXS_ASTAT (i - 8)) fAXS_ASTAT_FE_TIMER
      | 3 => (m.ax (i - 8)).pubA.toNat / 2 ^ 16
      | _ => 0
    else 0
  | 0x08, 0 => if i < 96 then (m.p i).lastEvs else 0
  | 0x08, 1 => if i < 96 then m.fld (aPRT_IMON i) fPRT_IMON_IBIAS else 0
  | 0x08, 2 => if i < 96 then (m.p i).lastThr.headD 0 else 0
  | 0x08, 3 => if i < 96 then 2 ^ 8 * toField 8 (m.p i).ofs + m.fld (aPRT_FE i) fPRT_FE_GAIN else 0
  | 0x0B, 0 => if i < 192 then 2 ^ 8 * (m.bankGen i % 256) + m.bankSt i else 0
  | 0x0B, 1 => if i < 192 then m.fld (aERG_PSTAT (m.bankPort i)) fERG_PSTAT_CSHOTS else 0
  | 0x0C, _ => if i < 256 then m.engProbe i sig else 0
  | 0x10, 0 => if i = 0 then 2 ^ 5 * m.fld (aSAF_OSSD 1) fSAF_OSSD_STATE + m.fld (aSAF_OSSD 0) fSAF_OSSD_STATE else 0
  | 0x10, 1 =>
    if i = 0 then ((List.range 4).map (fun k => 16 ^ k * m.fld (aSAF_IN k) fSAF_IN_STATE_A)).sum else 0
  | 0x15, 0 =>
    if 8 ≤ i ∧ i < 10 then
      2 ^ 12 * m.gState (i - 8) + 2 ^ 9 * m.fld (aLNK_GSTAT (i - 8)) fLNK_GSTAT_RUNG + m.gActive (i - 8)
    else 0
  | 0x15, 1 => if 8 ≤ i ∧ i < 10 then (m.g (i - 8)).kept.length else 0
  | 0x17, 0 => if i = 0 ∧ m.flt.cyc + 1 = m.cyc then m.flt.inCyc else 0
  | 0x17, 1 => if i = 0 then m.flt.recs.length else 0
  | _, _ => 0

/-- The four words of a sample, cut to 16 bits. -/
def Mach.probeSample (m : Mach) : List Nat :=
  (List.range 4).map (fun c => m.probeWord (m.fld (aPRB_SEL c) fPRB_SEL_PSEL) (m.fld (aPRB_SEL c) fPRB_SEL_SIG) % 2 ^ 16)

/-! ## Trigger conditions (R499) -/

/-- A condition's state after a sample, and whether it fires in it: a sample fires by what earlier samples armed. -/
def ProbeArm.see (x : ProbeArm) (kind : Nat) (v level hyst : Int) (hit : Bool) : ProbeArm × Bool :=
  let rise := x.rise && decide (level ≤ v)
  let fall := x.fall && decide (v ≤ level)
  let fires := match kind with
    | 0 => rise
    | 1 => fall
    | 2 => rise || fall
    | _ => x.match_ && hit
  ({ rise := x.rise || decide (v ≤ level - hyst), fall := x.fall || decide (level + hyst ≤ v), match_ := !hit }, fires)

/-- Condition `k` sees a sample. -/
def Mach.condSees (m : Mach) (ws : List Nat) (k : Nat) (x : ProbeArm) : ProbeArm × Bool :=
  let a := aPRB_TRIG k
  let mask := m.fld a fPRB_TRIG_MASK
  let w := ws.getD (m.fld a fPRB_TRIG_CH) 0 &&& mask
  let lv := m.fld (aPRB_LVL k) fPRB_LVL_LEVEL
  let num (n : Nat) : Int := if m.flag a fPRB_TRIG_SIGNED then signed 16 n else n
  let (x, fires) := x.see (m.fld a fPRB_TRIG_KIND) (num w) (num lv) (m.fld (aPRB_LVL k) fPRB_LVL_HYST) (w == lv &&& mask)
  (x, fires && m.flag a fPRB_TRIG_EN)

/-! ## The capture (R500 to R502) -/

/-- STATE of the capture: 0 IDLE, 1 RUN, 2 POST, 3 DONE. -/
def Mach.prbState (m : Mach) : Nat := m.fld aPRB_STAT fPRB_STAT_STATE
/-- A capture runs: commits of group 0 are held and its fields refused (R502). -/
def Mach.prbRuns (m : Mach) : Bool := m.prbState == 1 || m.prbState == 2

/-- The probe capture changed. -/
def Mach.modProbe (m : Mach) (f : Probe → Probe) : Mach := { m with probe := f m.probe }

/-- The capture goes to DRAM. -/
def Mach.prbDram (m : Mach) : Bool := m.flag aPRB_CTRL fPRB_CTRL_DRAM
/-- The unit of PRE, POST and PRECNT in samples. -/
def Mach.prbUnit (m : Mach) : Nat := if m.prbDram then 16 else 1
/-- Cycles from one sample to the next. -/
def Mach.prbStep (m : Mach) : Nat :=
  let d := m.fld aPRB_CTRL fPRB_CTRL_DIV
  2 ^ (if m.prbDram then max 2 d else d)

/-- GO: a capture starts with the active settings. -/
def Mach.prbGo (m : Mach) : Mach :=
  let cap := if m.prbDram then 8 * m.fld aPRB_SIZE fPRB_SIZE_SIZE else 16384
  let u := m.prbUnit
  let pre := min (u * m.fld aPRB_DEPTH fPRB_DEPTH_PRE) (cap - 1)
  let post := u * m.fld aPRB_DEPTH fPRB_DEPTH_POST
  let m := { m with probe :=
    { idx := 0, n := 0, left := 0, due := m.cyc + m.prbStep, pre := pre, post := min post (cap - pre), cap := cap
      conds := List.replicate 4 { rise := false, fall := false, match_ := false } } }
  let m := (m.setReg aPRB_TSTAT 0).setFld aPRB_STAT fPRB_STAT_PRECNT 0
  (m.setFld aPRB_STAT fPRB_STAT_CLAMPED (bit (decide (cap - pre < post)))).setFld aPRB_STAT fPRB_STAT_STATE 1

/-- STOP: a running capture ends in DONE. -/
def Mach.prbStop (m : Mach) : Mach :=
  if !m.prbRuns then m
  else
    let m := m.when (m.prbState == 1) (fun m => m.setFld aPRB_STAT fPRB_STAT_PRECNT (min m.probe.n m.probe.pre / m.prbUnit))
    m.setFld aPRB_STAT fPRB_STAT_STATE 3

/-- A write of PRB_CTRL: the settings go to the shadow, refused while a commit is pending or a capture runs; STOP ends a capture, GO starts
one when none runs. -/
def Mach.prbCtrlSet (m : Mach) (v : Word) : Mach :=
  let go := fPRB_CTRL_GO.get v == 1
  let stop := fPRB_CTRL_STOP.get v == 1
  if m.prbRuns then (if stop then (m.done 0).prbStop else m.refuse)
  else if m.isPending 0x700000 0 then m.refusePending 0x700000
  else
    let m := (m.done 0).setShadow aPRB_CTRL ((m.shadowReg aPRB_CTRL &&& ~~~ 0x2000000F) ||| (v &&& 0x2000000F))
    m.when (go && !stop) Mach.prbGo

/-- CAPTURE_GO. -/
def execCaptureGo (src : Src) (v : Word) (s : State) : Host.Outcome State Fault Refusal :=
  s.run (wfCaptureGo src v) (fun _ m => m.asWriter src .tstfus 0 0 (fun m => m.prbCtrlSet (v ||| 0x80000000)))

/-- CAPTURE_STOP. -/
def execCaptureStop (src : Src) (s : State) : Host.Outcome State Fault Refusal :=
  s.run (wfCaptureStop src) (fun _ m => m.asWriter src .tstfus 0 0 (fun m => (m.done 0).prbStop))

/-- A sample stored at the buffer's next index; in DRAM it is lost when it cannot be written (R502). -/
def Mach.prbStore (m : Mach) (ws : List Nat) (lost : Bool) : Mach :=
  let x := m.probe
  let off := 64 * m.fld aPRB_DEST fPRB_DEST_BASE + 8 * x.idx
  let gone := x.cap == 0 || (m.prbDram && (lost || m.dramStatus off 8 != 0))
  if gone then m.satInc aPRB_STAT fPRB_STAT_GAPS
  else
    let a := if m.prbDram then dramBase + off else probeBase + 8 * x.idx
    let m := m.setBytes a (ws.flatMap (fun w => leBytes 2 w))
    m.modProbe (fun x => { x with idx := (x.idx + 1) % x.cap, n := x.n + 1, left := x.left - 1 })

/-- The trigger has come in this sample, conditions `fired` firing: its index, stamp and status; POST samples follow (R500, R501). -/
def Mach.prbTrigger (m : Mach) (fired : List Nat) (idx kept : Nat) : Mach :=
  let st := m.stamp.bytes
  let m := m.setReg aPRB_TSTAT (word (2 ^ 31 + 16 * ofBits fired + fired.headD 0))
  let m := (m.setReg aPRB_TIDX (word idx)).setFld aPRB_STAT fPRB_STAT_PRECNT (min kept m.probe.pre / m.prbUnit)
  let m := (List.range 3).foldl (fun m i => m.setReg (aPRB_STAMP i) (word (leNat ((st.drop (4 * i)).take 4)))) m
  (m.modProbe (fun x => { x with left := x.post })).setFld aPRB_STAT fPRB_STAT_STATE 2

/-- PROBE_SAMPLE: the next sample of a running capture falls due; `lost` when the DRAM arbiter does not let it be written in time. -/
def execProbeSample (lost : Bool) (s : State) : Host.Outcome State Fault Refusal :=
  s.run (wfProbeSample lost) (fun _ m =>
    if !m.prbRuns || (m.prbState == 2 && m.probe.left == 0) then m
    else
      let m := m.advanceTo m.probe.due
      let m := m.modProbe (fun x => { x with due := x.due + m.prbStep })
      let ws := m.probeSample
      if m.prbState = 2 then m.prbStore ws lost
      else
        let seen := (List.range 4).map (fun k => m.condSees ws k (m.probe.conds.getD k { rise := false, fall := false, match_ := false }))
        let fired := (List.range 4).filter (fun k => (seen.map (fun p => p.2)).getD k false)
        let m := m.modProbe (fun x => { x with conds := seen.map (fun p => p.1) })
        let idx := m.probe.idx
        let kept := m.probe.n
        let m := m.prbStore ws lost
        m.when (!fired.isEmpty) (fun m => m.prbTrigger fired idx kept))

/-- CAPTURE_DONE: POST samples after the trigger have been recorded. -/
def execCaptureDone (s : State) : Host.Outcome State Fault Refusal :=
  s.run wfCaptureDone (fun _ m => if m.prbState = 2 ∧ m.probe.left = 0 then m.setFld aPRB_STAT fPRB_STAT_STATE 3 else m)

end Sys2Proof.Machine
end

