-- ==== Sys2Proof/Machine/Dsp.lean ====
section
/-!
DEFINITION. The exact arithmetic of the range engines' histogram instructions (chapter 10) on lists of elements: bgest, bscan,
corr, fit, wfpk, poly and cls.
-/
namespace Sys2Proof.Machine

/-! ## Numbers -/

/-- The root of `n` built bit by bit from bit `k - 1` down, above `r`. -/
def isqrtFrom : Nat → Nat → Nat → Nat
  | 0, _, r => r
  | k + 1, n, r => isqrtFrom k n (if (r + 2 ^ k) * (r + 2 ^ k) ≤ n then r + 2 ^ k else r)

/-- The integer square root, rounded down. -/
def isqrt (n : Nat) : Nat := isqrtFrom (Nat.log2 n / 2 + 1) n 0

/-- log2 truncated to 16 fractional bits, as a whole number of 2^-16, exactly. -/
def lg16 (y : Nat) : Nat := Nat.log2 (y ^ 65536)

/-- The root of `num / den`, rounded to nearest. -/
def roundSqrt (num den : Nat) : Nat := (isqrt (4 * num / max 1 den) + 1) / 2

/-- The first index of the largest element, and that element. -/
def argMax : List Int → Nat × Int
  | [] => (0, 0)
  | x :: t => (t.zipIdx 1).foldl (fun b p => if b.2 < p.1 then (p.2, p.1) else b) (0, x)

/-- Element `i` of a vector, 0 outside it. -/
def elem (x : List Int) (i : Int) : Int := if i < 0 then 0 else x.getD i.toNat 0

/-- A fraction clipped to ±1/2, as numerator over a positive denominator. -/
def clipHalf (num : Int) (den : Nat) : Int × Nat :=
  if (den : Int) < 2 * num then (1, 2) else if 2 * num < -(den : Int) then (-1, 2) else (num, den)

/-! ## bgest -/

/-- Consecutive blocks of 32 elements, at most `k` of them; the last may hold fewer. -/
def blocks : Nat → List Int → List (List Int)
  | 0, _ => []
  | k + 1, l => if l.isEmpty then [] else l.take 32 :: blocks k (l.drop 32)

/-- One pass that places a block in descending order of sum, the higher block number first among equal sums. -/
def insertBlock (b : Nat × List Int) : List (Nat × List Int) → List (Nat × List Int)
  | [] => [b]
  | c :: t => if c.2.sum ≤ b.2.sum then b :: c :: t else c :: insertBlock b t

/-- bgest: mean, variance, elements kept, blocks dropped, and whether a result clipped. -/
def bgestOf (x : List Int) (trim : Nat) : Int × Nat × Nat × Nat × Bool :=
  let bs := (blocks x.length x).zipIdx.map (fun p => (p.2, p.1))
  let nb := bs.length
  let m := min (divCeil (trim * nb) 16) (nb - 1)
  let kept := ((bs.foldl (fun l b => insertBlock b l) []).drop m).flatMap (fun b => b.2)
  let n := kept.length
  let s1 := kept.sum
  let s2 := (kept.map (fun v => v * v)).sum
  let mean := if n = 0 then 0 else 65536 * s1 / n
  let var := if n = 0 then 0 else (max 0 (65536 * (s2 * n - s1 * s1) / (n * n))).toNat
  (clip32 mean, min var 0xFFFFFFFF, n, m, decide (clip32 mean ≠ mean) || decide (0xFFFFFFFF < var))

/-! ## bscan -/

/-- A dune (R290). -/
structure Dune where
  first   : Nat
  len     : Nat
  peak    : Nat
  peakval : Nat
  excess  : Int
  sig     : Nat
  clipped : Bool
deriving DecidableEq, Repr

/-- The significance of a dune (R291), from its excess, its run's length and the variance. -/
def sigOf (excess : Int) (len var : Nat) : Nat :=
  if excess ≤ 0 then 0
  else if var = 0 then 0xFFFF
  else min 0xFFFF (isqrt ((65536 * excess.toNat) ^ 2 / (len * var)))

/-- The maximal spans of indices above the threshold, as first and last index; one element not above joins two spans. -/
def runsOf (above : List Bool) : List (Nat × Nat) :=
  (above.zipIdx.foldl (fun (l : List (Nat × Nat)) p =>
    if !p.1 then l
    else match l with
      | (a, b) :: t => if p.2 ≤ b + 2 then (a, p.2) :: t else (p.2, p.2) :: (a, b) :: t
      | [] => [(p.2, p.2)]) []).reverse

/-- A run measured against mean and variance. -/
def duneOf (x : List Int) (mean : Int) (var : Nat) (r : Nat × Nat) : Dune :=
  let len := r.2 + 1 - r.1
  let seg := (x.drop r.1).take len
  let p := argMax seg
  let ex := (65536 * seg.sum - mean * len) / 65536
  { first := r.1, len := len, peak := r.1 + p.1, peakval := (clampInt 0 0xFFFF p.2).toNat, excess := clip32 ex
    sig := sigOf (clip32 ex) len var, clipped := decide (clip32 ex ≠ ex) }

/-- A dune placed by PEAKVAL descending, then PEAK ascending. -/
def insertDune (d : Dune) : List Dune → List Dune
  | [] => [d]
  | c :: t => if c.peakval < d.peakval ∨ (c.peakval = d.peakval ∧ d.peak ≤ c.peak) then d :: c :: t else c :: insertDune d t

/-- bscan: every dune in order. -/
def bscanOf (x : List Int) (mean : Int) (var ksig : Nat) : List Dune :=
  let thr := mean + ((ksig * isqrt (var * 65536) / 4 : Nat) : Int)
  ((runsOf (x.map (fun v => decide (thr < 65536 * v)))).map (duneOf x mean var)).foldl (fun l d => insertDune d l) []

/-! ## corr -/

/-- corr with taps, before clipping. -/
def corrTaps (x taps : List Int) (shift : Nat) : List Int :=
  let c := (taps.length - 1) / 2
  (List.range x.length).map (fun (i : Nat) =>
    divAway ((taps.zipIdx.map (fun p => p.1 * elem x ((i : Int) + p.2 - c))).sum) (2 ^ shift))

/-- corr with the code template, before clipping: weights of the 16 positions and time per element. -/
def corrCode (x : List Int) (w : List Nat) (e : Nat) : List Int :=
  (List.range x.length).map (fun (i : Nat) =>
    (w.zipIdx.map (fun p => (p.1 : Int) * elem x ((i : Int) - ((64 * p.2 / max 1 e : Nat) : Int)))).sum)

/-! ## fit -/

/-- fit: rd, AREA, and WID when it is written. -/
def fitOf (x : List Int) (p h : Nat) (b : Int) (gauss : Bool) : Word × Word × Option Nat :=
  let y (i : Nat) : Nat := if p ≤ i + h ∧ i ≤ p + h then (max 0 (65536 * x.getD i 0 - b)).toNat else 0
  let ix := List.range x.length
  let sy := (ix.map y).sum
  if sy = 0 then (0x80000000, 0, none)
  else
    let centroid : Int × Nat := (((ix.map (fun i => i * y i)).sum : Nat), sy)
    let l := if p = 0 then 0 else y (p - 1)
    let c := if p < x.length then y p else 0
    let r := if p + 1 < x.length then y (p + 1) else 0
    let pos : Int × Nat :=
      if gauss ∧ 0 < l ∧ 0 < c ∧ 0 < r ∧ lg16 l + lg16 r < 2 * lg16 c then
        let d := clipHalf ((lg16 r : Int) - lg16 l) (2 * (2 * lg16 c - lg16 l - lg16 r))
        (p * d.2 + d.1, d.2)
      else centroid
    let q := (ix.map (fun (i : Nat) => (((i : Int) * pos.2 - pos.1) * ((i : Int) * pos.2 - pos.1)).toNat * y i)).sum
    (wordOfInt (divAway (256 * pos.1) pos.2), word (sy / 65536),
     some (min 0xFFFF (roundSqrt (256 * q) (pos.2 * pos.2 * sy))))

/-! ## wfpk -/

/-- How many of the leading marks are set. -/
def leading : List Bool → Nat
  | true :: t => leading t + 1
  | _ => 0

/-- The crossing of a half level on the way from a peak outwards, in 1/den of an index before the peak: the sums seen going
out, twice the half level, as a distance numerator over a denominator; at the vector end the distance to the last index. -/
def crossing (lvl2 : Int) : Int → Nat → List Int → Int × Nat
  | _, k, [] => (k, 1)
  | inner, k, s :: t =>
    if 2 * s ≤ lvl2 then (k * (2 * (inner - s)) + (2 * inner - lvl2), (2 * (inner - s)).toNat)
    else crossing lvl2 s (k + 1) t

/-- wfpk: rd, and the two result words when they are written. -/
def wfpkOf (s : List Int) (clip : List Bool) (blank : Bool) (wf : Nat) : Word × Option (Word × Word) :=
  let (m, big) := argMax s
  let base : Int := 64 * wf
  if wf = 0 ∨ big ≤ base then (0x80000000, none)
  else
    let cl := clip.getD m false
    let before := if cl then leading ((clip.take m).reverse) else 0
    let run := if cl then before + leading (clip.drop m) else 0
    let pos : Int × Nat :=
      if cl then (2 * ((m : Int) - before) + run - 1, 2)
      else if m = 0 ∨ s.length ≤ m + 1 then (m, 1)
      else
        let l := s.getD (m - 1) 0
        let r := s.getD (m + 1) 0
        let den := 2 * (l - 2 * big + r)
        if 0 ≤ den then (m, 1)
        else
          let d := clipHalf (r - l) (-den).toNat
          (m * d.2 + d.1, d.2)
    let amp := min 0xFFFF (16 * (big - base) / wf).toNat
    let lvl2 := base + big
    let left := crossing lvl2 big 0 ((s.take m).reverse)
    let right := crossing lvl2 big 0 (s.drop (m + 1))
    let fwhm := min 0xFFFF (divAway (16 * (left.1 * right.2 + right.1 * left.2)) (left.2 * right.2)).toNat
    (wordOfInt (divAway (256 * pos.1) pos.2),
     some (word (2 ^ 16 * fwhm + amp), word (2 ^ 17 * bit blank + 2 ^ 16 * bit cl + min 0xFFFF run)))

/-! ## poly -/

/-- p(x, y). -/
def polyP (x y : Int) : Int := divAway (x * y) 32768

/-- poly: the exact corrected value; `th` is the clipped temperature term, `coef` C[1] to C[15]. -/
def polyOf (rs : Int) (a : Nat) (th : Int) (coef : List Int) : Int :=
  let tau := clampInt (-32768) 32767 (rs / 1024)
  let al : Int := 8 * a
  let aa := polyP al al
  let tt := polyP tau tau
  let m := [32768, al, aa, polyP aa al, polyP aa aa, tau, polyP tau al, polyP tau aa, tt, polyP tt tau,
            th, polyP th al, polyP th aa, polyP th tau, polyP th th]
  rs - divAway ((List.zipWith (fun c v => c * v) coef m).sum) 32768

/-! ## cls -/

/-- One rule entry matches the features (R298): word 0 and the eight bound words. -/
def clsMatch (w0 : Nat) (bounds : List Nat) (f : List Nat) : Bool :=
  (List.range 8).all (fun j =>
    !(w0 / 2 ^ 16).testBit j
      || (decide (bounds.getD j 0 % 65536 ≤ f.getD j 0) && decide (f.getD j 0 ≤ bounds.getD j 0 / 65536)))

end Sys2Proof.Machine
end

