-- ==== Sys2Proof/Machine/Rng.lean ====
section
/-!
DEFINITION. Range engines (chapter 10): taking and looking (R275 to R286), vectors in banks and data memory (R281), the histogram
instructions, and the issue of rel (R287). What happens when PTS accepts a group is in Pts.
-/
namespace Sys2Proof.Machine

/-! ## What the hardware knows of a bank (R263, R286, R292) -/

/-- The header values an instruction uses: of an ACTIVE bank as they stand, of any other from its written header. -/
structure BankView where
  k      : Nat
  nbins  : Nat
  nshot  : Nat
  acc    : Nat
  wf     : Nat
  coded  : Bool
  astart : Nat
  alen   : Nat
  starts : List Nat
deriving DecidableEq, Repr

/-- The cell whose bank is `b`, if it has not swapped. -/
def Mach.cellOf (m : Mach) (b : Nat) : Option Cell := (m.p (m.bankPort b)).cells.find? (fun c => c.bank == b)

/-- START of barchan window `w` of a cell. -/
def Cell.start (c : Cell) (w : Nat) : Nat := (mapGet { start := 0, fromId := 0, offId := none, restarts := 0, shots := 0, scnt := 0, smax := 0, smin := 0, trk := [] : Window } c.wins w).start

/-- The values of a bank at this instant. -/
def Mach.bankView (m : Mach) (b : Nat) : BankView :=
  match m.cellOf b with
  | some c =>
    { k := c.k, nbins := 2 ^ c.log2nb, nshot := c.done, acc := c.acc, wf := c.wf, coded := c.coded, astart := c.astart
      alen := c.alen, starts := (List.range 4).map c.start }
  | none =>
    let h (o n : Nat) := m.mnat (bankBase b + o) n
    { k := h 0x1C 4 % 8, nbins := 2 ^ (h 0x1C 4 / 16 % 16), nshot := h 7 1, acc := h 8 1, wf := h 9 1
      coded := (h 0xB 1).testBit 7, astart := h 0x24 4 % 2 ^ 16, alen := h 0x24 4 / 2 ^ 16 % 2 ^ 13
      starts := (List.range 4).map (fun w => h (0x50 + 12 * w) 4 % 2 ^ 18) }

/-- Word `k` of entry `i` of a bank's shot table (R264). -/
def Mach.shotWord (m : Mach) (b i k : Nat) : Nat := m.mnat (bankBase b + 0x100 + 32 * i + 4 * k) 4

/-- The entries of accumulated shots in a bank's shot table. -/
def Mach.accShots (m : Mach) (b n : Nat) : List Nat := (List.range n).filter (fun i => m.shotWord b i 0 / 2 ^ 29 == 0)

/-- The overload spans of the accumulated shots, in LSB (R264, R292). -/
def Mach.overSpans (m : Mach) (b n : Nat) : List (Int × Int) :=
  (m.accShots b n).flatMap (fun i => [2, 3, 4].map (fun k =>
    let w := m.shotWord b i k
    (32 * signed 16 w, 32 * signed 16 (w / 2 ^ 16))))

/-! ## Vectors (R281) -/

/-- The element types. -/
inductive VKind | data | coarse | pre | win | acc
deriving DecidableEq, Repr

/-- A vector: kind, bank, index of its first element in its region, elements, whether its look is stale. -/
structure Vec where
  kind  : VKind
  bank  : Nat
  base  : Nat
  len   : Nat
  stale : Bool
  vals  : List Int
  /-- For accumulator words, the marks: bit 0 CLIPPED, bit 1 BLANK. -/
  marks : List Nat
deriving DecidableEq, Repr

/-- The region of a bank offset: kind, first offset, end, bytes per element. -/
def vecRegion (off : Nat) : Option (VKind × Nat × Nat × Nat) :=
  if 0x8000 ≤ off then some (.coarse, 0x8000, 0x10000, 2)
  else if 0x4000 ≤ off then some (.acc, 0x4000, 0x8000, 4)
  else if 0x1300 ≤ off then none
  else if 0xB00 ≤ off then some (.win, 0xB00, 0x1300, 2)
  else if 0x900 ≤ off then some (.pre, 0x900, 0xB00, 2) else none

/-- LEN of a descriptor. -/
def vecLen (d : Word) : Nat := if d.toNat / 2 ^ 18 = 0 then 16384 else d.toNat / 2 ^ 18
/-- ADDR of a descriptor. -/
def vecAddr (d : Word) : Nat := d.toNat % 2 ^ 18

/-- The bank mapped at ADDR, if any: held at 0x1_0000, looked at 0x2_0000, stale or not. -/
def Mach.vecBank (m : Mach) (e : Nat) (d : Word) : Option (Nat × Bool) :=
  match vecAddr d / 2 ^ 16 with
  | 1 => (m.e e).held.map (fun h => (h.bank, false))
  | 2 => (m.e e).look.map (fun k => (k.bank, !m.lookOk e))
  | _ => none

/-- The fault code a vector raises, 0 for none. -/
def Mach.vecErr (m : Mach) (e : Nat) (d : Word) : Nat :=
  let a := vecAddr d
  if a < 0x8000 then (if a % 4 ≠ 0 then 3 else if 0x8000 < a + 4 * vecLen d then 4 else 0)
  else match m.vecBank e d, vecRegion (a % 2 ^ 16) with
    | some _, some (_, _, hi, sz) =>
      if a % sz ≠ 0 then 3 else if hi < a % 2 ^ 16 + sz * vecLen d then 4 else 0
    | _, _ => 4

/-- A vector that raises no fault. A stale look reads 0. -/
def Mach.vec (m : Mach) (e : Nat) (d : Word) : Vec :=
  let a := vecAddr d
  let n := vecLen d
  if a < 0x8000 then
    { kind := .data, bank := 0, base := a / 4, len := n, stale := false
      vals := (List.range n).map (fun i => (m.mword (dataBase e + a + 4 * i)).toInt), marks := [] }
  else match m.vecBank e d, vecRegion (a % 2 ^ 16) with
    | some (b, stale), some (k, lo, _, sz) =>
      let raw := if stale then List.replicate n 0
        else (List.range n).map (fun i => m.mnat (bankBase b + a % 2 ^ 16 + sz * i) sz)
      { kind := k, bank := b, base := (a % 2 ^ 16 - lo) / sz, len := n, stale := stale
        vals := raw.map (fun v => ((v % 2 ^ 24 : Nat) : Int)), marks := raw.map (fun v => v / 2 ^ 24 % 4) }
    | _, _ => { kind := .data, bank := 0, base := 0, len := n, stale := true, vals := [], marks := [] }

/-- Time per element (R281). -/
def elemTime (v : BankView) : VKind → Nat
  | .coarse => 8 * 2 ^ v.k | .pre => 8 | .win => 1 | .acc => 32 | .data => 0

/-- The instant at which element `i` of a vector begins (R292). -/
def elemStart (v : BankView) (x : Vec) (i : Nat) : Int :=
  let b := x.base + i
  match x.kind with
  | .coarse => (b % v.nbins : Nat) * (8 * 2 ^ v.k : Nat)
  | .pre => 8 * (b : Int) - 2048
  | .win => v.starts.getD (b / 256) 0 + (b % 256 : Nat)
  | .acc => 32 * ((v.astart + b : Nat) : Int)
  | .data => 0

/-- Element `i` is overload-marked (R292). -/
def Mach.isOver (m : Mach) (v : BankView) (x : Vec) (i : Nat) : Bool :=
  let t := elemStart v x i
  let e := elemTime v x.kind
  x.kind != .data && (m.overSpans x.bank v.nshot).any (fun s => decide (t < s.2) && decide (s.1 < t + e))

/-- An accumulator word whose interval meets element `i` has CLIPPED set (R292). -/
def Mach.isClip (m : Mach) (v : BankView) (x : Vec) (i : Nat) : Bool :=
  let t := elemStart v x i
  let e := elemTime v x.kind
  x.kind != .data && (List.range v.alen).any (fun j =>
    let w : Int := 32 * ((v.astart + j : Nat) : Int)
    decide (w < t + e) && decide (t < w + 32) && (m.mword (bankBase x.bank + 0x4000 + 4 * j)).getLsbD 24)

/-! ## Shared steps of the histogram instructions -/

/-- The fault code of a block of `n` bytes that must lie in data memory, aligned to `al`. -/
def blockErr (e a n al : Nat) : Nat := if a % al ≠ 0 then 3 else if inData e a n then 0 else 4

/-- The lowest code of those that apply, 0 for none (R98). -/
def lowestCode (l : List Nat) : Nat := l.foldl (fun k c => if c = 0 then k else if k = 0 then c else min k c) 0

/-- An instruction faults with the lowest code that applies, or goes on. -/
def Mach.checked (m : Mach) (e : Nat) (codes : List Nat) (f : Mach → Mach) : Mach :=
  match lowestCode codes with
  | 0 => f m
  | k => m.engFault e k

/-- `n` words of data memory take free values: outputs the spec calls undefined (R285). -/
def Mach.freeOut (m : Mach) (e a : Nat) : Nat → Mach
  | 0 => m
  | n + 1 => let (w, m) := m.takeFree; (m.setMword (dataBase e + a) w).freeOut e (a + 4) n

/-- An instruction that streams a stale look: rd is 0xFFFF_FFFF, its outputs are undefined, STALE counts it (R285). -/
def Mach.staleOut (m : Mach) (e : Nat) (rd : BitVec 4) (a words : Nat) : Mach :=
  ((m.freeOut e a words).satInc (aRNG_LOSS e) fRNG_LOSS_STALE).result e rd 0xFFFFFFFF

/-- A word of an engine's data memory. -/
def Mach.dword (m : Mach) (e a : Nat) : Word := m.mword (dataBase e + a)
/-- Words stored in an engine's data memory. -/
def Mach.setDwords (m : Mach) (e a : Nat) (ws : List Word) : Mach :=
  m.setBytes (dataBase e + a) (ws.flatMap (fun w => leBytes 4 w.toNat))

/-! ## take (R275 to R285) -/

/-- The handle becomes engine `e`'s: the bank is HELD and mapped (R270, R277). -/
def Mach.holdHandle (m : Mach) (e : Nat) (h : Handle) : Mach :=
  ((m.modE e (fun x => { x with held := some h })).setBankSt h.bank 4).showHold e

/-- The first handle of a pool that take may see now: none in OASIS (R271, R276). -/
def Mach.firstHandle (m : Mach) (p : Nat) : Option Handle :=
  if m.dev.st = .oasis then none
  else match (m.pl p).queue with
    | [] => none
    | h :: _ => if h.at_ ≤ m.cyc then some h else none

/-- take. -/
def execTake (e : Nat) (i : FX) (s : State) : Host.Outcome State Fault Refusal :=
  s.run (wfTake e i) (fun _ m => m.issue e (some .re) (i.rt == 0 && i.xi == 0) (fun m =>
    let p := m.poolOf e
    if (m.e e).held.isSome || (m.e e).openq.isSome then m.engFault e 5
    else match m.firstHandle p, (m.pl p).waiters with
      | some h, [] => ((m.modPool p (fun x => { x with queue := x.queue.drop 1 })).holdHandle e h).result e i.rd (word h.word)
      | _, _ =>
        if m.gn e i.rs = 0 then m.result e i.rd 0x10000
        else (m.modPool p (fun x => { x with waiters := m.joinWaiters e x.waiters })).waits e .take i.rd (m.gn e i.rs)))

/-- take with LOOK (R284). -/
def execTakeLook (e : Nat) (i : FX) (s : State) : Host.Outcome State Fault Refusal :=
  s.run (wfTakeLook e i) (fun _ m => m.issue e (some .re) (i.rt == 0 && i.xi == 1) (fun m =>
    let p := m.gn e i.rs
    let b := m.fld (aERG_PSTAT p) fERG_PSTAT_ACTIVE
    if 95 < p ∨ m.portPool p ≠ m.poolOf e then m.result e i.rd 0x20000
    else if b = 0xFF then m.result e i.rd 0x30000
    else
      let m := (m.modE e (fun x => { x with look := some { port := p, bank := b, gen := m.bankGen b, moved := false } })).showHold e
      m.result e i.rd (word (256 * m.bankGen b + b))))

/-- TAKE_TIMEOUT (R535). -/
def execTakeTimeout (e : Nat) (s : State) : Host.Outcome State Fault Refusal :=
  s.run (wfTakeTimeout e) (fun _ m =>
    match (m.e e).wait with
    | .take => ((m.advanceTo ((m.e e).issue + (m.e e).limit)).leaveQueues e).resume e 0x10000
    | _ => m)

/-- HANDLE_DISPATCH: the oldest handle of a pool goes to the member that has waited longest (R276); a handle held back by the
perturbation of R504 goes once its delay has passed. -/
def execHandleDispatch (p : Nat) (s : State) : Host.Outcome State Fault Refusal :=
  s.run (wfHandleDispatch p) (fun _ m =>
    match (m.pl p).queue, (m.pl p).waiters with
    | h :: t, e :: ws =>
      if m.dev.st = .oasis then m
      else (((m.advanceTo h.at_).modPool p (fun x => { x with queue := t, waiters := ws })).holdHandle e h).resume e (word h.word)
    | _, _ => m)

/-! ## rel (R287) -/

/-- rel: the checks, then the wait until PTS accepts the group. -/
def execRel (e : Nat) (i : FX) (s : State) : Host.Outcome State Fault Refusal :=
  s.run (wfRel e i) (fun _ m => m.issue e (some .re) (i.xi == 0) (fun m =>
    let t := m.gn e i.rt
    let n := t / 2 ^ 18 % 16
    let a := t % 2 ^ 18
    let mine : Bool := match (m.e e).held with | some h => h.word == m.gn e i.rs % 65536 | none => false
    m.checked e [if 8 < n ∨ t / 2 ^ 22 ≠ 0 then 1 else 0, blockErr e a (16 * n) 16, if mine then 0 else 5]
      (fun m => m.waits e (.rel a n) i.rd 0)))

/-! ## Histogram instructions -/

/-- bgest. -/
def execBgest (e : Nat) (i : FX) (s : State) : Host.Outcome State Fault Refusal :=
  s.run (wfBgest e i) (fun _ m => m.issue e (some .re) (decide (i.xi.toNat < 16)) (fun m =>
    let d := m.g' e i.rs
    let t := m.gn e i.rt
    m.checked e [m.vecErr e d, blockErr e t 16 16] (fun m =>
      let x := m.vec e d
      if x.stale then m.staleOut e i.rd t 4
      else
        let (mean, var, n, k, clipped) := bgestOf x.vals i.xi.toNat
        ((m.setDwords e t [wordOfInt mean, word var, word n, word k]).sat e clipped).result e i.rd (wordOfInt mean))))

/-- A dune entry's three words (R290). -/
def Mach.duneWords (m : Mach) (x : Vec) (d : Dune) : List Word :=
  let v := m.bankView x.bank
  let run := (List.range d.len).map (fun k => d.first + k)
  let ovl := run.any (m.isOver v x)
  let clip := run.any (m.isClip v x)
  [word (2 ^ 31 * bit ovl + 2 ^ 30 * bit clip + 2 ^ 16 * min 16383 d.len + d.peak), wordOfInt d.excess,
   word (2 ^ 16 * d.peakval + d.sig)]

/-- bscan: KSIG in xi [5:0], MAXD − 1 in [9:6]. -/
def execBscan (e : Nat) (i : FX) (s : State) : Host.Outcome State Fault Refusal :=
  s.run (wfBscan e i) (fun _ m => m.issue e (some .re) true (fun m =>
    let d := m.g' e i.rs
    let t := m.gn e i.rt
    let maxd := i.xi.toNat / 64 + 1
    m.checked e [m.vecErr e d, blockErr e t 8 4] (fun m =>
      let x := m.vec e d
      if x.stale then m.staleOut e i.rd (t + 16) (min (3 * maxd) ((dataBytes e - (t + 16)) / 4))
      else
        let all := bscanOf x.vals (m.dword e t).toInt (m.dword e (t + 4)).toNat (i.xi.toNat % 64)
        let some_ := all.take maxd
        m.checked e [if some_.isEmpty then 0 else blockErr e (t + 16) (12 * some_.length) 4] (fun m =>
          ((m.setDwords e (t + 16) (some_.flatMap (m.duneWords x))).sat e (all.any (fun u => u.clipped))).result e i.rd
            (word all.length)))))

/-- The taps of a kernel block (R294). -/
def Mach.taps (m : Mach) (e a n : Nat) : List Int :=
  (List.range n).map (fun j => signed 16 (m.mnat (dataBase e + a + 4 + 2 * j) 2))

/-- The weights of the 16 code positions (CODE mode): the accumulated shots at each; an uncoded cell has them all at 0. -/
def Mach.codeWeights (m : Mach) (b : Nat) : List Nat :=
  let v := m.bankView b
  if v.coded then
    let ds := (m.accShots b v.nshot).map (fun i => m.shotWord b i 0 / 2 ^ 16 % 16)
    (List.range 16).map (fun d => (ds.filter (fun x => x == d)).length)
  else v.acc :: List.replicate 15 0

/-- corr: KB in xi. -/
def execCorr (e : Nat) (i : FX) (s : State) : Host.Outcome State Fault Refusal :=
  s.run (wfCorr e i) (fun _ m => m.issue e (some .re) true (fun m =>
    let d := m.g' e i.rs
    let o := vecAddr (m.g' e i.rt)
    let n := vecLen d
    let ka := 32 * i.xi.toNat
    let w0 := m.dword e ka
    let code := w0.getLsbD 31
    let taps := min 64 (max 1 (w0.toNat % 128))
    m.checked e [m.vecErr e d, blockErr e o (4 * n) 4, if code && decide (vecAddr d < 0x8000) then 4 else 0,
                 blockErr e ka (if code then 4 else 4 + 4 * divCeil taps 2) 4] (fun m =>
      let x := m.vec e d
      if x.stale then m.staleOut e i.rd o n
      else
        let out := if code then corrCode x.vals (m.codeWeights x.bank) (elemTime (m.bankView x.bank) x.kind)
          else corrTaps x.vals (m.taps e ka taps) (w0.toNat / 256 % 32)
        let res := out.map clip32
        ((m.setDwords e o (res.map wordOfInt)).sat e (res != out)).result e i.rd (word (argMax res).1))))

/-- fit: GAUSS in xi [0]. -/
def execFit (e : Nat) (i : FX) (s : State) : Host.Outcome State Fault Refusal :=
  s.run (wfFit e i) (fun _ m => m.issue e (some .re) (decide (i.xi.toNat < 2)) (fun m =>
    let d := m.g' e i.rs
    let t := m.gn e i.rt
    m.checked e [m.vecErr e d, blockErr e t 16 4] (fun m =>
      let x := m.vec e d
      if x.stale then m.staleOut e i.rd (t + 8) 2
      else
        let w := (m.dword e t).toNat
        let h := w / 2 ^ 16 % 64
        let (rd, area, wid) := fitOf x.vals (w % 65536) (if h = 0 then 1 else min 32 h) (m.dword e (t + 4)).toInt
          (i.xi == 1)
        (m.setDwords e (t + 8) (match wid with | some k => [area, word k] | none => [area])).result e i.rd rd)))

/-- wfpk. -/
def execWfpk (e : Nat) (i : FX) (s : State) : Host.Outcome State Fault Refusal :=
  s.run (wfWfpk e i) (fun _ m => m.issue e (some .re) (i.xi == 0) (fun m =>
    let d := m.g' e i.rs
    let t := m.gn e i.rt
    let x := m.vec e d
    m.checked e [m.vecErr e d, if x.kind = .acc then 0 else 4, blockErr e t 8 4] (fun m =>
      if x.stale then m.staleOut e i.rd t 2
      else
        let (rd, out) := wfpkOf x.vals (x.marks.map (fun k => k.testBit 0)) (x.marks.any (fun k => k.testBit 1))
          (m.bankView x.bank).wf
        (match out with | some (a, b) => m.setDwords e t [a, b] | none => m).result e i.rd rd)))

/-- poly (R296, R297). -/
def execPoly (e : Nat) (i : FX) (s : State) : Host.Outcome State Fault Refusal :=
  s.run (wfPoly e i) (fun _ m => m.issue e (some .re) (i.xi == 0) (fun m =>
    let t := m.gn e i.rt
    let c := t % 2 ^ 18
    m.checked e [blockErr e c 64 64, if t / 2 ^ 18 % 4 ≠ 0 then 4 else 0] (fun m =>
      let w0 := (m.dword e c).toNat
      let tile := w0 % 32
      let th := if 23 < tile then 0
        else clampInt (-32768) 32767 (m.sfld (aTHM_TEMP tile) fTHM_TEMP_TEMP - signed 16 (w0 / 2 ^ 16))
      let v := polyOf (m.gi e i.rs) (t / 2 ^ 20) th ((List.range 15).map (fun k => (m.dword e (c + 4 + 4 * k)).toInt))
      (m.sat e (!fits32 v)).result e i.rd (wordOfInt (clip32 v)))))

/-- The rule entries from number `r` on, at most `k`: the result of the first that matches; none matches after END. An entry
outside data memory raises its fault. -/
def Mach.clsFrom (m : Mach) (e a : Nat) (f : List Nat) (r : Nat) : Nat → Nat × Word
  | 0 => (0, 0x1F000F)
  | k + 1 =>
    let p := a + 36 * r
    match blockErr e p 36 4 with
    | 0 =>
      let w0 := (m.dword e p).toNat
      if clsMatch w0 ((List.range 8).map (fun j => (m.dword e (p + 4 + 4 * j)).toNat)) f then
        (0, word (2 ^ 16 * r + 2 ^ 8 * (w0 / 2 ^ 8 % 256) + w0 % 16))
      else if w0.testBit 31 then (0, 0x1F000F) else m.clsFrom e a f (r + 1) k
    | c => (c, 0)

/-- cls (R298). -/
def execCls (e : Nat) (i : FX) (s : State) : Host.Outcome State Fault Refusal :=
  s.run (wfCls e i) (fun _ m => m.issue e (some .re) (i.xi == 0) (fun m =>
    let a := m.gn e i.rs
    let f := (List.range 8).map (fun j => m.mnat (dataBase e + a + 2 * j) 2)
    let (c, v) := m.clsFrom e (m.gn e i.rt) f 0 16
    m.checked e [blockErr e a 16 4, c] (fun m => m.result e i.rd v)))

/-! ## Pools (R275) -/

/-- The look of an engine is stale from now on (R285). -/
def Mach.moveLook (m : Mach) (n : Nat) : Mach :=
  m.modE n (fun x => { x with look := x.look.map (fun k => { k with moved := true }) })

/-- A write of RNG_POOL: refused while the engine is RUNNING or WAITING; a change clears VERIFIED and the instruction buffer. -/
def Mach.poolSet (m : Mach) (n : Nat) (v : Word) : Mach :=
  if (m.e n).active then m.refuse
  else
    let p := fRNG_POOL_POOL.get v
    let m := m.done 0
    if p = m.poolOf n then m
    else ((m.setFld (aRNG_POOL n) fRNG_POOL_POOL p).modE n (fun x => { x with verified := false, ibuf := [] })).moveLook n

/-- A write of RNG_PORTPOOL (R275): looks at ports whose pool changes go stale (R285). -/
def Mach.portPoolSet (m : Mach) (k : Nat) (v : Word) : Mach :=
  let m' := (m.done 0).setReg (aRNG_PORTPOOL k) (v &&& 0x77777777)
  let moved (n : Nat) : Bool := match (m.e n).look with | some l => m'.portPool l.port != m.portPool l.port | none => false
  ((List.range 256).filter moved).foldl Mach.moveLook m'

/-- POOL_WRITE (R275). -/
def execPoolWrite (src : Src) (n : Nat) (v : Word) (s : State) : Host.Outcome State Fault Refusal :=
  s.run (wfPoolWrite src n v) (fun _ m => m.asWriter src .rng n 0x200 (fun m => m.poolSet n v))

/-- PORT_POOL_WRITE (R275). -/
def execPortPoolWrite (src : Src) (k : Nat) (v : Word) (s : State) : Host.Outcome State Fault Refusal :=
  s.run (wfPortPoolWrite src k v) (fun _ m => m.asWriter src .rng 0 (0x2000 + 4 * k) (fun m => m.portPoolSet k v))

end Sys2Proof.Machine
end

