-- ==== Sys2Proof/Machine/Pts.lean ====
section
/-!
DEFINITION. The point assembler (R325 to R342) and the posting of groups (R287 to R289): acceptance, frame and slice boundaries with
their headers, point blocks and the three record formats.
-/
namespace Sys2Proof.Machine

/-- The page of PTS. -/
def ptsPage : Nat := 0x7000000

/-- The point assembler, changed. -/
def Mach.modPts (m : Mach) (f : Pts → Pts) : Mach := { m with pts := f m.pts }
/-- What stream `s` has counted. -/
def Mach.strm (m : Mach) (s : Nat) : PtsStream := mapGet PtsStream.reset m.pts.streams s
/-- What stream `s` has counted, changed. -/
def Mach.modStrm (m : Mach) (s : Nat) (f : PtsStream → PtsStream) : Mach :=
  m.modPts (fun p => { p with streams := mapPut PtsStream.reset p.streams s (f (m.strm s)) })
/-- Stream `s` is enabled. -/
def Mach.strmOn (m : Mach) (s : Nat) : Bool := m.flag (aPTS_SCFG s) fPTS_SCFG_EN
/-- The enabled streams. -/
def Mach.streamsOn (m : Mach) : List Nat := (List.range 8).filter m.strmOn
/-- The queue of stream `s`. -/
def Mach.strmQ (m : Mach) (s : Nat) : Nat := m.fld (aPTS_SQ s) fPTS_SQ_QUEUE

/-- The block word of a record (R327). -/
def blockWord (kind count tag : Nat) : List Byte := leBytes 4 (2 ^ 28 * kind + 2 ^ 24 * count + tag % 2 ^ 16)

/-! ## Headers (R336) -/

/-- A header offered to a stream's queue. It never waits, and does not pass a block that waits there (R336, R341). -/
def Mach.header (m : Mach) (s : Nat) (r : List Byte) : Mach × Bool :=
  let q := m.strmQ s
  if !(m.q q).waiters.isEmpty then ((m.qDrop q 1).satInc (aPTS_SCNT s) fPTS_SCNT_HDRLOST, false)
  else match m.offer q (.pts s) false r with
    | (m, .accepted) => (m, true)
    | (m, _) => (m.satInc (aPTS_SCNT s) fPTS_SCNT_HDRLOST, false)

/-- How many fault records have been created (R490). -/
def Mach.faultsMade (m : Mach) : Nat := m.flt.recseq + m.flt.recs.length

/-- The frame header of stream `s`. -/
def Mach.frameHeader (m : Mach) (s cause : Nat) : List Byte :=
  let fmt := m.fld (aPTS_SCFG s) fPTS_SCFG_FORMAT
  let x := m.strm s
  blockWord 15 0 48 ++ leBytes 4 (m.fld aPTS_FSEQ fPTS_FSEQ_FRAMESEQ) ++ (m.stampOf m.pts.epoch).bytes
    ++ leBytes 4 (2 ^ 24 * m.fld aREJ_MODE fREJ_MODE_MODEGEN + 2 ^ 23 * m.fld aREJ_MODE fREJ_MODE_HABOOB + 2 ^ 21 * cause
        + 2 ^ 20 * m.fld aPTS_TSEL fPTS_TSEL_TSEL + 2 ^ 18 * (if fmt = 3 then 0 else fmt)
        + 2 ^ 16 * m.fld (aPTS_SCFG s) fPTS_SCFG_AUXSEL + 2 ^ 8 * m.fld aREJ_PLANSTAT fREJ_PLANSTAT_PLANSEQ + s)
    ++ leBytes 4 (2 ^ 16 * ((m.reg (aPTS_EXT 0 15)).toNat % 2 ^ 16) + (m.reg (aPTS_EXT 1 15)).toNat % 2 ^ 16)
    ++ leBytes 4 x.points ++ leBytes 4 m.pts.groups ++ leBytes 4 (2 ^ 16 * satN 16 x.drop + satN 16 m.pts.abandon)
    ++ leBytes 4 (2 ^ 16 * satN 16 (m.faultsMade - m.pts.faults) + satN 16 x.late) ++ leBytes 4 0

/-! ## Frame boundaries (R332 to R334) -/

/-- A boundary in this cycle: a pending step applies, the Frame groups of PTS and of the colour port apply, the epoch is taken, the headers
go out, and the counts start anew (R29, R333). CAUSE names the lowest of its sources. -/
def Mach.frameNow (m : Mach) (cause : Nat) : Mach :=
  let cause := (m.pts.reqs.map (fun r => r.1)).foldl min cause
  let m := m.stepBoundary.applyGroups .pts ptsPage (List.range 12)
  let was := m.flag aCAM_COL fCAM_COL_COL_EN
  let m := (m.applyGroups .cam camPage [5, 6, 7, 8]).colCommitted was
  let e := DTime.ofTotal (m.time.now.total - (16777216 * 2 ^ 32 : Nat))
  let m := m.modPts (fun p => { p with epoch := e, last := m.cyc, reqs := [], azWas := none })
  let m := m.wrapInc aPTS_FSEQ fPTS_FSEQ_FRAMESEQ
  let m := m.streamsOn.foldl (fun m s =>
    let (m, ok) := m.header s (m.frameHeader s cause)
    m.modStrm s (fun x => { x with lost := !ok })) m
  let m := (List.range 8).foldl (fun m s => m.modStrm s (fun x => { PtsStream.reset with lost := x.lost })) m
  m.modPts (fun p => { p with groups := 0, abandon := 0, sliceGroups := 0, faults := m.faultsMade })

/-- Groups of PTS have been committed outside a boundary: the first enabled stream makes the first boundary (R334); with none left
the assembler is idle. -/
def Mach.streamsCommitted (m : Mach) (wasOn : Bool) : Mach :=
  let m := if m.streamsOn.isEmpty then m.modPts (fun p => { p with reqs := [] }) else m
  m.when (!wasOn && !m.streamsOn.isEmpty) (fun m => m.frameNow 2)

/-- The azimuth axis of head FHEAD, while it runs. -/
def Mach.frameAxis (m : Mach) : Option Nat :=
  match m.headAxis (m.fld aPTS_FRAMECFG fPTS_FRAMECFG_FHEAD) 1 with
  | none => none
  | some a => if m.axRun a then some a else none

/-- The first evaluation, on a multiple of 8 cycles after now, at which axis `a` has crossed angle `t` in the direction of its published
rate, the last publication standing (R132, R197, R334). -/
def Mach.crossAt (m : Mach) (a t : Nat) : Option Nat :=
  let x := m.ax a
  let w := x.pubW.toInt
  let next := 8 * (m.cyc / 8 + 1)
  let el := signed 32 (m.cyc + 2 ^ 32 - x.pubT % 2 ^ 32)
  let p := w * el / 256
  let th : Int := toField 32 ((x.pubA.toNat : Int) + p)
  let turn (r : Int) : Int := if r % 2 ^ 32 = 0 then 2 ^ 32 else r % 2 ^ 32
  let jumped : Bool := match m.pts.azWas with
    | none => false
    | some o =>
      let was := (o - word t).toInt
      let is := (m.theta a next - word t).toInt
      if 0 < w then decide (was < 0) && decide (0 ≤ is) else decide (0 < was) && decide (is ≤ 0)
  let reach (k : Int) : Nat := 8 * divCeil (max (m.cyc + 1) (m.cyc + (k - el)).toNat) 8
  if w = 0 then none
  else if jumped then some next
  else if 0 < w then some (reach (-((-(256 * (p + turn (t - th)))) / w)))
  else some (reach (-(256 * (p - turn (th - t) + 1)) / -w + 1))

/-- FRAME_BOUNDARY: the next boundary of the given cause, if one comes: 0 the azimuth crossing, 1 a firing of FTRIG, 2 a host request,
3 MAXAGE after the last (R334). -/
def execFrameBoundary (cause : Nat) (s : State) : Host.Outcome State Fault Refusal :=
  s.run (wfFrameBoundary cause) (fun _ m =>
    if m.streamsOn.isEmpty then m
    else match cause with
      | 0 =>
        if m.fld aPTS_FRAMECFG fPTS_FRAMECFG_FSRC ≠ 0 then m
        else match m.frameAxis with
          | none => m
          | some a => match m.crossAt a (m.fld aPTS_FRAMEAZ fPTS_FRAMEAZ_FRAME_AZ) with
            | none => m
            | some c => (m.advanceTo c).frameNow 0
      | 3 => (m.advanceTo (m.pts.last + 800000 * min 4000 (max 1 (m.fld aPTS_FRAMECFG fPTS_FRAMECFG_MAXAGE)))).frameNow 3
      | k => if m.pts.reqs.any (fun r => r.1 == k) then m.frameNow k else m)

/-- A write of PTS_CTRL: FRAME asks for a boundary while a stream is enabled. -/
def Mach.frameRequest (m : Mach) (v : Word) : Mach :=
  let m := m.done 0
  m.when (fPTS_CTRL_FRAME.get v == 1 && !m.streamsOn.isEmpty) (fun m => m.modPts (fun p => { p with reqs := p.reqs ++ [(2, m.cyc)] }))

/-- FRAME_REQUEST (R334). -/
def execFrameRequest (src : Src) (s : State) : Host.Outcome State Fault Refusal :=
  s.run (wfFrameRequest src) (fun _ m => m.asWriter src .pts 0 0xC (fun m => m.frameRequest 1))

/-- A firing of time trigger `t`: with FSRC 1 that of FTRIG makes a frame boundary (R334). -/
def Mach.frameTrigger (m : Mach) (t : Nat) : Mach :=
  m.when (!m.streamsOn.isEmpty && m.fld aPTS_FRAMECFG fPTS_FRAMECFG_FSRC == 1 && m.fld aPTS_FRAMECFG fPTS_FRAMECFG_FTRIG == t)
    (fun m => m.modPts (fun p => { p with reqs := p.reqs ++ [(1, m.cyc)] }))

/-! ## Slices (R335) -/

/-- Nanoseconds from the epoch to a device time, modulo the period of device time. -/
def Mach.sinceEpoch (m : Mach) (ns : Int) : Nat := ((ns - (m.pts.epoch.nanos : Int)) % ((2 ^ 48 * 1000000000 : Nat) : Int)).toNat

/-- The slice header of stream `s`. -/
def Mach.sliceHeader (m : Mach) (s k az : Nat) : List Byte :=
  blockWord 14 0 16 ++ leBytes 4 (m.sinceEpoch (m.time.now.nanos : Int)) ++ leBytes 4 (2 ^ 16 * k + az)
    ++ leBytes 4 (2 ^ 16 * satN 16 (m.strm s).slicePts + satN 16 m.pts.sliceGroups)

/-- SLICE_BOUNDARY: the next slice crossing. One in the evaluation of a frame boundary makes no header (R335). -/
def execSliceBoundary (s : State) : Host.Outcome State Fault Refusal :=
  s.run wfSliceBoundary (fun _ m =>
    let n := m.fld aPTS_FRAMECFG fPTS_FRAMECFG_NSLICE
    match m.frameAxis with
    | none => m
    | some a =>
      if n = 0 ∨ m.streamsOn.isEmpty then m
      else
        let at_ := (List.range n).filterMap (fun k => (m.crossAt a (k * 2 ^ 32 / n)).map (fun c => (k, c)))
        match at_ with
        | [] => m
        | h :: t =>
          let (k, c) := t.foldl (fun b x => if x.2 < b.2 then x else b) h
          let frame : Bool := m.fld aPTS_FRAMECFG fPTS_FRAMECFG_FSRC == 0
            && (match m.crossAt a (m.fld aPTS_FRAMEAZ fPTS_FRAMEAZ_FRAME_AZ) with | some f => decide (f ≤ c) | none => false)
          if frame then m
          else
            let m := (m.advanceTo c).modPts (fun p => { p with azWas := none })
            let az := (m.theta a m.axsCyc).toNat / 2 ^ 16
            let m := m.streamsOn.foldl (fun m s => (m.header s (m.sliceHeader s k az)).1) m
            let m := (List.range 8).foldl (fun m s => m.modStrm s (fun x => { x with slicePts := 0 })) m
            m.modPts (fun p => { p with sliceGroups := 0 }))

/-! ## Groups (R287, R288) -/

/-- A record placed behind every record of a TOF not greater (R288). -/
def tofInsert (r : List Word) : List (List Word) → List (List Word)
  | [] => [r]
  | x :: t => if (r.getD 0 0).toInt < (x.getD 0 0).toInt then r :: x :: t else x :: tofInsert r t

/-- Records by ascending TOF, equal ones in the program's order, with RIDX written (R288). -/
def sortRecs (l : List (List Word)) : List (List Word) :=
  let s := l.foldl (fun acc r => tofInsert r acc) []
  ((List.range s.length).zip s).map (fun (i, r) =>
    [r.getD 0 0, r.getD 1 0, (r.getD 2 0 &&& 0xFFFFFE3F) ||| word (2 ^ 6 * (i % 8)), r.getD 3 0])

/-- A stamp read back from its 12 bytes (R115). -/
def stampAt (l : List Byte) : Stamp :=
  let w := leNat ((l.drop 10).take 2)
  { sec := leNat (l.take 6), ns := leNat ((l.drop 6).take 4), seq := w / 2 ^ 12, frac := w % 2 ^ 12 }

/-- The group of a bank as it is posted, by engine `eng` (511: the hardware) with the given returns (R288). -/
def Mach.groupOf (m : Mach) (h : Handle) (eng : Nat) (abandoned : Bool) (recs : List (List Word)) : Posted :=
  let f (o n : Nat) := m.mnat (bankBase h.bank + o) n
  let flags := f 0xE 2
  let acc := f 8 1
  let i := if flags.testBit 4 then 0 else (m.accShots h.bank (f 7 1)).getD ((acc - 1) / 2) 0
  { port := f 4 1, hctx := f 5 1, n := f 6 1, nshot := f 7 1, acc := acc, cellseq := f 0 4, coding := f 0xB 1, code := f 0xC 2
    flags := flags, t0 := stampAt (m.bytes (bankBase h.bank + 0x10) 12), tref := m.shotWord h.bank i 1
    handle := 256 * m.bankGen h.bank + h.bank, engine := eng, redisp := h.red, abandoned := abandoned, recs := sortRecs recs }

/-! ## Records (R337 to R339) -/

/-- What all points of a group share: point time in ns, T32, LATE, direction, sun test. -/
structure PointCtx where
  t    : Int
  t32  : Nat
  late : Bool
  az   : Word
  el   : Word
  sun  : Bool
deriving DecidableEq, Repr

/-- Half the period of device time in ns: a difference above it lies before. -/
def halfPeriod : Nat := 2 ^ 47 * 1000000000

/-- The shared values of a group accepted in this cycle (R329, R331, R332). -/
def Mach.pointCtx (m : Mach) (g : Posted) : PointCtx :=
  let back := (m.axsCyc + 2 ^ 32 - g.tref % 2 ^ 32) % 2 ^ 32
  let t := ((m.time.now.total : Int) - (back * m.inc : Nat)) / 2 ^ 32
  let d := m.sinceEpoch t
  let late := decide (halfPeriod ≤ d)
  let h := headOf g.port
  let e := m.reg (aPTS_ELEV (m.fld aPTS_TSEL fPTS_TSEL_TSEL) g.port)
  { t := t, t32 := if late then 0 else d % 2 ^ 32, late := late, az := m.headAngle h 1 g.tref + (e &&& 0xFFFF0000)
    el := m.headAngle h 2 g.tref + (e <<< 16), sun := m.inDisk h g.tref }

/-- DEGRADED: any of UNCAL, DLLERR, CHFAIL, ECCERR, HSAT, ASAT, BSAT (R337). -/
def degraded (flags : Nat) : Bool := flags &&& 0xD6C != 0

/-- INT of a return (R337). -/
def intensity (amp gain ishift : Nat) : Nat := min 255 (amp * 2 ^ (7 - gain) / 2 ^ (4 + ishift))

/-- A compact polar record (R337). -/
def compactRec (g : Posted) (c : PointCtx) (r : List Word) (aux ishift col : Nat) : List Byte :=
  let w1 := (r.getD 1 0).toNat
  let w2 := (r.getD 2 0).toNat
  let marks := 2 ^ 5 * bit (g.flags.testBit 1) + 2 ^ 4 * bit c.sun + 2 ^ 3 * bit (degraded g.flags) + 2 ^ 2 * bit (w2.testBit 0)
    + 2 * bit (w2.testBit 1) + bit (w2.testBit 4)
  let auxv := match aux with | 0 => col | 1 => 2 ^ 8 * (w2 / 2 ^ 16 % 256) + w2 / 2 ^ 24 | _ => 0
  [2 ^ 12 * rangeOf (r.getD 0 0).toInt + 2 ^ 8 * (w2 / 2 ^ 12 % 16) + intensity (w1 / 2 ^ 16) (w2 / 2 ^ 9 % 8) ishift,
   2 ^ 16 * (c.az.toNat / 2 ^ 16) + c.el.toNat / 2 ^ 16, c.t32,
   2 ^ 25 * g.port + 2 ^ 22 * (w2 / 2 ^ 6 % 8) + 2 ^ 16 * marks + auxv].flatMap (leBytes 4)

/-- A computed coordinate: within 1 unit of the exact value, given in 2^-32 units, and clipped to 32 bits (R339). -/
def coordOf (v : Int) : Word := wordOfInt (clip32 (v / 2 ^ 32 + (if Config.coordUp (v / 2 ^ 12) then 1 else 0)))

/-- A full record, polar or Cartesian (R337, R339). -/
def Mach.fullRec (m : Mach) (g : Posted) (c : PointCtx) (r : List Word) (cart : Bool) (col : Option (Nat × Bool)) : List Byte :=
  let (a, b, d) : Word × Word × Word :=
    if cart then
      let dt : Int := let n := m.sinceEpoch c.t; if halfPeriod ≤ n then (n : Int) - (2 * halfPeriod : Nat) else n
      let (x, y, z) := m.extrinsic (aPTS_EXT (headOf g.port)) (headPoint (r.getD 0 0).toInt c.az c.el) dt
      (coordOf x, coordOf y, coordOf z)
    else (r.getD 0 0, c.az, c.el)
  let marks := 2 ^ 8 * bit col.isNone + 2 ^ 7 * bit (match col with | some (_, o) => o | none => false) + 2 ^ 6 * bit c.late
    + 2 ^ 5 * bit (g.flags.testBit 1) + 2 ^ 4 * bit c.sun + 2 ^ 3 * bit (degraded g.flags) + 2 ^ 2 * bit (g.flags.testBit 0)
    + 2 * bit (g.redisp != 0)
  [a.toNat, b.toNat, d.toNat, c.t32, (r.getD 1 0).toNat, (r.getD 2 0).toNat, (r.getD 3 0).toNat,
   2 ^ 25 * g.port + 2 ^ 16 * marks + (match col with | some (v, _) => v | none => 0)].flatMap (leBytes 4)

/-! ## Streams (R326 to R328) -/

/-- Stream `s` takes a return (R326). -/
def Mach.takes (m : Mach) (s : Nat) (r : List Word) : Bool :=
  let w2 := (r.getD 2 0).toNat
  (m.fld (aPTS_SCFG s) fPTS_SCFG_CLASSMASK).testBit (w2 / 2 ^ 12 % 16)
    && decide (m.fld (aPTS_SCFG s) fPTS_SCFG_MINCONF ≤ w2 / 2 ^ 16 % 256)

/-- A block lost to stream `s` (R328). -/
def Mach.blockDrop (m : Mach) (s : Nat) : Mach :=
  (m.satInc (aPTS_SCNT s) fPTS_SCNT_DROP).modStrm s (fun x => { x with drop := x.drop + 1 })

/-- The block of stream `s` for a group with context `c`, offered to its queue. -/
def Mach.block (m : Mach) (g : Posted) (c : PointCtx) (s : Nat) : Mach :=
  let rs := if m.flag (aPTS_SPORT s (g.port / 32)) ⟨g.port % 32, g.port % 32⟩ then g.recs.filter (m.takes s) else []
  if rs.isEmpty then m
  else if (m.strm s).lost then m.blockDrop s
  else
    let col (r : List Word) := m.colourOf g.port c.t (r.getD 0 0).toInt c.az c.el
    let body := rs.flatMap (fun r => match m.fld (aPTS_SCFG s) fPTS_SCFG_FORMAT with
      | 1 => m.fullRec g c r false (col r)
      | 2 => m.fullRec g c r true (col r)
      | _ => compactRec g c r (m.fld (aPTS_SCFG s) fPTS_SCFG_AUXSEL) (m.fld (aPTS_SQ s) fPTS_SQ_ISHIFT)
          (match col r with | some (v, _) => v | none => 0))
    let counted (m : Mach) : Mach :=
      let m := m.modStrm s (fun x => { x with points := (x.points + rs.length) % 2 ^ 32, slicePts := x.slicePts + rs.length
                                              late := x.late + (if c.late then rs.length else 0) })
      m.when c.late (fun m => m.satAdd (aPTS_SCNT s) fPTS_SCNT_LATE rs.length)
    match m.offer (m.strmQ s) (.pts s) true (blockWord 1 rs.length g.cellseq ++ body) with
    | (m, .accepted) => counted m
    | (m, .refused) => m.blockDrop s
    | (m, .waits) => (counted m).modPts (fun p => { p with blocked := p.blocked ++ [s] })

/-- A group accepted: counted, seen by every stream, the rejection unit and SAF channel A in this cycle (R287, R311, R319, R325, R328). -/
def Mach.acceptGroup (m : Mach) (g : Posted) : Mach :=
  let m := m.wrapInc aPTS_GROUPS fPTS_GROUPS_GROUPS
  let m := m.modPts (fun p => { p with groups := (p.groups + 1) % 2 ^ 32, sliceGroups := p.sliceGroups + 1, accCyc := some m.cyc
                                       abandon := p.abandon + bit g.abandoned })
  let m := if g.abandoned || g.recs.isEmpty then m else m.streamsOn.foldl (fun m s => m.block g (m.pointCtx g) s) m
  ((m.hbGroup g).mirGroup g).safGroup g

/-- The bank of a posted group is released with its current GEN (R270, R287). -/
def Mach.releaseNow (m : Mach) (b : Nat) : Mach := m.releaseBank b (m.bankGen b)

/-- GROUP_ACCEPT: PTS accepts the group of range engine `e` waiting in rel, or for 256 + p the oldest cell of pool p that the hardware
posts as abandoned (R278, R287, R325); one group per cycle, none while a block waits (R328). -/
def execGroupAccept (e : Nat) (s : State) : Host.Outcome State Fault Refusal :=
  s.run (wfGroupAccept e) (fun _ m =>
    if !m.pts.blocked.isEmpty then m
    else
      let slot (m : Mach) : Mach := if m.pts.accCyc = some m.cyc then m.advance 1 else m
      if 256 ≤ e then
        match (m.pl (e - 256)).lost with
        | [] => m
        | h :: t =>
          let m := (slot m).acceptGroup (m.groupOf h 511 true [])
          (m.modPool (e - 256) (fun x => { x with lost := t })).releaseNow h.bank
      else
        match (m.e e).wait, (m.e e).held with
        | .rel a n, some h =>
          let m := slot m
          let recs := (List.range n).map (fun i => (List.range 4).map (fun k => m.dword e (a + 16 * i + 4 * k)))
          let m := (m.acceptGroup (m.groupOf h e false recs)).releaseNow h.bank
          let m := (m.wrapInc (aRNG_RELS e) fRNG_RELS_RELS).setFld (aRNG_RETS e) fRNG_RETS_RETURNS (m.fld (aRNG_RETS e) fRNG_RETS_RETURNS + n)
          ((m.modE e (fun x => { x with held := none })).showHold e).resume e (word n)
        | _, _ => m)

end Sys2Proof.Machine
end

