-- ==== Sys2Proof/Machine/Commit.lean ====
section
/-!
DEFINITION. Commits (R29 to R37): what a request and a cancel do, which groups apply outside a boundary of their own, and what a commit of
each block's groups brings with it.
-/
namespace Sys2Proof.Machine

/-! ## Groups -/

/-- How many commit groups an instance of a block has (R30). -/
def groupCount : Blk → Nat → Nat
  | .time, _ => 19 | .thm, _ => 1 | .cal, _ => 1 | .hk, _ => 3 | .tstfus, _ => 1 | .seq, _ => 3 | .emt, _ => 21
  | .grd, _ => 1 | .axs, i => if i % 2 = 0 then 4 else 0 | .prt, _ => 4 | .tdc, _ => 3 | .wcv, _ => 1 | .erg, _ => 8
  | .rej, _ => 5 | .pts, _ => 12 | .cam, _ => 9 | .lnk, _ => 3 | .saf, _ => 1
  | _, _ => 0

/-- The device is in a state in which every instance is idle (R32). -/
def Mach.allIdle (m : Mach) : Bool := m.dev.st == .reset || m.dev.st == .boot || m.dev.st == .linked

/-- No running sequencer arms the port (R32). -/
def Mach.portIdle (m : Mach) (p : Nat) : Bool :=
  !(List.range 16).any (fun n => (m.sq n).active && m.ownerOf p == some n && (m.sq n).seq.armset.contains p)

/-- The axis is disabled or stopped (R32). -/
def Mach.axIdle (m : Mach) (a : Nat) : Bool := !m.axOn a || !m.axRun a

/-- PTS emits no frames (R32). -/
def Mach.ptsIdle (m : Mach) : Bool := m.streamsOn.isEmpty

/-- A pending group applies without a boundary of its instance: it is immediate and nothing holds it, or the instance is idle (R29,
R32, R174, R348, R353, R423, R463, R502). The groups of GRD and SAF never do: their checks come first (R37). -/
def Mach.mayApply (m : Mach) (b : Blk) (i g : Nat) : Bool :=
  match b with
  | .time => if g = 1 then m.allIdle || m.ptsIdle else true
  | .seq => if g = 0 then m.allIdle || !(m.sq i).active else true
  | .emt => if g = 0 then !m.hot else true
  | .axs => m.allIdle || m.axIdle (i / 2)
  | .prt => m.allIdle || m.portIdle i
  | .pts => m.allIdle || m.ptsIdle
  | .cam =>
    if g = 3 then true
    else if g ≤ 4 then !m.flag aCAM_CTRL fCAM_CTRL_EN && (g != 2 || m.cam.i2c.isNone)
    else m.allIdle || m.ptsIdle
  | .hk => if g ≤ 1 then m.hk.pos.isNone else true
  | .tstfus => !m.prbRuns
  | .grd | .saf => false
  | _ => true

/-! ## What comes with a commit -/

/-- What happens before the settings of a block change: the sun map's lines are written back (R309); cells of ports that change hands
close (R269). -/
def Mach.preCommit (m : Mach) (b : Blk) (now : List Nat) : Mach :=
  match b with
  | .rej => m.when (now.contains 1) Mach.mapFlush
  | .emt => m.when (now.contains 3) (fun m =>
      let f (k : Nat) (w : Word) (j : Nat) : Nat × Nat := (k, w.toNat / 2 ^ (5 * j) % 32)
      ((List.range 96).filter (fun p =>
        f p (m.reg (aEMT_PORTOWN (p / 6))) (p % 6) != f p (m.shadowReg (aEMT_PORTOWN (p / 6))) (p % 6))).foldl Mach.closeCell m)
  | _ => m

/-- What a commit of groups of TIME brings with it: the rate clamped, the step, triggers started or stopped, PPS_OUT at rest (R112, R113,
R121, R125). -/
def Mach.timeCommitted (m : Mach) (now : List Nat) : Mach :=
  let m := m.when (now.contains 0) Mach.rateCommitted
  let m := m.when (now.contains 1) Mach.stepApply
  let m := (List.range 16).foldl (fun m n => m.when (now.contains (n + 2)) (fun m => m.trigCommitted n)) m
  m.when (now.contains 18 && !m.flag aTIME_PPSO fTIME_PPSO_EN) (fun m => { m with time := { m.time with ppsEnd := none } })

/-- A string that a commit enables is to be proved from now on; one that it disables no longer (R159). -/
def Mach.strCommitted (m was : Mach) (s : Nat) : Mach :=
  let on (m : Mach) : Bool := m.flag (aEMT_STR_CFG0 s) fEMT_STR_CFG0_EN
  if on m && !on was then { m with emt := { m.emt with lastGrant := mapInsert (mapErase m.emt.lastGrant s) s m.cyc } }
  else if !on m then { m with emt := { m.emt with lastGrant := mapErase m.emt.lastGrant s } }
  else m

/-- A lane group that a commit disables is DOWN; one that it enables trains (R375). -/
def Mach.lnkCommitted (m was : Mach) (g : Nat) : Mach :=
  let on (m : Mach) : Bool := m.flag (aLNK_GCFG g) fLNK_GCFG_EN
  if on m && !on was then m.trainAt g 0 1 else if !on m && on was then m.trainAt g 0 0 else m

/-- What a commit of groups of an instance brings with it; `was` is the machine before. -/
def Mach.committed (m was : Mach) (b : Blk) (i : Nat) (now : List Nat) : Mach :=
  match b with
  | .time => m.timeCommitted now
  | .emt => (List.range 16).foldl (fun m s => m.when (now.contains (s + 4)) (fun m => m.strCommitted was s)) m
  | .axs => m.axCommitted (i / 2) (was.axOn (i / 2))
  | .prt => m.when (now.contains 0) (fun m => m.modP i (fun x => { x with feAt := m.now, feShot := none }))
  | .rej =>
    let m := m.when (now.contains 1) (fun m =>
      let m := m.setFld aREJ_MAPSTAT fREJ_MAPSTAT_MAPFAIL 0
      ((List.range 4).filter m.chanFailed).foldl (fun m ch => m.mapFails ch (srcId 0x14 ch)) m)
    let m := m.when (now.contains 2) (fun m => m.planCommitted (was.reg aREJ_PLAN))
    m.when (now.contains 3) Mach.hbTrack
  | .pts => m.streamsCommitted (!was.streamsOn.isEmpty)
  | .cam =>
    let m := m.when (now.any (fun g => g == 0 || g == 1 || g == 4)) Mach.camCheck
    let m := m.when (now.contains 2) Mach.i2cStart
    m.when (now.contains 5) (fun m => m.colCommitted (was.flag aCAM_COL fCAM_COL_COL_EN))
  | .hk => m.when (now.contains 1) (fun m => m.modHk (fun h => { h with sync := true }))
  | .thm => m.heatShow
  | .lnk => (List.range 2).foldl (fun m g => m.when (now.contains g) (fun m => m.lnkCommitted was g)) m
  | _ => m

/-- Verification of a configuration whose commit is no longer held starts (R217, R423). -/
def Mach.gatedVerify (m : Mach) (b : Blk) : Mach :=
  match b with
  | .grd => m.when (m.ready grdPage 0 && m.grd.verifyDue.isNone) Mach.grdVerify
  | .saf => m.when (m.ready safPage 0 && m.saf.verifyDue.isNone && !m.hot) Mach.safVerify
  | _ => m

/-- The pending groups of an instance that need no boundary of its own apply together, and APPLIED counts once (R31, R32). -/
def Mach.applyIdle (m : Mach) (b : Blk) (i : Nat) : Mach :=
  let page := b.page i
  let now := (List.range (groupCount b i)).filter (fun g => m.ready page g && m.mayApply b i g)
  if now.isEmpty then m.gatedVerify b
  else ((m.preCommit b now).applyGroups b page now).committed m b i now

/-! ## Requests and cancels -/

/-- A commit of group `g` of a page requested: it merges into one that is pending, else it is held when TRIG_EN is 1 (R34, R35). -/
def Mach.requestOne (m : Mach) (page g : Nat) : Mach :=
  if m.isPending page g then m
  else
    let c := m.reg (page + 0x7F4)
    let trig := if c.getLsbD 4 then some (c.toNat % 16) else none
    { m with commits := m.commits ++ [{ page := page, grp := g, trig := trig, req := m.cyc }] }

/-- A write of BLOCK_COMMIT. -/
def Mach.commitSet (m : Mach) (b : Blk) (i : Nat) (groups : Word) : Mach :=
  let m := (bitsOf (groupCount b i) groups.toNat).foldl (fun m g => m.requestOne (b.page i) g) (m.done 0)
  m.gatedVerify b

/-- A write of BLOCK_CABORT: pending commits end, and a verification with them (R34, R217, R423). -/
def Mach.cancelSet (m : Mach) (b : Blk) (i : Nat) (groups : Word) : Mach :=
  (bitsOf (groupCount b i) groups.toNat).foldl (fun m g =>
    if !m.isPending (b.page i) g then m
    else
      let m := m.dropCommit (b.page i) g
      match b with
      | .grd => m.grdCancel
      | .saf => m.safCancel
      | _ => m) (m.done 0)

/-- The right to request a commit: the Safety context alone requests that of GRD (R217). -/
def Mach.mayCommit (m : Mach) (src : Src) (b : Blk) (i : Nat) : Nat :=
  match src, b with
  | .link c _, .grd => if m.ctxOn c ∧ c ≠ m.safetyCtx ∧ m.dev.st ≠ .shutdown then 3 else m.mayWrite src b i 0x7F0
  | _, _ => m.mayWrite src b i 0x7F0

/-- The block of a page. -/
def Page.block (p : Page) : Blk := Blk.all.getD p.blk .glb

/-- COMMIT_REQUEST. -/
def execCommitRequest (src : Src) (page : Page) (groups : Word) (s : State) : Host.Outcome State Fault Refusal :=
  s.run (wfCommitRequest src page groups) (fun _ m =>
    match m.mayCommit src (Page.block page) page.inst with
    | 0 => m.commitSet (Page.block page) page.inst groups
    | st => m.done st)

/-- COMMIT_CANCEL. -/
def execCommitCancel (src : Src) (page : Page) (groups : Word) (s : State) : Host.Outcome State Fault Refusal :=
  s.run (wfCommitCancel src page groups) (fun _ m =>
    m.asWriter src (Page.block page) page.inst 0x7EC (fun m => m.cancelSet (Page.block page) page.inst groups))

/-- IDLE_COMMIT_APPLY. -/
def execIdleCommitApply (page : Page) (s : State) : Host.Outcome State Fault Refusal :=
  s.run (wfIdleCommitApply page) (fun _ m => m.applyIdle (Page.block page) page.inst)

/-- A firing of trigger `t` releases the commits it holds that were requested before this cycle; they then await their boundaries, and
those that need none apply (R35). -/
def Mach.releaseCommits (m : Mach) (t : Nat) : Mach :=
  let held (c : Commit) : Bool := c.trig == some t && decide (c.req < m.cyc)
  let pages := ((m.commits.filter held).map (fun c => c.page)).eraseDups
  let m := { m with commits := m.commits.map (fun c => if held c then { c with trig := none } else c) }
  pages.foldl (fun m p => match blkOf p with
    | some b => m.applyIdle b (b.locate p).1
    | none => m) m

end Sys2Proof.Machine
end

