-- ==== Sys2Proof/Machine/Control.lean ====
section
/-!
DEFINITION. Control flow (R81 to R85), the local control registers (R94) and supervisor traps (R100).
-/
namespace Sys2Proof.Machine

/-- The depth of the call stack (R65). -/
def callDepth (e : Nat) : Nat :=
  match engClass e with | .re => 16 | .sq => 16 | .ae => 8 | .sv => 64

/-- The target of a branch (R70); a target outside program memory keeps an address there, and faults at its fetch (R82). -/
def Mach.target (m : Mach) (e : Nat) (i : FB) : Nat := toField 32 ((m.e e).pc + 4 * i.off.toInt)

/-- The engine goes to `t`. -/
def Mach.jump (m : Mach) (e t : Nat) : Mach := m.modE e (fun x => { x with pc := t })

/-- A taken b, bc or ret: the levels it leaves pop (R83). -/
def Mach.leave (m : Mach) (e t : Nat) : Mach :=
  (m.modE e (fun x => { x with loops := leaveLoops x.pc t x.loops })).jump e t

/-- Format B without sense and predicate (R69, R81). -/
def plainB (i : FB) : Bool := i.resv == 0 && !i.sense && i.pd == 0

/-- Format S with every field 0 (R69). -/
def plainS (i : FS) : Bool := i.rd == 0 && i.rs == 0 && i.rt == 0 && i.imm == 0

/-- Format X with every register field 0 (R69). -/
def noRegsX (i : FX) : Bool := i.rd == 0 && i.rs == 0 && i.rt == 0

/-- b (R81). -/
def execB (e : Nat) (i : FB) (s : State) : Host.Outcome State Fault Refusal :=
  s.run (wfB e i) (fun _ m => m.issue e none (plainB i) (fun m => m.leave e (m.target e i)))

/-- bc (R81). -/
def execBc (e : Nat) (i : FB) (s : State) : Host.Outcome State Fault Refusal :=
  s.run (wfBc e i) (fun _ m => m.issue e none (i.resv == 0) (fun m =>
    if (m.e e).pred i.pd.toNat = i.sense then m.leave e (m.target e i) else m.retire e))

/-- call (R81, R82); no loop level pops (R83). -/
def execCall (e : Nat) (i : FB) (s : State) : Host.Outcome State Fault Refusal :=
  s.run (wfCall e i) (fun _ m => m.issue e none (plainB i) (fun m =>
    if callDepth e ≤ (m.e e).calls.length then m.engFault e 6
    else (m.modE e (fun x => { x with calls := (x.pc + 4) :: x.calls })).jump e (m.target e i)))

/-- ret (R81, R82). -/
def execRet (e : Nat) (i : FS) (s : State) : Host.Outcome State Fault Refusal :=
  s.run (wfRet e i) (fun _ m => m.issue e none (plainS i) (fun m =>
    match (m.e e).calls with
    | [] => m.engFault e 6
    | t :: rest => (m.modE e (fun x => { x with calls := rest })).leave e t))

/-- The word is b, bc, call, ret or loop (R83). -/
def isFlow (w : Word) : Bool :=
  let op := w.toNat / 2 ^ 26
  op == 0x1C || op == 0x1D || op == 0x1E || op == 0x1F || (op == 0x2F && w.toNat / 2 ^ 8 % 2 ^ 6 == 2)

/-- loop (R81, R83): a body that ends on a control-flow instruction is illegal; a count of 0 skips the body. -/
def execLoop (e : Nat) (i : FI) (s : State) : Host.Outcome State Fault Refusal :=
  s.run (wfLoop e i) (fun _ m => m.issue e none (i.resv == 0 && i.rd == 0 && i.imm != 0) (fun m =>
    let pc := (m.e e).pc
    let last := pc + 4 * i.imm.toNat
    let n := m.gn e i.rs
    if last < progBytes e ∧ isFlow (m.mword (m.progBase e + last)) then m.engFault e 1
    else if n = 0 then m.jump e (last + 4)
    else if 4 ≤ (m.e e).loops.length then m.engFault e 6
    else m.modE e (fun x => { x with pc := pc + 4, loops := { start := pc + 4, last := last, count := n } :: x.loops })))

/-- nop (R81). -/
def execNop (e : Nat) (i : FS) (s : State) : Host.Outcome State Fault Refusal :=
  s.run (wfNop e i) (fun _ m => m.issue e none (plainS i) (fun m => m.retire e))

/-- halt (R81, R85): the engine is HALTED with STOP_CAUSE 2; the open cells of a sequencer's ports close (R269). -/
def execHalt (e : Nat) (i : FS) (s : State) : Host.Outcome State Fault Refusal :=
  s.run (wfHalt e i) (fun _ m => m.issue e none (plainS i) (fun m =>
    if (m.e e).held.isSome || (m.e e).openq.isSome then m.engFault e 5
    else match engClass e with
      | .sq => m.haltSeqAs (engInst e) .halted 2
      | _ => m.haltEngine e .halted 2))

/-! ## Local control registers (R94) -/

/-- The value of a readable local register; none for a number that is illegal to read. -/
def Mach.localReg (m : Mach) (e k : Nat) : Option Word :=
  let x := m.e e
  let sv := engClass e == .sv
  match k with
  | 0x00 => some x.status
  | 0x01 => some (word e)
  | 0x02 => some (word (m.cyc - x.startCyc))
  | 0x03 => some (word x.cycleh)
  | 0x04 => some (word x.xhi)
  | 0x06 => some (word x.msrc)
  | 0x07 => some (word x.emitTmo)
  | 0x08 => if sv then some (word x.tvec) else none
  | 0x09 => if sv then some (word x.epc) else none
  | 0x0A => if sv then some (word x.cause) else none
  | _ => none

/-- An engine after a write of a local register; none for a number that is illegal to write. -/
def Mach.setLocalReg (m : Mach) (e k : Nat) (v : Word) : Option Engine :=
  let x := m.e e
  let sv := engClass e == .sv
  match k with
  | 0x00 => some (x.setStatus v)
  | 0x04 => some { x with xhi := v.toNat % 256 }
  | 0x05 => some { x with wdogCyc := m.cyc }
  | 0x07 => some { x with emitTmo := v.toNat }
  | 0x08 => if sv then some { x with tvec := v.toNat &&& 0x3FFFD } else none
  | 0x09 => if sv then some { x with epc := v.toNat &&& 0x3FFFC } else none
  | _ => none

/-- rdcs of a local register (R94); a read of cycle latches the upper half. -/
def execRdcsLocal (e : Nat) (i : FI) (s : State) : Host.Outcome State Fault Refusal :=
  s.run (wfRdcsLocal e i) (fun _ m => m.issue e none (i.resv == 0 && i.rs == 0) (fun m =>
    match m.localReg e i.imm.toNat with
    | none => m.engFault e 1
    | some v =>
      let m := m.when (i.imm == 2) (fun m => m.modE e (fun x => { x with cycleh := (m.cyc - x.startCyc) / 2 ^ 32 % 2 ^ 32 }))
      m.result e i.rd v))

/-- wrcs of a local register (R94). -/
def execWrcsLocal (e : Nat) (i : FI) (s : State) : Host.Outcome State Fault Refusal :=
  s.run (wfWrcsLocal e i) (fun _ m => m.issue e none (i.resv == 0 && i.rd == 0) (fun m =>
    match m.setLocalReg e i.imm.toNat (m.g' e i.rs) with
    | none => m.engFault e 1
    | some x => (m.setE e x).retire e))

/-! ## Supervisor traps (R100) -/

/-- trap #code. -/
def execTrap (e : Nat) (i : FX) (s : State) : Host.Outcome State Fault Refusal :=
  s.run (wfTrap e i) (fun _ m => m.issue e (some .sv) (noRegsX i && decide (i.xi.toNat < 256)) (fun m =>
    let x := m.e e
    if x.inTrap || x.tvec % 2 == 0 then m.engFault e 1
    else m.modE e (fun x =>
      { x with epc := x.pc + 4, cause := 0x100 + i.xi.toNat, inTrap := true, pc := x.tvec % 2 ^ 18 / 4 * 4 })))

/-- eret. -/
def execEret (e : Nat) (i : FX) (s : State) : Host.Outcome State Fault Refusal :=
  s.run (wfEret e i) (fun _ m => m.issue e (some .sv) (noRegsX i && i.xi == 0) (fun m =>
    if (m.e e).inTrap then m.modE e (fun x => { x with pc := x.epc, inTrap := false }) else m.engFault e 1))

end Sys2Proof.Machine
end

