-- ==== Sys2Proof/Machine/Flt.lean ====
section
/-!
DEFINITION. The fault manager as commands: closing a record (R490 to R493), injected reports and the failovers they start (R494, R495,
R504).
-/
namespace Sys2Proof.Machine

/-! ## Closing a record -/

/-- The 36 bytes of a record in the log (R492). -/
def FaultRec.bytes (r : FaultRec) (recseq : Nat) : List Byte :=
  leBytes 4 recseq ++ leBytes 4 (2 ^ 16 * r.root + r.src)
    ++ leBytes 4 (2 ^ 24 * r.code + 2 ^ 20 * r.action + 2 ^ 19 * bit r.inj + 2 ^ 18 * bit r.ovfl + r.count)
    ++ r.first.bytes ++ r.last.bytes

/-- The address of the log's slot for a RECSEQ. -/
def fltSlot (recseq : Nat) : Nat := 0x310000 + 64 * (recseq % 1024)

/-- The record of a RECSEQ stands unread: at or after RD as a signed 16-bit difference (R492). -/
def Mach.fltUnread (m : Mach) (recseq : Nat) : Bool :=
  decide ((recseq + 65536 - m.fld aFLT_LOG fFLT_LOG_RD) % 65536 < 32768)

/-- A record enters the log: LOST counts an unread one that it overwrites, WR moves on, cause 1 is raised with it (R492, R493). -/
def Mach.logRecord (m : Mach) (r : FaultRec) : Mach :=
  let n := m.flt.recseq
  let m := m.when (decide (1024 ≤ n) && m.fltUnread (n - 1024)) (fun m => m.satInc aFLT_STAT fFLT_STAT_LOST)
  let m := m.setBytes (fltSlot n) (r.bytes n ++ List.replicate 28 0)
  let m := { m with flt := { m.flt with recseq := n + 1 } }.setFld aFLT_LOG fFLT_LOG_WR (n + 1)
  m.raiseAll 1 (r.bytes n)

/-- FAULT_RECORD_CLOSE: the window of the open record of a ROOT ends, 10 µs after its first report; 0xFFFF is the overflow record's. -/
def execFaultRecordClose (root : Nat) (s : State) : Host.Outcome State Fault Refusal :=
  s.run (wfFaultRecordClose root) (fun _ m =>
    match m.flt.recs.find? (fun r => r.root == root) with
    | none => m
    | some r =>
      let m := m.advanceTo r.due
      let recs := m.flt.recs.erase r
      ({ m with flt := { m.flt with recs := recs } }.setFld aFLT_STAT fFLT_STAT_OPEN recs.length).logRecord r)

/-! ## Injection (R504) -/

/-- The failover that a report of the source starts, as the unit's own failure runs it (R494): range engine, sequencer, axis primary,
threshold and start channels, tile DLLs, waveform slices, DRAM channels, lanes. Other sources have none. -/
def Mach.failoverOf (m : Mach) (src code : Nat) : Mach :=
  let i := src % 2048
  let primary (a : Nat) : Mach :=
    if !m.axOn a || m.axFailed a || m.axDrive a != 0 then m
    else if m.takeoverOk a then
      (m.setFld (aAXS_ASTAT a) fAXS_ASTAT_DRIVE 1).modAx a (fun x => { x with mis := 0, published := false })
        |>.report src src code 1
    else ((m.setFld (aAXS_ASTAT a) fAXS_ASTAT_FAILED 1).axSafe a).report src src code 2
  match src / 2048 with
  | 0x04 => if i < 16 then m.report src src code (m.failoverAction (256 + i)) else m
  | 0x07 => if i < 8 ∧ i % 2 = 0 then primary (i / 2) else if 8 ≤ i ∧ i < 12 then primary (i - 8) else m
  | 0x09 =>
    if i < 408 then m.physFails (i / 17) (i % 17)
    else if i < 424 then m.startFails (i - 408)
    else if i < 449 then m.dllLoses (i - 424) (m.dllSel (i - 424))
    else m
  | 0x0A => if i < 288 then m.sliceFails (i / 3) (i % 3) else m
  | 0x0C => if i < 256 then (m.report src src code (m.failoverAction i)).loseHandle i else m
  | 0x14 => if i < 4 ∧ m.dramCh.contains i then m.dramFail i code src else m
  | 0x15 => if i < 8 ∧ m.laneServes i then m.laneLost i else m
  | _ => m

/-- The first open record of a ROOT marked as injected; one that the injected report opened shows its CODE. -/
def markInj (root code : Nat) (opened : Bool) : List FaultRec → List FaultRec
  | [] => []
  | r :: t =>
    if r.root = root ∨ r.ovfl then { r with inj := true, code := if opened then code else r.code } :: t
    else r :: markInj root code opened t

/-- One injected report with the failover it starts; a source without one, or whose failover has run already, only reports. -/
def Mach.inject (m : Mach) (src code : Nat) : Mach :=
  let n := m.failoverOf src code
  if n.flt = m.flt then m.reportAs src src code 0 true
  else
    let had := m.flt.recs.any (fun r => r.root == src || r.ovfl)
    { n with flt := { n.flt with recs := markInj src code (!had) n.flt.recs } }

/-- A write of TST_INJECT: GO is refused unless the device is LINKED, LOADED or in OASIS (R503). -/
def Mach.injectSet (m : Mach) (v : Word) : Mach :=
  if fTST_INJECT_GO.get v = 0 then m.done 0
  else if !m.pertActs then m.refuse
  else (m.done 0).inject (fTST_INJECT_SRC.get v) (fTST_INJECT_CODE.get v)

/-- INJECT. -/
def execInject (src : Src) (v : Word) (s : State) : Host.Outcome State Fault Refusal :=
  s.run (wfInject src v) (fun _ m => m.asWriter src .tstfus 0 0x10C (fun m => m.injectSet v))

end Sys2Proof.Machine
end

