-- ==== Sys2Proof/Machine/Fus.lean ====
section
/-!
DEFINITION. Fuses (R507 to R509) and the test access port (R505, R506).
-/
namespace Sys2Proof.Machine

/-! ## Programming fuses (R508) -/

/-- The 64 staged bytes of a key. -/
def Mach.fusStage (m : Mach) : List Byte := (List.range 16).flatMap (fun i => leBytes 4 (m.reg (aFUS_KSTAGE i)).toNat)

/-- Slot `k` is programmed. -/
def Otp.slotOn (o : Otp) (k : Nat) : Bool := o.slots.any (fun s => s.1 == k)

/-- How many bits an operation blows; none when it is refused: a slot that is none of the four or programmed already, a version that does
not rise or exceeds 64. -/
def Otp.bitsToBlow (o : Otp) (op arg : Nat) (data : List Byte) : Option Nat :=
  match op with
  | 1 => if arg < 4 ∧ !o.slotOn arg then some ((data.map (fun b => popCount 8 b.toNat)).sum) else none
  | 2 => if arg < 4 then some (if o.revoked.testBit arg then 0 else 1) else none
  | 3 => if o.gminver < arg ∧ arg ≤ 64 then some (arg - o.gminver) else none
  | 4 => if o.sminver < arg ∧ arg ≤ 64 then some (arg - o.sminver) else none
  | _ => none

/-- A write of FUS_PROG: refused without the key, outside LINKED and LOADED, or while programming runs; OP 0 and 5 to 7 are ignored. -/
def Mach.fusProg (m : Mach) (o : Otp) (v : Word) : Mach :=
  let op := fFUS_PROG_OP.get v
  let arg := fFUS_PROG_ARG.get v
  if fFUS_PROG_KEY.get v ≠ 0x5A17 ∨ ¬ (m.dev.st = .linked ∨ m.dev.st = .loaded) ∨ m.fusJob.isSome then m.refuse
  else if op = 0 ∨ 4 < op then m.done 0
  else match o.bitsToBlow op arg m.fusStage with
    | none => m.refuse
    | some n => { m.done 0 with fusJob := some { op := op, arg := arg, data := m.fusStage, due := m.cyc + 16000 * n } }

/-- PROGRAM_SLOT: OP 1. -/
def execProgramSlot (src : Src) (v : Word) (s : State) : Host.Outcome State Fault Refusal :=
  s.run (wfProgramSlot src v) (fun otp m => m.asWriter src .tstfus 0 0x204 (fun m => m.fusProg otp (fFUS_PROG_OP.set v 1)))

/-- REVOKE_SLOT: OP 2. -/
def execRevokeSlot (src : Src) (v : Word) (s : State) : Host.Outcome State Fault Refusal :=
  s.run (wfRevokeSlot src v) (fun otp m => m.asWriter src .tstfus 0 0x204 (fun m => m.fusProg otp (fFUS_PROG_OP.set v 2)))

/-- RAISE_GMINVER: OP 3. -/
def execRaiseGminver (src : Src) (v : Word) (s : State) : Host.Outcome State Fault Refusal :=
  s.run (wfRaiseGminver src v) (fun otp m => m.asWriter src .tstfus 0 0x204 (fun m => m.fusProg otp (fFUS_PROG_OP.set v 3)))

/-- RAISE_SMINVER: OP 4. -/
def execRaiseSminver (src : Src) (v : Word) (s : State) : Host.Outcome State Fault Refusal :=
  s.run (wfRaiseSminver src v) (fun otp m => m.asWriter src .tstfus 0 0x204 (fun m => m.fusProg otp (fFUS_PROG_OP.set v 4)))

/-- The bytes of a key of which some bits have not blown: which, nothing says. -/
def partBytes : Nat → List Byte → List Byte
  | _, [] => []
  | i, b :: t => (b &&& BitVec.ofNat 8 (Config.freeWord i).toNat) :: partBytes (i + 1) t

/-- The fuses once an operation has ended. Where a bit has not verified (`free` numbers the free values taken for it), the others have blown. -/
def Otp.blow (o : Otp) (j : FusJob) (ok : Bool) (free : Nat) : Otp :=
  let upTo (old : Nat) : Nat := if ok then j.arg else old + (Config.freeWord free).toNat % max 1 (j.arg - old)
  match j.op with
  | 1 => if o.slotOn j.arg then o else { o with slots := o.slots ++ [(j.arg, if ok then j.data else partBytes free j.data)] }
  | 2 => { o with revoked := if ok then o.revoked ||| 2 ^ j.arg else o.revoked }
  | 3 => { o with gminver := max o.gminver (upTo o.gminver) }
  | 4 => { o with sminver := max o.sminver (upTo o.sminver) }
  | _ => o

/-- FUSE_PROGRAM_DONE: programming has taken its time, and readback has verified every bit or not; then PROGERR sets. -/
def execFuseProgramDone (ok : Bool) (s : State) : Host.Outcome State Fault Refusal :=
  if !wfFuseProgramDone ok then .refused .illFormed
  else match s.m.fusJob with
    | none => .next s
    | some j =>
      let m := { s.m.advanceTo j.due with fusJob := none }
      let m := if ok then m else { m with free := m.free + 64 }.setFld aFUS_STAT fFUS_STAT_PROGERR 1
      .next { s with otp := s.otp.blow j ok s.m.free, m := m }

/-- FUS_STAT as it reads: PROGERR, the rest from the fuses. -/
def Mach.fusStat (m : Mach) (o : Otp) : Word :=
  word (2 ^ 31 * bit o.tapClosed + 2 ^ 30 * m.fld aFUS_STAT fFUS_STAT_PROGERR + 2 ^ 26 * (o.revoked % 16)
    + 2 ^ 22 * ofBits ((List.range 4).filter o.slotOn) + 2 ^ 15 * o.gminver + 2 ^ 8 * o.sminver)

/-- The word of the key area at an offset of the TST/FUS window; a slot that is not programmed reads 0 (R509). -/
def Otp.keyWord (o : Otp) (off : Nat) : Word :=
  match o.slots.find? (fun s => s.1 == (off - 0x1000) / 64) with
  | some s => word (leNat ((s.2.drop ((off - 0x1000) % 64)).take 4))
  | none => 0

/-! ## Test access port (R48, R505, R506) -/

/-- The port selects an instruction; `hold` keeps the device in RESET, and a device so held goes there at once. -/
def Mach.tapSelect (m : Mach) (ir : Nat) (hold : Bool) : Mach :=
  let m := { m with tap := { m.tap with ir := ir, extest := hold } }
  if hold ∧ m.dev.st ≠ .off ∧ m.dev.st ≠ .reset then m.reset' .tap else m

/-- TAP_RESET: TRST_N resets only the port, which selects BYPASS. -/
def execTapReset (s : State) : Host.Outcome State Fault Refusal := s.run wfTapReset (fun _ m => m.tapSelect 0xFF false)

/-- BYPASS: every code but those of SAMPLE/PRELOAD and EXTEST, of which the private ones hold the device in RESET on a part whose
TAP_CLOSED is not blown. -/
def execBypass (ir : Nat) (s : State) : Host.Outcome State Fault Refusal :=
  s.run (wfBypass ir) (fun otp m =>
    if ir = 0 ∨ ir = 1 then m
    else m.tapSelect ir (!otp.tapClosed && decide (0x80 ≤ ir) && decide (ir < 0x90)))

/-- SAMPLE_PRELOAD: the given boundary cells take the levels sampled or preloaded. -/
def execSamplePreload (cells : List (Nat × Nat)) (s : State) : Host.Outcome State Fault Refusal :=
  s.run (wfSamplePreload cells) (fun _ m =>
    let m := m.tapSelect 1 false
    { m with tap := { m.tap with cells := cells.foldl (fun l c => mapInsert (mapErase l c.1) c.1 c.2) m.tap.cells } })

/-- EXTEST: the device is held in RESET, where the clamps of R41 hold the guarded outputs. -/
def execExtest (s : State) : Host.Outcome State Fault Refusal := s.run wfExtest (fun _ m => m.tapSelect 0 true)

end Sys2Proof.Machine
end

