-- ==== Sys2Proof/Machine/Queue.lean ====
section
/-!
DEFINITION. Host contexts and queues as commands: roles (R388), queue descriptors (R400, R401), offers that wait (R402),
recorder rings (R405), credit (R396), time exchange (R397), packets of a wrong type (R392).
-/
namespace Sys2Proof.Machine

/-! ## Roles (R388) -/

/-- A write of QMG_ROLES: the key, both holders enabled, SAFETY unchanged unless SAF_OK is 0 and the device neither ARMED nor
RUNNING. -/
def Mach.rolesSet (m : Mach) (v : Word) : Mach :=
  let own := fQMG_ROLES_OWNER.get v
  let saf := fQMG_ROLES_SAFETY.get v
  let held := saf != m.safetyCtx && (m.flag aSAF_STAT fSAF_STAT_ACTIVE || m.hot)
  if fQMG_ROLES_KEY.get v ≠ 0x5A17 ∨ !m.ctxOn own ∨ !m.ctxOn saf ∨ held then m.refuse
  else ((m.done 0).setFld aQMG_ROLES fQMG_ROLES_OWNER own).setFld aQMG_ROLES fQMG_ROLES_SAFETY saf

/-- A write of QMG_ROLES by a source: engines never write it. -/
def Mach.rolesBy (m : Mach) (src : Src) (v : Word) : Mach :=
  match src with
  | .link _ _ => m.rolesSet v
  | .eng _ => m.refuse

/-- ROLES_WRITE. -/
def execRolesWrite (src : Src) (v : Word) (s : State) : Host.Outcome State Fault Refusal :=
  s.run (wfRolesWrite src v) (fun _ m => m.asWriter src .qmg 0 0 (fun m => m.rolesBy src v))

/-- A write of QMG_CTX_c: EN of context 0 reads 1 always; EN of a context that holds a role stays (R387, R388). -/
def Mach.qctxSet (m : Mach) (c : Nat) (v : Word) : Mach :=
  let holder := c == m.owner || c == m.safetyCtx
  if c ≠ 0 ∧ holder ∧ fQMG_CTX_EN.get v = 0 then m.refuse
  else
    let en := if c = 0 then 1 else fQMG_CTX_EN.get v
    (((m.done 0).setFld (aQMG_CTX c) fQMG_CTX_EN en).setFld (aQMG_CTX c) fQMG_CTX_NGRP (fQMG_CTX_NGRP.get v)).setFld
      (aQMG_CTX c) fQMG_CTX_NMASK (fQMG_CTX_NMASK.get v)

/-! ## Offers that wait (R402) -/

/-- An offer is answered: accepted or not. An engine's emit ends with `code`; a point stream's block waits no longer, and counts in
DROP when it is refused. -/
def Mach.offerDone (m : Mach) (o : Offer) (ok : Bool) (code : Nat) : Mach :=
  match o.by_ with
  | .eng e => m.resume e (word code)
  | .pts s =>
    let m := { m with pts := { m.pts with blocked := m.pts.blocked.erase s } }
    if ok then m else m.blockDrop s
  | .rej | .cam | .hk => m

/-- The first offer that waits on queue `q` leaves the waiting list. -/
def Mach.qNext (m : Mach) (q : Nat) : Mach := m.modQ q (fun x => { x with waiters := x.waiters.drop 1 })

/-- Every offer that waits on queue `q` is refused and counts in DROPS; an emit ends with `code`. -/
def Mach.refuseWaiters (m : Mach) (q code : Nat) : Mach :=
  ((m.q q).waiters.foldl (fun m o => (m.qDrop q 1).offerDone o false code) m).modQ q (fun x => { x with waiters := [] })

/-- BLOCKED_RECORD_ACCEPT: the first offer that waits on `q` is accepted once it fits; a queue that has come to refuse every record
refuses it. -/
def execBlockedRecordAccept (q : Nat) (s : State) : Host.Outcome State Fault Refusal :=
  s.run (wfBlockedRecordAccept q) (fun _ m =>
    match (m.q q).waiters with
    | [] => m
    | o :: _ =>
      if m.qShut q then ((m.qNext q).qDrop q 1).offerDone o false 1
      else if m.qFits q o.bytes.length && !m.qPert q then ((m.qNext q).qAccept q o.bytes).offerDone o true 0
      else m)

/-! ## Descriptors (R400, R401) -/

/-- The fields of word 0 that a write may not change while EN is 1. -/
def qFixed : Word := 0x7C000FFF
/-- The fields of word 0 that a write sets. -/
def qWord0 : Word := 0xFCE00FFF
/-- The fields of word 9 that a write sets. -/
def qWord9 : Word := 0xE0FFFFFF

/-- The buffer lies wholly in queue SRAM or in usable DRAM, and has at least 64 units (R400, R401, R409, R413). -/
def Mach.qBufferOk (m : Mach) (q : Nat) : Bool :=
  let b := m.qBase q
  let n := m.qSize q
  let sram := decide (0x8180000 ≤ b) && decide (b + n ≤ 0x8200000)
  let dram := m.flag aMEM_STAT fMEM_STAT_READY && decide (dramBase ≤ b) && decide (b + n ≤ dramBase + m.dramU)
  decide (4096 ≤ n) && (sram || dram)

/-- Queue `q` starts empty: offsets at the start of its record area, its group by GROUP (R404), DEGR where a channel of its buffer has
failed (R412). -/
def Mach.qOpen (m : Mach) (q : Nat) : Mach :=
  let m := (m.setQWr q (m.qStart q)).setQRd q (m.qStart q)
  let m := m.modQ q (fun x => { x with held := 0, recs := 0, waiters := [], eligible := none, hdrCyc := m.cyc })
  let g := match m.fld (qdesc q 0) fQ_GROUP with
    | 0 => 0
    | 1 => 1
    | _ => if m.bonded 0 || !m.bonded 1 then 0 else 1
  let lost := (List.range 4).any (fun ch => m.chanFailed ch && m.qOnChan q ch)
  ((m.setFld (qdesc q 0) fQ_CURGRP g).setFld (qdesc q 0) fQ_DEGR (bit lost)).qLevel q

/-- Queue `q` is cleared: every record not handed to the link counts in DROPS, every waiting offer is refused. -/
def Mach.qClose (m : Mach) (q : Nat) : Mach :=
  let m := (m.when ((m.q q).recs != 0) (fun m => m.qDrop q (m.q q).recs)).setQRd q (m.qWr q)
  ((m.modQ q (fun x => { x with held := 0, recs := 0, eligible := none })).qLevel q).refuseWaiters q 2

/-- A write of word 0. -/
def Mach.qWrite0 (m : Mach) (q : Nat) (v : Word) : Mach :=
  let old := m.reg (qdesc q 0)
  let new := (old &&& ~~~ qWord0) ||| (v &&& qWord0)
  let was := m.qOn q
  let on := fQ_EN.get v == 1
  let set := (m.done 0).setReg (qdesc q 0) new
  if was && (old ^^^ v) &&& qFixed != 0 then m.refuse
  else if on && !was then
    if !m.qBufferOk q || (fQ_POLICY.get v == 2 && fQ_RECORDER.get v == 0) then m.refuse else set.qOpen q
  else if was && !on then set.qClose q
  else set.qMark q

/-- FROZEN clears: the ring records again, the records it kept being the oldest, and its header is written (R405). -/
def Mach.qResume (m : Mach) (q : Nat) : Mach :=
  m.when (m.flag (qdesc q 9) fQ_FROZEN) (fun m => (m.setFld (qdesc q 9) fQ_FROZEN 0).writeHeader q)

/-- A write of word `k` of the descriptor of queue `q`; `full` with the Owner's rights, else with those of the queue's own context, which
writes CREDIT and FROZEN only (R401). -/
def Mach.qWrite (m : Mach) (full : Bool) (q k : Nat) (v : Word) : Mach :=
  let a := qdesc q k
  let fixed (mask : Word) : Mach :=
    if m.qOn q && (m.reg a ^^^ v) &&& mask != 0 then m.refuse else (m.done 0).setReg a (v &&& mask)
  match k with
  | 0 => m.qWrite0 q v
  | 1 => fixed 0xFFFFFFC0
  | 2 => fixed 0xFF
  | 3 => fixed 0xFFFFFFFF
  | 7 => ((m.done 0).setReg a v).qMark q
  | 9 =>
    let m := (m.done 0).when full (fun m => m.setReg a ((m.reg a &&& ~~~ qWord9) ||| (v &&& qWord9)))
    if fQ_FROZEN.get v = 1 then m.qResume q else m
  | 13 => (m.done 0).setReg a v
  | _ => m.done 0

/-- The source writes descriptors with the Owner's rights: the Owner, and engines (R401). -/
def Mach.qFull (m : Mach) : Src → Bool
  | .link c _ => c == m.owner
  | .eng _ => true

/-- DESCRIPTOR_WRITE. -/
def execDescriptorWrite (src : Src) (q k : Nat) (v : Word) (s : State) : Host.Outcome State Fault Refusal :=
  s.run (wfDescriptorWrite src q k v) (fun _ m => m.asWriter src .qdesc q (4 * k) (fun m => m.qWrite (m.qFull src) q k v))

/-- FROZEN_RESUME: 1 written to FROZEN. -/
def execFrozenResume (src : Src) (q : Nat) (s : State) : Host.Outcome State Fault Refusal :=
  s.run (wfFrozenResume src q) (fun _ m => m.asWriter src .qdesc q 0x24 (fun m => (m.done 0).qResume q))

/-! ## Recorder rings (R405) -/

/-- A write of QMG_FREEZE: with the key, GO is the host's trigger. -/
def Mach.qfreezeSet (m : Mach) (v : Word) : Mach :=
  if fQMG_FREEZE_KEY.get v ≠ 0x5A17 then m.refuse
  else (m.done 0).when (fQMG_FREEZE_GO.get v == 1) (fun m => m.freezeAll fQ_ON_HOST 3)

/-- HOST_FREEZE. -/
def execHostFreeze (src : Src) (v : Word) (s : State) : Host.Outcome State Fault Refusal :=
  s.run (wfHostFreeze src v) (fun _ m => m.asWriter src .qmg 0 0x50 (fun m => m.qfreezeSet v))

/-- RECORDER_FROZEN: the amount of POST has been recorded; offers that wait are refused from now on (R402). -/
def execRecorderFrozen (q : Nat) (s : State) : Host.Outcome State Fault Refusal :=
  s.run (wfRecorderFrozen q) (fun _ m =>
    if m.flag (qdesc q 9) fQ_FREEZING && (m.q q).postLeft == 0 then (m.frozen q).refuseWaiters q 1 else m)

/-- RING_HEADER_REWRITE. -/
def execRingHeaderRewrite (q : Nat) (s : State) : Host.Outcome State Fault Refusal :=
  s.run (wfRingHeaderRewrite q) (fun _ m => if m.qOn q && m.qRing q then m.writeHeader q else m)

/-! ## Credit (R396) -/

/-- Credit added to a queue: saturating below unlimited, and unlimited stays so. -/
def creditAdd (c n : Nat) : Nat := if c = 0xFFFFFFFF then c else min 0xFFFFFFFE (c + n)

/-- One entry of a CREDIT packet of context `ctx`; a queue it may not credit counts in BADPKT. -/
def Mach.creditOne (m : Mach) (ctx q add : Nat) (set_ : Bool) : Mach :=
  if ctx ≠ m.owner ∧ q / 4096 ≠ ctx then m.badPkt ctx
  else (m.setFld (qdesc q 7) fQ_ALL (if set_ then add else creditAdd (m.fld (qdesc q 7) fQ_ALL) add)).qMark q

/-- A packet other than READ or WRITE reaches the transaction layer: in SHUTDOWN nothing serves it (R52), a disabled context's is
counted in BADPKT of context 0 (R387). -/
def Mach.packetIn (m : Mach) (g ctx : Nat) (f : Mach → Mach) : Mach :=
  m.arrives g (fun m => if m.dev.st = .shutdown then m else if !m.ctxOn ctx then m.badPkt 0 else f m)

/-- CREDIT. -/
def execCredit (g ctx : Nat) (c : CreditPkt) (s : State) : Host.Outcome State Fault Refusal :=
  s.run (wfCredit g ctx c) (fun _ m => m.packetIn g ctx (fun m =>
    match c with
    | .one q add set_ => m.creditOne ctx q add set_
    | .list es => es.foldl (fun m e => m.creditOne ctx e.1 e.2 false) m))

/-! ## Time exchange (R397) -/

/-- TSYNC: stamped at ingress, `phase` lane periods of 78.125 ps into the cycle; the echo is made at once. One with ECHO = 1 is no host
request. -/
def execTsync (g ctx : Nat) (tsid : Word) (echo rpl : Bool) (phase : Nat) (s : State) : Host.Outcome State Fault Refusal :=
  s.run (wfTsync g ctx tsid echo rpl phase) (fun _ m => m.packetIn g ctx (fun m =>
    if echo then m.badPkt ctx
    else
      let id := leBytes 4 tsid.toNat
      let st := m.laneStamp phase (-(m.fld (aTIME_LAT g) fTIME_LAT_ING_PS : Int))
      let m := m.modG g (fun x => { x with
        tspend := x.tspend ++ [{ seq := 65536, tsid := id, ctx := ctx, ingress := st, rpl := rpl }] })
      m.respond g { ty := 0x15, ctx := ctx, queue := 0, seq := 0, spec := id ++ [1, 0], payload := [] }))

/-! ## Answers (R392, R394) -/

/-- A COMPL made for a request of SEQ `seq`. -/
def Mach.compl (m : Mach) (g ctx seq st bad : Nat) (data : List Word) : Mach :=
  m.respond g { ty := 0x12, ctx := ctx, queue := 0, seq := 0, spec := leBytes 2 seq ++ [BitVec.ofNat 8 st, 0] ++ leBytes 2 bad
                payload := data.flatMap (fun w => leBytes 4 w.toNat) }

/-- The SEQ of the packet accepted last on group `g` (R370). -/
def Mach.reqSeq (m : Mach) (g : Nat) : Nat := ((m.g g).rxSeq + 65535) % 65536

/-- BADTYPE: a packet of type `ty` that is reserved, or that only the device sends, or a malformed READ or WRITE. A disabled context's READ
or WRITE is answered with NOCTX, any other packet of it counted (R387). -/
def execBadtype (g ctx ty : Nat) (s : State) : Host.Outcome State Fault Refusal :=
  s.run (wfBadtype g ctx ty) (fun _ m =>
    if ty = 0x10 ∨ ty = 0x11 then
      m.arrives g (fun m => m.compl g ctx (m.reqSeq g) (if m.ctxOn ctx then 8 else 7) 0 [])
    else if ty = 0x12 ∨ ty = 0x13 ∨ ty = 0x16 ∨ ty = 0x17 ∨ 0x19 ≤ ty then
      m.packetIn g ctx (fun m => m.compl g ctx (m.reqSeq g) 8 0 [])
    else m)

end Sys2Proof.Machine
end

