-- ==== Sys2Proof/Machine/Taken.lean ====
section
/-!
DEFINITION. Settings whose field description names a value that an out-of-range setting is taken as: the active view of a register
shows the value in use (R27).
-/
namespace Sys2Proof.Machine

/-- A committed field with limits: the register's first address, the field, its limits; a value outside them is taken as the nearer
limit, or as 0 when `zero` says so. -/
structure Taken where
  base : Nat
  fld  : Fld
  lo   : Nat
  hi   : Nat
  zero : Bool
deriving DecidableEq, Repr

/-- The value a setting is taken as. -/
def Taken.value (t : Taken) (v : Nat) : Nat :=
  if t.lo ≤ v ∧ v ≤ t.hi then v else if t.zero then 0 else if v < t.lo then t.lo else t.hi

/-- Settings of the time base, the sequencers, the emitter driver and the axes. -/
def takenA : List Taken := [
  ⟨aTIME_PPSO, fTIME_PPSO_WIDTH, 1, 1023, false⟩,
  ⟨aSEQ_FIRECFG 0, fSEQ_FIRECFG_STALE, 1, 255, false⟩, ⟨aSEQ_FIRECFG 0, fSEQ_FIRECFG_LEAD, 500, 2047, false⟩,
  ⟨aEMT_MODE, fEMT_MODE_PRE, 0, 38, false⟩, ⟨aEMT_BUS, fEMT_BUS_LATCH_LEAD, 160, 255, false⟩,
  ⟨aEMT_PROOF, fEMT_PROOF_GAP, 1, 255, false⟩, ⟨aEMT_STR_CFG0 0, fEMT_STR_CFG0_MINREP, 45, 255, false⟩,
  ⟨aAXS_CFG 0, fAXS_CFG_ROLE, 0, 2, true⟩, ⟨aAXS_CFG 0, fAXS_CFG_AVG, 0, 5, false⟩,
  ⟨aAXS_FETIME 0, fAXS_FETIME_TIME, 1, 65535, false⟩, ⟨aAXS_MON 0, fAXS_MON_MISCNT, 1, 15, false⟩]

/-- Settings of the timing path, the histogram contexts, rejection and points. -/
def takenB : List Taken := [
  ⟨aTDC_ROT, fTDC_ROT_CAL_STEP, 1, 255, false⟩, ⟨aTDC_ROT, fTDC_ROT_HO_SHOTS, 1, 15, false⟩,
  ⟨aWCV_CTRL, fWCV_CTRL_CAL_STEP, 1, 255, false⟩, ⟨aERG_HCTX_CFG 0, fERG_HCTX_CFG_LOG2NB, 10, 14, false⟩,
  ⟨aERG_HCTX_CFG 0, fERG_HCTX_CFG_K, 0, 4, false⟩, ⟨aERG_HCTX_GATE 0, fERG_HCTX_GATE_GATE, 1, 2097151, false⟩,
  ⟨aERG_HCTX_ASPAN 0, fERG_HCTX_ASPAN_ALEN, 0, 4096, false⟩, ⟨aREJ_BGCFG, fREJ_BGCFG_STEP, 1, 15, false⟩,
  ⟨aREJ_HBCFG, fREJ_HBCFG_HOLD, 1, 255, false⟩, ⟨aREJ_MIRCFG, fREJ_MIRCFG_AGE, 1, 255, false⟩,
  ⟨aPTS_FRAMECFG, fPTS_FRAMECFG_FSRC, 0, 2, false⟩, ⟨aPTS_FRAMECFG, fPTS_FRAMECFG_MAXAGE, 1, 4000, false⟩,
  ⟨aPTS_SCFG 0, fPTS_SCFG_FORMAT, 0, 2, true⟩]

/-- Settings of the colour port, the link, housekeeping, the thermal manager and probe capture. -/
def takenC : List Taken := [
  ⟨aCAM_CTRL, fCAM_CTRL_NEXP, 1, 3, false⟩, ⟨aCAM_CTRL, fCAM_CTRL_DS, 0, 3, false⟩, ⟨aCAM_CTRL, fCAM_CTRL_XDIV, 2, 255, false⟩,
  ⟨aCAM_TRIG, fCAM_TRIG_TRIG_W, 1, 1023, false⟩, ⟨aCAM_SET, fCAM_SET_SENSOR_DELAY, 1, 3, false⟩,
  ⟨aCAM_COL, fCAM_COL_COLAGE, 1, 255, false⟩, ⟨aCAM_STRM 0, fCAM_STRM_DS, 0, 4, false⟩,
  ⟨aLNK_GCFG 0, fLNK_GCFG_MAXRUNG, 0, 4, false⟩, ⟨aLNK_TMO, fLNK_TMO_REPLAY_TMO, 1, 65535, false⟩,
  ⟨aLNK_TMO, fLNK_TMO_ACK_MAX, 1, 64, false⟩, ⟨aHK_SEQCFG, fHK_SEQCFG_MODE, 0, 2, true⟩,
  ⟨aHK_ENTB 0, fHK_ENTB_LSUB, 0, 2, false⟩, ⟨aHK_ENTF 0, fHK_ENTF_ORD, 0, 4, false⟩, ⟨aHK_ENTF 0, fHK_ENTF_MEDW, 0, 2, false⟩,
  ⟨aTHM_CFG, fTHM_CFG_SD_T, 100, 140, false⟩, ⟨aTHM_CFG, fTHM_CFG_HEAT, 0, 4, false⟩,
  ⟨aPRB_TRIG 0, fPRB_TRIG_KIND, 0, 3, false⟩]

/-- The word of a register with every setting at the value it is taken as. -/
def RegDef.taken (r : RegDef) (w : Word) : Word :=
  (takenA ++ takenB ++ takenC).foldl (fun w t => if t.base = r.base then t.fld.set w (t.value (t.fld.get w)) else w) w

end Sys2Proof.Machine
end

