-- ==== Sys2Proof/Machine/Time.lean ====
section
/-!
DEFINITION. The time base as commands (R109, R117 to R125): firings of time triggers and all who wait for them, second carries, PPS_OUT,
captures, reads of the present time.
-/
namespace Sys2Proof.Machine

/-- Device time counts (R110). -/
def Mach.timeRuns (m : Mach) : Bool := m.dev.st != .shutdown && m.dev.st != .reset && m.dev.st != .off

/-! ## Firings (R119 to R122) -/

/-- A trigger's period in units of 2^-32 ns; a non-zero one below 1,000 ns is taken as 1,000 ns. -/
def Mach.trigPeriod (m : Mach) (n : Nat) : Nat :=
  let v := 2 ^ 32 * m.fld (aTIME_TRIG_PER_NS n) fTIME_TRIG_PER_NS_PER_NS + m.fld (aTIME_TRIG_PER_FRAC n) fTIME_TRIG_PER_FRAC_PER_FRAC
  if v = 0 then 0 else max (1000 * 2 ^ 32) v

/-- The cycle in which a trigger fires: that of a late firing, or the first at whose end time is at or past its compare time; not the cycle
of its last firing. -/
def Mach.trigDue (m : Mach) (x : Trig) : Nat :=
  let c := match x.lateAt with
    | some c => c
    | none =>
      if m.trigPast x then m.cyc
      else
        let goal : Int := ((x.sec * 1000000000 + x.ns) * 2 ^ 32 : Nat)
        m.cyc + divCeil ((goal - m.time.now.total) % timePeriod).toNat m.inc
  match x.last with
  | some l => max c (l + 1)
  | none => c

/-- How many periods on the next compare time lies: one, or after a late firing as many as bring it past the present time. -/
def Mach.trigSteps (m : Mach) (x : Trig) (per : Nat) : Nat :=
  if x.lateAt.isNone then 1
  else
    let behind := (((m.time.now.nanos : Int) - x.time.nanos) % (timePeriod / 2 ^ 32 : Nat)).toNat
    max 1 (divCeil ((behind + 1) * 2 ^ 32 - x.frac) per)

/-- The trigger's own state after a firing. -/
def Mach.trigFired (m : Mach) (n : Nat) : Mach :=
  let st := aTIME_TRIG_STAT n
  let x := m.trig n
  let late := x.lateAt.isSome
  let m := m.wrapInc st fTIME_TRIG_STAT_FIRED
  let m := m.when late (fun m => m.setFld st fTIME_TRIG_STAT_LATE 1)
  let per := m.trigPeriod n
  let count := m.fld (aTIME_TRIG_CTRL n) fTIME_TRIG_CTRL_COUNT
  let x := { x with last := some m.cyc }
  if per = 0 ∨ (count ≠ 0 ∧ count ≤ m.fld st fTIME_TRIG_STAT_FIRED) then
    (m.setFld st fTIME_TRIG_STAT_RUN 0).setTrig n { x with armed := false, lateAt := none }
  else
    let k := m.trigSteps x per
    let m := m.satAdd st fTIME_TRIG_STAT_MISSED (k - 1)
    m.setTrig n { x.at (DTime.ofTotal ((x.time.total + k * per : Nat) : Int)) with lateAt := none }

/-- An engine sees a firing of trigger `t`: a wtime ends, a wangle that also needs it notes it. A firing in the issue cycle does neither. -/
def Mach.engTrigger (m : Mach) (t e : Nat) : Mach :=
  if (m.e e).st ≠ .waiting ∨ m.cyc ≤ (m.e e).issue then m
  else match (m.e e).wait with
    | .trig k => if k = t then m.resume e 0 else m
    | .wangle a g down both k crossed fired last =>
      if k = t then m.modE e (fun x => { x with wait := .wangle a g down both k crossed (fired || both) last }) else m
    | _ => m

/-- A pulse of PPS_OUT starts, or starts again (R125). -/
def Mach.ppsStart (m : Mach) (src : Nat) : Mach :=
  if m.flag aTIME_PPSO fTIME_PPSO_EN && m.fld aTIME_PPSO fTIME_PPSO_SRC == src then
    { m with time := { m.time with ppsEnd := some (m.cyc + 800000 * max 1 (m.fld aTIME_PPSO fTIME_PPSO_WIDTH)) } }
  else m

/-- TIME_TRIGGER_FIRE: the trigger advances or stops, and every consumer sees the firing in its cycle (R120). -/
def execTimeTriggerFire (t : Nat) (s : State) : Host.Outcome State Fault Refusal :=
  s.run (wfTimeTriggerFire t) (fun _ m =>
    let x := m.trig t
    if !m.timeRuns || !m.trigRun t || (!x.armed && x.lateAt.isNone) then m
    else
      let m := (m.advanceTo (m.trigDue x)).trigFired t
      let m := m.releaseCommits t
      let m := (m.eng.map (fun p => p.1)).foldl (fun m e => m.engTrigger t e) m
      let m := (((m.ccTrigger t).camTrigger t).frameTrigger t).hkTrigger t
      m.when (t == 15) (fun m => m.ppsStart 1))

/-! ## Second carries and PPS_OUT (R109, R125) -/

/-- SECOND_CARRY: the next carry of NS into SEC. -/
def execSecondCarry (s : State) : Host.Outcome State Fault Refusal :=
  s.run wfSecondCarry (fun _ m =>
    if !m.timeRuns then m
    else
      let left := 1000000000 * 2 ^ 32 - (m.time.now.ns * 2 ^ 32 + m.time.now.frac)
      (m.advance (divCeil left m.inc)).ppsStart 0)

/-- PPS_OUT_PULSE_END. -/
def execPpsOutPulseEnd (s : State) : Host.Outcome State Fault Refusal :=
  s.run wfPpsOutPulseEnd (fun _ m =>
    match m.time.ppsEnd with
    | none => m
    | some c => { m.advanceTo c with time := { (m.advanceTo c).time with ppsEnd := none } })

/-- The level of PPS_OUT: its idle level is high with POL = 1 (R125). -/
def Mach.ppsOut (m : Mach) : Bool := m.time.ppsEnd.isSome != m.flag aTIME_PPSO fTIME_PPSO_POL

/-! ## Captures (R117, R124) -/

/-- A trigger with MODE 1 that runs is realigned by an edge stamped `t` (R124). -/
def Mach.realign (m : Mach) (t : DTime) (n : Nat) : Mach :=
  if !m.trigRun n || !m.flag (aTIME_TRIG_CTRL n) fTIME_TRIG_CTRL_MODE then m
  else
    let to_ := DTime.ofTotal ((t.total + 2 ^ 32 * m.fld (aTIME_TRIG_NS n) fTIME_TRIG_NS_NS : Nat) : Int)
    m.setTrig n { (m.trig n).at to_ with armed := true, lateAt := none }

/-- EDGE_CAPTURE: an edge of input `n` (0 PPS_IN, 1 SYNC_IN, 2 CAM_VS), in the second half of the cycle when `half`. -/
def execEdgeCapture (n : Nat) (rising half : Bool) (s : State) : Host.Outcome State Fault Refusal :=
  s.run (wfEdgeCapture n rising half) (fun _ m =>
    let c := aTIME_CAP_CTRL n
    let active := (m.fld c fTIME_CAP_CTRL_EDGE).testBit (if rising then 0 else 1)
    if !m.timeRuns || !active then m
    else
      let t := m.time.now.after (if half then m.inc / 2 else 0) 1
      let m := if !m.flag c fTIME_CAP_CTRL_EN then m
        else if m.flag c fTIME_CAP_CTRL_VALID then m.satInc c fTIME_CAP_CTRL_MISSED
        else
          let m := (m.setFld c fTIME_CAP_CTRL_VALID 1).setFld c fTIME_CAP_CTRL_STEPSEQ (m.fld aTIME_STAT fTIME_STAT_STEPSEQ)
          let m := (m.setFld (aTIME_CAP_SEC_LO n) fTIME_CAP_SEC_LO_SEC_LO t.sec).setFld (aTIME_CAP_SEC_HI n) fTIME_CAP_SEC_HI_SEC_HI (t.sec / 2 ^ 32)
          m.setFld (aTIME_CAP_NS n) fTIME_CAP_NS_NS t.ns
      m.when (n == 1) (fun m => (List.range 16).foldl (fun m k => m.realign t k) m))

/-- A read of TIME_CAP_NS_n frees the capture. -/
def Mach.capRead (m : Mach) (n : Nat) : Mach := m.setFld (aTIME_CAP_CTRL n) fTIME_CAP_CTRL_VALID 0

/-- CAPTURE_READ. -/
def execCaptureRead (src : Src) (n : Nat) (s : State) : Host.Outcome State Fault Refusal :=
  s.run (wfCaptureRead src n) (fun _ m =>
    match m.mayRead src .time (0x5C + 0x10 * n) with
    | 0 => (m.done 0).capRead n
    | st => m.done st)

/-- TIME_NOW_NS shows the present NS. -/
def Mach.showNow (m : Mach) : Mach := m.setFld aTIME_NOW_NS fTIME_NOW_NS_NS m.time.now.ns

/-- A read of TIME_NOW_NS latches SEC and FRAC of the same cycle (R118). -/
def Mach.latchNow (m : Mach) : Mach :=
  let t := m.time.now
  let m := (m.showNow.setFld aTIME_NOW_SEC_LO fTIME_NOW_SEC_LO_SEC_LO t.sec).setFld aTIME_NOW_SEC_HI fTIME_NOW_SEC_HI_SEC_HI (t.sec / 2 ^ 32)
  m.setFld aTIME_NOW_FRAC fTIME_NOW_FRAC_FRAC t.frac

/-- TIME_NOW_READ. -/
def execTimeNowRead (src : Src) (s : State) : Host.Outcome State Fault Refusal :=
  s.run (wfTimeNowRead src) (fun _ m =>
    match m.mayRead src .time 0 with
    | 0 => (m.done 0).latchNow
    | st => m.done st)

end Sys2Proof.Machine
end

