-- ==== Sys2Proof/Machine/CtlSpace.lean ====
section
/-!
DEFINITION. The control space as an address space (R24 to R28, R33): what a read of a word returns and does, what a write of a word does,
for a host context, and for an engine, with the status of R394.
-/
namespace Sys2Proof.Machine

/-! ## What lies where -/

/-- The engine whose window an instance of a block is (R102). -/
def engAt (b : Blk) (inst : Nat) : Option Nat :=
  match b with
  | .rng => some inst
  | .seq => some (256 + inst)
  | .axs => some (272 + inst)
  | .sup => some (280 + inst)
  | _ => none

/-- An area of plain memory in a block's window: its offsets, whether it can be written, and the bits a word keeps. -/
structure Area where
  lo   : Nat
  hi   : Nat
  rw   : Bool
  mask : Word
deriving DecidableEq, Repr

/-- The memory areas of the block windows, outside engine windows (the tables of the register sections). -/
def areas : Blk → List Area
  | .flt => [⟨0x10000, 0x1FFFF, false, 0xFFFFFFFF⟩]
  | .cal => [⟨0x2000, 0x3647, false, 0xFFFFFFFF⟩, ⟨0x10000, 0x17FFF, true, 0xFFFFFFFF⟩]
  | .grd => [⟨0x40000, 0x7FFFF, true, 0xFFFFFFFF⟩, ⟨0x80000, 0xBFFFF, false, 0xFFFFFFFF⟩, ⟨0xC0000, 0xC3FFF, true, 0xFFFFFFFF⟩,
      ⟨0xD0000, 0xFFFFF, false, 0xFFFFFFFF⟩]
  | .saf => [⟨0x20000, 0x2FFFF, false, 0xFFFFFFFF⟩, ⟨0x40000, 0x7FFFF, true, 0xFFFFFFFF⟩, ⟨0x80000, 0xFFFFF, false, 0xFFFFFFFF⟩]
  | .rej => [⟨0x10000, 0x1FFFF, false, 0xFFFFFFFF⟩]
  | .cam => [⟨0x1000, 0x1107, true, 0x000FFFFF⟩, ⟨0x2000, 0x2C0B, true, 0x03FF03FF⟩, ⟨0x4000, 0x47FF, true, 0x0FFF0FFF⟩,
      ⟨0x5000, 0x50FF, true, 0xFFFFFFFF⟩, ⟨0x40000, 0xFFFFF, false, 0xFFFFFFFF⟩]
  | .qmg => [⟨0x80000, 0xFFFFF, true, 0xFFFFFFFF⟩]
  | _ => []

/-- The memory area an offset lies in. -/
def areaAt (b : Blk) (off : Nat) : Option Area := (areas b).find? (fun x => decide (x.lo ≤ off) && decide (off ≤ x.hi))

/-- The offset holds a word of a request record (R217, R423). -/
def isRecord (b : Blk) (off : Nat) : Bool := (b == .grd || b == .saf) && decide (0x100 ≤ off) && decide (off < 0x200)

/-- The block has register pages (R27): all but the data window of the memory banks and the descriptors. -/
def Blk.paged (b : Blk) : Bool := b != .ergdata && b != .qdesc

/-! ## What a register shows -/

/-- A register of an engine's page that shows its running state (R102). -/
def Mach.engShown (m : Mach) (e off : Nat) : Option Word :=
  let x := (m.e e).settle m.cyc
  match off with
  | 0x04 => some (m.engStat e)
  | 0x24 => some (word (x.pc % 2 ^ 18))
  | 0x2C => some ((Fld.mk 4 0).set (m.reg (engPage e + 0x2C)) x.mbox.length)
  | 0x34 => some (word x.busyAcc)
  | 0x38 => some (word x.waitAcc)
  | _ => if 0x100 ≤ off ∧ off < 0x140 then some (if x.active then 0 else mapGet 0 x.g ((off - 0x100) / 4)) else none

/-- GLB_ARM_COND (R57). -/
def Mach.armWord (m : Mach) : Word :=
  word (2 * ofBits ((List.range 4).filter (fun k => m.armConds.getD k false)) + bit (m.armConds.all id))

/-- GLB_SEM_n (R86). -/
def Mach.semWord (m : Mach) (n : Nat) : Word :=
  word (2 ^ 17 * bit (m.sem n).ovf + 2 ^ 16 * bit (!(m.sem n).queue.isEmpty) + (m.sem n).count)

/-- The word an axis register shows. -/
def Mach.axsShown (m : Mach) (a off : Nat) : Option Word :=
  match off with
  | 0x220 => some (fAXS_ASTAT_RUN.set (m.reg (aAXS_ASTAT a)) (bit (m.axRun a)))
  | 0x230 => some (m.ax a).pubA
  | 0x23C => some (word m.axsCyc)
  | _ => none

/-- A register of a page that shows a running value, or the word of a request record. -/
def Mach.blkShown (m : Mach) (o : Otp) (b : Blk) (inst off : Nat) : Option Word :=
  match b with
  | .glb => if off = 4 then some m.glbState else if off = 0xC then some m.armWord else none
  | .time => if off = 0 then some (word m.time.now.ns) else none
  | .hk => if 0x480 ≤ off ∧ off < 0x490 then some (fHK_FIX_AGE.set (m.reg (hkPage + off)) (m.fixAge ((off - 0x480) / 4))) else none
  | .thm => if off = 0 then some (m.heatShow.reg aTHM_STAT) else none
  | .tstfus => if off = 0x200 then some (m.fusStat o) else none
  | .rng => if off = 0x204 then some (fRNG_HOLD_LOOKV.set (m.reg (aRNG_HOLD inst)) (bit (m.lookOk inst))) else none
  | .axs => if inst % 2 = 0 then m.axsShown (inst / 2) off else none
  | .grd | .saf => if isRecord b off then some (m.mword (b.page 0 + off)) else none
  | _ => none

/-- The word in use at offset `off` of a page, running values included; PENDING of BLOCK_CPEND. -/
def Mach.shown (m : Mach) (o : Otp) (b : Blk) (inst off : Nat) : Word :=
  let page := b.page inst
  if off = 0x7F8 then word (ofBits ((List.range (groupCount b inst)).filter (m.isPending page)))
  else
    match (engAt b inst).bind (fun e => m.engShown e off) with
    | some w => w
    | none => (m.blkShown o b inst off).getD (m.reg (page + off))

/-- The bits of a register that read 0 (R9). -/
def RegDef.unread (r : RegDef) : Word := r.maskOf (fun f => f.acc == .wo)

/-- What the written face of a page reads at offset `off`: shadow copies of the committed fields (R27, R28). -/
def Mach.face (m : Mach) (o : Otp) (b : Blk) (inst off : Nat) : Word :=
  let w := m.shown o b inst off
  match regAt (b.page inst + off) with
  | none => w
  | some (r, _) => ((w &&& ~~~ r.committed) ||| (m.shadowReg (b.page inst + off) &&& r.committed)) &&& ~~~ r.unread

/-- What the active view of a page reads for the register at offset `off`: what the block is using (R27). -/
def Mach.activeView (m : Mach) (o : Otp) (b : Blk) (inst off : Nat) : Word :=
  let w := m.shown o b inst off
  match regAt (b.page inst + off) with
  | none => w
  | some (r, _) => r.taken w &&& ~~~ r.unread

/-! ## Reads -/

/-- What a read of the written face brings with it: RC fields clear (R9); the registers whose reads latch or free something do so (R117,
R118, R196). -/
def Mach.readFx (m : Mach) (b : Blk) (inst off : Nat) : Mach :=
  let a := b.page inst + off
  let m := match b with
    | .time => if off = 0 then m.latchNow else if off = 0x5C ∨ off = 0x6C ∨ off = 0x7C then m.capRead ((off - 0x5C) / 16) else m
    | .axs => if inst % 2 = 0 ∧ off = 0x230 then m.pubLatch (inst / 2) else m
    | _ => m
  let rc := if off = 0x7FC then fCSTAT_REFUSED.mask
    else match regAt a with
      | some (r, _) => r.maskOf (fun f => f.acc == .rc)
      | none => 0
  m.setReg a (m.reg a &&& ~~~ rc)

/-- A read of a bank through the data window (R255, R273): any context reads any bank, an engine the bank it holds and the ACTIVE and DONE
banks of its pool's ports. -/
def Mach.ergRead (m : Mach) (src : Src) (bank a : Nat) : Word × Mach :=
  let ok : Bool := match src with
    | .link .. => true
    | .eng e => (m.e e).held.any (fun h => h.bank == bank)
        || (engClass e == .re && (m.bankSt bank == 2 || m.bankSt bank == 3) && m.portPool (m.bankPort bank) == m.poolOf e)
  if ok then (m.mword a, m.done 0) else (0, m.done 3)

/-- A window of context `c` grants an access to the word at device address `a` (R391). -/
def Mach.winOk (m : Mach) (c a : Nat) (write : Bool) : Bool :=
  (List.range 4).any (fun k =>
    let w := aQMG_WIN1 c k
    let n := m.fld w fQMG_WIN1_LOG2SZ
    let size := 2 ^ (if 12 ≤ n ∧ n ≤ 39 then n else 12)
    let base := 2 ^ 32 * m.fld w fQMG_WIN1_BASE_HI + 2 ^ 12 * m.fld (aQMG_WIN0 c k) fQMG_WIN0_BASE
    m.flag w fQMG_WIN1_EN && (!write || m.flag w fQMG_WIN1_WR) && a / size == base / size)

/-- A source's right to queue SRAM or DRAM: the Owner and engines all of it, another context its windows (R389, R391). -/
def Mach.mayWindow (m : Mach) (src : Src) (a : Nat) (write : Bool) : Nat :=
  match src with
  | .eng _ => 0
  | .link c _ =>
    if !m.ctxOn c then 7
    else if m.dev.st = .shutdown then 1
    else if c = m.owner ∨ m.winOk c a write then 0 else 3

/-- A word of the instruction buffer of a range engine: the line it holds, of the engine's pool store; the value of a line that holds none
is free (R96, R102). -/
def Mach.ibufWord (m : Mach) (e off : Nat) : Word × Mach :=
  match mapGet 0xFFFF (m.e e).ibuf (off / 64) with
  | 0xFFFF => m.takeFree
  | l => (m.mword (poolBase (m.poolOf e) + 64 * l + off % 64), m)

/-- A read of an engine's memories in its window (R102): none where the window is reserved. -/
def Mach.engMemRead (m : Mach) (e off : Nat) : Option (Word × Mach) :=
  let at_ (a : Nat) : Option (Word × Mach) := some (m.mword a, m)
  match engClass e with
  | .re =>
    if 0x1000 ≤ off ∧ off < 0x2000 then some (m.ibufWord e (off - 0x1000))
    else if 0x4000 ≤ off ∧ off < 0x8000 then at_ ((m.programAt e (off - 0x4000)).getD 0)
    else if 0x8000 ≤ off then at_ (engPage e + off) else none
  | .sq => if (0x2000 ≤ off ∧ off < 0x4000) ∨ 0x8000 ≤ off then at_ (engPage e + off) else none
  | .ae => if (0x2000 ≤ off ∧ off < 0x3000) ∨ (0x4000 ≤ off ∧ off < 0x6000) then at_ (engPage e + off) else none
  | .sv => if 0x40000 ≤ off then at_ (engPage e + off) else none

/-- A read beyond a register page: semaphores, the key area, engine memories, memory areas, tables of registers; anything else is reserved
(R26). -/
def Mach.tableRead (m : Mach) (o : Otp) (b : Blk) (inst off : Nat) : Word × Mach :=
  let a := b.page inst + off
  if b = .glb ∧ off < 0x2000 then (m.semWord ((off - 0x1000) / 4), m.done 0)
  else if b = .tstfus ∧ off < 0x1100 then (o.keyWord off, m.done 0)
  else
    match (engAt b inst).bind (fun e => m.engMemRead e off) with
    | some (w, m) => (w, m.done 0)
    | none =>
      if (areaAt b off).isSome then (m.mword a, m.done 0)
      else if (regAt a).isSome then (m.face o b inst off, (m.done 0).readFx b inst off)
      else (0, m.done 2)

/-- A read of a word of a block's window by a source that may read it. -/
def Mach.blkRead (m : Mach) (o : Otp) (src : Src) (b : Blk) (inst off : Nat) : Word × Mach :=
  let a := b.page inst + off
  if b.count ≤ inst then (0, m.done 2)
  else if b = .qdesc then (m.reg a, m.done 0)
  else if b = .ergdata then m.ergRead src inst a
  else if b = .qmg ∧ 0x80000 ≤ off then
    match m.mayWindow src a false with
    | 0 => (m.mword a, m.done 0)
    | st => (0, m.done st)
  else if off < 0x1000 then
    let m := m.when (b == .saf) Mach.selSettle
    if off < 0x800 then (m.face o b inst off, (m.done 0).readFx b inst off) else (m.activeView o b inst (off - 0x800), m.done 0)
  else m.tableRead o b inst off

/-- A read of the control-space word at `a` (R26, R390): the word, 0 when it fails, and the machine with the status. -/
def Mach.readAt (m : Mach) (o : Otp) (src : Src) (a : Nat) : Word × Mach :=
  match blkOf a with
  | none => (0, m.done 2)
  | some b =>
    let (inst, off) := b.locate a
    match m.mayRead src b off with
    | 0 => m.blkRead o src b inst off
    | st => (0, m.done st)

/-! ## Writes of registers -/

/-- A write of a register that does what its fields say and nothing more: a committed field takes it in its shadow unless its group is
pending (R9, R28, R33). -/
def Mach.plainWrite (m : Mach) (page a : Nat) (r : RegDef) (ix : List Nat) (v : Word) : Mach :=
  match r.groupOf ix with
  | none => (m.done 0).setReg a (r.writeImmediate (m.reg a) v)
  | some g =>
    if m.isPending page g then m.refusePending page
    else ((m.done 0).setShadow a ((m.shadowReg a &&& ~~~ r.committed) ||| (v &&& r.committed))).setReg a
      (r.writeImmediate (m.reg a) v)

/-- A write of the named register at `a`, if there is one; a word of a page that no register names ignores it (R27). -/
def Mach.plainAt (m : Mach) (page a : Nat) (v : Word) : Mach :=
  match regAt a with
  | some (r, ix) => m.plainWrite page a r ix v
  | none => m.done 0

/-- A write of a register of an engine's page that acts (R102 to R107): LEN is clipped to the program memory's size. -/
def Mach.engRegWrite (m : Mach) (e off : Nat) (v : Word) : Option Mach :=
  match off with
  | 0x00 => some (m.ctrlWrite e v)
  | 0x0C => some ((m.done 0).setFld (engPage e + 0xC) ⟨18, 2⟩ (min ((Fld.mk 18 2).get v) (progBytes e / 4)))
  | 0x28 => some (m.mboxHost e v)
  | _ => none

/-- A write of AXS_ASTAT: clearing FE_TRIP acts (R188), the other bits clear. -/
def Mach.astatWrite (m : Mach) (a : Nat) (v : Word) : Mach :=
  let m := if fAXS_ASTAT_FE_TRIP.get v = 1 then m.feClear a else m.done 0
  m.setReg (aAXS_ASTAT a) (m.reg (aAXS_ASTAT a) &&& ~~~ (v &&& (fAXS_ASTAT_MISM.mask ||| fAXS_ASTAT_MON_FAIL.mask)))

/-- A write of a register that acts, in the blocks that serve the host. -/
def Mach.hostRegWrite (m : Mach) (src : Src) (b : Blk) (off : Nat) (v : Word) : Option Mach :=
  match b, src with
  | .glb, .link c _ => if off = 8 then some (m.stateReq c (fGLB_STATE_REQ_KEY.get v) (fGLB_STATE_REQ_TARGET.get v)) else none
  | .clkpwr, .link c _ => if off = 0x20 then some (m.resetReq c v) else none
  | .lnk, _ => if off = 4 then some (m.rateWrite 0 v) else if off = 0x44 then some (m.rateWrite 1 v) else none
  | .qmg, _ =>
    if off = 0 then some (m.rolesBy src v)
    else if 0x10 ≤ off ∧ off < 0x30 then some (m.qctxSet ((off - 0x10) / 4) v)
    else if off = 0x50 then some (m.qfreezeSet v)
    else if off = 0x54 then some (m.plainAt 0x8100000 (0x8100000 + off) v).qMarkAll
    else none
  | .mem, _ =>
    if off = 0 then (if m.flag aMEM_STAT fMEM_STAT_READY then some m.refuse else none)
    else if off = 4 then some (if fMEM_INIT_GO.get v = 1 then m.memInit else m.done 0) else none
  | _, _ => none

/-- A write of a register that acts, in the other blocks. -/
def Mach.unitRegWrite (m : Mach) (o : Otp) (b : Blk) (inst off : Nat) (v : Word) : Option Mach :=
  match b with
  | .tdc => if off = 0 then some (if fTDC_DLL_REQ.get v = 1 then m.dllRequest else m.done 0) else none
  | .erg =>
    if off = 0 then some (if fERG_CTRL_FLUSH.get v = 1 then m.flush else m.done 0)
    else if 0x400 ≤ off ∧ off < 0x700 then some (m.bankWrite ((off - 0x400) / 4) v) else none
  | .rng => if off = 0x200 then some (m.poolSet inst v) else none
  | .axs => if inst % 2 = 0 ∧ off = 0x220 then some (m.astatWrite (inst / 2) v) else none
  | .rej => if off = 0x114 then some (if fREJ_MIRCTRL_CLR.get v = 1 then m.mirClear else m.done 0) else none
  | .pts => if off = 0xC then some (m.frameRequest v) else none
  | .hk => if off = 0 then some (m.hkCtrl v) else none
  | .tstfus =>
    if off = 0 then some (m.prbCtrlSet v)
    else if off = 0x10C then some (m.injectSet v)
    else if off = 0x204 then some (m.fusProg o v) else none
  | .grd => if off = 0 then some (m.plainAt grdPage grdPage v).grdShow else none
  | .saf =>
    if off = 0x14 then some (m.bconfSet v)
    else if off = 0x30 ∨ off = 0x34 then some (m.selSettle.bresSet ((off - 0x30) / 4) v) else none
  | _ => none

/-- A write of a word of the written face by a source that may write it. -/
def Mach.pageWrite (m : Mach) (o : Otp) (src : Src) (b : Blk) (inst off : Nat) (v : Word) : Mach :=
  let a := b.page inst + off
  if off = 0x7EC then m.cancelSet b inst v
  else if off = 0x7F0 then m.commitSet b inst v
  else if off = 0x7F4 then (m.done 0).setReg a (v &&& 31)
  else if off = 0x7F8 ∨ off = 0x7FC then m.done 0
  else
    match (engAt b inst).bind (fun e => m.engRegWrite e off v) with
    | some m => m
    | none => match m.hostRegWrite src b off v with
      | some m => m
      | none => (m.unitRegWrite o b inst off v).getD (m.plainAt (b.page inst) a v)

/-! ## Writes of tables and memories -/

/-- A write of a word of a request record: a context, over its group (R217, R423). -/
def Mach.recordWrite (m : Mach) (src : Src) (b : Blk) (off : Nat) (v : Word) : Mach :=
  match src with
  | .eng _ => m.done 3
  | .link c g =>
    let r := (off - 0x100) / 0x80
    if b = .grd then m.grdRecordWrite c g r ((off - 0x100) % 0x80) v else m.safRecordWrite c g r ((off - 0x100) % 0x80) v

/-- A write of an engine's memories in its window (R80, R102, R103): none where the window is reserved. -/
def Mach.engMemWrite (m : Mach) (src : Src) (e off : Nat) (v : Word) : Option Mach :=
  match engClass e with
  | .re =>
    if 0x1000 ≤ off ∧ off < 0x2000 then some (m.done 0)
    else if 0x4000 ≤ off ∧ off < 0x8000 then (m.programAt e (off - 0x4000)).map (fun a => m.programWrite src e a v)
    else if 0x8000 ≤ off then some (m.dataWrite src e (off - 0x8000) v) else none
  | .sq =>
    if 0x2000 ≤ off ∧ off < 0x4000 then some (m.dataWrite src e (off - 0x2000) v)
    else if 0x8000 ≤ off then some (m.programWrite src e (engPage e + off) v) else none
  | .ae =>
    if 0x2000 ≤ off ∧ off < 0x3000 then some (m.dataWrite src e (off - 0x2000) v)
    else if 0x4000 ≤ off ∧ off < 0x6000 then some (m.programWrite src e (engPage e + off) v) else none
  | .sv => if 0x40000 ≤ off then some (m.dataWrite src e (off - 0x40000) v) else none

/-- A write of a memory area of a block: staging areas are refused while their commit is pending; a read-only area ignores it. -/
def Mach.areaWrite (m : Mach) (b : Blk) (x : Area) (off : Nat) (v : Word) : Mach :=
  if !x.rw then m.done 0
  else if b = .grd ∧ off < 0x80000 then m.grdStageWrite (off - 0x40000) v
  else if b = .saf then m.safStageWrite (off - 0x40000) v
  else (m.done 0).setMword (b.page 0 + off) (v &&& x.mask)

/-- A write of a table register: the coefficients of an axis and the pools of the ports act (R186, R275). -/
def Mach.tableRegWrite (m : Mach) (b : Blk) (inst off : Nat) (v : Word) : Mach :=
  if b = .axs ∧ inst % 2 = 0 ∧ off < 0x1400 then
    m.coefWrite (inst / 2) ((off - 0x1000) / 0x100) (off % 0x100 / 8) (off / 4 % 2 == 1) v
  else if b = .rng ∧ off < 0x2030 then m.portPoolSet ((off - 0x2000) / 4) v
  else m.plainAt (b.page inst) (b.page inst + off) v

/-- A write beyond a register page by a source that may write it; a reserved address ends with ADDR (R26). -/
def Mach.tableWrite (m : Mach) (src : Src) (b : Blk) (inst off : Nat) (v : Word) : Mach :=
  if b = .glb ∧ off < 0x2000 then m.semWrite ((off - 0x1000) / 4) v
  else if b = .tstfus ∧ off < 0x1100 then m.done 0
  else
    match (engAt b inst).bind (fun e => m.engMemWrite src e off v) with
    | some m => m
    | none => match areaAt b off with
      | some x => m.areaWrite b x off v
      | none => if (regAt (b.page inst + off)).isSome then m.tableRegWrite b inst off v else m.done 2

/-- A write of a word of a block's window. -/
def Mach.blkWrite (m : Mach) (o : Otp) (src : Src) (b : Blk) (inst off : Nat) (v : Word) : Mach :=
  let a := b.page inst + off
  if b.count ≤ inst then m.done 2
  else if b = .ergdata then m.ergWrite src inst off v
  else if b = .qdesc then m.asWriter src b inst off (fun m => m.qWrite (m.qFull src) inst (off / 4) v)
  else if b = .qmg ∧ 0x80000 ≤ off then
    match m.mayWindow src a true with
    | 0 => (m.done 0).setMword a v
    | st => m.done st
  else if isRecord b off then m.recordWrite src b off v
  else if off = 0x7F0 then
    match m.mayCommit src b inst with
    | 0 => m.commitSet b inst v
    | st => m.done st
  else m.asWriter src b inst off (fun m =>
    if off < 0x800 then m.pageWrite o src b inst off v
    else if off < 0x1000 then m.done 0
    else m.tableWrite src b inst off v)

/-- A write of the control-space word at `a`, with the status it leaves (R26, R33, R390). -/
def Mach.writeAt (m : Mach) (o : Otp) (src : Src) (a : Nat) (v : Word) : Mach :=
  match blkOf a with
  | none => m.done 2
  | some b => (m.done 0).blkWrite o src b (b.locate a).1 (b.locate a).2 v

/-- REGISTER_WRITE (R28). -/
def execRegisterWrite (src : Src) (a : Nat) (v : Word) (s : State) : Host.Outcome State Fault Refusal :=
  s.run (wfRegisterWrite src a v) (fun otp m => m.writeAt otp src a v)

end Sys2Proof.Machine
end

