-- ==== Sys2Proof/Machine/LoadStore.lean ====
section
/-!
DEFINITION. Loads and stores of local memory (R79), in a range engine of the banks mapped into its address space (R279).
-/
namespace Sys2Proof.Machine

/-- The exact sum of a base register, unsigned, and the sign-extended offset (R79). -/
def Mach.localAddr (m : Mach) (e : Nat) (i : FM) : Int := (m.gn e i.rs : Int) + offM i

/-- What `n` bytes at a local address read as; nothing outside every memory. A stale look reads 0 (R285). -/
def Mach.localRead (m : Mach) (e : Nat) (a : Int) (n : Nat) : Option Nat :=
  match m.place e a n with
  | .data p | .held p | .looked p => some (m.mnat p n)
  | .stale => some 0
  | .none => none

/-- A load of `n` bytes, extended by `ext` (R79): misaligned before bus error (R98). -/
def Mach.load (m : Mach) (e : Nat) (i : FM) (n : Nat) (ext : Nat → Word) : Mach :=
  let a := m.localAddr e i
  if a % n ≠ 0 then m.engFault e 3
  else match m.localRead e a n with
    | some v => m.result e i.rd (ext v)
    | none => m.engFault e 4

/-- A store of a supervisor into its first 4 × LEN bytes clears VERIFIED (R103). -/
def Mach.unverify (m : Mach) (e a : Nat) : Mach :=
  m.when (engClass e == .sv && decide (a < dataBase e + 4 * m.engLen e)) (fun m => m.modE e (fun x => { x with verified := false }))

/-- A store of the low `n` bytes of rt (R79); the looked bank takes none (R279). -/
def Mach.store (m : Mach) (e : Nat) (i : FM) (n : Nat) : Mach :=
  let a := m.localAddr e i
  if a % n ≠ 0 then m.engFault e 3
  else match m.place e a n with
    | .data p => ((m.setMnat p n (m.gn e i.rt)).unverify e p).retire e
    | .held p => (m.when (!bankResv (p % 0x10000)) (fun m => m.setMnat p n (m.gn e i.rt))).retire e
    | _ => m.engFault e 4

/-- ld.w (R79). -/
def execLdW (e : Nat) (i : FM) (s : State) : Host.Outcome State Fault Refusal :=
  s.run (wfLdW e i) (fun _ m => m.issue e none (i.rt == 0) (fun m => m.load e i 4 word))

/-- ld.h (R79). -/
def execLdH (e : Nat) (i : FM) (s : State) : Host.Outcome State Fault Refusal :=
  s.run (wfLdH e i) (fun _ m => m.issue e none (i.rt == 0) (fun m => m.load e i 2 (fun v => wordOfInt (signed 16 v))))

/-- ld.hu (R79). -/
def execLdHu (e : Nat) (i : FM) (s : State) : Host.Outcome State Fault Refusal :=
  s.run (wfLdHu e i) (fun _ m => m.issue e none (i.rt == 0) (fun m => m.load e i 2 word))

/-- ld.b (R79). -/
def execLdB (e : Nat) (i : FM) (s : State) : Host.Outcome State Fault Refusal :=
  s.run (wfLdB e i) (fun _ m => m.issue e none (i.rt == 0) (fun m => m.load e i 1 (fun v => wordOfInt (signed 8 v))))

/-- ld.bu (R79). -/
def execLdBu (e : Nat) (i : FM) (s : State) : Host.Outcome State Fault Refusal :=
  s.run (wfLdBu e i) (fun _ m => m.issue e none (i.rt == 0) (fun m => m.load e i 1 word))

/-- st.w (R79). -/
def execStW (e : Nat) (i : FM) (s : State) : Host.Outcome State Fault Refusal :=
  s.run (wfStW e i) (fun _ m => m.issue e none (i.rd == 0) (fun m => m.store e i 4))

/-- st.h (R79). -/
def execStH (e : Nat) (i : FM) (s : State) : Host.Outcome State Fault Refusal :=
  s.run (wfStH e i) (fun _ m => m.issue e none (i.rd == 0) (fun m => m.store e i 2))

/-- st.b (R79). -/
def execStB (e : Nat) (i : FM) (s : State) : Host.Outcome State Fault Refusal :=
  s.run (wfStB e i) (fun _ m => m.issue e none (i.rd == 0) (fun m => m.store e i 1))

end Sys2Proof.Machine
end

