-- ==== Sys2Proof/Machine/Requests.lean ====
section
/-!
DEFINITION. Access to the address space by packets of the link (READ, WRITE; R24, R26, R387 to R394) and by instructions of engines (rdcs
and wrcs on control space; R90).
-/
namespace Sys2Proof.Machine

/-! ## Words over the link -/

/-- A DRAM word read that meets an error: a corrected one counts, an uncorrectable one is reported and its data delivered as read with
status 6 (R410). -/
def Mach.dramErr (m : Mach) (a : Nat) (e : Option Bool) : Mach :=
  if !m.flag aMEM_CFG fMEM_CFG_ECC then m
  else match e with
    | none => m
    | some false => m.satInc (aMEM_ECC (m.dramChan (a - dramBase))) fMEM_ECC_CORR
    | some true => (m.dramUe (m.dramChan (a - dramBase))).done 6

/-- A read of the word at a 40-bit device address by a context (R24, R26, R389). -/
def Mach.linkRead (m : Mach) (o : Otp) (c g a : Nat) (e : Option Bool) : Word × Mach :=
  if a < 2 ^ 32 then m.readAt o (.link c g) a
  else if a < dramBase ∨ 0xA0_0000_0000 ≤ a then (0, m.done 2)
  else
    match m.mayWindow (.link c g) a false with
    | 0 =>
      if m.dramStatus (a - dramBase) 4 = 0 then (m.mword a, (m.done 0).dramErr a e) else (0, m.done 5)
    | st => (0, m.done st)

/-- A write of the word at a 40-bit device address by a context (R24, R26, R389). -/
def Mach.linkWrite (m : Mach) (o : Otp) (c g a : Nat) (v : Word) : Mach :=
  if a < 2 ^ 32 then m.writeAt o (.link c g) a v
  else if a < dramBase ∨ 0xA0_0000_0000 ≤ a then m.done 2
  else
    match m.mayWindow (.link c g) a true with
    | 0 => if m.dramStatus (a - dramBase) 4 = 0 then (m.done 0).setMword a v else m.done 5
    | st => m.done st

/-- What the words of a request have given so far: data, status of the first that failed and its index, the owner named by a write of
QMG_ROLES (R388, R394). -/
structure ReqAcc where
  data  : List Word
  st    : Nat
  bad   : Nat
  owner : Option Nat
deriving DecidableEq, Repr

/-- The outcome of the word of index `i` joined to the others. -/
def ReqAcc.note (x : ReqAcc) (i st : Nat) (data : List Word) : ReqAcc :=
  { x with data := x.data ++ data, st := if x.st = 0 then st else x.st, bad := if x.st = 0 ∧ st ≠ 0 then i else x.bad }

/-- Whether the read of word `i` meets a DRAM error, and whether it is uncorrectable. -/
def eccOf (ecc : List (Nat × Bool)) (i : Nat) : Option Bool := (ecc.find? (fun x => x.1 == i)).map (fun x => x.2)

/-- The words of a READ, in ascending address order (R393). -/
def Mach.readWords (m : Mach) (o : Otp) (c g a : Nat) (ecc : List (Nat × Bool)) (n : Nat) : ReqAcc × Mach :=
  (List.range n).foldl (fun (x, m) i =>
    let (w, m) := m.linkRead o c g (a + 4 * i) (eccOf ecc i)
    (x.note i m.status [w], m)) ({ data := [], st := 0, bad := 0, owner := none }, m)

/-- A write of the word at `a` clears EN of the context that an earlier word of the request has named as the new OWNER. -/
def ReqAcc.clears (x : ReqAcc) (a : Nat) (w : Word) : Bool :=
  x.owner.any (fun k => k != 0 && a == aQMG_CTX k && fQMG_CTX_EN.get w == 0)

/-- One word of a WRITE: a new OWNER applies to later packets only, and holds its role from now on (R388). -/
def Mach.writeOne (m : Mach) (o : Otp) (c g a i : Nat) (w : Word) (x : ReqAcc) : ReqAcc × Mach :=
  let own := m.owner
  let m := if x.clears (a + 4 * i) w then m.refuse else m.linkWrite o c g (a + 4 * i) w
  let x := x.note i m.status []
  if a + 4 * i = aQMG_ROLES ∧ m.status = 0 then ({ x with owner := some m.owner }, m.setFld aQMG_ROLES fQMG_ROLES_OWNER own) else (x, m)

/-- The words of a WRITE, in ascending address order. -/
def Mach.writeWords (m : Mach) (o : Otp) (c g a : Nat) : Nat → List Word → ReqAcc → ReqAcc × Mach
  | _, [], x => (x, m)
  | i, w :: t, x => let (x, m) := m.writeOne o c g a i w x; m.writeWords o c g a (i + 1) t x

/-- The new OWNER in force after the request. -/
def Mach.newOwner (m : Mach) (k : Option Nat) : Mach :=
  match k with
  | some k => m.setFld aQMG_ROLES fQMG_ROLES_OWNER k
  | none => m

/-! ## READ and WRITE (R392 to R394) -/

/-- READ: `ecc` lists the words whose DRAM read meets an error, with true for an uncorrectable one (R410). -/
def execRead (g : Nat) (h : ReqHdr) (ecc : List (Nat × Bool)) (s : State) : Host.Outcome State Fault Refusal :=
  s.run (wfRead g h ecc) (fun otp m => m.arrives g (fun m =>
    let seq := m.reqSeq g
    let zeros := List.replicate h.nw 0
    if !m.ctxOn h.ctx then m.compl g h.ctx seq 7 0 zeros
    else if h.addr % 4 ≠ 0 then m.compl g h.ctx seq 4 0 zeros
    else
      let (x, m) := m.readWords otp h.ctx g h.addr ecc h.nw
      (m.done x.st).compl g h.ctx seq x.st x.bad x.data))

/-- WRITE. -/
def execWrite (g : Nat) (h : ReqHdr) (ws : List Word) (s : State) : Host.Outcome State Fault Refusal :=
  s.run (wfWrite g h ws) (fun otp m => m.arrives g (fun m =>
    let seq := m.reqSeq g
    if !m.ctxOn h.ctx then m.compl g h.ctx seq 7 0 []
    else if ws.length ≠ h.nw then m.compl g h.ctx seq 8 0 []
    else if h.addr % 4 ≠ 0 then m.compl g h.ctx seq 4 0 []
    else
      let (x, m) := m.writeWords otp h.ctx g h.addr 0 ws { data := [], st := 0, bad := 0, owner := none }
      ((m.done x.st).compl g h.ctx seq x.st x.bad []).newOwner x.owner))

/-! ## rdcs and wrcs on control space -/

/-- The status an access of an engine would end with now. -/
def Mach.ctlStatus (m : Mach) (o : Otp) (e a : Nat) (v : Option Word) : Nat :=
  match v with
  | none => (m.readAt o (.eng e) a).2.status
  | some v => (m.writeAt o (.eng e) a v).status

/-- rdcs and wrcs issue: misaligned, then bus error for an address that is reserved or not permitted; then the engine waits (R90). -/
def Mach.ctlIssue (m : Mach) (o : Otp) (e : Nat) (i : FM) (v : Option Word) : Mach :=
  let a := m.localAddr e i
  if a % 4 ≠ 0 then m.engFault e 3
  else if a < 0 ∨ 2 ^ 32 ≤ a then m.engFault e 4
  else if 1 < m.ctlStatus o e a.toNat v then m.engFault e 4
  else m.waits e (.ctl v.isSome a.toNat (v.getD 0)) i.rd 0

/-- rdcs on control space; rt must be 0. -/
def execRdcsControl (e : Nat) (i : FM) (s : State) : Host.Outcome State Fault Refusal :=
  s.run (wfRdcsControl e i) (fun otp m => m.issue e none (i.rt == 0) (fun m => m.ctlIssue otp e i none))

/-- wrcs on control space. -/
def execWrcsControl (e : Nat) (i : FM) (s : State) : Host.Outcome State Fault Refusal :=
  s.run (wfWrcsControl e i) (fun otp m => m.issue e none true (fun m => m.ctlIssue otp e i (some (m.g' e i.rt))))

/-- The access of a waiting engine ends with `w` in rd, or with bus error when the access is not permitted any more; an engine that the
access itself stopped waits no longer. -/
def Mach.ctlEnd (m : Mach) (e : Nat) (w : Word) : Mach :=
  match (m.e e).wait with
  | .ctl .. =>
    if 1 < m.status then (m.modE e (fun x => x.enter m.cyc .running)).engFault e 4 else m.resume e w
  | _ => m

/-- CONTROL_SPACE_COMPLETION: rd takes the word, or 0 for an accepted write and 1 for a refused one. -/
def execControlSpaceCompletion (e : Nat) (s : State) : Host.Outcome State Fault Refusal :=
  s.run (wfControlSpaceCompletion e) (fun otp m =>
    match (m.e e).wait with
    | .ctl false a _ => let (w, m) := m.readAt otp (.eng e) a; m.ctlEnd e w
    | .ctl true a v => let m := m.writeAt otp (.eng e) a v; m.ctlEnd e (word m.status)
    | _ => m)

end Sys2Proof.Machine
end

