-- ==== Sys2Proof/Machine/Transfer.lean ====
section
/-!
DEFINITION. DRAM transfers (ldx, stx) and the posting of records to host queues (emit, R91) by engines.
-/
namespace Sys2Proof.Machine

/-! ## ldx and stx -/

/-- The DRAM range of the bus-error check: the usable capacity once READY is set, the whole range of R24 before. -/
def Mach.dramReach (m : Mach) : Nat := if m.flag aMEM_STAT fMEM_STAT_READY then m.dramU else 2 ^ 39

/-- ldx or stx issues: the checks in the order of their codes, then rd = 2 at once when DRAM is not READY or a channel on the
path has failed, else a transfer by the ENG class of each channel's arbiter (R414). -/
def Mach.transfer (m : Mach) (e : Nat) (i : FM) (store : Bool) : Mach :=
  let len := i.imm.toNat
  let x := 2 ^ 32 * (m.e e).xhi + m.gn e i.rs
  let loc := m.gn e i.rt
  if len = 0 ∨ 4096 < len ∨ len % 4 ≠ 0 then m.engFault e 1
  else if x % 4 ≠ 0 ∨ loc % 4 ≠ 0 then m.engFault e 3
  else if x < dramBase ∨ dramBase + m.dramReach < x + len ∨ !inData e loc len then m.engFault e 4
  else if (m.e e).openq.isSome then m.engFault e 5
  else if m.dramStatus (x - dramBase) len ≠ 0 then m.result e i.rd 2
  else
    let chs := m.dramChans (x - dramBase) len
    let share := len / max 1 chs.length
    let reqs := chs.map (fun c => { cls := 3, who := e, ch := c, cyc := m.cyc, left := max 4 share : DReq })
    { m with dram := { m.dram with reqs := m.dram.reqs ++ reqs } }.waits e (.dram store x loc len) i.rd 0

/-- ldx. -/
def execLdx (e : Nat) (i : FM) (s : State) : Host.Outcome State Fault Refusal :=
  s.run (wfLdx e i) (fun _ m => m.issue e none true (fun m => m.transfer e i false))

/-- stx. -/
def execStx (e : Nat) (i : FM) (s : State) : Host.Outcome State Fault Refusal :=
  s.run (wfStx e i) (fun _ m => m.issue e none true (fun m => m.transfer e i true))

/-- `n` bytes copied. -/
def Mach.copy (m : Mach) (from_ to_ n : Nat) : Mach := m.setBytes to_ (m.bytes from_ n)

/-- LDX_STX_COMPLETION: the transfer has ended, or a channel on its path has failed after `moved` bytes (R412); `bad` is the
offset of a word read with an uncorrectable error, which is delivered as read (R410). -/
def execLdxStxCompletion (e : Nat) (bad : Option Nat) (moved : Nat) (s : State) : Host.Outcome State Fault Refusal :=
  s.run (wfLdxStxCompletion e bad moved) (fun _ m =>
    match (m.e e).wait with
    | .dram store x loc len =>
      let lost := (m.dramChans (x - dramBase) len).any m.chanFailed
      let n := if lost then min moved len else len
      let m := m.leaveQueues e
      let m := if store then m.copy (dataBase e + loc) x n
               else (m.copy x (dataBase e + loc) n).unverify e (dataBase e + loc)
      let ue := !store && m.flag aMEM_CFG fMEM_CFG_ECC && bad.any (fun b => decide (b < n))
      let m := m.when ue (fun m => m.dramUe (m.dramChan (x - dramBase + bad.getD 0)))
      m.resume e (if lost then 2 else if ue then 1 else 0)
    | _ => m)

/-! ## emit (R91) -/

/-- emit: length [12:0] and MORE [13] of imm14. -/
def execEmit (e : Nat) (i : FM) (s : State) : Host.Outcome State Fault Refusal :=
  s.run (wfEmit e i) (fun _ m =>
    let len := i.imm.toNat % 2 ^ 13
    m.issue e none (decide (4 ≤ len) && decide (len ≤ 4096) && len % 4 == 0) (fun m =>
      let x := m.e e
      let a := m.gn e i.rs
      let q := m.gn e i.rt
      let win := engPage e + 0x30
      if a % 4 ≠ 0 then m.engFault e 3
      else if !inData e a len then m.engFault e 4
      else if x.openq.isSome && x.openq != some q then m.engFault e 5
      else if q < m.fld win ⟨30, 16⟩ || decide (m.fld win ⟨14, 0⟩ < q) || !m.qOn q then m.result e i.rd 2
      else
        let rec_ := x.recbuf ++ m.bytes (dataBase e + a) len
        let close := m.modE e (fun x => { x with openq := none, recbuf := [] })
        if 4096 < rec_.length then close.result e i.rd 3
        else if i.imm.getLsbD 13 then (m.modE e (fun x => { x with openq := some q, recbuf := rec_ })).result e i.rd 0
        else match close.offer q (.eng e) (x.emitTmo != 0) rec_ with
          | (m, .accepted) => m.result e i.rd 0
          | (m, .refused) => m.result e i.rd 1
          | (m, .waits) => m.waits e (.queue q) i.rd x.emitTmo))

/-- EMIT_TIMEOUT: the offer is withdrawn and counts in DROPS; rd = 1 (R402). -/
def execEmitTimeout (e : Nat) (s : State) : Host.Outcome State Fault Refusal :=
  s.run (wfEmitTimeout e) (fun _ m =>
    match (m.e e).wait with
    | .queue q => (((m.advanceTo ((m.e e).issue + (m.e e).limit)).withdraw q (.eng e)).qDrop q 1).resume e 1
    | _ => m)

end Sys2Proof.Machine
end

