-- ==== Sys2Proof/Machine/Dispatch.lean ====
section
/-!
DEFINITION. The effect of every command on the state beside the queue: one arm per row of the command table,
each a direct call of that command's meaning.
-/
namespace Sys2Proof.Machine

/-- The effect of a command on everything but the queue. -/
def exec (i : Instr) (s : State) : Host.Outcome State Fault Refusal :=
  match i with
  | .registerWrite src a v => Sys2Proof.Machine.execRegisterWrite src a v s
  | .commitRequest src page groups => Sys2Proof.Machine.execCommitRequest src page groups s
  | .commitCancel src page groups => Sys2Proof.Machine.execCommitCancel src page groups s
  | .idleCommitApply page => Sys2Proof.Machine.execIdleCommitApply page s
  | .supplyRise => Sys2Proof.Machine.execSupplyRise s
  | .supplyRemove => Sys2Proof.Machine.execSupplyRemove s
  | .porstAssert => Sys2Proof.Machine.execPorstAssert s
  | .porstRelease => Sys2Proof.Machine.execPorstRelease s
  | .rootPllLock => Sys2Proof.Machine.execRootPllLock s
  | .pllLockRetry => Sys2Proof.Machine.execPllLockRetry s
  | .otpLoadDone => Sys2Proof.Machine.execOtpLoadDone s
  | .bistDone pass => Sys2Proof.Machine.execBistDone pass s
  | .dramRestore failing => Sys2Proof.Machine.execDramRestore failing s
  | .supplyMonitorTrip which => Sys2Proof.Machine.execSupplyMonitorTrip which s
  | .supplyMonitorRelease ins => Sys2Proof.Machine.execSupplyMonitorRelease ins s
  | .clockMonitorWindow count oscRunning => Sys2Proof.Machine.execClockMonitorWindow count oscRunning s
  | .rootPllUnlock => Sys2Proof.Machine.execRootPllUnlock s
  | .requestLinked ctx key => Sys2Proof.Machine.execRequestLinked ctx key s
  | .requestLoaded ctx key => Sys2Proof.Machine.execRequestLoaded ctx key s
  | .requestArmed ctx key => Sys2Proof.Machine.execRequestArmed ctx key s
  | .requestRunning ctx key => Sys2Proof.Machine.execRequestRunning ctx key s
  | .requestOasis ctx key => Sys2Proof.Machine.execRequestOasis ctx key s
  | .hkrefOkSet => Sys2Proof.Machine.execHkrefOkSet s
  | .hostReset ctx v => Sys2Proof.Machine.execHostReset ctx v s
  | .hostResetStart => Sys2Proof.Machine.execHostResetStart s
  | .start src e v => Sys2Proof.Machine.execStart src e v s
  | .stop src e v => Sys2Proof.Machine.execStop src e v s
  | .verify src e v => Sys2Proof.Machine.execVerify src e v s
  | .verifyDone e => Sys2Proof.Machine.execVerifyDone e s
  | .mbclr src e v => Sys2Proof.Machine.execMbclr src e v s
  | .mboxIn src e w => Sys2Proof.Machine.execMboxIn src e w s
  | .programMemoryWrite src e off w => Sys2Proof.Machine.execProgramMemoryWrite src e off w s
  | .dataMemoryWrite src e off w => Sys2Proof.Machine.execDataMemoryWrite src e off w s
  | .semaphoreWrite src n v => Sys2Proof.Machine.execSemaphoreWrite src n v s
  | .add e ins => Sys2Proof.Machine.execAdd e ins s
  | .sub e ins => Sys2Proof.Machine.execSub e ins s
  | .and e ins => Sys2Proof.Machine.execAnd e ins s
  | .or e ins => Sys2Proof.Machine.execOr e ins s
  | .xor e ins => Sys2Proof.Machine.execXor e ins s
  | .shl e ins => Sys2Proof.Machine.execShl e ins s
  | .shr e ins => Sys2Proof.Machine.execShr e ins s
  | .sra e ins => Sys2Proof.Machine.execSra e ins s
  | .mul e ins => Sys2Proof.Machine.execMul e ins s
  | .mulh e ins => Sys2Proof.Machine.execMulh e ins s
  | .adds e ins => Sys2Proof.Machine.execAdds e ins s
  | .subs e ins => Sys2Proof.Machine.execSubs e ins s
  | .min e ins => Sys2Proof.Machine.execMin e ins s
  | .max e ins => Sys2Proof.Machine.execMax e ins s
  | .abs e ins => Sys2Proof.Machine.execAbs e ins s
  | .addImm e ins => Sys2Proof.Machine.execAddImm e ins s
  | .andImm e ins => Sys2Proof.Machine.execAndImm e ins s
  | .orImm e ins => Sys2Proof.Machine.execOrImm e ins s
  | .xorImm e ins => Sys2Proof.Machine.execXorImm e ins s
  | .shlImm e ins => Sys2Proof.Machine.execShlImm e ins s
  | .shrImm e ins => Sys2Proof.Machine.execShrImm e ins s
  | .sraImm e ins => Sys2Proof.Machine.execSraImm e ins s
  | .mulImm e ins => Sys2Proof.Machine.execMulImm e ins s
  | .addsImm e ins => Sys2Proof.Machine.execAddsImm e ins s
  | .minImm e ins => Sys2Proof.Machine.execMinImm e ins s
  | .maxImm e ins => Sys2Proof.Machine.execMaxImm e ins s
  | .li e ins => Sys2Proof.Machine.execLi e ins s
  | .lui e ins => Sys2Proof.Machine.execLui e ins s
  | .ldW e ins => Sys2Proof.Machine.execLdW e ins s
  | .ldH e ins => Sys2Proof.Machine.execLdH e ins s
  | .ldHu e ins => Sys2Proof.Machine.execLdHu e ins s
  | .ldB e ins => Sys2Proof.Machine.execLdB e ins s
  | .ldBu e ins => Sys2Proof.Machine.execLdBu e ins s
  | .stW e ins => Sys2Proof.Machine.execStW e ins s
  | .stH e ins => Sys2Proof.Machine.execStH e ins s
  | .stB e ins => Sys2Proof.Machine.execStB e ins s
  | .ldx e ins => Sys2Proof.Machine.execLdx e ins s
  | .stx e ins => Sys2Proof.Machine.execStx e ins s
  | .ldxStxCompletion e bad moved => Sys2Proof.Machine.execLdxStxCompletion e bad moved s
  | .rdcsControl e ins => Sys2Proof.Machine.execRdcsControl e ins s
  | .wrcsControl e ins => Sys2Proof.Machine.execWrcsControl e ins s
  | .controlSpaceCompletion e => Sys2Proof.Machine.execControlSpaceCompletion e s
  | .rdcsLocal e ins => Sys2Proof.Machine.execRdcsLocal e ins s
  | .wrcsLocal e ins => Sys2Proof.Machine.execWrcsLocal e ins s
  | .b e ins => Sys2Proof.Machine.execB e ins s
  | .bc e ins => Sys2Proof.Machine.execBc e ins s
  | .call e ins => Sys2Proof.Machine.execCall e ins s
  | .ret e ins => Sys2Proof.Machine.execRet e ins s
  | .loop e ins => Sys2Proof.Machine.execLoop e ins s
  | .nop e ins => Sys2Proof.Machine.execNop e ins s
  | .halt e ins => Sys2Proof.Machine.execHalt e ins s
  | .fault e ins => Sys2Proof.Machine.execFault e ins s
  | .watchdog e => Sys2Proof.Machine.execWatchdog e s
  | .lockstepMismatch n => Sys2Proof.Machine.execLockstepMismatch n s
  | .trap e ins => Sys2Proof.Machine.execTrap e ins s
  | .eret e ins => Sys2Proof.Machine.execEret e ins s
  | .wait e ins => Sys2Proof.Machine.execWait e ins s
  | .waitTimeout e => Sys2Proof.Machine.execWaitTimeout e s
  | .sig e ins => Sys2Proof.Machine.execSig e ins s
  | .wtime e ins => Sys2Proof.Machine.execWtime e ins s
  | .wtimeTimeout e => Sys2Proof.Machine.execWtimeTimeout e s
  | .msnd e ins => Sys2Proof.Machine.execMsnd e ins s
  | .mailboxWordArrival sender e => Sys2Proof.Machine.execMailboxWordArrival sender e s
  | .mrcv e ins => Sys2Proof.Machine.execMrcv e ins s
  | .mrcvTimeout e => Sys2Proof.Machine.execMrcvTimeout e s
  | .emit e ins => Sys2Proof.Machine.execEmit e ins s
  | .emitTimeout e => Sys2Proof.Machine.execEmitTimeout e s
  | .fire e ins => Sys2Proof.Machine.execFire e ins s
  | .stringArbitration => Sys2Proof.Machine.execStringArbitration s
  | .guardDecision n late => Sys2Proof.Machine.execGuardDecision n late s
  | .patternFrame => Sys2Proof.Machine.execPatternFrame s
  | .fireEdge => Sys2Proof.Machine.execFireEdge s
  | .opticalStart str t => Sys2Proof.Machine.execOpticalStart str t s
  | .noStart str => Sys2Proof.Machine.execNoStart str s
  | .proof e ins => Sys2Proof.Machine.execProof e ins s
  | .proofWalk e ins => Sys2Proof.Machine.execProofWalk e ins s
  | .walkShot str => Sys2Proof.Machine.execWalkShot str s
  | .proofLate str => Sys2Proof.Machine.execProofLate str s
  | .arm e ins => Sys2Proof.Machine.execArm e ins s
  | .armClose e ins => Sys2Proof.Machine.execArmClose e ins s
  | .wangle e ins => Sys2Proof.Machine.execWangle e ins s
  | .wangleEvaluation e => Sys2Proof.Machine.execWangleEvaluation e s
  | .code e ins => Sys2Proof.Machine.execCode e ins s
  | .codeOff e ins => Sys2Proof.Machine.execCodeOff e ins s
  | .pat e ins => Sys2Proof.Machine.execPat e ins s
  | .zoom e ins => Sys2Proof.Machine.execZoom e ins s
  | .zoomOff e ins => Sys2Proof.Machine.execZoomOff e ins s
  | .sequencerHandover p => Sys2Proof.Machine.execSequencerHandover p s
  | .macs e ins => Sys2Proof.Machine.execMacs e ins s
  | .lim e ins => Sys2Proof.Machine.execLim e ins s
  | .ferr e ins => Sys2Proof.Machine.execFerr e ins s
  | .xfade e ins => Sys2Proof.Machine.execXfade e ins s
  | .pub e ins => Sys2Proof.Machine.execPub e ins s
  | .dacw e ins => Sys2Proof.Machine.execDacw e ins s
  | .adcr e ins => Sys2Proof.Machine.execAdcr e ins s
  | .encoderEdge axis a b => Sys2Proof.Machine.execEncoderEdge axis a b s
  | .encoderIndex axis => Sys2Proof.Machine.execEncoderIndex axis s
  | .stall h => Sys2Proof.Machine.execStall h s
  | .coefficientWrite src axis bank k second v => Sys2Proof.Machine.execCoefficientWrite src axis bank k second v s
  | .pubRead src axis => Sys2Proof.Machine.execPubRead src axis s
  | .feTripClear src axis => Sys2Proof.Machine.execFeTripClear src axis s
  | .guardStagingWrite src off w => Sys2Proof.Machine.execGuardStagingWrite src off w s
  | .requestRecordWrite ctx grp off w => Sys2Proof.Machine.execRequestRecordWrite ctx grp off w s
  | .guardVerifyDone => Sys2Proof.Machine.execGuardVerifyDone s
  | .guardFault => Sys2Proof.Machine.execGuardFault s
  | .moduleStale k => Sys2Proof.Machine.execModuleStale k s
  | .listenOpen p => Sys2Proof.Machine.execListenOpen p s
  | .listenClose p => Sys2Proof.Machine.execListenClose p s
  | .comparatorEdge p c rising t => Sys2Proof.Machine.execComparatorEdge p c rising t s
  | .overloadTrip p t => Sys2Proof.Machine.execOverloadTrip p t s
  | .overloadRelease p t => Sys2Proof.Machine.execOverloadRelease p t s
  | .blankPin ins level t => Sys2Proof.Machine.execBlankPin ins level t s
  | .ibiasReading p pA high => Sys2Proof.Machine.execIbiasReading p pA high s
  | .dllLockRequest src => Sys2Proof.Machine.execDllLockRequest src s
  | .dllLock pair d => Sys2Proof.Machine.execDllLock pair d s
  | .dllLockLoss pair d => Sys2Proof.Machine.execDllLockLoss pair d s
  | .dllSwap pair => Sys2Proof.Machine.execDllSwap pair s
  | .channelCalibrationDone ins ok dnlmax chofs => Sys2Proof.Machine.execChannelCalibrationDone ins ok dnlmax chofs s
  | .rotationHandover t diff => Sys2Proof.Machine.execRotationHandover t diff s
  | .testEdge ins off => Sys2Proof.Machine.execTestEdge ins off s
  | .spareTakeover t => Sys2Proof.Machine.execSpareTakeover t s
  | .shotSettle p => Sys2Proof.Machine.execShotSettle p s
  | .cellSwap p => Sys2Proof.Machine.execCellSwap p s
  | .bankAssign src b v => Sys2Proof.Machine.execBankAssign src b v s
  | .flush src => Sys2Proof.Machine.execFlush src s
  | .ergWindowWrite src b off w => Sys2Proof.Machine.execErgWindowWrite src b off w s
  | .ergEccError b => Sys2Proof.Machine.execErgEccError b s
  | .take e ins => Sys2Proof.Machine.execTake e ins s
  | .takeLook e ins => Sys2Proof.Machine.execTakeLook e ins s
  | .takeTimeout e => Sys2Proof.Machine.execTakeTimeout e s
  | .handleDispatch p => Sys2Proof.Machine.execHandleDispatch p s
  | .rel e ins => Sys2Proof.Machine.execRel e ins s
  | .bgest e ins => Sys2Proof.Machine.execBgest e ins s
  | .bscan e ins => Sys2Proof.Machine.execBscan e ins s
  | .corr e ins => Sys2Proof.Machine.execCorr e ins s
  | .fit e ins => Sys2Proof.Machine.execFit e ins s
  | .wfpk e ins => Sys2Proof.Machine.execWfpk e ins s
  | .poly e ins => Sys2Proof.Machine.execPoly e ins s
  | .cls e ins => Sys2Proof.Machine.execCls e ins s
  | .poolWrite src n v => Sys2Proof.Machine.execPoolWrite src n v s
  | .portPoolWrite src k v => Sys2Proof.Machine.execPortPoolWrite src k v s
  | .groupAccept e => Sys2Proof.Machine.execGroupAccept e s
  | .mapLineFetch p => Sys2Proof.Machine.execMapLineFetch p s
  | .haboobSwitch => Sys2Proof.Machine.execHaboobSwitch s
  | .mirageObservation => Sys2Proof.Machine.execMirageObservation s
  | .mirageEntryAge ins => Sys2Proof.Machine.execMirageEntryAge ins s
  | .mirageClear src => Sys2Proof.Machine.execMirageClear src s
  | .frameRequest src => Sys2Proof.Machine.execFrameRequest src s
  | .frameBoundary cause => Sys2Proof.Machine.execFrameBoundary cause s
  | .sliceBoundary => Sys2Proof.Machine.execSliceBoundary s
  | .timeTriggerFire t => Sys2Proof.Machine.execTimeTriggerFire t s
  | .secondCarry => Sys2Proof.Machine.execSecondCarry s
  | .ppsOutPulseEnd => Sys2Proof.Machine.execPpsOutPulseEnd s
  | .edgeCapture n rising half => Sys2Proof.Machine.execEdgeCapture n rising half s
  | .captureRead src n => Sys2Proof.Machine.execCaptureRead src n s
  | .timeNowRead src => Sys2Proof.Machine.execTimeNowRead src s
  | .camVsEdge half => Sys2Proof.Machine.execCamVsEdge half s
  | .busLine pixels => Sys2Proof.Machine.execBusLine pixels s
  | .camFrameTimeout => Sys2Proof.Machine.execCamFrameTimeout s
  | .i2cTransferDone nack rd => Sys2Proof.Machine.execI2cTransferDone nack rd s
  | .camTrigActive => Sys2Proof.Machine.execCamTrigActive s
  | .camTrigInactive => Sys2Proof.Machine.execCamTrigInactive s
  | .idle g => Sys2Proof.Machine.execIdle g s
  | .markerTimer l => Sys2Proof.Machine.execMarkerTimer l s
  | .packetDiscard g why => Sys2Proof.Machine.execPacketDiscard g why s
  | .ack g seq => Sys2Proof.Machine.execAck g seq s
  | .nak g seq => Sys2Proof.Machine.execNak g seq s
  | .ackTimer g => Sys2Proof.Machine.execAckTimer g s
  | .replayTimeout g => Sys2Proof.Machine.execReplayTimeout g s
  | .train l t => Sys2Proof.Machine.execTrain l t s
  | .groupBond g skewed => Sys2Proof.Machine.execGroupBond g skewed s
  | .bondTimeout g skewed => Sys2Proof.Machine.execBondTimeout g skewed s
  | .trainingTimeout g => Sys2Proof.Machine.execTrainingTimeout g s
  | .rateChangeRequest src g v => Sys2Proof.Machine.execRateChangeRequest src g v s
  | .rate g reply target => Sys2Proof.Machine.execRate g reply target s
  | .laneLoss l why => Sys2Proof.Machine.execLaneLoss l why s
  | .rebond g reply mask => Sys2Proof.Machine.execRebond g reply mask s
  | .laneRetrain l => Sys2Proof.Machine.execLaneRetrain l s
  | .laneRejoin l => Sys2Proof.Machine.execLaneRejoin l s
  | .read g h ecc => Sys2Proof.Machine.execRead g h ecc s
  | .write g h ws => Sys2Proof.Machine.execWrite g h ws s
  | .badtype g ctx ty => Sys2Proof.Machine.execBadtype g ctx ty s
  | .credit g ctx c => Sys2Proof.Machine.execCredit g ctx c s
  | .tsync g ctx tsid echo rpl phase => Sys2Proof.Machine.execTsync g ctx tsid echo rpl phase s
  | .egressGrant g phase => Sys2Proof.Machine.execEgressGrant g phase s
  | .queueGroupChange q => Sys2Proof.Machine.execQueueGroupChange q s
  | .rolesWrite src v => Sys2Proof.Machine.execRolesWrite src v s
  | .descriptorWrite src q k v => Sys2Proof.Machine.execDescriptorWrite src q k v s
  | .blockedRecordAccept q => Sys2Proof.Machine.execBlockedRecordAccept q s
  | .hostFreeze src v => Sys2Proof.Machine.execHostFreeze src v s
  | .recorderFrozen q => Sys2Proof.Machine.execRecorderFrozen q s
  | .ringHeaderRewrite q => Sys2Proof.Machine.execRingHeaderRewrite q s
  | .frozenResume src q => Sys2Proof.Machine.execFrozenResume src q s
  | .dramInit src => Sys2Proof.Machine.execDramInit src s
  | .dramReady failing => Sys2Proof.Machine.execDramReady failing s
  | .dramBurstGrant ch => Sys2Proof.Machine.execDramBurstGrant ch s
  | .dramChannelFail ch => Sys2Proof.Machine.execDramChannelFail ch s
  | .patrolScrub ch corrected uncorrectable => Sys2Proof.Machine.execPatrolScrub ch corrected uncorrectable s
  | .refresh ch => Sys2Proof.Machine.execRefresh ch s
  | .mr4Read ch quarters => Sys2Proof.Machine.execMr4Read ch quarters s
  | .dramStarve k => Sys2Proof.Machine.execDramStarve k s
  | .queueStarve q => Sys2Proof.Machine.execQueueStarve q s
  | .safetyStagingWrite src off w => Sys2Proof.Machine.execSafetyStagingWrite src off w s
  | .safetyRecordWrite ctx grp off w => Sys2Proof.Machine.execSafetyRecordWrite ctx grp off w s
  | .safetyVerifyDone => Sys2Proof.Machine.execSafetyVerifyDone s
  | .bconfWrite src v => Sys2Proof.Machine.execBconfWrite src v s
  | .bconfTimeout => Sys2Proof.Machine.execBconfTimeout s
  | .periodEnd => Sys2Proof.Machine.execPeriodEnd s
  | .bresWrite src p v => Sys2Proof.Machine.execBresWrite src p v s
  | .blatDeadline p => Sys2Proof.Machine.execBlatDeadline p s
  | .inputLevel k level evs => Sys2Proof.Machine.execInputLevel k level evs s
  | .discrepancyExpiry ins => Sys2Proof.Machine.execDiscrepancyExpiry ins s
  | .twoHandTimeout k => Sys2Proof.Machine.execTwoHandTimeout k s
  | .evaluatorDisagree ins => Sys2Proof.Machine.execEvaluatorDisagree ins s
  | .testPulse k => Sys2Proof.Machine.execTestPulse k s
  | .testPulseJudge k failed => Sys2Proof.Machine.execTestPulseJudge k failed s
  | .fswerr => Sys2Proof.Machine.execFswerr s
  | .switchOn p => Sys2Proof.Machine.execSwitchOn p s
  | .fbCheck p fb => Sys2Proof.Machine.execFbCheck p fb s
  | .offpTest p => Sys2Proof.Machine.execOffpTest p s
  | .offtTestEnd p fb => Sys2Proof.Machine.execOfftTestEnd p fb s
  | .safe g ctx spec payload => Sys2Proof.Machine.execSafe g ctx spec payload s
  | .safeCopyTimeout g => Sys2Proof.Machine.execSafeCopyTimeout g s
  | .heartbeat => Sys2Proof.Machine.execHeartbeat s
  | .fieldsel => Sys2Proof.Machine.execFieldsel s
  | .restart => Sys2Proof.Machine.execRestart s
  | .faultAck => Sys2Proof.Machine.execFaultAck s
  | .oasis => Sys2Proof.Machine.execOasis s
  | .heartbeatTimeout => Sys2Proof.Machine.execHeartbeatTimeout s
  | .hkRefEn src on => Sys2Proof.Machine.execHkRefEn src on s
  | .hkGo src => Sys2Proof.Machine.execHkGo src s
  | .hkSync src => Sys2Proof.Machine.execHkSync src s
  | .hkPassStart => Sys2Proof.Machine.execHkPassStart s
  | .hkEntryDone codes => Sys2Proof.Machine.execHkEntryDone codes s
  | .outputWord e => Sys2Proof.Machine.execOutputWord e s
  | .fixedPairBlock => Sys2Proof.Machine.execFixedPairBlock s
  | .fixedPairResult k sum ovl => Sys2Proof.Machine.execFixedPairResult k sum ovl s
  | .hkCalibrationSlot zero full => Sys2Proof.Machine.execHkCalibrationSlot zero full s
  | .dieSensorRead temps => Sys2Proof.Machine.execDieSensorRead temps s
  | .calSetEvaluation => Sys2Proof.Machine.execCalSetEvaluation s
  | .faultRecordClose root => Sys2Proof.Machine.execFaultRecordClose root s
  | .captureGo src v => Sys2Proof.Machine.execCaptureGo src v s
  | .captureStop src => Sys2Proof.Machine.execCaptureStop src s
  | .probeSample lost => Sys2Proof.Machine.execProbeSample lost s
  | .captureDone => Sys2Proof.Machine.execCaptureDone s
  | .inject src v => Sys2Proof.Machine.execInject src v s
  | .programSlot src v => Sys2Proof.Machine.execProgramSlot src v s
  | .revokeSlot src v => Sys2Proof.Machine.execRevokeSlot src v s
  | .raiseGminver src v => Sys2Proof.Machine.execRaiseGminver src v s
  | .raiseSminver src v => Sys2Proof.Machine.execRaiseSminver src v s
  | .fuseProgramDone ok => Sys2Proof.Machine.execFuseProgramDone ok s
  | .tapReset => Sys2Proof.Machine.execTapReset s
  | .bypass ir => Sys2Proof.Machine.execBypass ir s
  | .samplePreload cells => Sys2Proof.Machine.execSamplePreload cells s
  | .extest => Sys2Proof.Machine.execExtest s
  | .waveformSample p odd k adc => Sys2Proof.Machine.execWaveformSample p odd k adc s
  | .positionConverterSample axis adc ovl => Sys2Proof.Machine.execPositionConverterSample axis adc ovl s
  | .positionAverageReady axis => Sys2Proof.Machine.execPositionAverageReady axis s
  | .guardPositionSample axis adc => Sys2Proof.Machine.execGuardPositionSample axis adc s
  | .equaliserPresetStep l => Sys2Proof.Machine.execEqualiserPresetStep l s
  | .fbHighTimeout p => Sys2Proof.Machine.execFbHighTimeout p s

end Sys2Proof.Machine
end

