-- ==== Sys2Proof/Machine/Step.lean ====
section
/-!
DEFINITION. One step of the block: the command at the front of the queue takes effect; with an empty queue one core cycle passes
(DESIGN CHOICE, see the log).
-/
namespace Sys2Proof.Machine

/-- The state without the command at the front of its queue. -/
def State.rest (s : State) : State := { s with pending := s.pending.drop 1 }

/-- One core cycle passes and nothing falls due (R13). -/
def State.tick (s : State) : State := { s with m := s.m.advance 1 }

/-- One step. -/
def step (s : State) : Host.Outcome State Fault Refusal :=
  match s.pending with
  | [] => .next s.tick
  | c :: _ => exec c s.rest

/-- The state with the command that a word spells put at the front of its queue; no row of the command table gives bits, so no word
spells one. -/
def State.withFetchWord (s : State) (nbits w : Nat) : State :=
  match Sys2Proof.decodeTableWord nbits w with
  | some c => { s with pending := c :: s.pending }
  | none => s

end Sys2Proof.Machine
end

