-- ==== Sys2Proof/Machine/Footprint.lean ====
section
/-!
DEFINITION. The parts of the machine, and what it means that nothing but some of them differs.
-/
namespace Sys2Proof.Machine

/-- The parts of the machine, one for each field of `Mach`. -/
inductive Part
  | cyc | free | status | dev | tap | regs | shadow | mem | commits | eng | sems | time | flt | grp | lane | qmg
  | dram | emt | grd | saf | axis | port | tdc | pool | rej | cam | pts | hk | thm | probe | fusJob
deriving DecidableEq, Repr

/-- Two machines agree in a part. -/
def Part.same : Part → Mach → Mach → Prop
  | .cyc, a, b => b.cyc = a.cyc
  | .free, a, b => b.free = a.free
  | .status, a, b => b.status = a.status
  | .dev, a, b => b.dev = a.dev
  | .tap, a, b => b.tap = a.tap
  | .regs, a, b => b.regs = a.regs
  | .shadow, a, b => b.shadow = a.shadow
  | .mem, a, b => b.mem = a.mem
  | .commits, a, b => b.commits = a.commits
  | .eng, a, b => b.eng = a.eng
  | .sems, a, b => b.sems = a.sems
  | .time, a, b => b.time = a.time
  | .flt, a, b => b.flt = a.flt
  | .grp, a, b => b.grp = a.grp
  | .lane, a, b => b.lane = a.lane
  | .qmg, a, b => b.qmg = a.qmg
  | .dram, a, b => b.dram = a.dram
  | .emt, a, b => b.emt = a.emt
  | .grd, a, b => b.grd = a.grd
  | .saf, a, b => b.saf = a.saf
  | .axis, a, b => b.axis = a.axis
  | .port, a, b => b.port = a.port
  | .tdc, a, b => b.tdc = a.tdc
  | .pool, a, b => b.pool = a.pool
  | .rej, a, b => b.rej = a.rej
  | .cam, a, b => b.cam = a.cam
  | .pts, a, b => b.pts = a.pts
  | .hk, a, b => b.hk = a.hk
  | .thm, a, b => b.thm = a.thm
  | .probe, a, b => b.probe = a.probe
  | .fusJob, a, b => b.fusJob = a.fusJob

/-- From `a` to `b` no part but the listed ones differs. -/
structure Touches (l : List Part) (a b : Mach) : Prop where
  same : ∀ p, p ∉ l → p.same a b

end Sys2Proof.Machine
end

