-- ==== Sys2Proof/Safety.lean ====
section
/-!
DEFINITION. What safe operation means on this device, and the words in which statements speak: the states in which firing is possible,
the FIRE gate, the OSSD commands, the holders of the roles, the fuses, and what a command may have touched.
-/
namespace Sys2Proof.Machine

/-- The FIRE gate of the guard is open (R216). -/
def Mach.gateOpen (m : Mach) : Bool := m.flag aGRD_STAT fGRD_STAT_GATE

/-- An OSSD pair's load path can be closed: both its switches are commanded on (R422). -/
def Mach.pairOn (m : Mach) (p : Nat) : Bool := m.flag (aSAF_OSSD p) fSAF_OSSD_HS && m.flag (aSAF_OSSD p) fSAF_OSSD_LS

/-- The four arming conditions hold (R57). -/
def Mach.armable (m : Mach) : Bool := m.armConds.all id

/-- Both roles are held by enabled contexts (R388). -/
def Mach.rolesHeld (m : Mach) : Bool := m.ctxOn m.owner && m.ctxOn m.safetyCtx

/-- Every fuse of `a` that is blown is blown in `b`: fuses are one-time programmable (R507). -/
def Otp.keeps (a b : Otp) : Prop :=
  a.grade = b.grade ∧ (∀ k, a.revoked.testBit k = true → b.revoked.testBit k = true) ∧ a.gminver ≤ b.gminver
    ∧ a.sminver ≤ b.sminver ∧ (∀ x, x ∈ a.slots → x ∈ b.slots) ∧ a.tapClosed = b.tapClosed

/-! ## What a command answers -/

/-- A command answers a next state in which only the machine differs, in a way that satisfies `P`. -/
def Runs (c : Instr) (s : State) (P : Mach → Prop) : Prop := ∃ m', exec c s = .next { s with m := m' } ∧ P m'

/-- A command answers exactly this machine, the queue and the fuses as they were. -/
def RunsTo (c : Instr) (s : State) (m' : Mach) : Prop := exec c s = .next { s with m := m' }

/-- Nothing but engine `e` differs. -/
def Mach.onlyEng (m m' : Mach) (e : Nat) : Prop := m' = { m with eng := m'.eng } ∧ ∀ k, k ≠ e → m'.e k = m.e k

/-- Every engine but `e` is as before. -/
def Mach.othersKept (m m' : Mach) (e : Nat) : Prop := ∀ k, k ≠ e → m'.e k = m.e k

/-- Registers other than those listed read as before. -/
def Mach.regsBut (m m' : Mach) (l : List Nat) : Prop := ∀ a, a ∉ l → m'.reg a = m.reg a

/-! ## Engines -/

/-- Engine `e` exists and is about to issue an instruction: RUNNING, not about to stop, its PC in program memory (R69, R97). -/
def Mach.canIssue (m : Mach) (e : Nat) : Prop :=
  e < 282 ∧ (m.e e).st = .running ∧ (m.e e).stopping = none ∧ (m.e e).pc < progBytes e

/-- General registers after `rd` took `v`: a write to g0 is discarded (R65). -/
def Engine.wrote (x x' : Engine) (rd : BitVec 4) (v : Word) : Prop :=
  ∀ r, x'.gr r = if r = rd ∧ r ≠ 0 then v else x.gr r

/-- The engine went on to its next instruction, loops judged (R83). -/
def Engine.wentOn (x x' : Engine) : Prop := (x'.pc, x'.loops) = loopStep x.pc x.loops

/-- Only what an arithmetic instruction may change differs: general registers, predicates, SAT, OVF, PC, loops, the instruction
buffer. -/
def Engine.onlyAlu (x x' : Engine) : Prop :=
  x' = { x with g := x'.g, p := x'.p, sat := x'.sat, ovf := x'.ovf, pc := x'.pc, loops := x'.loops, ibuf := x'.ibuf }

/-- Only what an instruction that computes a register may change differs: general registers, PC, loops, the instruction buffer. -/
def Engine.onlyGr (x x' : Engine) : Prop :=
  x' = { x with g := x'.g, pc := x'.pc, loops := x'.loops, ibuf := x'.ibuf }

/-- The predicate conditions of R75 over the exact result, signed and unsigned, and the value written. -/
def CondHolds (c : Nat) (r ru : Int) (v : Word) : Prop :=
  match c with
  | 0 => r = 0
  | 1 => r ≠ 0
  | 2 => r < 0
  | 3 => 0 ≤ r
  | 4 => ru < 0
  | 5 => 0 ≤ ru
  | _ => v.getLsbD 0 = true

/-- A three-register operation of engine `e` runs: rd takes `v`, the sticky flags set when `o` and `t` hold, the predicate follows the
exact result `r`, `ru` under PS, and nothing else changes (R74, R75, R78). -/
def AluRuns (c : Instr) (s : State) (e : Nat) (i : FA) (v : Word) (r ru : Int) (o t : Bool) : Prop :=
  Runs c s (fun m' =>
    let x := s.m.e e
    let x' := m'.e e
    s.m.onlyEng m' e ∧ x.onlyAlu x' ∧ x.wrote x' i.rd v ∧ x.wentOn x' ∧ x'.ovf = (x.ovf || o) ∧ x'.sat = (x.sat || t)
      ∧ (∀ k, k < 4 → i.ps = true → i.pd.toNat = k → (x'.pred k = true ↔ CondHolds i.cond.toNat r ru v))
      ∧ (∀ k, k < 4 → ¬ (i.ps = true ∧ i.pd.toNat = k) → x'.pred k = x.pred k))

/-- An immediate operation of engine `e` runs: rd takes `v`, the sticky flags set when `o` and `t` hold, no predicate changes
(R76). -/
def ImmRuns (c : Instr) (s : State) (e : Nat) (rd : BitVec 4) (v : Word) (o t : Bool) : Prop :=
  Runs c s (fun m' =>
    let x := s.m.e e
    let x' := m'.e e
    s.m.onlyEng m' e ∧ x.onlyAlu x' ∧ x'.p = x.p ∧ x.wrote x' rd v ∧ x.wentOn x' ∧ x'.ovf = (x.ovf || o) ∧ x'.sat = (x.sat || t))

/-- An instruction of engine `e` computes a register: rd takes `v`, the next instruction follows, nothing else changes. -/
def GrRuns (c : Instr) (s : State) (e : Nat) (rd : BitVec 4) (v : Word) : Prop :=
  Runs c s (fun m' => s.m.onlyEng m' e ∧ (s.m.e e).onlyGr (m'.e e) ∧ (s.m.e e).wrote (m'.e e) rd v ∧ (s.m.e e).wentOn (m'.e e))

/-- The instruction takes the engine fault of a code, and nothing of its own effect happens (R97). -/
def EngFaults (c : Instr) (s : State) (e code : Nat) : Prop := RunsTo c s ((s.m.fetch e).engFault e code)

/-- What `n` bytes at local address `a` of engine `e` hold: data memory, in a range engine also the held bank at 0x10000 and the looked
bank at 0x20000, which reads 0 once the look is stale (R79, R279, R285). -/
def LocalHolds (m : Mach) (e : Nat) (a : Int) (n v : Nat) : Prop :=
  (0 ≤ a ∧ a + n ≤ dataBytes e ∧ v = m.mnat (dataBase e + a.toNat) n)
  ∨ (engClass e = .re ∧ 0x10000 ≤ a ∧ a + n ≤ 0x20000 ∧
      ∃ h, (m.e e).held = some h ∧ v = m.mnat (bankBase h.bank + (a.toNat - 0x10000)) n)
  ∨ (engClass e = .re ∧ 0x20000 ≤ a ∧ a + n ≤ 0x30000 ∧
      ∃ k, (m.e e).look = some k ∧ v = if m.lookOk e then m.mnat (bankBase k.bank + (a.toNat - 0x20000)) n else 0)

/-- A waiting instruction of engine `e` ended with `v` in its destination register and the engine went on (R95, R535). -/
def Engine.resumed (x x' : Engine) (v : Word) : Prop :=
  x'.st = .running ∧ x'.wait = .none ∧ x.wrote x' (BitVec.ofNat 4 x.wrd) v ∧ x.wentOn x'

/-- Engine `e` waits for `w` from now on, with destination `rd` and a timeout of `limit` cycles; its registers and its PC stay
(R535). -/
def Engine.waitsFrom (x x' : Engine) (c : Nat) (w : Wait) (rd : BitVec 4) (limit : Nat) : Prop :=
  x'.st = .waiting ∧ x'.wait = w ∧ x'.wrd = rd.toNat ∧ x'.issue = c ∧ x'.limit = limit ∧ x'.g = x.g ∧ x'.p = x.p ∧ x'.pc = x.pc
    ∧ x'.loops = x.loops ∧ x'.calls = x.calls ∧ x'.held = x.held ∧ x'.openq = x.openq

/-- Every link group but `g` is as before. -/
def Mach.grpBut (m m' : Mach) (g : Nat) : Prop := ∀ k, k ≠ g → m'.g k = m.g k

/-- Every byte outside `n` bytes from `a` reads as before. -/
def Mach.bytesBut (m m' : Mach) (a n : Nat) : Prop := ∀ k, k < a ∨ a + n ≤ k → m'.byte k = m.byte k

/-! ## What each command may touch -/

/-- The parts of the machine that a command may change. -/
def footprint : Instr → List Part
  | .registerWrite .. => [.status, .dev, .regs, .shadow, .mem, .commits, .eng, .sems, .flt, .grp, .lane, .qmg, .dram, .emt, .grd, .saf, .axis, .port, .tdc, .pool, .pts, .hk, .probe, .fusJob]
  | .commitRequest .. => [.status, .regs, .commits, .grd, .saf]
  | .commitCancel .. => [.status, .regs, .commits, .grd, .saf]
  | .idleCommitApply .. => [.dev, .regs, .mem, .commits, .eng, .sems, .time, .flt, .grp, .lane, .qmg, .dram, .emt, .grd, .saf, .axis, .port, .pool, .rej, .cam, .pts, .hk]
  | .supplyRise .. => [.status, .dev, .regs, .shadow, .mem, .commits, .eng, .sems, .time, .flt, .grp, .lane, .qmg, .dram, .emt, .grd, .saf, .axis, .port, .tdc, .pool, .rej, .cam, .pts, .hk, .thm, .probe, .fusJob]
  | .supplyRemove .. => [.status, .dev, .tap, .regs, .shadow, .mem, .commits, .eng, .sems, .time, .flt, .grp, .lane, .qmg, .dram, .emt, .grd, .saf, .axis, .port, .tdc, .pool, .rej, .cam, .pts, .hk, .thm, .probe, .fusJob]
  | .porstAssert .. => [.status, .dev, .regs, .shadow, .mem, .commits, .eng, .sems, .time, .flt, .grp, .lane, .qmg, .dram, .emt, .grd, .saf, .axis, .port, .tdc, .pool, .rej, .cam, .pts, .hk, .thm, .probe, .fusJob]
  | .porstRelease .. => [.dev]
  | .rootPllLock .. => [.dev, .regs]
  | .pllLockRetry .. => [.cyc, .dev, .time]
  | .otpLoadDone .. => [.dev, .regs, .time]
  | .bistDone .. => [.dev, .regs, .grp, .lane, .qmg]
  | .dramRestore .. => [.dev, .regs, .mem, .eng, .sems, .flt, .grp, .qmg, .dram, .emt, .saf, .port, .pool]
  | .supplyMonitorTrip .. => [.status, .dev, .regs, .shadow, .mem, .commits, .eng, .sems, .time, .flt, .grp, .lane, .qmg, .dram, .emt, .grd, .saf, .axis, .port, .tdc, .pool, .rej, .cam, .pts, .hk, .thm, .probe, .fusJob]
  | .supplyMonitorRelease .. => [.dev, .regs, .grp, .lane, .qmg]
  | .clockMonitorWindow .. => [.status, .dev, .regs, .shadow, .mem, .commits, .eng, .sems, .time, .flt, .grp, .lane, .qmg, .dram, .emt, .grd, .saf, .axis, .port, .tdc, .pool, .rej, .cam, .pts, .hk, .thm, .probe, .fusJob]
  | .rootPllUnlock .. => [.status, .dev, .regs, .shadow, .mem, .commits, .eng, .sems, .time, .flt, .grp, .lane, .qmg, .dram, .emt, .grd, .saf, .axis, .port, .tdc, .pool, .rej, .cam, .pts, .hk, .thm, .probe, .fusJob]
  | .requestLinked .. => [.status, .dev, .regs, .mem, .eng, .sems, .flt, .grp, .qmg, .dram, .emt, .saf, .port, .pool]
  | .requestLoaded .. => [.status, .dev, .regs, .mem, .eng, .sems, .flt, .grp, .qmg, .dram, .emt, .saf, .port, .pool]
  | .requestArmed .. => [.status, .dev, .regs, .mem, .eng, .sems, .flt, .grp, .qmg, .dram, .emt, .saf, .port, .pool]
  | .requestRunning .. => [.status, .dev, .regs, .mem, .eng, .sems, .flt, .grp, .qmg, .dram, .emt, .saf, .port, .pool]
  | .requestOasis .. => [.status, .dev, .regs, .mem, .eng, .sems, .flt, .grp, .qmg, .dram, .emt, .saf, .port, .pool]
  | .hkrefOkSet .. => [.cyc, .regs, .time, .hk]
  | .hostReset .. => [.status, .dev]
  | .hostResetStart .. => [.cyc, .status, .dev, .regs, .shadow, .mem, .commits, .eng, .sems, .time, .flt, .grp, .lane, .qmg, .dram, .emt, .grd, .saf, .axis, .port, .tdc, .pool, .rej, .cam, .pts, .hk, .thm, .probe, .fusJob]
  | .start .. => [.status, .dev, .regs, .mem, .eng, .sems, .flt, .grp, .qmg, .dram, .emt, .saf, .port, .pool]
  | .stop .. => [.status, .dev, .regs, .mem, .eng, .sems, .flt, .grp, .qmg, .dram, .emt, .saf, .port, .pool]
  | .verify .. => [.status, .dev, .regs, .mem, .eng, .sems, .flt, .grp, .qmg, .dram, .emt, .saf, .port, .pool]
  | .verifyDone .. => [.cyc, .eng, .time]
  | .mbclr .. => [.status, .dev, .regs, .mem, .eng, .sems, .flt, .grp, .qmg, .dram, .emt, .saf, .port, .pool]
  | .mboxIn .. => [.status, .regs, .eng]
  | .programMemoryWrite .. => [.status, .mem, .eng]
  | .dataMemoryWrite .. => [.status, .mem, .eng]
  | .semaphoreWrite .. => [.status, .eng, .sems]
  | .add .. => [.free, .dev, .regs, .mem, .eng, .sems, .flt, .grp, .qmg, .dram, .emt, .saf, .port, .pool]
  | .sub .. => [.free, .dev, .regs, .mem, .eng, .sems, .flt, .grp, .qmg, .dram, .emt, .saf, .port, .pool]
  | .and .. => [.free, .dev, .regs, .mem, .eng, .sems, .flt, .grp, .qmg, .dram, .emt, .saf, .port, .pool]
  | .or .. => [.free, .dev, .regs, .mem, .eng, .sems, .flt, .grp, .qmg, .dram, .emt, .saf, .port, .pool]
  | .xor .. => [.free, .dev, .regs, .mem, .eng, .sems, .flt, .grp, .qmg, .dram, .emt, .saf, .port, .pool]
  | .shl .. => [.free, .dev, .regs, .mem, .eng, .sems, .flt, .grp, .qmg, .dram, .emt, .saf, .port, .pool]
  | .shr .. => [.free, .dev, .regs, .mem, .eng, .sems, .flt, .grp, .qmg, .dram, .emt, .saf, .port, .pool]
  | .sra .. => [.free, .dev, .regs, .mem, .eng, .sems, .flt, .grp, .qmg, .dram, .emt, .saf, .port, .pool]
  | .mul .. => [.free, .dev, .regs, .mem, .eng, .sems, .flt, .grp, .qmg, .dram, .emt, .saf, .port, .pool]
  | .mulh .. => [.free, .dev, .regs, .mem, .eng, .sems, .flt, .grp, .qmg, .dram, .emt, .saf, .port, .pool]
  | .adds .. => [.free, .dev, .regs, .mem, .eng, .sems, .flt, .grp, .qmg, .dram, .emt, .saf, .port, .pool]
  | .subs .. => [.free, .dev, .regs, .mem, .eng, .sems, .flt, .grp, .qmg, .dram, .emt, .saf, .port, .pool]
  | .min .. => [.free, .dev, .regs, .mem, .eng, .sems, .flt, .grp, .qmg, .dram, .emt, .saf, .port, .pool]
  | .max .. => [.free, .dev, .regs, .mem, .eng, .sems, .flt, .grp, .qmg, .dram, .emt, .saf, .port, .pool]
  | .abs .. => [.free, .dev, .regs, .mem, .eng, .sems, .flt, .grp, .qmg, .dram, .emt, .saf, .port, .pool]
  | .addImm .. => [.free, .dev, .regs, .mem, .eng, .sems, .flt, .grp, .qmg, .dram, .emt, .saf, .port, .pool]
  | .andImm .. => [.free, .dev, .regs, .mem, .eng, .sems, .flt, .grp, .qmg, .dram, .emt, .saf, .port, .pool]
  | .orImm .. => [.free, .dev, .regs, .mem, .eng, .sems, .flt, .grp, .qmg, .dram, .emt, .saf, .port, .pool]
  | .xorImm .. => [.free, .dev, .regs, .mem, .eng, .sems, .flt, .grp, .qmg, .dram, .emt, .saf, .port, .pool]
  | .shlImm .. => [.free, .dev, .regs, .mem, .eng, .sems, .flt, .grp, .qmg, .dram, .emt, .saf, .port, .pool]
  | .shrImm .. => [.free, .dev, .regs, .mem, .eng, .sems, .flt, .grp, .qmg, .dram, .emt, .saf, .port, .pool]
  | .sraImm .. => [.free, .dev, .regs, .mem, .eng, .sems, .flt, .grp, .qmg, .dram, .emt, .saf, .port, .pool]
  | .mulImm .. => [.free, .dev, .regs, .mem, .eng, .sems, .flt, .grp, .qmg, .dram, .emt, .saf, .port, .pool]
  | .addsImm .. => [.free, .dev, .regs, .mem, .eng, .sems, .flt, .grp, .qmg, .dram, .emt, .saf, .port, .pool]
  | .minImm .. => [.free, .dev, .regs, .mem, .eng, .sems, .flt, .grp, .qmg, .dram, .emt, .saf, .port, .pool]
  | .maxImm .. => [.free, .dev, .regs, .mem, .eng, .sems, .flt, .grp, .qmg, .dram, .emt, .saf, .port, .pool]
  | .li .. => [.free, .dev, .regs, .mem, .eng, .sems, .flt, .grp, .qmg, .dram, .emt, .saf, .port, .pool]
  | .lui .. => [.free, .dev, .regs, .mem, .eng, .sems, .flt, .grp, .qmg, .dram, .emt, .saf, .port, .pool]
  | .ldW .. => [.free, .dev, .regs, .mem, .eng, .sems, .flt, .grp, .qmg, .dram, .emt, .saf, .port, .pool]
  | .ldH .. => [.free, .dev, .regs, .mem, .eng, .sems, .flt, .grp, .qmg, .dram, .emt, .saf, .port, .pool]
  | .ldHu .. => [.free, .dev, .regs, .mem, .eng, .sems, .flt, .grp, .qmg, .dram, .emt, .saf, .port, .pool]
  | .ldB .. => [.free, .dev, .regs, .mem, .eng, .sems, .flt, .grp, .qmg, .dram, .emt, .saf, .port, .pool]
  | .ldBu .. => [.free, .dev, .regs, .mem, .eng, .sems, .flt, .grp, .qmg, .dram, .emt, .saf, .port, .pool]
  | .stW .. => [.free, .dev, .regs, .mem, .eng, .sems, .flt, .grp, .qmg, .dram, .emt, .saf, .port, .pool]
  | .stH .. => [.free, .dev, .regs, .mem, .eng, .sems, .flt, .grp, .qmg, .dram, .emt, .saf, .port, .pool]
  | .stB .. => [.free, .dev, .regs, .mem, .eng, .sems, .flt, .grp, .qmg, .dram, .emt, .saf, .port, .pool]
  | .ldx .. => [.free, .dev, .regs, .mem, .eng, .sems, .flt, .grp, .qmg, .dram, .emt, .saf, .port, .pool]
  | .stx .. => [.free, .dev, .regs, .mem, .eng, .sems, .flt, .grp, .qmg, .dram, .emt, .saf, .port, .pool]
  | .ldxStxCompletion .. => [.dev, .regs, .mem, .eng, .sems, .flt, .grp, .qmg, .dram, .emt, .saf, .port, .pool]
  | .rdcsControl .. => [.free, .dev, .regs, .mem, .eng, .sems, .flt, .grp, .qmg, .dram, .emt, .saf, .port, .pool]
  | .wrcsControl .. => [.free, .dev, .regs, .mem, .eng, .sems, .flt, .grp, .qmg, .dram, .emt, .saf, .port, .pool]
  | .controlSpaceCompletion .. => [.free, .status, .dev, .regs, .shadow, .mem, .commits, .eng, .sems, .flt, .grp, .lane, .qmg, .dram, .emt, .grd, .saf, .axis, .port, .tdc, .pool, .pts, .hk, .probe, .fusJob]
  | .rdcsLocal .. => [.free, .dev, .regs, .mem, .eng, .sems, .flt, .grp, .qmg, .dram, .emt, .saf, .port, .pool]
  | .wrcsLocal .. => [.free, .dev, .regs, .mem, .eng, .sems, .flt, .grp, .qmg, .dram, .emt, .saf, .port, .pool]
  | .b .. => [.free, .dev, .regs, .mem, .eng, .sems, .flt, .grp, .qmg, .dram, .emt, .saf, .port, .pool]
  | .bc .. => [.free, .dev, .regs, .mem, .eng, .sems, .flt, .grp, .qmg, .dram, .emt, .saf, .port, .pool]
  | .call .. => [.free, .dev, .regs, .mem, .eng, .sems, .flt, .grp, .qmg, .dram, .emt, .saf, .port, .pool]
  | .ret .. => [.free, .dev, .regs, .mem, .eng, .sems, .flt, .grp, .qmg, .dram, .emt, .saf, .port, .pool]
  | .loop .. => [.free, .dev, .regs, .mem, .eng, .sems, .flt, .grp, .qmg, .dram, .emt, .saf, .port, .pool]
  | .nop .. => [.free, .dev, .regs, .mem, .eng, .sems, .flt, .grp, .qmg, .dram, .emt, .saf, .port, .pool]
  | .halt .. => [.free, .dev, .regs, .mem, .eng, .sems, .flt, .grp, .qmg, .dram, .emt, .saf, .port, .pool]
  | .fault .. => [.free, .dev, .regs, .mem, .eng, .sems, .flt, .grp, .qmg, .dram, .emt, .saf, .port, .pool]
  | .watchdog .. => [.cyc, .free, .dev, .regs, .mem, .eng, .sems, .time, .flt, .grp, .qmg, .dram, .emt, .saf, .port, .pool]
  | .lockstepMismatch .. => [.free, .dev, .regs, .mem, .eng, .sems, .flt, .grp, .qmg, .dram, .emt, .saf, .port, .pool]
  | .trap .. => [.free, .dev, .regs, .mem, .eng, .sems, .flt, .grp, .qmg, .dram, .emt, .saf, .port, .pool]
  | .eret .. => [.free, .dev, .regs, .mem, .eng, .sems, .flt, .grp, .qmg, .dram, .emt, .saf, .port, .pool]
  | .wait .. => [.free, .dev, .regs, .mem, .eng, .sems, .flt, .grp, .qmg, .dram, .emt, .saf, .port, .pool]
  | .waitTimeout .. => [.cyc, .regs, .eng, .sems, .time, .qmg, .dram, .pool]
  | .sig .. => [.free, .dev, .regs, .mem, .eng, .sems, .flt, .grp, .qmg, .dram, .emt, .saf, .port, .pool]
  | .wtime .. => [.free, .dev, .regs, .mem, .eng, .sems, .flt, .grp, .qmg, .dram, .emt, .saf, .port, .pool]
  | .wtimeTimeout .. => [.cyc, .eng, .time]
  | .msnd .. => [.free, .dev, .regs, .mem, .eng, .sems, .flt, .grp, .qmg, .dram, .emt, .saf, .port, .pool]
  | .mailboxWordArrival .. => [.eng]
  | .mrcv .. => [.free, .dev, .regs, .mem, .eng, .sems, .flt, .grp, .qmg, .dram, .emt, .saf, .port, .pool]
  | .mrcvTimeout .. => [.cyc, .eng, .time]
  | .emit .. => [.free, .dev, .regs, .mem, .eng, .sems, .flt, .grp, .qmg, .dram, .emt, .saf, .port, .pool]
  | .emitTimeout .. => [.cyc, .regs, .eng, .time, .qmg]
  | .fire .. => [.free, .dev, .regs, .mem, .commits, .eng, .sems, .flt, .grp, .qmg, .dram, .emt, .saf, .port, .pool]
  | .stringArbitration .. => [.cyc, .dev, .regs, .mem, .eng, .sems, .time, .flt, .grp, .qmg, .dram, .emt, .saf, .port, .pool, .rej]
  | .guardDecision .. => [.cyc, .regs, .mem, .eng, .sems, .time, .qmg, .dram, .emt, .grd, .port, .pool, .rej]
  | .patternFrame .. => [.cyc, .time, .emt]
  | .fireEdge .. => [.cyc, .regs, .commits, .eng, .sems, .time, .qmg, .dram, .emt, .port, .tdc, .pool]
  | .opticalStart .. => [.cyc, .regs, .eng, .time, .emt, .port]
  | .noStart .. => [.cyc, .dev, .regs, .mem, .eng, .sems, .time, .flt, .grp, .qmg, .dram, .emt, .saf, .port, .pool]
  | .proof .. => [.free, .dev, .regs, .mem, .commits, .eng, .sems, .flt, .grp, .qmg, .dram, .emt, .saf, .port, .pool]
  | .proofWalk .. => [.free, .dev, .regs, .mem, .commits, .eng, .sems, .flt, .grp, .qmg, .dram, .emt, .saf, .port, .pool]
  | .walkShot .. => [.cyc, .time, .emt]
  | .proofLate .. => [.cyc, .dev, .regs, .mem, .eng, .sems, .time, .flt, .grp, .qmg, .dram, .emt, .saf, .port, .pool]
  | .arm .. => [.free, .dev, .regs, .mem, .eng, .sems, .flt, .grp, .qmg, .dram, .emt, .saf, .port, .pool]
  | .armClose .. => [.free, .dev, .regs, .mem, .eng, .sems, .flt, .grp, .qmg, .dram, .emt, .saf, .port, .pool]
  | .wangle .. => [.free, .dev, .regs, .mem, .eng, .sems, .flt, .grp, .qmg, .dram, .emt, .saf, .port, .pool]
  | .wangleEvaluation .. => [.cyc, .eng, .time]
  | .code .. => [.free, .dev, .regs, .mem, .eng, .sems, .flt, .grp, .qmg, .dram, .emt, .saf, .port, .pool]
  | .codeOff .. => [.free, .dev, .regs, .mem, .eng, .sems, .flt, .grp, .qmg, .dram, .emt, .saf, .port, .pool]
  | .pat .. => [.free, .dev, .regs, .mem, .eng, .sems, .flt, .grp, .qmg, .dram, .emt, .saf, .port, .pool]
  | .zoom .. => [.free, .dev, .regs, .mem, .eng, .sems, .flt, .grp, .qmg, .dram, .emt, .saf, .port, .pool]
  | .zoomOff .. => [.free, .dev, .regs, .mem, .eng, .sems, .flt, .grp, .qmg, .dram, .emt, .saf, .port, .pool]
  | .sequencerHandover .. => [.regs, .shadow, .eng, .sems, .qmg, .dram, .emt, .port, .pool]
  | .macs .. => [.free, .dev, .regs, .mem, .eng, .sems, .flt, .grp, .qmg, .dram, .emt, .saf, .port, .pool]
  | .lim .. => [.free, .dev, .regs, .mem, .eng, .sems, .flt, .grp, .qmg, .dram, .emt, .saf, .port, .pool]
  | .ferr .. => [.free, .dev, .regs, .mem, .eng, .sems, .flt, .grp, .qmg, .dram, .emt, .saf, .axis, .port, .pool]
  | .xfade .. => [.free, .dev, .regs, .mem, .eng, .sems, .flt, .grp, .qmg, .dram, .emt, .saf, .axis, .port, .pool]
  | .pub .. => [.free, .dev, .regs, .mem, .eng, .sems, .flt, .grp, .qmg, .dram, .emt, .saf, .axis, .port, .pool, .pts]
  | .dacw .. => [.free, .dev, .regs, .mem, .eng, .sems, .flt, .grp, .qmg, .dram, .emt, .saf, .axis, .port, .pool]
  | .adcr .. => [.free, .dev, .regs, .mem, .eng, .sems, .flt, .grp, .qmg, .dram, .emt, .saf, .axis, .port, .pool]
  | .encoderEdge .. => [.regs, .grd, .axis]
  | .encoderIndex .. => [.regs, .grd, .axis]
  | .stall .. => [.cyc, .dev, .regs, .mem, .eng, .sems, .time, .flt, .grp, .qmg, .dram, .emt, .grd, .saf, .port, .pool]
  | .coefficientWrite .. => [.status, .regs]
  | .pubRead .. => [.status, .regs]
  | .feTripClear .. => [.status, .regs, .axis]
  | .guardStagingWrite .. => [.status, .regs, .mem]
  | .requestRecordWrite .. => [.status, .regs, .mem, .grd]
  | .guardVerifyDone .. => [.regs, .mem, .commits, .grd]
  | .guardFault .. => [.dev, .regs, .mem, .eng, .sems, .flt, .grp, .qmg, .dram, .emt, .grd, .saf, .port, .pool]
  | .moduleStale .. => [.cyc, .regs, .time, .grd]
  | .listenOpen .. => [.cyc, .regs, .time, .port, .tdc]
  | .listenClose .. => [.cyc, .time, .port, .tdc]
  | .comparatorEdge .. => [.cyc, .regs, .time, .port]
  | .overloadTrip .. => [.cyc, .regs, .time, .port]
  | .overloadRelease .. => [.cyc, .time, .port]
  | .blankPin .. => [.cyc, .time, .tdc]
  | .ibiasReading .. => [.dev, .regs, .mem, .eng, .sems, .flt, .grp, .qmg, .dram, .emt, .saf, .port, .pool]
  | .dllLockRequest .. => [.status, .tdc]
  | .dllLock .. => [.regs, .tdc]
  | .dllLockLoss .. => [.dev, .regs, .mem, .eng, .sems, .flt, .grp, .qmg, .dram, .emt, .saf, .port, .tdc, .pool]
  | .dllSwap .. => [.regs, .tdc]
  | .channelCalibrationDone .. => [.dev, .regs, .mem, .eng, .sems, .flt, .grp, .qmg, .dram, .emt, .saf, .port, .tdc, .pool]
  | .rotationHandover .. => [.dev, .regs, .mem, .eng, .sems, .flt, .grp, .qmg, .dram, .emt, .saf, .port, .tdc, .pool]
  | .testEdge .. => [.dev, .regs, .mem, .eng, .sems, .flt, .grp, .qmg, .dram, .emt, .saf, .port, .tdc, .pool]
  | .spareTakeover .. => [.regs, .port, .tdc]
  | .shotSettle .. => [.cyc, .regs, .mem, .time, .port, .rej]
  | .cellSwap .. => [.cyc, .regs, .mem, .commits, .time, .port, .pool]
  | .bankAssign .. => [.status, .regs]
  | .flush .. => [.status, .regs, .mem, .pool]
  | .ergWindowWrite .. => [.status, .mem]
  | .ergEccError .. => [.dev, .regs, .mem, .eng, .sems, .flt, .grp, .qmg, .dram, .emt, .saf, .port, .pool]
  | .take .. => [.free, .dev, .regs, .mem, .eng, .sems, .flt, .grp, .qmg, .dram, .emt, .saf, .port, .pool]
  | .takeLook .. => [.free, .dev, .regs, .mem, .eng, .sems, .flt, .grp, .qmg, .dram, .emt, .saf, .port, .pool]
  | .takeTimeout .. => [.cyc, .regs, .eng, .sems, .time, .qmg, .dram, .pool]
  | .handleDispatch .. => [.cyc, .regs, .eng, .time, .pool]
  | .rel .. => [.free, .dev, .regs, .mem, .eng, .sems, .flt, .grp, .qmg, .dram, .emt, .saf, .port, .pool]
  | .bgest .. => [.free, .dev, .regs, .mem, .eng, .sems, .flt, .grp, .qmg, .dram, .emt, .saf, .port, .pool]
  | .bscan .. => [.free, .dev, .regs, .mem, .eng, .sems, .flt, .grp, .qmg, .dram, .emt, .saf, .port, .pool]
  | .corr .. => [.free, .dev, .regs, .mem, .eng, .sems, .flt, .grp, .qmg, .dram, .emt, .saf, .port, .pool]
  | .fit .. => [.free, .dev, .regs, .mem, .eng, .sems, .flt, .grp, .qmg, .dram, .emt, .saf, .port, .pool]
  | .wfpk .. => [.free, .dev, .regs, .mem, .eng, .sems, .flt, .grp, .qmg, .dram, .emt, .saf, .port, .pool]
  | .poly .. => [.free, .dev, .regs, .mem, .eng, .sems, .flt, .grp, .qmg, .dram, .emt, .saf, .port, .pool]
  | .cls .. => [.free, .dev, .regs, .mem, .eng, .sems, .flt, .grp, .qmg, .dram, .emt, .saf, .port, .pool]
  | .poolWrite .. => [.status, .regs, .eng]
  | .portPoolWrite .. => [.status, .regs, .eng]
  | .groupAccept .. => [.cyc, .dev, .regs, .mem, .eng, .sems, .time, .flt, .grp, .qmg, .dram, .emt, .saf, .port, .pool, .rej, .pts]
  | .mapLineFetch .. => [.mem, .dram, .rej]
  | .haboobSwitch .. => [.cyc, .regs, .time]
  | .mirageObservation .. => [.regs, .mem, .grp, .qmg, .rej]
  | .mirageEntryAge .. => [.regs, .mem]
  | .mirageClear .. => [.status, .regs, .mem]
  | .frameRequest .. => [.status, .pts]
  | .frameBoundary .. => [.cyc, .regs, .mem, .commits, .time, .grp, .qmg, .cam, .pts]
  | .sliceBoundary .. => [.cyc, .regs, .mem, .time, .grp, .qmg, .pts]
  | .timeTriggerFire .. => [.cyc, .free, .dev, .regs, .mem, .commits, .eng, .sems, .time, .flt, .grp, .lane, .qmg, .dram, .emt, .grd, .saf, .axis, .port, .pool, .rej, .cam, .pts, .hk]
  | .secondCarry .. => [.cyc, .time]
  | .ppsOutPulseEnd .. => [.cyc, .time]
  | .edgeCapture .. => [.regs, .time]
  | .captureRead .. => [.status, .regs]
  | .timeNowRead .. => [.status, .regs]
  | .camVsEdge .. => [.regs, .mem, .commits, .grp, .qmg, .cam]
  | .busLine .. => [.regs, .mem, .grp, .qmg, .cam]
  | .camFrameTimeout .. => [.cyc, .regs, .mem, .time, .grp, .qmg, .cam]
  | .i2cTransferDone .. => [.regs, .cam]
  | .camTrigActive .. => [.cyc, .time, .cam]
  | .camTrigInactive .. => [.cyc, .time, .cam]
  | .idle .. => []
  | .markerTimer .. => [.grp, .lane]
  | .packetDiscard .. => [.regs, .grp, .lane, .qmg]
  | .ack .. => [.regs, .grp]
  | .nak .. => [.regs, .grp, .lane, .qmg]
  | .ackTimer .. => [.cyc, .time, .grp]
  | .replayTimeout .. => [.cyc, .regs, .time, .grp, .lane, .qmg]
  | .train .. => [.regs, .grp, .lane, .qmg]
  | .groupBond .. => [.dev, .regs, .mem, .eng, .sems, .grp, .lane, .qmg, .dram, .emt, .saf, .port, .pool]
  | .bondTimeout .. => [.cyc, .dev, .regs, .mem, .eng, .sems, .time, .grp, .lane, .qmg, .dram, .emt, .saf, .port, .pool]
  | .trainingTimeout .. => [.cyc, .regs, .time, .grp, .lane, .qmg]
  | .rateChangeRequest .. => [.status, .regs, .grp, .qmg]
  | .rate .. => [.regs, .grp, .lane, .qmg]
  | .laneLoss .. => [.dev, .regs, .mem, .eng, .sems, .flt, .grp, .lane, .qmg, .dram, .emt, .saf, .port, .pool]
  | .rebond .. => [.regs, .grp, .lane, .qmg]
  | .laneRetrain .. => [.regs, .lane]
  | .laneRejoin .. => [.regs, .grp, .qmg]
  | .read .. => [.free, .status, .dev, .regs, .mem, .eng, .sems, .flt, .grp, .qmg, .dram, .emt, .saf, .port, .pool]
  | .write .. => [.status, .dev, .regs, .shadow, .mem, .commits, .eng, .sems, .flt, .grp, .lane, .qmg, .dram, .emt, .grd, .saf, .axis, .port, .tdc, .pool, .pts, .hk, .probe, .fusJob]
  | .badtype .. => [.regs, .grp]
  | .credit .. => [.regs, .grp, .qmg]
  | .tsync .. => [.regs, .grp]
  | .egressGrant .. => [.regs, .grp, .lane, .qmg]
  | .queueGroupChange .. => [.cyc, .regs, .time, .qmg]
  | .rolesWrite .. => [.status, .regs]
  | .descriptorWrite .. => [.status, .regs, .mem, .eng, .qmg, .pts]
  | .blockedRecordAccept .. => [.regs, .mem, .eng, .grp, .qmg, .pts]
  | .hostFreeze .. => [.status, .regs, .mem, .grp, .qmg]
  | .recorderFrozen .. => [.regs, .mem, .eng, .grp, .qmg, .pts]
  | .ringHeaderRewrite .. => [.mem, .qmg]
  | .frozenResume .. => [.status, .regs, .mem, .qmg]
  | .dramInit .. => [.status, .dram]
  | .dramReady .. => [.dev, .regs, .mem, .eng, .sems, .flt, .grp, .qmg, .dram, .emt, .saf, .port, .pool]
  | .dramBurstGrant .. => [.regs, .dram]
  | .dramChannelFail .. => [.dev, .regs, .mem, .eng, .sems, .flt, .grp, .qmg, .dram, .emt, .saf, .port, .pool]
  | .patrolScrub .. => [.dev, .regs, .mem, .eng, .sems, .flt, .grp, .qmg, .dram, .emt, .saf, .port, .pool]
  | .refresh .. => [.dram]
  | .mr4Read .. => [.dram]
  | .dramStarve .. => [.cyc, .regs, .time, .grp]
  | .queueStarve .. => [.cyc, .regs, .time, .grp]
  | .safetyStagingWrite .. => [.status, .regs, .mem]
  | .safetyRecordWrite .. => [.status, .regs, .mem, .saf]
  | .safetyVerifyDone .. => [.regs, .mem, .commits, .saf]
  | .bconfWrite .. => [.status, .regs, .saf]
  | .bconfTimeout .. => [.cyc, .regs, .mem, .time, .grp, .qmg, .saf]
  | .periodEnd .. => [.cyc, .dev, .regs, .mem, .eng, .sems, .time, .flt, .grp, .qmg, .dram, .emt, .saf, .port, .pool]
  | .bresWrite .. => [.status, .regs, .mem, .grp, .qmg, .saf]
  | .blatDeadline .. => [.cyc, .dev, .regs, .mem, .eng, .sems, .time, .flt, .grp, .qmg, .dram, .emt, .saf, .port, .pool]
  | .inputLevel .. => [.regs, .mem, .grp, .qmg, .saf]
  | .discrepancyExpiry .. => [.cyc, .regs, .mem, .time, .grp, .qmg, .saf]
  | .twoHandTimeout .. => [.cyc, .regs, .mem, .time, .grp, .qmg, .saf]
  | .evaluatorDisagree .. => [.cyc, .dev, .regs, .mem, .eng, .sems, .time, .flt, .grp, .qmg, .dram, .emt, .saf, .port, .pool]
  | .testPulse .. => [.cyc, .regs, .mem, .time, .grp, .qmg, .saf]
  | .testPulseJudge .. => [.cyc, .regs, .mem, .time, .grp, .qmg, .saf]
  | .fswerr .. => [.cyc, .regs, .mem, .time, .grp, .qmg, .saf]
  | .switchOn .. => [.regs, .mem, .grp, .qmg, .saf]
  | .fbCheck .. => [.cyc, .dev, .regs, .mem, .eng, .sems, .time, .flt, .grp, .qmg, .dram, .emt, .saf, .port, .pool]
  | .offpTest .. => [.cyc, .regs, .mem, .time, .grp, .qmg, .saf]
  | .offtTestEnd .. => [.cyc, .dev, .regs, .mem, .eng, .sems, .time, .flt, .grp, .qmg, .dram, .emt, .saf, .port, .pool]
  | .safe .. => [.regs, .mem, .grp, .qmg, .saf]
  | .safeCopyTimeout .. => [.cyc, .regs, .mem, .time, .grp, .qmg, .saf]
  | .heartbeat .. => [.regs, .mem, .grp, .qmg, .saf]
  | .fieldsel .. => [.regs, .mem, .grp, .qmg, .saf]
  | .restart .. => [.regs, .mem, .grp, .qmg, .saf]
  | .faultAck .. => [.regs, .mem, .grp, .qmg, .saf]
  | .oasis .. => [.dev, .regs, .mem, .eng, .sems, .grp, .qmg, .dram, .emt, .saf, .port, .pool]
  | .heartbeatTimeout .. => [.cyc, .regs, .mem, .time, .grp, .qmg, .saf]
  | .hkRefEn .. => [.status, .dev, .regs, .mem, .eng, .sems, .grp, .qmg, .dram, .emt, .saf, .port, .pool, .hk]
  | .hkGo .. => [.status, .dev, .regs, .mem, .eng, .sems, .grp, .qmg, .dram, .emt, .saf, .port, .pool, .hk]
  | .hkSync .. => [.status, .dev, .regs, .mem, .eng, .sems, .grp, .qmg, .dram, .emt, .saf, .port, .pool, .hk]
  | .hkPassStart .. => [.cyc, .regs, .time, .hk]
  | .hkEntryDone .. => [.cyc, .dev, .regs, .mem, .commits, .eng, .sems, .time, .flt, .grp, .qmg, .dram, .emt, .saf, .port, .pool, .hk]
  | .outputWord .. => [.cyc, .regs, .mem, .time, .grp, .qmg, .hk]
  | .fixedPairBlock .. => [.cyc, .time, .hk]
  | .fixedPairResult .. => [.cyc, .regs, .time, .grd, .hk]
  | .hkCalibrationSlot .. => [.cyc, .mem, .time, .hk]
  | .dieSensorRead .. => [.cyc, .dev, .regs, .mem, .eng, .sems, .time, .flt, .grp, .lane, .qmg, .dram, .emt, .grd, .saf, .port, .tdc, .pool, .thm]
  | .calSetEvaluation .. => [.cyc, .regs, .time, .hk]
  | .faultRecordClose .. => [.cyc, .regs, .mem, .time, .flt, .grp]
  | .captureGo .. => [.status, .regs, .shadow, .probe]
  | .captureStop .. => [.status, .regs]
  | .probeSample .. => [.cyc, .regs, .mem, .time, .probe]
  | .captureDone .. => [.regs]
  | .inject .. => [.status, .dev, .regs, .mem, .eng, .sems, .flt, .grp, .lane, .qmg, .dram, .emt, .saf, .axis, .port, .tdc, .pool]
  | .programSlot .. => [.status, .fusJob]
  | .revokeSlot .. => [.status, .fusJob]
  | .raiseGminver .. => [.status, .fusJob]
  | .raiseSminver .. => [.status, .fusJob]
  | .fuseProgramDone .. => [.cyc, .free, .regs, .time, .fusJob]
  | .tapReset .. => [.status, .dev, .tap, .regs, .shadow, .mem, .commits, .eng, .sems, .time, .flt, .grp, .lane, .qmg, .dram, .emt, .grd, .saf, .axis, .port, .tdc, .pool, .rej, .cam, .pts, .hk, .thm, .probe, .fusJob]
  | .bypass .. => [.status, .dev, .tap, .regs, .shadow, .mem, .commits, .eng, .sems, .time, .flt, .grp, .lane, .qmg, .dram, .emt, .grd, .saf, .axis, .port, .tdc, .pool, .rej, .cam, .pts, .hk, .thm, .probe, .fusJob]
  | .samplePreload .. => [.status, .dev, .tap, .regs, .shadow, .mem, .commits, .eng, .sems, .time, .flt, .grp, .lane, .qmg, .dram, .emt, .grd, .saf, .axis, .port, .tdc, .pool, .rej, .cam, .pts, .hk, .thm, .probe, .fusJob]
  | .extest .. => [.status, .dev, .tap, .regs, .shadow, .mem, .commits, .eng, .sems, .time, .flt, .grp, .lane, .qmg, .dram, .emt, .grd, .saf, .axis, .port, .tdc, .pool, .rej, .cam, .pts, .hk, .thm, .probe, .fusJob]
  | .waveformSample .. => [.cyc, .time, .port]
  | .positionConverterSample .. => [.regs, .axis]
  | .positionAverageReady .. => [.free, .eng, .axis]
  | .guardPositionSample .. => [.dev, .regs, .mem, .eng, .sems, .flt, .grp, .qmg, .dram, .emt, .grd, .saf, .port, .pool]
  | .equaliserPresetStep .. => [.regs]
  | .fbHighTimeout .. => [.dev, .regs, .mem, .eng, .sems, .flt, .grp, .qmg, .dram, .emt, .saf, .port, .pool]

end Sys2Proof.Machine
end

