-- ==== Sys2Proof/Certificates/Slice0/Obligations.lean ====
section
/-!
DEFINITION. The statements for the provers, in the order of the spec's chapters. A statement's docstring names the rules it rests on.
-/
open Sys2Proof Sys2Proof.Machine

/-! ## The queue, the step, reset -/

/-- The command at the front of the queue takes effect on the state without it, and nothing else happens in that step. On an empty queue one core cycle passes and nothing else happens; the model's own choice (log entry 1). Device time counts one
increment in every state but OFF, RESET and SHUTDOWN (R13, R110). -/
def Obligations.StepRunsTheFrontCommand : Prop :=
  (∀ (s : State) (c : Instr) (rest : List Instr),
    step { s with pending := c :: rest } = exec c { s with pending := rest })
  ∧ (∀ s : State, s.pending = [] → ∃ t : State, step s = .next t ∧ t.m.cyc = s.m.cyc + 1
    ∧ t = { s with m := { s.m with cyc := t.m.cyc, time := { s.m.time with now := t.m.time.now } } }
    ∧ t.m.time.now = (if s.m.dev.st = .off ∨ s.m.dev.st = .reset ∨ s.m.dev.st = .shutdown then s.m.time.now
        else s.m.time.now.after s.m.inc 1))

/-- Every well-formed command answers a next state, whatever the state; an ill-formed one is refused by name; none faults. The queue is
never touched, and no command but the end of a fuse operation touches the fuses. -/
def Obligations.EveryWellFormedCommandCompletes : Prop :=
  ∀ (c : Instr) (s : State),
    (wellFormed c = true → ∃ t : State, exec c s = .next t ∧ t.pending = s.pending
      ∧ ((∀ ok, c ≠ .fuseProgramDone ok) → t.otp = s.otp))
    ∧ (wellFormed c = false → exec c s = .refused .illFormed)

/-- Whatever the state, a command changes no part of the machine but those its footprint lists (registers, memory, engines, queues and so
on). -/
def Obligations.EveryCommandTouchesOnlyItsParts : Prop :=
  ∀ (c : Instr) (s t : State), exec c s = .next t → Touches (footprint c) s.m t.m

/-- One-time programmable: whatever the state and the command, a step keeps every fuse that is blown (R507). -/
def Obligations.EveryStepKeepsBlownFuses : Prop :=
  ∀ s t : State, step s = .next t → s.otp.keeps t.otp

/-- What reset leaves (R36, R51, R53, R57, R65, R66, R388): the device is in BOOT; no arming condition holds, the FIRE gate is closed,
both OSSD pairs are off; every engine is stopped with clear registers; context 0 holds both roles; memory lists nothing; registers read
the reset values of their tables. The state BOOT is the model's start (log entry 2). -/
def Obligations.ResetLeavesTheDeviceSafe : Prop :=
  State.reset.pending = [] ∧ State.reset.m.dev.st = .boot ∧ State.reset.m.mem = [] ∧ Memory.wf State.reset.m.mem = true
    ∧ State.reset.m.armable = false ∧ State.reset.m.gateOpen = false
    ∧ (∀ p, p < 2 → State.reset.m.pairOn p = false)
    ∧ State.reset.m.owner = 0 ∧ State.reset.m.safetyCtx = 0 ∧ State.reset.m.rolesHeld = true
    ∧ (∀ e, (State.reset.m.e e).st = .stopped ∧ (State.reset.m.e e).verified = false)
    ∧ (∀ e r, (State.reset.m.e e).gr r = 0)
    ∧ (∀ a, State.reset.m.reg a = resetWord a ∧ State.reset.m.shadowReg a = resetWord a)
    ∧ (∀ a, State.reset.m.byte a = 0)
    ∧ State.reset.m.fld aGLB_STATE fGLB_STATE_TRANS_CNT = 0

/-! ## Arithmetic and logic (R74 to R78) -/

/-- Every three-register form (R74) with its predicate (R75): for every engine that may issue and every legal form of the operands,
rd takes the result of its row, OVF and SAT set as its row says and never clear, the predicate follows the exact result, g0 stays 0, and
nothing but the engine's general registers, predicates, sticky flags, PC, loop levels and instruction buffer differs. Condition 7, a
condition or predicate number without PS, a set reserved field, and an rt that is not 0 in abs are illegal instructions: fault 1. -/
def Obligations.ThreeRegisterFormsCompute : Prop :=
  ∀ (s : State) (e : Nat) (i : FA), s.m.canIssue e →
    (let legal : Prop := i.resv = 0 ∧ (if i.ps then i.cond ≠ 7 else i.pd = 0 ∧ i.cond = 0)
     (¬ legal → ∀ c, c ∈ ([.add e i, .sub e i, .and e i, .or e i, .xor e i, .shl e i, .shr e i, .sra e i, .mul e i, .mulh e i, .adds e i,
        .subs e i, .min e i, .max e i, .abs e i] : List Instr) → EngFaults c s e 1)
     ∧ (i.rt ≠ 0 → EngFaults (.abs e i) s e 1)
     ∧ (legal →
    let a := (s.m.e e).gr i.rs
    let b := (s.m.e e).gr i.rt
    let n := b.toNat % 32
    let sum : Int := a.toInt + b.toInt
    let dif : Int := a.toInt - b.toInt
    let pro : Int := a.toInt * b.toInt
    let mag : Int := if a.toInt < 0 then -a.toInt else a.toInt
    let pl (c : Instr) (v : Word) : Prop := AluRuns c s e i v v.toInt v.toNat false false
    AluRuns (.add e i) s e i (a + b) sum (a.toNat + b.toNat) (!fits32 sum) false
    ∧ AluRuns (.sub e i) s e i (a - b) dif (a.toNat - b.toNat) (!fits32 dif) false
    ∧ AluRuns (.mul e i) s e i (a * b) pro (a.toNat * b.toNat) (!fits32 pro) false
    ∧ AluRuns (.adds e i) s e i (wordOfInt (clip32 sum)) sum (a.toNat + b.toNat) false (!fits32 sum)
    ∧ AluRuns (.subs e i) s e i (wordOfInt (clip32 dif)) dif (a.toNat - b.toNat) false (!fits32 dif)
    ∧ (i.rt = 0 → AluRuns (.abs e i) s e i (if a = 0x80000000 then 0x7FFFFFFF else wordOfInt mag) mag a.toNat false
        (a == 0x80000000))
    ∧ pl (.mulh e i) (wordOfInt (pro / 2 ^ 32))
    ∧ pl (.and e i) (a &&& b) ∧ pl (.or e i) (a ||| b) ∧ pl (.xor e i) (a ^^^ b)
    ∧ pl (.shl e i) (a <<< n) ∧ pl (.shr e i) (a >>> n) ∧ pl (.sra e i) (a.sshiftRight n)
    ∧ pl (.min e i) (if a.toInt ≤ b.toInt then a else b) ∧ pl (.max e i) (if a.toInt ≤ b.toInt then b else a)))

/-- Every immediate form (R76) and li and lui (R77): and, or and xor extend the immediate with zeros, add, mul, adds, min and max with
its sign, the shifts take its low five bits, and none touches a predicate. A set reserved field, a shift by an immediate above 31, and an
rs that is not 0 in li or lui are illegal instructions: fault 1. -/
def Obligations.ImmediateFormsCompute : Prop :=
  ∀ (s : State) (e : Nat) (i : FI), s.m.canIssue e →
    ((i.resv ≠ 0 → ∀ c, c ∈ ([.addImm e i, .andImm e i, .orImm e i, .xorImm e i, .shlImm e i, .shrImm e i, .sraImm e i, .mulImm e i,
        .addsImm e i, .minImm e i, .maxImm e i, .li e i, .lui e i] : List Instr) → EngFaults c s e 1)
     ∧ (32 ≤ i.imm.toNat → EngFaults (.shlImm e i) s e 1 ∧ EngFaults (.shrImm e i) s e 1 ∧ EngFaults (.sraImm e i) s e 1)
     ∧ (i.rs ≠ 0 → EngFaults (.li e i) s e 1 ∧ EngFaults (.lui e i) s e 1)
     ∧ (i.resv = 0 →
    let a := (s.m.e e).gr i.rs
    let z := i.imm.zeroExtend 32
    let x := i.imm.signExtend 32
    let n := i.imm.toNat
    let sum : Int := a.toInt + x.toInt
    let pro : Int := a.toInt * x.toInt
    let pl (c : Instr) (v : Word) : Prop := ImmRuns c s e i.rd v false false
    ImmRuns (.addImm e i) s e i.rd (a + x) (!fits32 sum) false
    ∧ ImmRuns (.mulImm e i) s e i.rd (a * x) (!fits32 pro) false
    ∧ ImmRuns (.addsImm e i) s e i.rd (wordOfInt (clip32 sum)) false (!fits32 sum)
    ∧ pl (.andImm e i) (a &&& z) ∧ pl (.orImm e i) (a ||| z) ∧ pl (.xorImm e i) (a ^^^ z)
    ∧ (n < 32 → pl (.shlImm e i) (a <<< n) ∧ pl (.shrImm e i) (a >>> n) ∧ pl (.sraImm e i) (a.sshiftRight n))
    ∧ pl (.minImm e i) (if a.toInt ≤ x.toInt then a else x) ∧ pl (.maxImm e i) (if a.toInt ≤ x.toInt then x else a)
    ∧ (i.rs = 0 → pl (.li e i) x)
    ∧ (i.rs = 0 → pl (.lui e i) ((z <<< 16) ||| ((s.m.e e).gr i.rd &&& 0xFFFF)))))

/-! ## Local memory, DRAM and control space as engines reach them (R79, R90, R92, R94) -/

/-- Loads (R79): the address is the exact sum of rs, unsigned, and the sign-extended offset; a misaligned one faults with 3, an address
outside every memory of the engine with 4; otherwise rd takes the little-endian value, extended as the mnemonic says, and nothing else
changes. Stores (R79, R103, R279): in data memory the low n bytes of rt are stored at the computed address and read back, every other byte
stays, and of the engine only PC, loop levels and instruction buffer change, with VERIFIED of a supervisor that stores into its first
4 × LEN bytes. A range engine also stores into its held bank, except the reserved part of it. Misaligned faults with 3, every other
address with 4. -/
def Obligations.LoadsAndStoresMoveBytes : Prop :=
  (∀ (s : State) (e : Nat) (i : FM), s.m.canIssue e → i.rt = 0 →
    let a : Int := ((s.m.e e).gr i.rs).toNat + i.imm.toInt
    let load (c : Instr) (n : Nat) (ext : Nat → Word) : Prop :=
      (a % n ≠ 0 → EngFaults c s e 3)
      ∧ (a % n = 0 → ∀ v, LocalHolds s.m e a n v → GrRuns c s e i.rd (ext v))
      ∧ (a % n = 0 → (∀ v, ¬ LocalHolds s.m e a n v) → EngFaults c s e 4)
    load (.ldW e i) 4 (BitVec.ofNat 32)
    ∧ load (.ldH e i) 2 (fun v => (BitVec.ofNat 16 v).signExtend 32)
    ∧ load (.ldHu e i) 2 (BitVec.ofNat 32)
    ∧ load (.ldB e i) 1 (fun v => (BitVec.ofNat 8 v).signExtend 32)
    ∧ load (.ldBu e i) 1 (BitVec.ofNat 32))
  ∧ (∀ (s : State) (e : Nat) (i : FM), s.m.canIssue e → i.rd = 0 →
    let a : Int := ((s.m.e e).gr i.rs).toNat + i.imm.toInt
    let v := ((s.m.e e).gr i.rt).toNat
    let stores (c : Instr) (n p : Nat) (clears : Prop) : Prop :=
      Runs c s (fun m' =>
        let x := s.m.e e
        let x' := m'.e e
        m' = { s.m with eng := m'.eng, mem := m'.mem } ∧ (∀ k, k ≠ e → m'.e k = s.m.e k)
          ∧ m'.mnat p n = v % 256 ^ n ∧ s.m.bytesBut m' p n ∧ x.wentOn x'
          ∧ x' = { x with pc := x'.pc, loops := x'.loops, ibuf := x'.ibuf, verified := x'.verified }
          ∧ (clears → x'.verified = false) ∧ (¬ clears → x'.verified = x.verified))
    let store (c : Instr) (n : Nat) : Prop :=
      (a % n ≠ 0 → EngFaults c s e 3)
      ∧ (a % n = 0 → 0 ≤ a → a + n ≤ dataBytes e →
          stores c n (dataBase e + a.toNat) (engClass e = .sv ∧ a < 4 * s.m.engLen e))
      ∧ (a % n = 0 → engClass e = .re → 0x10000 ≤ a → a + n ≤ 0x20000 → ∀ h, (s.m.e e).held = some h →
          (bankResv (a.toNat - 0x10000) = false → stores c n (bankBase h.bank + (a.toNat - 0x10000)) False)
          ∧ (bankResv (a.toNat - 0x10000) = true → Runs c s (fun m' => s.m.onlyEng m' e ∧ (s.m.e e).wentOn (m'.e e))))
      ∧ (a % n = 0 → ¬ (0 ≤ a ∧ a + n ≤ dataBytes e) →
          ¬ (engClass e = .re ∧ 0x10000 ≤ a ∧ a + n ≤ 0x20000 ∧ (s.m.e e).held.isSome = true) → EngFaults c s e 4)
    store (.stW e i) 4 ∧ store (.stH e i) 2 ∧ store (.stB e i) 1)

/-- ldx and stx (R90, R92, R412): with a legal length, aligned addresses, both ranges in their memories and no open record they start a
wait for the transfer when DRAM serves the range, and end at once with 2 when it does not; the completion copies the bytes, reports 0 and
changes no other byte. With a failed channel on the path the completion reports 2 and copies no more than the bytes moved. -/
def Obligations.DramTransfersCopyBytes : Prop :=
  (∀ (s : State) (e : Nat) (i : FM), s.m.canIssue e →
    let x := s.m.e e
    let len := i.imm.toNat
    let far := 2 ^ 32 * x.xhi + (x.gr i.rs).toNat
    let loc := (x.gr i.rt).toNat
    0 < len → len ≤ 4096 → len % 4 = 0 → far % 4 = 0 → loc % 4 = 0 → loc + len ≤ dataBytes e →
    dramBase ≤ far → far + len ≤ dramBase + s.m.dramReach → x.openq = none →
    ∀ (c : Instr) (st : Bool), (st = true ∧ c = .stx e i ∨ st = false ∧ c = .ldx e i) →
      (s.m.dramStatus (far - dramBase) len = 0 → Runs c s (fun m' =>
        x.waitsFrom (m'.e e) s.m.cyc (.dram st far loc len) i.rd 0 ∧ m' = { s.m with eng := m'.eng, dram := m'.dram }
          ∧ m'.dram = { s.m.dram with reqs := m'.dram.reqs } ∧ (∀ k, k ≠ e → m'.e k = s.m.e k)))
      ∧ (s.m.dramStatus (far - dramBase) len ≠ 0 → GrRuns c s e i.rd 2))
  ∧ (∀ (s : State) (e moved : Nat) (bad : Option Nat) (st : Bool) (far loc len : Nat),
    wellFormed (.ldxStxCompletion e bad moved) = true → (s.m.e e).wait = .dram st far loc len →
    (s.m.flag aMEM_CFG fMEM_CFG_ECC = false ∨ bad = none) →
    let lost := (s.m.dramChans (far - dramBase) len).any s.m.chanFailed
    let n := if lost then min moved len else len
    let from_ := if st then dataBase e + loc else far
    let to_ := if st then far else dataBase e + loc
    Runs (.ldxStxCompletion e bad moved) s (fun m' =>
      (s.m.e e).resumed (m'.e e) (if lost then 2 else 0) ∧ s.m.bytesBut m' to_ n
        ∧ (∀ k, k < n → m'.byte (to_ + k) = s.m.byte (from_ + k))
        ∧ m' = { s.m with eng := m'.eng, mem := m'.mem, dram := m'.dram } ∧ (∀ k, k ≠ e → m'.e k = s.m.e k)))

/-! ## Control flow, faults, traps, local registers (R81 to R85, R94, R97 to R101) -/

/-- Control flow (R81, R82, R83): a taken branch or ret pops the loop levels it leaves, an untaken bc goes on, call pushes PC + 4 and ret
pops it, loop pushes a level or skips a body of count 0, nop only goes on. Nothing but PC, loop levels, call stack and instruction buffer
of the engine differs. A full or an empty stack, or a fifth level, faults with 6 and a bad body end with 1. An engine that may issue and holds neither a handle nor an open record halts with STOP_CAUSE 2; with either it faults with 5
(R85, R92). -/
def Obligations.ControlFlowMovesThePc : Prop :=
  (∀ (s : State) (e : Nat), s.m.canIssue e →
    let x := s.m.e e
    let goes (c : Instr) (pc : Nat) (loops : List LoopLevel) (calls : List Nat) : Prop :=
      Runs c s (fun m' => s.m.onlyEng m' e
        ∧ m'.e e = { x with pc := pc, loops := loops, calls := calls, ibuf := (m'.e e).ibuf })
    let after := loopStep x.pc x.loops
    (∀ i : FB,
      let t := toField 32 (x.pc + 4 * i.off.toInt)
      (plainB i = true → goes (.b e i) t (leaveLoops x.pc t x.loops) x.calls)
      ∧ (plainB i = true → x.calls.length < callDepth e → goes (.call e i) t x.loops ((x.pc + 4) :: x.calls))
      ∧ (plainB i = true → callDepth e ≤ x.calls.length → EngFaults (.call e i) s e 6)
      ∧ (i.resv = 0 → x.pred i.pd.toNat = i.sense → goes (.bc e i) t (leaveLoops x.pc t x.loops) x.calls)
      ∧ (i.resv = 0 → x.pred i.pd.toNat ≠ i.sense → goes (.bc e i) after.1 after.2 x.calls))
    ∧ (∀ i : FS, plainS i = true →
      goes (.nop e i) after.1 after.2 x.calls
      ∧ (∀ t rest, x.calls = t :: rest → goes (.ret e i) t (leaveLoops x.pc t x.loops) rest)
      ∧ (x.calls = [] → EngFaults (.ret e i) s e 6))
    ∧ (∀ i : FI, i.resv = 0 → i.rd = 0 → i.imm ≠ 0 →
      let last := x.pc + 4 * i.imm.toNat
      let n := (x.gr i.rs).toNat
      let bad := last < progBytes e ∧ isFlow (s.m.mword (s.m.progBase e + last)) = true
      (bad → EngFaults (.loop e i) s e 1)
      ∧ (¬ bad → n = 0 → goes (.loop e i) (last + 4) x.loops x.calls)
      ∧ (¬ bad → n ≠ 0 → x.loops.length < 4 →
          goes (.loop e i) (x.pc + 4) ({ start := x.pc + 4, last := last, count := n } :: x.loops) x.calls)
      ∧ (¬ bad → n ≠ 0 → 4 ≤ x.loops.length → EngFaults (.loop e i) s e 6)))
  ∧ (∀ (s : State) (e : Nat) (i : FS), s.m.canIssue e → plainS i = true →
    ((s.m.e e).held = none → (s.m.e e).openq = none →
      Runs (.halt e i) s (fun m' => (m'.e e).st = .halted ∧ (m'.e e).stopCause = 2 ∧ (m'.e e).wait = .none
        ∧ (m'.e e).g = (s.m.e e).g ∧ (m'.e e).pc = (s.m.e e).pc ∧ (∀ k, k ≠ e → m'.e k = s.m.e k)))
    ∧ ((s.m.e e).held.isSome = true ∨ (s.m.e e).openq.isSome = true → EngFaults (.halt e i) s e 5))

/-- Engine faults (R84, R97, R98, R99, R101): the fault instruction with a code from 0x10 (a lower one is an illegal instruction), a word its class does not encode, a fetch
outside program memory, a local memory error, the watchdog at its limit and a lockstep mismatch leave the engine FAULTED with STOP_CAUSE
3, its wait, its open record and its pending stop gone, its registers and its PC kept. A supervisor that takes traps goes to its handler
instead for the codes that trap, with epc, cause and IN_TRAP set. -/
def Obligations.FaultsStopOrTrapTheEngine : Prop :=
  ∀ (s : State) (e : Nat), e < 282 →
    let x := s.m.e e
    let stops (c : Instr) : Prop := Runs c s (fun m' =>
      let x' := m'.e e
      x'.st = .faulted ∧ x'.stopCause = 3 ∧ x'.wait = .none ∧ x'.openq = none ∧ x'.recbuf = [] ∧ x'.stopping = none
        ∧ x'.g = x.g ∧ x'.p = x.p ∧ x'.pc = x.pc ∧ x'.calls = x.calls ∧ x'.loops = x.loops)
    let traps (c : Instr) (code : Nat) : Prop := Runs c s (fun m' =>
      let x' := m'.e e
      x'.st = x.st ∧ x'.epc = x.pc ∧ x'.cause = code ∧ x'.inTrap = true ∧ x'.pc = x.tvec % 2 ^ 18 / 4 * 4 ∧ x'.g = x.g)
    (∀ i : FS, s.m.canIssue e → i.rd ≠ 0 ∨ i.rs ≠ 0 ∨ i.rt ≠ 0 ∨ i.imm.toNat < 0x10 → EngFaults (.fault e (.program i)) s e 1)
    ∧ (∀ i : FS, s.m.canIssue e → i.rd = 0 → i.rs = 0 → i.rt = 0 → 0x10 ≤ i.imm.toNat →
      (s.m.trapsTo e i.imm.toNat = false → stops (.fault e (.program i)))
      ∧ (s.m.trapsTo e i.imm.toNat = true → traps (.fault e (.program i)) i.imm.toNat))
    ∧ (∀ w, s.m.canIssue e → opClass (w.toNat / 2 ^ 26) = none →
      (s.m.trapsTo e 1 = false → stops (.fault e (.badWord w))) ∧ (s.m.trapsTo e 1 = true → traps (.fault e (.badWord w)) 1))
    ∧ (x.st = .running → x.stopping = none → progBytes e ≤ x.pc → s.m.trapsTo e 4 = false → stops (.fault e .fetch))
    ∧ (x.active = true → stops (.fault e .ecc))
    ∧ (x.active = true → s.m.fld (engPage e + 0x14) ⟨23, 0⟩ ≠ 0 → stops (.watchdog e))
    ∧ (∀ n, e = 280 + n → s.m.dev.st = .boot ∨ s.m.dev.st = .linked ∨ s.m.dev.st = .loaded ∨ s.m.hot = true ∨ s.m.dev.st = .oasis →
        stops (.lockstepMismatch n))

/-- Supervisor traps (R100): trap saves PC + 4 and the software cause, sets IN_TRAP and goes to the handler; eret returns to epc and
clears IN_TRAP; nothing else differs. trap in a handler or without a handler, eret outside one, and either with another field set, fault with 1; in another class both
fault with 2 (R73). -/
def Obligations.TrapAndEretEnterAndLeaveTheHandler : Prop :=
  ∀ (s : State) (e : Nat) (i : FX), s.m.canIssue e →
    let x := s.m.e e
    (engClass e = .sv → noRegsX i = true → i.xi.toNat < 256 → x.inTrap = false → x.tvec % 2 = 1 →
      Runs (.trap e i) s (fun m' => s.m.onlyEng m' e ∧ m'.e e = { x with
        epc := x.pc + 4, cause := 0x100 + i.xi.toNat, inTrap := true, pc := x.tvec % 2 ^ 18 / 4 * 4, ibuf := (m'.e e).ibuf }))
    ∧ (engClass e = .sv → noRegsX i = true → i.xi.toNat < 256 → x.inTrap = true ∨ x.tvec % 2 = 0 → EngFaults (.trap e i) s e 1)
    ∧ (engClass e = .sv → noRegsX i = false ∨ 256 ≤ i.xi.toNat → EngFaults (.trap e i) s e 1)
    ∧ (engClass e = .sv → noRegsX i = false ∨ i.xi ≠ 0 → EngFaults (.eret e i) s e 1)
    ∧ (engClass e = .sv → noRegsX i = true → i.xi = 0 → x.inTrap = true →
      Runs (.eret e i) s (fun m' => s.m.onlyEng m' e ∧ m'.e e = { x with pc := x.epc, inTrap := false, ibuf := (m'.e e).ibuf }))
    ∧ (engClass e = .sv → noRegsX i = true → i.xi = 0 → x.inTrap = false → EngFaults (.eret e i) s e 1)
    ∧ (engClass e ≠ .sv → EngFaults (.trap e i) s e 2 ∧ EngFaults (.eret e i) s e 2)

/-- Local registers (R94): rdcs reads the eleven registers by number, with tvec, epc and cause only in a supervisor; wrcs writes status,
xhi, wdog, emit_tmo and, in a supervisor, tvec and epc; every other number faults with 1. -/
def Obligations.LocalRegistersReadAndWrite : Prop :=
  ∀ (s : State) (e : Nat) (i : FI), s.m.canIssue e → i.resv = 0 →
    let x := s.m.e e
    let sv := engClass e = .sv
    let k := i.imm.toNat
    let v := x.gr i.rs
    let reads (w : Word) : Prop := Runs (.rdcsLocal e i) s (fun m' =>
      s.m.onlyEng m' e ∧ x.wrote (m'.e e) i.rd w ∧ x.wentOn (m'.e e)
        ∧ (m'.e e).cycleh = (if k = 2 then (s.m.cyc - x.startCyc) / 2 ^ 32 % 2 ^ 32 else x.cycleh))
    let writes (y : Engine) : Prop := Runs (.wrcsLocal e i) s (fun m' => s.m.onlyEng m' e ∧ x.wentOn (m'.e e)
      ∧ m'.e e = { y with pc := (m'.e e).pc, loops := (m'.e e).loops, ibuf := (m'.e e).ibuf })
    (i.rs = 0 →
      (k = 0x00 → reads x.status) ∧ (k = 0x01 → reads (word e)) ∧ (k = 0x02 → reads (word (s.m.cyc - x.startCyc)))
      ∧ (k = 0x03 → reads (word x.cycleh)) ∧ (k = 0x04 → reads (word x.xhi)) ∧ (k = 0x06 → reads (word x.msrc))
      ∧ (k = 0x07 → reads (word x.emitTmo)) ∧ (k = 0x08 → sv → reads (word x.tvec)) ∧ (k = 0x09 → sv → reads (word x.epc))
      ∧ (k = 0x0A → sv → reads (word x.cause))
      ∧ (k = 0x05 ∨ 0x0A < k ∨ (¬ sv ∧ 0x08 ≤ k) → EngFaults (.rdcsLocal e i) s e 1))
    ∧ (i.rd = 0 →
      (k = 0x00 → writes { x with sat := x.sat && !v.getLsbD 0, ovf := x.ovf && !v.getLsbD 1, p := v.toNat / 256 % 16 })
      ∧ (k = 0x04 → writes { x with xhi := v.toNat % 256 }) ∧ (k = 0x05 → writes { x with wdogCyc := s.m.cyc })
      ∧ (k = 0x07 → writes { x with emitTmo := v.toNat })
      ∧ (k = 0x08 → sv → writes { x with tvec := v.toNat &&& 0x3FFFD })
      ∧ (k = 0x09 → sv → writes { x with epc := v.toNat &&& 0x3FFFC })
      ∧ (k = 0x01 ∨ k = 0x02 ∨ k = 0x03 ∨ k = 0x06 ∨ 0x0A ≤ k ∨ (¬ sv ∧ 0x08 ≤ k) → EngFaults (.wrcsLocal e i) s e 1))

/-! ## Waiting and signalling (R86 to R90, R535) -/

/-- Semaphores (R86, R87, R88, R535). wait takes a unit and answers 0, answers 1 at once when there is none and rt is 0, and else joins the
waiters with a timeout of rt cycles; the timeout answers 1 and leaves them. sig adds imm, clipped at 0xFFFF with OVF, and passes units to
the waiters, oldest first; a write of GLB_SEM_n sets the count and does the same. A semaphore number above 1023 faults with 4. Time-trigger waits and mailboxes (R88, R89, R535). wtime waits for a trigger below 16, and its timeout answers 1. msnd sends a word to
an engine, 1 when that mailbox is full and 2 for no engine; the word arrives behind the words present, or ends the mrcv that waits for it.
mrcv takes the oldest word with MSRC and its predicate set, clears the predicate at once when rs is 0, and else waits; its timeout clears
the predicate and leaves rd. The host writes words as sender 511, refused while the mailbox is full, and MBCLR empties it. -/
def Obligations.SemaphoresAndMailboxesPass : Prop :=
  (∀ (s : State),
    let passes (c n : Nat) (ov : Bool) (m' : Mach) : Prop :=
      let k := min c (s.m.sem n).queue.length
      m'.sem n = { count := c - k, ovf := ov, queue := (s.m.sem n).queue.drop k } ∧ (∀ j, j ≠ n → m'.sem j = s.m.sem j)
    (∀ e (i : FW), s.m.canIssue e → i.func = 0 →
      let x := s.m.e e
      let n := (x.gr i.rs).toNat
      let z := s.m.sem n
      (1023 < n → EngFaults (.wait e i) s e 4)
      ∧ (n ≤ 1023 → 0 < z.count → Runs (.wait e i) s (fun m' => x.wrote (m'.e e) i.rd 0 ∧ x.wentOn (m'.e e)
          ∧ m'.sem n = { z with count := z.count - 1 } ∧ (∀ j, j ≠ n → m'.sem j = s.m.sem j) ∧ s.m.othersKept m' e
          ∧ Touches [.eng, .sems] s.m m'))
      ∧ (n ≤ 1023 → z.count = 0 → x.gr i.rt = 0 → GrRuns (.wait e i) s e i.rd 1)
      ∧ (n ≤ 1023 → z.count = 0 → x.gr i.rt ≠ 0 → Runs (.wait e i) s (fun m' =>
          x.waitsFrom (m'.e e) s.m.cyc (.sem n) i.rd (x.gr i.rt).toNat ∧ (m'.sem n).count = 0 ∧ e ∈ (m'.sem n).queue
          ∧ (∀ j, j ≠ n → m'.sem j = s.m.sem j) ∧ s.m.othersKept m' e ∧ Touches [.eng, .sems] s.m m')))
    ∧ (∀ e n, e < 282 → (s.m.e e).wait = .sem n → Runs (.waitTimeout e) s (fun m' =>
        (s.m.e e).resumed (m'.e e) 1 ∧ m'.cyc = max s.m.cyc ((s.m.e e).issue + (s.m.e e).limit) ∧ s.m.othersKept m' e
        ∧ m'.sem n = { s.m.sem n with queue := (s.m.sem n).queue.filter (fun y => y != e) } ∧ Touches [.cyc, .time, .eng, .sems] s.m m'))
    ∧ (∀ e (i : FI), s.m.canIssue e → i.resv = 0 → i.rd = 0 → i.imm ≠ 0 →
      let n := ((s.m.e e).gr i.rs).toNat
      let c := (s.m.sem n).count + i.imm.toNat
      (1023 < n → EngFaults (.sig e i) s e 4)
      ∧ (n ≤ 1023 → Runs (.sig e i) s (fun m' => passes (min 0xFFFF c) n ((s.m.sem n).ovf || decide (0xFFFF < c)) m'
          ∧ (e ∉ (s.m.sem n).queue → (s.m.e e).wentOn (m'.e e) ∧ (m'.e e).g = (s.m.e e).g
              ∧ (m'.e e).sat = ((s.m.e e).sat || decide (0xFFFF < c)))
          ∧ (∀ w t, (s.m.sem n).queue = w :: t → 0 < c → w ≠ e → w ∉ t → (s.m.e w).resumed (m'.e w) 0)
          ∧ (∀ k, k ≠ e → k ∉ (s.m.sem n).queue → m'.e k = s.m.e k) ∧ Touches [.eng, .sems] s.m m')))
    ∧ (∀ src n v, wfSemaphoreWrite src n v = true → s.m.mayWrite src .glb 0 (0x1000 + 4 * n) = 0 → Runs (.semaphoreWrite src n v) s (fun m' =>
        passes (v.toNat % 65536) n ((s.m.sem n).ovf && !v.getLsbD 17) m' ∧ m'.status = 0
        ∧ (∀ k, k ∉ (s.m.sem n).queue → m'.e k = s.m.e k) ∧ Touches [.status, .eng, .sems] s.m m')))
  ∧ (∀ (s : State),
    (∀ e (i : FI), s.m.canIssue e → i.resv = 0 → i.imm.toNat < 16 → Runs (.wtime e i) s (fun m' =>
      (s.m.e e).waitsFrom (m'.e e) s.m.cyc (.trig i.imm.toNat) i.rd ((s.m.e e).gr i.rs).toNat ∧ s.m.onlyEng m' e))
    ∧ (∀ e t, e < 282 → (s.m.e e).wait = .trig t → (s.m.e e).limit ≠ 0 → Runs (.wtimeTimeout e) s (fun m' =>
        (s.m.e e).resumed (m'.e e) 1 ∧ m'.cyc = max s.m.cyc ((s.m.e e).issue + (s.m.e e).limit) ∧ s.m.othersKept m' e
        ∧ Touches [.cyc, .time, .eng] s.m m'))
    ∧ (∀ e (i : FW), s.m.canIssue e → i.func = 0 →
      let d := ((s.m.e e).gr i.rs).toNat
      let n := (s.m.e d).mbox.length + (s.m.e d).inflight.length
      (281 < d → GrRuns (.msnd e i) s e i.rd 2)
      ∧ (d ≤ 281 → 16 ≤ n → Runs (.msnd e i) s (fun m' => (s.m.e e).wrote (m'.e e) i.rd 1 ∧ (s.m.e e).wentOn (m'.e e)
          ∧ s.m.othersKept m' e ∧ Touches [.regs, .eng] s.m m'))
      ∧ (d ≤ 281 → n < 16 → Runs (.msnd e i) s (fun m' => (s.m.e e).wrote (m'.e e) i.rd 0 ∧ (s.m.e e).wentOn (m'.e e)
          ∧ (m'.e d).inflight = (s.m.e d).inflight ++ [((s.m.e e).gr i.rt, e)] ∧ (m'.e d).mbox = (s.m.e d).mbox
          ∧ (∀ k, k ≠ e → k ≠ d → m'.e k = s.m.e k) ∧ Touches [.eng] s.m m')))
    ∧ (∀ from_ e a w b, from_ < 282 → e < 282 → (s.m.e e).inflight = a ++ (w, from_) :: b → (∀ y, y ∈ a → y.2 ≠ from_) →
      Runs (.mailboxWordArrival from_ e) s (fun m' => (m'.e e).inflight = a ++ b ∧ s.m.onlyEng m' e
        ∧ ((∀ pd, (s.m.e e).wait ≠ .mbox pd) → (m'.e e).mbox = (s.m.e e).mbox ++ [(w, from_)])
        ∧ (∀ pd, (s.m.e e).wait = .mbox pd → pd < 4 → (s.m.e e).mbox = [] →
            (s.m.e e).resumed (m'.e e) w ∧ (m'.e e).mbox = [] ∧ (m'.e e).msrc = from_ ∧ (m'.e e).pred pd = true)))
    ∧ (∀ e (i : FW), s.m.canIssue e → i.rt = 0 → i.func &&& 0x27FF = 0 →
      let x := s.m.e e
      let pd := i.func.toNat / 2 ^ 11 % 4
      (∀ w from_ t, x.mbox = (w, from_) :: t → Runs (.mrcv e i) s (fun m' => s.m.onlyEng m' e ∧ x.wrote (m'.e e) i.rd w
        ∧ x.wentOn (m'.e e) ∧ (m'.e e).mbox = t ∧ (m'.e e).msrc = from_ ∧ (m'.e e).pred pd = true
        ∧ (∀ k, k < 4 → k ≠ pd → (m'.e e).pred k = x.pred k)))
      ∧ (x.mbox = [] → x.gr i.rs = 0 → Runs (.mrcv e i) s (fun m' => s.m.onlyEng m' e ∧ (m'.e e).g = x.g ∧ (m'.e e).msrc = x.msrc
        ∧ x.wentOn (m'.e e) ∧ (m'.e e).pred pd = false ∧ (∀ k, k < 4 → k ≠ pd → (m'.e e).pred k = x.pred k)))
      ∧ (x.mbox = [] → x.gr i.rs ≠ 0 → Runs (.mrcv e i) s (fun m' =>
        x.waitsFrom (m'.e e) s.m.cyc (.mbox pd) i.rd (x.gr i.rs).toNat ∧ s.m.onlyEng m' e)))
    ∧ (∀ e pd, e < 282 → (s.m.e e).wait = .mbox pd → pd < 4 → Runs (.mrcvTimeout e) s (fun m' =>
        (m'.e e).st = .running ∧ (m'.e e).wait = .none ∧ (s.m.e e).wentOn (m'.e e) ∧ (m'.e e).g = (s.m.e e).g
        ∧ (m'.e e).msrc = (s.m.e e).msrc ∧ (m'.e e).pred pd = false ∧ s.m.othersKept m' e
        ∧ m'.cyc = max s.m.cyc ((s.m.e e).issue + (s.m.e e).limit) ∧ Touches [.cyc, .time, .eng] s.m m'))
    ∧ (∀ src e w, wfMboxIn src e w = true → s.m.mayWrite src (engClass e).blk (engInst e) 0x28 = 0 →
        let x := s.m.e e
        (x.mbox.length + x.inflight.length < 16 → (∀ pd, x.wait ≠ .mbox pd) → Runs (.mboxIn src e w) s (fun m' =>
          m'.e e = { x with mbox := x.mbox ++ [(w, 511)] } ∧ m'.status = 0 ∧ s.m.othersKept m' e ∧ Touches [.status, .eng] s.m m'))
        ∧ (16 ≤ x.mbox.length + x.inflight.length → Runs (.mboxIn src e w) s (fun m' =>
          m'.status = 1 ∧ Touches [.status, .regs] s.m m')))
    ∧ (∀ src e v, wfMbclr src e v = true → s.m.mayWrite src (engClass e).blk (engInst e) 0 = 0 →
        v.getLsbD 2 = false → v.getLsbD 3 = false → v.getLsbD 6 = false → Runs (.mbclr src e v) s (fun m' =>
          m'.e e = { s.m.e e with mbox := [] } ∧ m'.status = 0 ∧ s.m.othersKept m' e
          ∧ m'.fld (engPage e) ⟨0, 0⟩ = bit (v.getLsbD 0) ∧ s.m.regsBut m' [engPage e] ∧ Touches [.status, .regs, .eng] s.m m')))

/-- An access of an engine to control space (R90): a misaligned address faults with 3, an access that is not permitted or answered with an
error with 4; otherwise the engine waits, and the completion gives rd the word read, or 0 for a write taken and 1 for one refused. -/
def Obligations.EnginesAccessControlSpace : Prop :=
  ∀ (s : State) (e : Nat),
    (∀ (i : FM) (st : Bool), s.m.canIssue e → (st = false → i.rt = 0) →
      let c : Instr := if st then .wrcsControl e i else .rdcsControl e i
      let v : Option Word := if st then some ((s.m.e e).gr i.rt) else none
      let a := s.m.localAddr e i
      (a % 4 ≠ 0 → EngFaults c s e 3)
      ∧ (a % 4 = 0 → a < 0 ∨ 2 ^ 32 ≤ a → EngFaults c s e 4)
      ∧ (a % 4 = 0 → 0 ≤ a → a < 2 ^ 32 → 1 < (s.m.fetch e).ctlStatus s.otp e a.toNat v → EngFaults c s e 4)
      ∧ (a % 4 = 0 → 0 ≤ a → a < 2 ^ 32 → (s.m.fetch e).ctlStatus s.otp e a.toNat v ≤ 1 → Runs c s (fun m' =>
          (s.m.e e).waitsFrom (m'.e e) s.m.cyc (.ctl st a.toNat (v.getD 0)) i.rd 0 ∧ s.m.onlyEng m' e)))
    ∧ (∀ a v0, e < 282 → (s.m.e e).wait = .ctl false a v0 →
      let r := s.m.readAt s.otp (.eng e) a
      r.2.status ≤ 1 → Runs (.controlSpaceCompletion e) s (fun m' => (s.m.e e).resumed (m'.e e) r.1 ∧ s.m.othersKept m' e
        ∧ Touches [.free, .status, .regs, .saf, .eng] s.m m'))
    ∧ (∀ a v, e < 282 → (s.m.e e).wait = .ctl true a v →
      let m1 := s.m.writeAt s.otp (.eng e) a v
      m1.status ≤ 1 → (∃ a' v', (m1.e e).wait = .ctl true a' v') → RunsTo (.controlSpaceCompletion e) s (m1.resume e (word m1.status)))

/-! ## Engines from outside: start, stop, verification, memories (R66, R103 to R107) -/

/-- START and STOP written to CTRL by a source that may (R66, R104, R105, R106). START of an enabled, verified engine that is not active,
with ENTRY below LEN, in a device state that allows it, gives the state of R66; otherwise REQ_ERR alone takes the lowest code that applies.
STOP stops an active engine with STOP_CAUSE 1, ending its wait and its open record; a sequencer with edges granted or requests open is only
marked to stop; START written with it gives REQ_ERR 5 (the order of CTRL's bits is the model's, log entry 40). -/
def Obligations.StartAndStopOfEngines : Prop :=
  ∀ (s : State) (src : Src) (e : Nat) (v : Word), src.wf = true → e < 282 →
    s.m.mayWrite src (engClass e).blk (engInst e) 0 = 0 → v.getLsbD 6 = false → v.getLsbD 7 = false →
    let x := s.m.e e
    let okState := s.m.dev.st = .loaded ∨ s.m.hot = true ∨ (s.m.dev.st = .oasis ∧ engClass e ≠ .sq)
    let entry := s.m.fld (engPage e + 8) ⟨17, 2⟩
    let len := s.m.fld (engPage e + 0xC) ⟨18, 2⟩
    let errs (c : Instr) (k : Nat) : Prop := Runs c s (fun m' => m'.e e = { x with reqErr := k } ∧ s.m.othersKept m' e
      ∧ m'.fld (engPage e) ⟨0, 0⟩ = bit (v.getLsbD 0) ∧ s.m.regsBut m' [engPage e] ∧ Touches [.status, .regs, .eng] s.m m')
    (v.getLsbD 3 = false →
      (okState → v.getLsbD 0 = true → x.verified = true → x.active = false → entry < len → Runs (.start src e v) s (fun m' =>
        let y := m'.e e
        y.st = .running ∧ y.pc = 4 * entry ∧ y.stopCause = 0 ∧ (∀ r, y.gr r = 0) ∧ y.p = 0 ∧ y.status = 0 ∧ y.calls = [] ∧ y.loops = []
          ∧ y.acc = [] ∧ y.xhi = 0x80 ∧ y.emitTmo = 0 ∧ y.wdogCyc = s.m.cyc ∧ y.startCyc = s.m.cyc ∧ y.tvec = 0 ∧ y.inTrap = false
          ∧ y.mbox = x.mbox ∧ y.inflight = x.inflight ∧ y.verified = x.verified ∧ s.m.othersKept m' e ∧ Touches [.status, .regs, .eng] s.m m'))
      ∧ (¬ okState → errs (.start src e v) 1)
      ∧ (okState → v.getLsbD 0 = false → errs (.start src e v) 2)
      ∧ (okState → v.getLsbD 0 = true → x.verified = false → errs (.start src e v) 3)
      ∧ (okState → v.getLsbD 0 = true → x.verified = true → x.active = true → errs (.start src e v) 4)
      ∧ (okState → v.getLsbD 0 = true → x.verified = true → x.active = false → len ≤ entry → errs (.start src e v) 6))
    ∧ (let rq := if v.getLsbD 2 then 5 else 0
      let idle := ∀ z, z ∈ s.m.emt.shots → z.sq = engInst e → z.stage ≠ .asked ∧ z.stage ≠ .reserved ∧ z.stage ≠ .granted
      (x.active = false → errs (.stop src e v) rq)
      ∧ (x.active = true → engClass e ≠ .sq ∨ idle → Runs (.stop src e v) s (fun m' =>
          let y := m'.e e
          y.st = .stopped ∧ y.stopCause = 1 ∧ y.reqErr = rq ∧ y.wait = .none ∧ y.openq = none ∧ y.recbuf = []
            ∧ y.g = x.g ∧ y.p = x.p ∧ y.pc = x.pc ∧ y.calls = x.calls ∧ y.loops = x.loops ∧ (engClass e = .re → y.held = none)))
      ∧ (x.active = true → engClass e = .sq → s.m.edgesLeft (engInst e) ≠ 0 → Runs (.stop src e v) s (fun m' =>
          m'.e e = { x with stopping := some 1, reqErr := rq } ∧ s.m.othersKept m' e ∧ Touches [.status, .regs, .eng] s.m m')))

/-- VERIFY and its end (R107): refused with REQ_ERR 4 while the engine, or for a range engine a member of its pool, is active; else the
comparison is due LEN cycles later, and VERIFIED then says whether the CRC-32C of the image equals IMGCRC, in every engine that shares the
image with the same LEN and IMGCRC; the others of the pool lose it. Writes of engine memories (R80, R103): a word of program memory is stored, VERIFIED clears in every engine of the image, and the write
is refused while one of them is active or the source is neither Owner nor another engine's supervisor; a word of data memory is stored for
the Owner, a supervisor or the engine itself. Every byte outside the word reads as before. -/
def Obligations.EngineMemoriesAreWrittenAndVerified : Prop :=
  (∀ (s : State) (e : Nat), e < 282 →
    let x := s.m.e e
    let len (n : Nat) := s.m.fld (engPage n + 0xC) ⟨18, 2⟩
    let imgcrc (n : Nat) := s.m.reg (engPage n + 0x10)
    (∀ src v, src.wf = true → s.m.mayWrite src (engClass e).blk (engInst e) 0 = 0 →
      v.getLsbD 2 = false → v.getLsbD 3 = false → v.getLsbD 7 = false →
      let gives (y : Engine) : Prop := Runs (.verify src e v) s (fun m' => m'.e e = y ∧ s.m.othersKept m' e
        ∧ m'.fld (engPage e) ⟨0, 0⟩ = bit (v.getLsbD 0) ∧ s.m.regsBut m' [engPage e] ∧ Touches [.status, .regs, .eng] s.m m')
      ((∃ n, n ∈ s.m.imageOf e ∧ (s.m.e n).active = true) → gives { x with reqErr := 4 })
      ∧ ((∀ n, n ∈ s.m.imageOf e → (s.m.e n).active = false) → gives { x with reqErr := 0, verifyDue := some (s.m.cyc + len e) }))
    ∧ (∀ d, x.verifyDue = some d → Runs (.verifyDone e) s (fun m' =>
        let ok := crc32c (s.m.bytes (s.m.progBase e) (4 * len e)) == (imgcrc e).toNat
        m'.cyc = max s.m.cyc d
        ∧ (∀ n, n ∈ s.m.imageOf e → (m'.e n).verified = (ok && len n == len e && imgcrc n == imgcrc e))
        ∧ (∀ n, n ∉ s.m.imageOf e → n ≠ e → m'.e n = s.m.e n)
        ∧ (∀ n, (m'.e n).g = (s.m.e n).g ∧ (m'.e n).st = (s.m.e n).st ∧ (m'.e n).pc = (s.m.e n).pc) ∧ (m'.e e).verifyDue = none
        ∧ Touches [.cyc, .time, .eng] s.m m')))
  ∧ (∀ (s : State) (src : Src) (e off : Nat) (w : Word), src.wf = true → e < 282 → off < 2 ^ 18 → off % 4 = 0 →
    let ends (c : Instr) (st : Nat) : Prop := Runs c s (fun m' => m'.status = st ∧ Touches [.status] s.m m')
    (∀ a, s.m.programAt e off = some a → off < 4 * s.m.fld (engPage e + 0xC) ⟨18, 2⟩ ∨ engClass e ≠ .sv →
      (s.m.mayProgram src e = false → ends (.programMemoryWrite src e off w) 3)
      ∧ (s.m.mayProgram src e = true → (∃ n, n ∈ s.m.imageOf e ∧ (s.m.e n).active = true) → ends (.programMemoryWrite src e off w) 1)
      ∧ (s.m.mayProgram src e = true → (∀ n, n ∈ s.m.imageOf e → (s.m.e n).active = false) →
          Runs (.programMemoryWrite src e off w) s (fun m' => m'.status = 0 ∧ m'.mword a = w ∧ s.m.bytesBut m' a 4
            ∧ (∀ n, n ∈ s.m.imageOf e → (m'.e n).verified = false) ∧ (∀ n, n ∉ s.m.imageOf e → m'.e n = s.m.e n)
            ∧ Touches [.status, .mem, .eng] s.m m')))
    ∧ (s.m.programAt e off = none → ends (.programMemoryWrite src e off w) 2)
    ∧ (dataBytes e ≤ off → ends (.dataMemoryWrite src e off w) 2)
    ∧ (off < dataBytes e → ¬ (engClass e = .sv ∧ off < 4 * s.m.fld (engPage e + 0xC) ⟨18, 2⟩) →
        let may : Prop := match src with
          | .link c _ => s.m.ctxOn c = true ∧ c = s.m.owner ∧ s.m.dev.st ≠ .shutdown
          | .eng n => n = e ∨ engClass n = .sv
        (¬ may → ends (.dataMemoryWrite src e off w) 3)
        ∧ (may → Runs (.dataMemoryWrite src e off w) s (fun m' => m'.status = 0 ∧ m'.mword (dataBase e + off) = w
            ∧ s.m.bytesBut m' (dataBase e + off) 4 ∧ Touches [.status, .mem] s.m m'))))

/-! ## Queues and their offers (R91, R388, R400 to R405) -/

/-- What a queue's buffer is given, it holds: bytes put from an offset of the record area on, no more than the area has room for, read back
from there, and every byte outside the buffer reads as before; they continue at the start of the record area, which in a recorder ring
follows the header (R401, R405). emit (R91, R402). A queue outside the engine's window or not enabled answers 2; a part with MORE is kept and answers 0; a record above
4,096 bytes answers 3. A record offered to an open queue with room is placed behind the others with its prefix, counts in RSEQ and answers
0; a frozen or degraded queue, or a full one that drops, refuses it: DROPS counts and rd is 1; a full queue that blocks lets the engine
wait when emit_tmo is not 0. The timeout withdraws the offer, counts it in DROPS and answers 1. -/
def Obligations.EmitOffersRecords : Prop :=
  (∀ (m : Mach) (q off : Nat) (l : List Byte), m.qStart q ≤ off → off < m.qSize q → l.length ≤ m.qSize q - m.qStart q →
    (m.qPut q off l).qGet q off l.length = l
    ∧ (∀ a, a < m.qBase q + m.qStart q ∨ m.qBase q + m.qSize q ≤ a → (m.qPut q off l).byte a = m.byte a)
    ∧ Touches [.mem] m (m.qPut q off l))
  ∧ (∀ (s : State),
    (∀ e (i : FM), s.m.canIssue e →
      let x := s.m.e e
      let len := i.imm.toNat % 2 ^ 13
      let a := (x.gr i.rs).toNat
      let q := (x.gr i.rt).toNat
      let win := engPage e + 0x30
      4 ≤ len → len ≤ 4096 → len % 4 = 0 →
      (a % 4 ≠ 0 → EngFaults (.emit e i) s e 3)
      ∧ (a % 4 = 0 → inData e a len = false → EngFaults (.emit e i) s e 4)
      ∧ (a % 4 = 0 → inData e a len = true → (x.openq = none ∨ x.openq = some q) →
        let outside := q < s.m.fld win ⟨30, 16⟩ ∨ s.m.fld win ⟨14, 0⟩ < q ∨ s.m.qOn q = false
        let r := x.recbuf ++ s.m.bytes (dataBase e + a) len
        let n := 4 + r.length
        let fits := s.m.qFits q r.length = true ∧ s.m.qPert q = false
        let pol := s.m.fld (qdesc q 0) fQ_POLICY
        (outside → GrRuns (.emit e i) s e i.rd 2)
        ∧ (¬ outside →
          (4096 < r.length → Runs (.emit e i) s (fun m' => s.m.onlyEng m' e ∧ x.wrote (m'.e e) i.rd 3 ∧ x.wentOn (m'.e e)
            ∧ (m'.e e).openq = none ∧ (m'.e e).recbuf = []))
          ∧ (r.length ≤ 4096 → i.imm.getLsbD 13 = true → Runs (.emit e i) s (fun m' => s.m.onlyEng m' e ∧ x.wrote (m'.e e) i.rd 0
            ∧ x.wentOn (m'.e e) ∧ (m'.e e).openq = some q ∧ (m'.e e).recbuf = r))
          ∧ (r.length ≤ 4096 → i.imm.getLsbD 13 = false → s.m.qShut q = true ∨ (pol = 0 ∧ ¬ fits) → Runs (.emit e i) s (fun m' =>
            x.wrote (m'.e e) i.rd 1 ∧ x.wentOn (m'.e e) ∧ (m'.e e).openq = none ∧ (m'.e e).recbuf = []
            ∧ m'.fld (qdesc q 8) fQ_DROPS = min 0xFFFF (s.m.fld (qdesc q 8) fQ_DROPS + 1) ∧ (m'.q q).dropped = true
            ∧ s.m.othersKept m' e ∧ s.m.regsBut m' [qdesc q 8] ∧ Touches [.regs, .eng, .qmg] s.m m'))
          ∧ (r.length ≤ 4096 → i.imm.getLsbD 13 = false → s.m.qShut q = false → fits → pol ≠ 1 ∨ x.emitTmo = 0 ∨ (s.m.q q).waiters = [] →
            Runs (.emit e i) s (fun m' => x.wrote (m'.e e) i.rd 0 ∧ x.wentOn (m'.e e) ∧ (m'.e e).openq = none ∧ (m'.e e).recbuf = []
              ∧ m'.mem = (s.m.qPut q (s.m.qWr q) (leBytes 4 (2 ^ 16 * s.m.fld (qdesc q 8) fQ_RSEQ + r.length) ++ r)).mem
              ∧ m'.fld (qdesc q 8) fQ_RSEQ = (s.m.fld (qdesc q 8) fQ_RSEQ + 1) % 2 ^ 16
              ∧ (m'.q q).recs = (s.m.q q).recs + 1 ∧ (m'.q q).held = (s.m.q q).held + n
              ∧ s.m.othersKept m' e ∧ Touches [.regs, .eng, .mem, .qmg, .grp] s.m m'))
          ∧ (r.length ≤ 4096 → i.imm.getLsbD 13 = false → s.m.qShut q = false → pol = 1 → x.emitTmo ≠ 0 →
            ¬ fits ∨ (s.m.q q).waiters ≠ [] → Runs (.emit e i) s (fun m' =>
              (m'.e e).st = .waiting ∧ (m'.e e).wait = .queue q ∧ (m'.e e).wrd = i.rd.toNat ∧ (m'.e e).issue = s.m.cyc
              ∧ (m'.e e).limit = x.emitTmo ∧ (m'.e e).pc = x.pc
              ∧ { by_ := .eng e, bytes := r, cyc := s.m.cyc } ∈ (m'.q q).waiters ∧ s.m.othersKept m' e ∧ Touches [.eng, .qmg] s.m m')))))
    ∧ (∀ e q, e < 282 → (s.m.e e).wait = .queue q → Runs (.emitTimeout e) s (fun m' =>
        (s.m.e e).resumed (m'.e e) 1 ∧ m'.cyc = max s.m.cyc ((s.m.e e).issue + (s.m.e e).limit)
        ∧ (m'.q q).waiters = (s.m.q q).waiters.filter (fun o => o.by_ != .eng e)
        ∧ m'.fld (qdesc q 8) fQ_DROPS = min 0xFFFF (s.m.fld (qdesc q 8) fQ_DROPS + 1)
        ∧ s.m.othersKept m' e ∧ Touches [.cyc, .time, .regs, .eng, .qmg] s.m m'))
    ∧ (∀ q e r c t, wfBlockedRecordAccept q = true → (s.m.q q).waiters = { by_ := .eng e, bytes := r, cyc := c } :: t →
        (s.m.qShut q = true → Runs (.blockedRecordAccept q) s (fun m' => (s.m.e e).resumed (m'.e e) 1 ∧ (m'.q q).waiters = t
          ∧ m'.fld (qdesc q 8) fQ_DROPS = min 0xFFFF (s.m.fld (qdesc q 8) fQ_DROPS + 1) ∧ s.m.othersKept m' e))
        ∧ (s.m.qShut q = false → s.m.qFits q r.length = true → s.m.qPert q = false → Runs (.blockedRecordAccept q) s (fun m' =>
          (s.m.e e).resumed (m'.e e) 0 ∧ (m'.q q).waiters = t ∧ (m'.q q).recs = (s.m.q q).recs + 1
          ∧ (m'.q q).held = (s.m.q q).held + (4 + r.length) ∧ s.m.othersKept m' e))))

/-- Descriptor writes with the Owner's rights (R400, R401, R405): word 7 takes CREDIT; BASE and SIZE are refused a change while EN is 1; words
the device keeps take nothing; a write of word 0 that would change a fixed field of an enabled queue, or enable a queue whose buffer is not
usable, is refused; enabling a queue empties it, and disabling it drops what it held. The Owner's record of the roles changes with the key,
both holders enabled, and is refused otherwise (R388). -/
def Obligations.QueueDescriptorsAndRoles : Prop :=
  ∀ (s : State) (src : Src),
    let ends (c : Instr) (st : Nat) : Prop := Runs c s (fun m' => m'.status = st ∧ Touches [.status] s.m m')
    (∀ q k v, wfDescriptorWrite src q k v = true → s.m.mayWrite src .qdesc q (4 * k) = 0 → s.m.qFull src = true →
      let c := Instr.descriptorWrite src q k v
      (k = 7 → Runs c s (fun m' => m'.fld (qdesc q 7) fQ_ALL = v.toNat ∧ m'.status = 0 ∧ s.m.regsBut m' [qdesc q 7]
        ∧ Touches [.status, .regs, .qmg] s.m m'))
      ∧ (∀ mask, (k = 1 ∧ mask = 0xFFFFFFC0) ∨ (k = 2 ∧ mask = 0xFF) ∨ (k = 3 ∧ mask = 0xFFFFFFFF) →
          (s.m.qOn q = true → (s.m.reg (qdesc q k) ^^^ v) &&& mask ≠ 0 → ends c 1)
          ∧ (s.m.qOn q = false ∨ (s.m.reg (qdesc q k) ^^^ v) &&& mask = 0 → Runs c s (fun m' => m'.reg (qdesc q k) = v &&& mask
              ∧ m'.status = 0 ∧ s.m.regsBut m' [qdesc q k] ∧ Touches [.status, .regs] s.m m')))
      ∧ (k = 4 ∨ k = 5 ∨ k = 6 ∨ k = 8 ∨ k = 10 ∨ k = 11 ∨ k = 12 ∨ k = 14 ∨ k = 15 → ends c 0)
      ∧ (k = 0 → s.m.qOn q = true → (s.m.reg (qdesc q 0) ^^^ v) &&& 0x7C000FFF ≠ 0 → ends c 1)
      ∧ (k = 0 → s.m.qOn q = false → v.getLsbD 31 = true → s.m.qBufferOk q = false ∨ (fQ_POLICY.get v = 2 ∧ fQ_RECORDER.get v = 0) →
          ends c 1)
      ∧ (k = 0 → s.m.qOn q = false → v.getLsbD 31 = true → s.m.qBufferOk q = true → fQ_POLICY.get v ≠ 2 ∨ fQ_RECORDER.get v = 1 →
          Runs c s (fun m' => m'.qOn q = true ∧ (m'.q q).recs = 0 ∧ (m'.q q).held = 0 ∧ (m'.q q).waiters = []
            ∧ m'.fld (qdesc q 14) fQ_ALL = 0 ∧ m'.fld (qdesc q 4) fQ_ALL = (if fQ_RECORDER.get v = 1 then 64 else 0)
            ∧ m'.fld (qdesc q 8) fQ_RSEQ = s.m.fld (qdesc q 8) fQ_RSEQ ∧ m'.status = 0
            ∧ s.m.regsBut m' [qdesc q 0, qdesc q 4, qdesc q 5, qdesc q 6, qdesc q 14] ∧ Touches [.status, .regs, .qmg] s.m m'))
      ∧ (k = 0 → s.m.qOn q = true → (s.m.reg (qdesc q 0) ^^^ v) &&& 0x7C000FFF = 0 → v.getLsbD 31 = false → (s.m.q q).waiters = [] →
          Runs c s (fun m' => m'.qOn q = false ∧ (m'.q q).recs = 0 ∧ (m'.q q).held = 0 ∧ m'.fld (qdesc q 14) fQ_ALL = 0 ∧ m'.status = 0
            ∧ m'.fld (qdesc q 8) fQ_DROPS = min 0xFFFF (s.m.fld (qdesc q 8) fQ_DROPS + (s.m.q q).recs)
            ∧ s.m.regsBut m' [qdesc q 0, qdesc q 5, qdesc q 6, qdesc q 8, qdesc q 14] ∧ Touches [.status, .regs, .qmg] s.m m')))
    ∧ (∀ cx g v, src = .link cx g → wfRolesWrite src v = true → s.m.mayWrite src .qmg 0 0 = 0 →
      let own := fQMG_ROLES_OWNER.get v
      let saf := fQMG_ROLES_SAFETY.get v
      let good := fQMG_ROLES_KEY.get v = 0x5A17 ∧ s.m.ctxOn own = true ∧ s.m.ctxOn saf = true
        ∧ (saf = s.m.safetyCtx ∨ (s.m.flag aSAF_STAT fSAF_STAT_ACTIVE = false ∧ s.m.hot = false))
      (¬ good → ends (.rolesWrite src v) 1)
      ∧ (good → Runs (.rolesWrite src v) s (fun m' => m'.owner = own ∧ m'.safetyCtx = saf ∧ m'.status = 0 ∧ s.m.regsBut m' [aQMG_ROLES]
          ∧ Touches [.status, .regs] s.m m')))

/-- Recorder rings (R405): GO with the key triggers the rings with ON_HOST set; a ring that has recorded POST freezes, its header is
written and its waiting offers are refused; FROZEN written 1 lets a frozen ring record again; the header takes the descriptor's words. -/
def Obligations.RecorderRingsFreezeAndResume : Prop :=
  ∀ (s : State),
    (∀ src v, wfHostFreeze src v = true → s.m.mayWrite src .qmg 0 0x50 = 0 →
      (fQMG_FREEZE_KEY.get v ≠ 0x5A17 → Runs (.hostFreeze src v) s (fun m' => m'.status = 1 ∧ Touches [.status] s.m m'))
      ∧ (fQMG_FREEZE_KEY.get v = 0x5A17 → fQMG_FREEZE_GO.get v = 0 → Runs (.hostFreeze src v) s (fun m' => m'.status = 0
          ∧ Touches [.status] s.m m'))
      ∧ (∀ q, fQMG_FREEZE_KEY.get v = 0x5A17 → fQMG_FREEZE_GO.get v = 1 → s.m.queuesOn = [q] → s.m.qRing q = true →
          s.m.flag (qdesc q 9) fQ_ON_HOST = true → s.m.flag (qdesc q 9) fQ_FROZEN = false → s.m.flag (qdesc q 9) fQ_FREEZING = false →
          Runs (.hostFreeze src v) s (fun m' => m'.flag (qdesc q 9) fQ_FREEZING = true ∧ m'.fld (qdesc q 9) fQ_FRZ_CAUSE = 3
            ∧ (m'.q q).postLeft = 4096 * s.m.fld (qdesc q 9) fQ_POST ∧ m'.status = 0 ∧ Touches [.status, .regs, .qmg] s.m m')))
    ∧ (∀ q, wfRecorderFrozen q = true →
      (s.m.flag (qdesc q 9) fQ_FREEZING = true → (s.m.q q).postLeft = 0 → (s.m.q q).waiters = [] → Runs (.recorderFrozen q) s (fun m' =>
        m'.flag (qdesc q 9) fQ_FROZEN = true ∧ m'.flag (qdesc q 9) fQ_FREEZING = false ∧ s.m.regsBut m' [qdesc q 9, aQMG_NSTAT (q / 4096)]
          ∧ Touches [.regs, .mem, .grp, .qmg] s.m m'))
      ∧ (s.m.flag (qdesc q 9) fQ_FREEZING = false ∨ (s.m.q q).postLeft ≠ 0 → RunsTo (.recorderFrozen q) s s.m))
    ∧ (∀ q, wfRingHeaderRewrite q = true →
      (s.m.qOn q = true → s.m.qRing q = true → Runs (.ringHeaderRewrite q) s (fun m' =>
        m'.bytes (s.m.qBase q) 64 = s.m.qHeader q ∧ s.m.bytesBut m' (s.m.qBase q) 64 ∧ (m'.q q).hdrCyc = s.m.cyc
          ∧ Touches [.mem, .qmg] s.m m'))
      ∧ (s.m.qOn q = false ∨ s.m.qRing q = false → RunsTo (.ringHeaderRewrite q) s s.m))
    ∧ (∀ src q, wfFrozenResume src q = true → s.m.mayWrite src .qdesc q 0x24 = 0 →
      (s.m.flag (qdesc q 9) fQ_FROZEN = true → Runs (.frozenResume src q) s (fun m' => m'.flag (qdesc q 9) fQ_FROZEN = false
        ∧ m'.status = 0 ∧ s.m.regsBut m' [qdesc q 9] ∧ s.m.bytesBut m' (s.m.qBase q) 64 ∧ Touches [.status, .regs, .mem, .qmg] s.m m'))
      ∧ (s.m.flag (qdesc q 9) fQ_FROZEN = false → Runs (.frozenResume src q) s (fun m' => m'.status = 0 ∧ Touches [.status] s.m m')))

/-! ## The Bexesk link (R361 to R386, R403, R404, R415, R417) -/

/-- Scrambling and descrambling agree whatever state the receiver starts in: from the 59th bit on, what is descrambled is what was sent
(R361). Stuffing (R362): what is stuffed is got back, and no run of identical bits on the lane is longer than 31, so that a marker sequence,
with its 36 (R363), is never met in data. -/
def Obligations.LineCodeIsUndone : Prop :=
  (∀ (tx rx : Nat) (l : List Bool), (descramble rx (scramble tx l)).drop 58 = l.drop 58
    ∧ (descramble tx (scramble tx l)) = l ∧ (scramble tx l).length = l.length)
  ∧ (∀ (l : List Bool), destuff false 0 false (stuff false 0 l) = some l
    ∧ (∀ (b : Bool), ¬ (List.replicate 32 b <:+: stuff false 0 l)) ∧ List.replicate 36 true <:+: markerSeq)

/-- Acknowledgement and replay (R369 to R374). ACK and NAK release what they cover; a NAK, and the replay timeout, send again everything
kept, or retrain the group when the oldest packet was sent four times; the acknowledgement timer sends an ACK; a discarded packet is
counted and answered with a NAK while no NAK is out. -/
def Obligations.LinkAcknowledgesAndReplays : Prop :=
  ∀ (s : State) (g : Nat), g < 2 →
    let m := s.m
    let x := m.g g
    let link (ty : Nat) : Pkt := { ty := ty, ctx := 0, queue := 0, seq := 0, spec := leBytes 2 (x.rxSeq + 65535), payload := [] }
    RunsTo (.idle g) s m
    ∧ (m.linkUp g = false → (∀ seq, seq < 65536 → RunsTo (.ack g seq) s m ∧ RunsTo (.nak g seq) s m)
        ∧ RunsTo (.ackTimer g) s m ∧ RunsTo (.replayTimeout g) s m ∧ ∀ w, RunsTo (.packetDiscard g w) s m)
    ∧ (m.linkUp g = true →
      (∀ seq, seq < 65536 →
        let left := x.kept.dropWhile (fun k => decide ((seq + 65536 - k.pkt.seq) % 65536 < 32768))
        Runs (.ack g seq) s (fun m' => (m'.g g).kept = left ∧ m.grpBut m' g ∧ m.regsBut m' [aLNK_OUTST g] ∧ Touches [.regs, .grp] m m')
        ∧ (left ≠ [] → x.tries < 4 ∨ left.length < x.kept.length → Runs (.nak g seq) s (fun m' =>
            (m'.g g).kept = left ∧ (m'.g g).replay = left.length
            ∧ m'.fld (aLNK_GCNT1 g) fLNK_GCNT1_NAK_RX = min 0xFFFF (m.fld (aLNK_GCNT1 g) fLNK_GCNT1_NAK_RX + 1)
            ∧ m.grpBut m' g ∧ m.regsBut m' [aLNK_OUTST g, aLNK_GCNT1 g] ∧ Touches [.regs, .grp] m m')))
      ∧ (∀ d, x.ackDue = some d → Runs (.ackTimer g) s (fun m' => (m'.g g).linkq = x.linkq ++ [link 1] ∧ (m'.g g).unacked = 0
          ∧ (m'.g g).ackDue = none ∧ m'.cyc = max m.cyc d ∧ m.grpBut m' g ∧ Touches [.cyc, .time, .grp] m m'))
      ∧ (x.kept ≠ [] →
        let due := max m.cyc (x.ackCyc + 800 * max 1 (m.fld aLNK_TMO fLNK_TMO_REPLAY_TMO))
        (x.tries < 4 → Runs (.replayTimeout g) s (fun m' => (m'.g g).replay = x.kept.length ∧ (m'.g g).kept = x.kept ∧ m'.cyc = due
          ∧ m.grpBut m' g ∧ Touches [.cyc, .time, .grp] m m'))
        ∧ (4 ≤ x.tries → Runs (.replayTimeout g) s (fun m' => m'.gState g = 1 ∧ m'.gActive g = 0 ∧ (m'.g g).kept = x.kept ∧ m'.cyc = due
          ∧ m'.fld (aLNK_GCNT2 g) fLNK_GCNT2_RETRAINS = min 0xFF (m.fld (aLNK_GCNT2 g) fLNK_GCNT2_RETRAINS + 1) ∧ m.grpBut m' g
          ∧ Touches [.cyc, .regs, .time, .grp, .lane, .qmg] m m')))
      ∧ (∀ w, w ≠ .duplicate →
        let n := if 800000 ≤ m.cyc - x.discCyc then 1 else x.discards + 1
        let lim := m.fld (aLNK_GCFG g) fLNK_GCFG_ERR_LIM
        x.nakSent = false → lim = 0 ∨ n ≤ lim → Runs (.packetDiscard g w) s (fun m' =>
          (m'.g g).linkq = x.linkq ++ [link 2] ∧ (m'.g g).nakSent = true ∧ (m'.g g).discards = n ∧ (m'.g g).rxSeq = x.rxSeq
          ∧ m'.fld (aLNK_GCNT1 g) fLNK_GCNT1_NAK_TX = min 0xFFFF (m.fld (aLNK_GCNT1 g) fLNK_GCNT1_NAK_TX + 1)
          ∧ (w = .crc → m'.fld (aLNK_GCNT0 g) fLNK_GCNT0_CRC_ERR = min 0xFFFF (m.fld (aLNK_GCNT0 g) fLNK_GCNT0_CRC_ERR + 1))
          ∧ (w = .hchk ∨ w = .header → m'.fld (aLNK_GCNT0 g) fLNK_GCNT0_HCHK_ERR = min 0xFFFF (m.fld (aLNK_GCNT0 g) fLNK_GCNT0_HCHK_ERR + 1))
          ∧ (w = .gap → m'.fld (aLNK_GCNT3 g) fLNK_GCNT3_SEQ_ERR = min 0xFFFF (m.fld (aLNK_GCNT3 g) fLNK_GCNT3_SEQ_ERR + 1))
          ∧ (∀ l, l < 4 → w = .stuffing l →
              m'.fld (aLNK_LSTAT (4 * g + l)) fLNK_LSTAT_CODE_ERR = min 0xFFFF (m.fld (aLNK_LSTAT (4 * g + l)) fLNK_LSTAT_CODE_ERR + 1))
          ∧ (∀ l, l < 4 → w = .marker l →
              m'.fld (aLNK_LCNT (4 * g + l)) fLNK_LCNT_MARKER_ERR = min 0xFFFF (m.fld (aLNK_LCNT (4 * g + l)) fLNK_LCNT_MARKER_ERR + 1))
          ∧ m.grpBut m' g ∧ Touches [.regs, .grp] m m')))

/-- Training and bonding (R366, R375 to R380). A TRAIN packet of another group excludes the lane; 8 valid ones bring a lane into step, 8 more
that report it LOCKED make it ALIGNED. The ALIGNED lanes bond: sequences start anew when the far end reports FRESH, and otherwise everything
kept is sent again. A group that has not bonded in 1 ms tries one rung lower. A rate change is refused with its reason, or runs: RATE goes
out after an ACK, and the group retrains at the rung once REPLY has come. -/
def Obligations.LanesTrainAndBond : Prop :=
  ∀ (s : State),
    let m := s.m
    (∀ l t, wfTrain l t = true →
      let g := l / 4
      m.training g = true → (m.laneMask g).testBit (l % 4) = true → (m.l l).barred = false → m.dev.st ≠ .off → m.dev.st ≠ .reset →
      (m.dev.st = .boot → m.dev.bist ≠ none) →
      (t.group ≠ g → Runs (.train l t) s (fun m' => m'.lState l = 4 ∧ (m'.l l).barred = true ∧ m.regsBut m' [aLNK_LSTAT l]
          ∧ Touches [.regs, .lane] m m'))
      ∧ (t.group = g →
        (m.l l).valid < 8 → Runs (.train l t) s (fun m' => m'.lState l = 1 ∧ (m'.l l).valid = (m.l l).valid + 1
          ∧ (m'.l l).farLane = t.lane ∧ (m'.g g).farNext = t.nextSeq ∧ (m'.g g).farFresh = t.fresh
          ∧ (m.gState g = 0 → m'.gState g = 1) ∧ m.grpBut m' g ∧ m.regsBut m' [aLNK_LSTAT l, aLNK_GSTAT g]
          ∧ Touches [.regs, .grp, .lane, .qmg] m m'))
      ∧ (t.group = g → (m.l l).valid = 8 → t.locked = true → m.lState l = 1 → Runs (.train l t) s (fun m' =>
          (m'.l l).locked = (m.l l).locked + 1 ∧ m'.lState l = (if 8 ≤ (m.l l).locked + 1 then 2 else 1)
          ∧ m.grpBut m' g ∧ m.regsBut m' [aLNK_LSTAT l, aLNK_GSTAT g] ∧ Touches [.regs, .grp, .lane, .qmg] m m')))
    ∧ (∀ g, g < 2 → m.training g = true → m.dev.st ≠ .boot →
      let bonds (m' : Mach) (mask : Nat) : Prop := m'.gState g = 2 ∧ m'.gActive g = mask ∧ (m'.g g).fresh = false
        ∧ ((m.g g).farFresh = true → (m'.g g).kept = [] ∧ (m'.g g).txSeq = 0 ∧ (m'.g g).rxSeq = 0
            ∧ m'.fld (aLNK_GSTAT g) fLNK_GSTAT_FRESH_SEEN = 1)
        ∧ ((m.g g).farFresh = false → (m'.g g).rxSeq = (m.g g).rxSeq ∧ (m'.g g).txSeq = (m.g g).txSeq
            ∧ (m'.g g).replay = (m'.g g).kept.length ∧ ((m.g g).fresh = true → (m'.g g).kept = (m.g g).kept))
        ∧ m.grpBut m' g ∧ Touches [.cyc, .time, .regs, .grp, .lane, .qmg] m m'
      m.aligned g ≠ 0 →
      (m.aligned g = ofBits ((bitsOf 4 (m.laneMask g)).filter (fun i => !(m.l (4 * g + i)).barred)) →
        Runs (.groupBond g 0) s (fun m' => bonds m' (m.aligned g) ∧ m'.cyc = m.cyc))
      ∧ (∀ c, (m.g g).alignCyc = some c → Runs (.bondTimeout g 0) s (fun m' => bonds m' (m.aligned g) ∧ m'.cyc = max m.cyc (c + 80000))))
    ∧ (∀ g, g < 2 → m.training g = true → Runs (.trainingTimeout g) s (fun m' =>
        m'.fld (aLNK_GSTAT g) fLNK_GSTAT_RUNG = min (m.fld (aLNK_GSTAT g) fLNK_GSTAT_RUNG - 1) (m.maxRung g)
        ∧ m'.gState g = m.gState g ∧ (m'.g g).kept = (m.g g).kept ∧ m'.cyc = max m.cyc ((m.g g).trainCyc + 800000) ∧ m.grpBut m' g
        ∧ Touches [.cyc, .time, .regs, .grp, .lane, .qmg] m m'))
    ∧ (∀ src g v, wfRateChangeRequest src g v = true → m.mayWrite src .lnk 0 (4 + 0x40 * g) = 0 →
      let t := fLNK_RATE_TARGET.get v
      let far := m.fld (aLNK_GSTAT g) fLNK_GSTAT_FAR_MAX
      (fLNK_RATE_GO.get v = 0 → RunsTo (.rateChangeRequest src g v) s (m.done 0))
      ∧ (∀ err, fLNK_RATE_GO.get v = 1 → ((m.maxRung g < t ∨ far < t) ∧ err = 1)
            ∨ (t ≤ m.maxRung g ∧ t ≤ far ∧ (((m.g g).rateTo ≠ none ∧ err = 4) ∨ ((m.g g).rateTo = none ∧ m.bonded g = false ∧ err = 3)
              ∨ ((m.g g).rateTo = none ∧ m.bonded g = true ∧ m.hot = true ∧ m.bonded (1 - g) = false ∧ err = 2))) →
          Runs (.rateChangeRequest src g v) s (fun m' => m'.fld (aLNK_GSTAT g) fLNK_GSTAT_REQ_ERR = err ∧ m'.status = 1
            ∧ m.regsBut m' [aLNK_GSTAT g] ∧ Touches [.status, .regs] m m'))
      ∧ (fLNK_RATE_GO.get v = 1 → t ≤ m.maxRung g → t ≤ far → (m.g g).rateTo = none → m.bonded g = true → m.hot = false ∨ m.bonded (1 - g) = true →
          Runs (.rateChangeRequest src g v) s (fun m' => m'.gState g = 3 ∧ (m'.g g).rateTo = some t ∧ (∃ a b, a.ty = 1 ∧ b.ty = 4
            ∧ b.spec = leBytes 1 t ∧ (m'.g g).linkq = (m.g g).linkq ++ [a, b]) ∧ m'.fld (aLNK_GSTAT g) fLNK_GSTAT_REQ_ERR = 0 ∧ m'.status = 0
            ∧ m.grpBut m' g ∧ m.regsBut m' [aLNK_GSTAT g] ∧ Touches [.status, .regs, .grp, .qmg] m m')))
    ∧ (∀ g t, g < 2 → t < 8 → m.linkUp g = true →
      let trains (m' : Mach) (r : Nat) : Prop := m'.gState g = 3 ∧ m'.gActive g = 0 ∧ m'.fld (aLNK_GSTAT g) fLNK_GSTAT_RUNG = min r (m.maxRung g)
        ∧ (m'.g g).kept = (m.g g).kept ∧ m.grpBut m' g ∧ Touches [.regs, .grp, .lane, .qmg] m m'
      ((m.g g).rateTo = none → RunsTo (.rate g true t) s m)
      ∧ (∀ r, (m.g g).rateTo = some r → Runs (.rate g true t) s (fun m' => trains m' r))
      ∧ (m.maxRung g < t → RunsTo (.rate g false t) s m)
      ∧ (t ≤ m.maxRung g → Runs (.rate g false t) s (fun m' => trains m' t
          ∧ (m'.g g).wire = some { ty := 4, ctx := 0, queue := 0, seq := 0, spec := leBytes 1 (128 + t), payload := [] })))

/-- Lanes lost and regained (R360, R375, R381 to R383). A lane in traffic that is lost is counted and the group sends REBOND with the lanes
that remain, or is DOWN when none does; REBOND ends with the intersection of the masks; a lane outside a bonded group retrains alone and
rejoins in a rebond; a lane that trains sends TRAIN packets; the equaliser moves one step toward its goal. -/
def Obligations.LanesAreLostAndRejoin : Prop :=
  ∀ (s : State) (l : Nat), l < 8 →
    let m := s.m
    let g := l / 4
    let own := (m.g g).rebond.getD (m.gActive g)
    let left := (own - 2 ^ (l % 4)) &&& m.laneMask g
    (m.laneServes l = false → ∀ w, RunsTo (.laneLoss l w) s m)
    ∧ (∀ w, m.laneServes l = true →
      (left = 0 → Runs (.laneLoss l w) s (fun m' => m'.gState g = 0 ∧ m'.gActive g = 0 ∧ m'.lState l = 0))
      ∧ (left ≠ 0 → Runs (.laneLoss l w) s (fun m' => m'.gState g = 4 ∧ (m'.g g).rebond = some left
          ∧ (m'.g g).linkq.getLast? = some { ty := 5, ctx := 0, queue := 0, seq := 0, spec := leBytes 1 left, payload := [] })))
    ∧ (∀ mask, mask < 16 →
      let ends (c : Instr) (k : Nat) : Prop :=
        (k = 0 → Runs c s (fun m' => m'.gState g = 0 ∧ m'.gActive g = 0 ∧ (m'.g g).kept = (m.g g).kept ∧ m.grpBut m' g
          ∧ Touches [.regs, .grp, .lane, .qmg] m m'))
        ∧ (0 < k → k < 16 → (m.g g).tries < 4 → Runs c s (fun m' => m'.gState g = 2 ∧ m'.gActive g = k ∧ (m'.g g).kept = (m.g g).kept
          ∧ ((m.g g).kept ≠ [] → (m'.g g).replay = (m.g g).kept.length) ∧ (m'.g g).rebond = none
          ∧ m'.fld (aLNK_GCNT3 g) fLNK_GCNT3_REBONDS = min 0xFF (m.fld (aLNK_GCNT3 g) fLNK_GCNT3_REBONDS + 1) ∧ m.grpBut m' g
          ∧ Touches [.regs, .grp, .lane, .qmg] m m'))
      (∀ k, (m.g g).rebond = some k → m.gState g = 4 → ends (.rebond g true mask) (k &&& mask))
      ∧ (m.gState g = 2 ∨ m.gState g = 4 → ends (.rebond g false mask) ((m.g g).rebond.getD (m.received g) &&& mask)))
    ∧ (m.gState g = 2 → (m.gActive g).testBit (l % 4) = false → (m.laneMask g).testBit (l % 4) = true → Runs (.laneRetrain l) s (fun m' =>
        m'.lState l = 1 ∧ (m'.l l).valid = 0 ∧ (m'.l l).locked = 0 ∧ m.regsBut m' [aLNK_LSTAT l] ∧ Touches [.regs, .lane] m m'))
    ∧ (m.gState g = 2 → m.lState l = 2 → m.flag (aLNK_GCFG g) fLNK_GCFG_REJOIN_EN = true → (m.laneMask g).testBit (l % 4) = true →
        m.bonded (1 - g) = true → (m.g (1 - g)).rateTo = none → m.hot = false → Runs (.laneRejoin l) s (fun m' => m'.gState g = 4
          ∧ (m'.g g).rebond = some ((m.gActive g ||| 2 ^ (l % 4)) &&& m.laneMask g) ∧ m.grpBut m' g ∧ m.regsBut m' [aLNK_GSTAT g]
          ∧ Touches [.regs, .grp, .qmg] m m'))
    ∧ (let now := m.fld (aLNK_LSTAT l) fLNK_LSTAT_EQ
       let goal := (m.l l).eqGoal
       goal < 16 → Runs (.equaliserPresetStep l) s (fun m' =>
        m'.fld (aLNK_LSTAT l) fLNK_LSTAT_EQ = (if now < goal then now + 1 else if goal < now then now - 1 else now)
        ∧ m.regsBut m' [aLNK_LSTAT l] ∧ Touches [.regs] m m'))
    ∧ (m.training g = true → (m.laneMask g).testBit (l % 4) = true → Runs (.markerTimer l) s (fun m' =>
        (m'.l l).line = (lineBits (m.l l).scr 288
          ({ ty := 3, ctx := 0, queue := 0, seq := 0, spec := [], payload := m.trainPayload l : Pkt }.bytes false)).1
        ∧ (∀ k, k ≠ l → m'.l k = m.l k) ∧ Touches [.lane] m m'))

/-- Egress (R370 to R372, R396, R403, R404, R415, R417). Link packets leave first, then the running replay, then SAFE packets, answers and
DATA, and nothing new while a limit on what is unacknowledged is reached; a sequenced packet takes the next SEQ and is kept; DATA uses the
queue's credit and counts in PKTS. A queue with GROUP 2 leaves a group that has been lost; a packet that waits too long is notified. -/
def Obligations.EgressSendsInOrder : Prop :=
  ∀ (s : State),
    let m := s.m
    (∀ g ph, g < 2 → ph < 16 →
      let x := m.g g
      let c := Instr.egressGrant g ph
      let launched (m' : Mach) (p : Pkt) : Prop :=
        (m'.g g).txSeq = (x.txSeq + 1) % 65536 ∧ (m'.g g).wire = some { p with seq := x.txSeq }
        ∧ (∃ k, (m'.g g).kept = x.kept ++ [k] ∧ k.pkt = { p with seq := x.txSeq } ∧ k.sent = 1)
        ∧ m'.lane = (m.sendOn (lanesOf g (m.gActive g)) (({ p with seq := x.txSeq } : Pkt).bytes false)).lane ∧ m.grpBut m' g
      (∀ p t, x.linkq = p :: t → m.linkUp g = true → p.ty ≠ 5 → Runs c s (fun m' => (m'.g g).linkq = t ∧ (m'.g g).wire = some p
        ∧ m'.lane = (m.sendOn (lanesOf g (m.gActive g)) (p.bytes false)).lane ∧ m.grpBut m' g ∧ Touches [.grp, .lane] m m'))
      ∧ (x.linkq = [] → m.linkUp g = false → RunsTo c s m)
      ∧ (x.linkq = [] → m.linkUp g = true →
        (∀ k, x.replay ≠ 0 → x.kept[x.kept.length - x.replay]? = some k → Runs c s (fun m' => (m'.g g).replay = x.replay - 1
          ∧ (m'.g g).wire = some k.pkt ∧ m'.lane = (m.sendOn (lanesOf g (m.gActive g)) (k.pkt.bytes true)).lane
          ∧ m'.fld (aLNK_GCNT2 g) fLNK_GCNT2_REPLAYS = min 0xFFFF (m.fld (aLNK_GCNT2 g) fLNK_GCNT2_REPLAYS + 1) ∧ m.grpBut m' g
          ∧ Touches [.regs, .grp, .lane] m m'))
        ∧ (∀ p t, x.replay = 0 → x.safeq = p :: t →
            (m.mayKeep g p.size = false → RunsTo c s m)
            ∧ (m.mayKeep g p.size = true → Runs c s (fun m' => (m'.g g).safeq = t ∧ launched m' p ∧ Touches [.regs, .grp, .lane] m m')))
        ∧ (∀ p t, x.replay = 0 → x.safeq = [] → x.respq = p :: t →
            (m.mayKeep g p.size = false → RunsTo c s m)
            ∧ (m.mayKeep g p.size = true → Runs c s (fun m' => (m'.g g).respq = t ∧ launched m' p ∧ Touches [.regs, .grp, .lane] m m')))
        ∧ (x.replay = 0 → x.safeq = [] → x.respq = [] →
            (m.qWinner g = none → RunsTo c s m)
            ∧ (∀ q, m.qWinner g = some q → m.mayKeep g (m.dataPacket q).size = true → Runs c s (fun m' =>
              let credit := m.fld (qdesc q 7) fQ_ALL
              launched m' (m.dataPacket q) ∧ (m'.g g).lastq = q
              ∧ m'.fld (qdesc q 7) fQ_ALL = (if credit = 0xFFFFFFFF then credit
                  else credit - divCeil (m.dataPacket q).payload.length 64)
              ∧ m'.fld (qdesc q 15) fQ_ALL = (m.fld (qdesc q 15) fQ_ALL + 1) % 2 ^ 32 ∧ (m'.q q).dropped = false
              ∧ Touches [.regs, .grp, .lane, .qmg] m m')))))
    ∧ (∀ q, wfQueueGroupChange q = true → m.qOn q = true → 2 ≤ m.fld (qdesc q 0) fQ_GROUP → m.bonded (m.qGroup q) = false →
        m.bonded (1 - m.qGroup q) = true → Runs (.queueGroupChange q) s (fun m' => m'.qGroup q = 1 - m.qGroup q
          ∧ m'.cyc = max m.cyc ((m.g (m.qGroup q)).downSince + 8000) ∧ m.regsBut m' [qdesc q 0] ∧ Touches [.cyc, .regs, .time, .qmg] m m'))
    ∧ (∀ q c, wfQueueStarve q = true → (m.q q).eligible = some c → Runs (.queueStarve q) s (fun m' =>
        m'.cyc = max m.cyc (c + m.qstarve + 1) ∧ (m'.fld aARB_STAT fARB_STAT_EGR).testBit (m.qGroup q) = true
        ∧ Touches [.cyc, .regs, .time, .grp] m m'))

/-- Requests and answers (R387, R392 to R397). A packet of a disabled context, a misaligned one, one with a wrong number of words and one of a
wrong type is answered with its status and changes nothing else; a READ is answered with the words at its address, a WRITE does as the words'
writes do; CREDIT adds to, or sets, a queue's credit within its context; a TSYNC request is stamped and echoed. -/
def Obligations.RequestsAreAnswered : Prop :=
  ∀ (s : State) (g : Nat), g < 2 → s.m.linkUp g = true →
    let m := s.m.accept g
    let seq := (s.m.g g).rxSeq % 65536
    let answer (ctx st bad : Nat) (data : List Word) : Pkt :=
      { ty := 0x12, ctx := ctx, queue := 0, seq := 0, spec := leBytes 2 seq ++ [BitVec.ofNat 8 st, 0] ++ leBytes 2 bad
        payload := data.flatMap (fun w => leBytes 4 w.toNat) }
    let only (c : Instr) (p : Pkt) : Prop :=
      Runs c s (fun m' => (m'.g g).respq = (s.m.g g).respq ++ [p] ∧ (m'.g g).rxSeq = (seq + 1) % 65536 ∧ s.m.grpBut m' g ∧ Touches [.grp] s.m m')
    (∀ h ecc, wfRead g h ecc = true →
      (m.ctxOn h.ctx = false → only (.read g h ecc) (answer h.ctx 7 0 (List.replicate h.nw 0)))
      ∧ (m.ctxOn h.ctx = true → h.addr % 4 ≠ 0 → only (.read g h ecc) (answer h.ctx 4 0 (List.replicate h.nw 0)))
      ∧ (m.ctxOn h.ctx = true → h.addr % 4 = 0 → Runs (.read g h ecc) s (fun m' =>
          let r := m.readWords s.otp h.ctx g h.addr ecc h.nw
          m' = (r.2.done r.1.st).respond g (answer h.ctx r.1.st r.1.bad r.1.data))))
    ∧ (∀ h ws, wfWrite g h ws = true →
      (m.ctxOn h.ctx = false → only (.write g h ws) (answer h.ctx 7 0 []))
      ∧ (m.ctxOn h.ctx = true → ws.length ≠ h.nw → only (.write g h ws) (answer h.ctx 8 0 []))
      ∧ (m.ctxOn h.ctx = true → ws.length = h.nw → h.addr % 4 ≠ 0 → only (.write g h ws) (answer h.ctx 4 0 []))
      ∧ (∀ w, m.ctxOn h.ctx = true → ws = [w] → h.nw = 1 → h.addr % 4 = 0 → h.addr ≠ aQMG_ROLES → Runs (.write g h ws) s (fun m' =>
          let r := m.linkWrite s.otp h.ctx g h.addr w
          m' = (r.done r.status).respond g (answer h.ctx r.status 0 []))))
    ∧ (∀ ctx ty, wfBadtype g ctx ty = true →
      (ty = 0x10 ∨ ty = 0x11 → only (.badtype g ctx ty) (answer ctx (if m.ctxOn ctx then 8 else 7) 0 []))
      ∧ (ty = 0x12 ∨ ty = 0x13 ∨ 0x19 ≤ ty → m.dev.st ≠ .shutdown → m.ctxOn ctx = true → only (.badtype g ctx ty) (answer ctx 8 0 []))
      ∧ (ty = 0x12 ∨ ty = 0x13 ∨ 0x19 ≤ ty → m.dev.st ≠ .shutdown → m.ctxOn ctx = false → Runs (.badtype g ctx ty) s (fun m' =>
          m'.fld (aQMG_CTX 0) fQMG_CTX_BADPKT = min 0xFF (s.m.fld (aQMG_CTX 0) fQMG_CTX_BADPKT + 1) ∧ s.m.regsBut m' [aQMG_CTX 0]
            ∧ (m'.g g).respq = (s.m.g g).respq ∧ Touches [.regs, .grp] s.m m')))
    ∧ (∀ ctx q n set_, wfCredit g ctx (.one q n set_) = true → m.dev.st ≠ .shutdown → m.ctxOn ctx = true →
      let old := s.m.fld (qdesc q 7) fQ_ALL
      (ctx = s.m.owner ∨ q / 4096 = ctx → Runs (.credit g ctx (.one q n set_)) s (fun m' =>
          m'.fld (qdesc q 7) fQ_ALL = (if set_ then n else if old = 0xFFFFFFFF then old else min 0xFFFFFFFE (old + n))
          ∧ s.m.regsBut m' [qdesc q 7] ∧ Touches [.regs, .grp, .qmg] s.m m'))
      ∧ (ctx ≠ s.m.owner → q / 4096 ≠ ctx → Runs (.credit g ctx (.one q n set_)) s (fun m' =>
          m'.fld (aQMG_CTX ctx) fQMG_CTX_BADPKT = min 0xFF (s.m.fld (aQMG_CTX ctx) fQMG_CTX_BADPKT + 1) ∧ s.m.regsBut m' [aQMG_CTX ctx]
          ∧ Touches [.regs, .grp] s.m m')))
    ∧ (∀ ctx id rpl ph, wfTsync g ctx id false rpl ph = true → m.dev.st ≠ .shutdown → m.ctxOn ctx = true →
      Runs (.tsync g ctx id false rpl ph) s (fun m' =>
        (m'.g g).respq = (s.m.g g).respq ++ [{ ty := 0x15, ctx := ctx, queue := 0, seq := 0, spec := leBytes 4 id.toNat ++ [1, 0], payload := [] }]
        ∧ (∃ t, (m'.g g).tspend = (s.m.g g).tspend ++ [t] ∧ t.ctx = ctx ∧ t.tsid = leBytes 4 id.toNat ∧ t.rpl = rpl
            ∧ t.ingress = s.m.laneStamp ph (-(s.m.fld (aTIME_LAT g) fTIME_LAT_ING_PS : Int)))
        ∧ s.m.grpBut m' g ∧ Touches [.grp] s.m m'))

/-! ## Resets, start-up, device states (R43 to R64) -/

/-- A device reset (R36, R48 to R50, R53): from any state but OFF and SHUTDOWN PORST_N_ASSERT, the loss of the root PLL, the host's request
when it falls due and a trip of VDD_CORE, VDD_SRAM, VDDA_PLL or VDD_IO return the device to RESET; programs, tables and engines start anew and
PWR_RST_CAUSE keeps the causes, COLD alone after a cold reset; DRAM is lost but for a host reset with KEEP_DRAM. SUPPLY_RISE leads from OFF to
RESET, SUPPLY_REMOVE from any state to OFF. -/
def Obligations.ResetsReturnToReset : Prop :=
  ∀ (s : State),
    let m := s.m
    let fresh (m' : Mach) : Prop := m'.eng = [] ∧ m'.shadow = [] ∧ m'.commits = [] ∧ m'.sems = [] ∧ m'.grp = [] ∧ m'.qmg.qs = [] ∧ m'.port = []
      ∧ m'.axis = [] ∧ m'.tap = m.tap ∧ m'.dev.resetDue = none ∧ m'.dev.pllLocked = false ∧ m'.dev.bist = none ∧ m'.dev.loadedOnce = false
      ∧ (∀ e, e < 282 → m'.reg (engPage e) = resetWord (engPage e)) ∧ m'.gateOpen = false ∧ ∀ p, p < 2 → m'.pairOn p = false
    let resets (m' : Mach) (cause : Word) : Prop := m'.dev.st = .reset ∧ fresh m' ∧ m'.mem = [] ∧ m'.reg aPWR_RST_CAUSE = cause
      ∧ m'.fld aGLB_STATE fGLB_STATE_PREV = m.dev.st.code
    let was := m.reg aPWR_RST_CAUSE
    (m.dev.st = .off → Runs .supplyRise s (fun m' => resets m' 1 ∧ m'.cyc = m.cyc))
    ∧ (m.dev.st ≠ .off → RunsTo .supplyRise s m)
    ∧ Runs .supplyRemove s (fun m' => m'.dev.st = .off ∧ m'.regs = [] ∧ m'.shadow = [] ∧ m'.mem = [] ∧ m'.eng = [] ∧ m'.sems = []
        ∧ m'.qmg.qs = [] ∧ m'.cyc = m.cyc)
    ∧ (m.dev.st = .off ∨ m.dev.st = .shutdown → Runs .porstAssert s (fun m' => m'.dev.st = m.dev.st ∧ m'.dev.porstLow = true ∧ Touches [.dev] m m'))
    ∧ (m.dev.st ≠ .off → m.dev.st ≠ .shutdown →
      Runs .porstAssert s (fun m' => resets m' 1 ∧ m'.dev.porstLow = true ∧ m'.cyc = m.cyc)
      ∧ Runs .rootPllUnlock s (fun m' => resets m' (was ||| 4) ∧ m'.flag aCLK_STAT fCLK_STAT_ROOT_UNLOCK = true ∧ m'.cyc = m.cyc)
      ∧ (∀ w, wfSupplyMonitorTrip w = true → w &&& (0x1FF ^^^ (m.dev.low &&& 0x1FF)) &&& 0x10B ≠ 0 → Runs (.supplyMonitorTrip w) s (fun m' =>
          resets m' (was ||| 2) ∧ m'.dev.low = m.dev.low ||| (w &&& (0x1FF ^^^ (m.dev.low &&& 0x1FF)))))
      ∧ (∀ c skip keep, m.dev.resetDue = some (c, skip, keep) →
          (keep = false ∨ m.flag aMEM_STAT fMEM_STAT_READY = false → Runs .hostResetStart s (fun m' => resets m' (was ||| 8)
            ∧ m'.dev.bistSkip = skip ∧ m'.dev.dramKept = false ∧ m'.cyc = max m.cyc c))
          ∧ (keep = true → m.flag aMEM_STAT fMEM_STAT_READY = true → Runs .hostResetStart s (fun m' => m'.dev.st = .reset ∧ fresh m'
            ∧ m'.dev.bistSkip = skip ∧ m'.dev.dramKept = true ∧ m'.reg aPWR_RST_CAUSE = was ||| 8 ∧ m'.reg aMEM_CFG = m.reg aMEM_CFG
            ∧ (∀ c ∈ m'.mem, 0x80_0000_0000 ≤ c.1 ∧ c.1 < 0xA0_0000_0000)
            ∧ (∀ c ∈ m.mem, 0x80_0000_0000 ≤ c.1 → c.1 < 0xA0_0000_0000 → c ∈ m'.mem) ∧ m'.cyc = max m.cyc c))))

/-- Start-up and supervision (R43 to R47, R49, R53, R58, R64, R536). Release of PORST_N starts the root PLL; its lock, and then the OTP load,
lead to BOOT with device time at 0; the end of BIST starts training on both groups; a restore after KEEP_DRAM sets READY. A host's reset
request with the key falls due 10 µs later. The clock monitor records its count and passes within ±8 %; HKREF_OK sets when it falls due; a
supply that recovers reads OK again. -/
def Obligations.StartupReachesBootAndTraining : Prop :=
  ∀ (s : State),
    let m := s.m
    Runs .porstRelease s (fun m' => m'.dev.porstLow = false ∧ m'.dev.pllRetry = m.cyc + 160000 ∧ m'.dev.st = m.dev.st ∧ Touches [.dev] m m')
    ∧ (m.dev.st = .reset → m.dev.porstLow = false → m.tap.extest = false → Runs .rootPllLock s (fun m' => m'.dev.pllLocked = true
        ∧ m'.flag aCLK_STAT fCLK_STAT_ROOT_LOCK = true ∧ m'.dev.st = .reset ∧ m.regsBut m' [aCLK_STAT] ∧ Touches [.dev, .regs] m m'))
    ∧ (m.dev.st = .reset → m.dev.pllLocked = false → m.dev.porstLow = false → Runs .pllLockRetry s (fun m' => m'.dev.st = .reset
        ∧ m'.cyc = max m.cyc m.dev.pllRetry ∧ m'.dev.pllRetry = m'.cyc + 800000 ∧ Touches [.cyc, .dev, .time] m m'))
    ∧ (m.dev.st = .reset → m.dev.porstLow = false → m.tap.extest = false → m.dev.low &&& 0x10B = 0 →
        (m.dev.pllLocked = false → RunsTo .otpLoadDone s m)
        ∧ (m.dev.pllLocked = true → Runs .otpLoadDone s (fun m' => m'.dev.st = .boot ∧ m'.time.now = { sec := 0, ns := 0, frac := 0 }
          ∧ m'.fld aGLB_STATE fGLB_STATE_PREV = 1 ∧ m'.fld aGLB_STATE fGLB_STATE_TRANS_CNT = 0
          ∧ m'.fld aGLB_ID fGLB_ID_GRADE = s.otp.grade % 2 ^ fGLB_ID_GRADE.width ∧ m.regsBut m' [aGLB_STATE, aGLB_ID] ∧ Touches [.dev, .regs, .time] m m')))
    ∧ (∀ pass, m.dev.st = .boot → m.dev.bist = none → Runs (.bistDone pass) s (fun m' => m'.dev.bist = some pass ∧ m'.dev.st = .boot
        ∧ (∀ g, g < 2 → m'.gState g = 1 ∧ m'.gActive g = 0 ∧ m'.fld (aLNK_GSTAT g) fLNK_GSTAT_RUNG = 0)
        ∧ Touches [.dev, .regs, .grp, .lane, .qmg] m m'))
    ∧ (m.dev.st = .boot → m.dev.dramKept = true → Runs (.dramRestore 0) s (fun m' => m'.flag aMEM_STAT fMEM_STAT_READY = true
        ∧ m'.fld aMEM_STAT fMEM_STAT_TRAINERR = 0 ∧ m'.flag aPWR_RST_CAUSE fPWR_RST_CAUSE_KEPT_DRAM = true ∧ m'.dev.dramKept = false
        ∧ m.regsBut m' [aMEM_STAT, aPWR_RST_CAUSE] ∧ Touches [.dev, .regs] m m'))
    ∧ (∀ ctx v, wfHostReset ctx v = true →
        (m.ctxOn ctx = false → RunsTo (.hostReset ctx v) s (m.done 7))
        ∧ (m.ctxOn ctx = true → m.dev.st ≠ .shutdown → ctx ≠ m.owner → RunsTo (.hostReset ctx v) s (m.done 3))
        ∧ (ctx = m.owner → m.ctxOn ctx = true → m.dev.st ≠ .shutdown →
          (fPWR_RESET_REQ_KEY.get v ≠ 0x5A17 ∨ fPWR_RESET_REQ_GO.get v = 0 → RunsTo (.hostReset ctx v) s (m.done 0))
          ∧ (fPWR_RESET_REQ_KEY.get v = 0x5A17 → fPWR_RESET_REQ_GO.get v = 1 → Runs (.hostReset ctx v) s (fun m' => m'.status = 0
            ∧ m'.dev.resetDue = some (m.cyc + 8000, fPWR_RESET_REQ_BIST_SKIP.get v == 1, fPWR_RESET_REQ_KEEP_DRAM.get v == 1)
            ∧ m'.dev.st = m.dev.st ∧ Touches [.status, .dev] m m'))))
    ∧ (∀ k, 7360 ≤ k → k ≤ 8640 → m.dev.st ≠ .off → m.dev.st ≠ .reset → m.dev.st ≠ .shutdown → Runs (.clockMonitorWindow k true) s (fun m' =>
        m'.fld aCLK_STAT fCLK_STAT_GOSC_KHZ = 400000000 / k ∧ m'.flag aCLK_STAT fCLK_STAT_GOSC_OK = true ∧ m.regsBut m' [aCLK_STAT]
        ∧ Touches [.regs] m m'))
    ∧ (∀ c, m.hk.refDue = some c → Runs .hkrefOkSet s (fun m' => m'.flag aHK_CTRL fHK_CTRL_HKREF_OK = true ∧ m'.hk.refDue = none
        ∧ m'.cyc = max m.cyc c ∧ m.regsBut m' [aHK_CTRL, aHK_STAT] ∧ Touches [.cyc, .time, .regs, .hk] m m'))
    ∧ (∀ i, i < 9 → m.dev.low < 0x200 → m.dev.low.testBit i = true → i ≠ 6 → Runs (.supplyMonitorRelease i) s (fun m' =>
        m'.dev.low = m.dev.low - 2 ^ i ∧ m'.fld aPWR_SUPPLY_STAT fPWR_SUPPLY_STAT_OK = 0x1FF - m'.dev.low ∧ m'.dev.st = m.dev.st
        ∧ m.regsBut m' [aPWR_SUPPLY_STAT] ∧ Touches [.dev, .regs] m m'))

/-- Requests of a device state (R53 to R57). The first failure in the order context, key, target and transition, conditions is recorded in
REQ_ERR and nothing else changes; a request of the current state does nothing; ARMED needs the four arming conditions; RUNNING, LINKED and
OASIS are entered where R53 allows it. -/
def Obligations.StateRequestsFollowTheTransitions : Prop :=
  ∀ (s : State) (ctx key : Nat), ctx < 8 → key < 65536 → s.m.ctxOn ctx = true → s.m.dev.st ≠ .shutdown →
    let m := s.m
    let err (c : Instr) (v : Nat) : Prop := Runs c s (fun m' => m'.fld aGLB_STATE fGLB_STATE_REQ_ERR = v ∧ m'.dev = m.dev ∧ m'.status = 0
      ∧ m.regsBut m' [aGLB_STATE] ∧ Touches [.status, .regs] m m')
    let reaches (m' : Mach) (t : DevState) : Prop := m'.dev.st = t ∧ m'.fld aGLB_STATE fGLB_STATE_PREV = m.dev.st.code ∧ m'.status = 0
    let to_ (c : Instr) (t : DevState) : Prop := Runs c s (fun m' => reaches m' t
      ∧ m'.fld aGLB_STATE fGLB_STATE_TRANS_CNT = (m.fld aGLB_STATE fGLB_STATE_TRANS_CNT + 1) % 256
      ∧ m'.fld aGLB_STATE fGLB_STATE_REQ_ERR = 0 ∧ Touches [.status, .dev, .regs, .grp] m m')
    let req (t : DevState) (c : Instr) : Prop :=
      (ctx ≠ m.owner → t ≠ .oasis ∨ ctx ≠ m.safetyCtx → err c 4)
      ∧ (ctx = m.owner ∨ (t = .oasis ∧ ctx = m.safetyCtx) →
        (key ≠ 0x5A17 → err c 5)
        ∧ (key = 0x5A17 → m.dev.st = t → err c 0)
        ∧ (key = 0x5A17 → m.dev.st ≠ t → transitionOk m.dev.st t m.dev.loadedOnce = false → err c 1)
        ∧ (key = 0x5A17 → transitionOk m.dev.st t m.dev.loadedOnce = true → m.dev.st = .oasis → m.dev.causes.all m.cleared = false → err c 6))
    let c3 := Instr.requestLinked ctx key
    let c4 := Instr.requestLoaded ctx key
    let c5 := Instr.requestArmed ctx key
    let c6 := Instr.requestRunning ctx key
    let c7 := Instr.requestOasis ctx key
    req .linked c3 ∧ req .loaded c4 ∧ req .armed c5 ∧ req .running c6 ∧ req .oasis c7
    ∧ (ctx = m.owner → key = 0x5A17 →
      (m.dev.st = .loaded → m.armable = false ∨ m.flag aCLK_STAT fCLK_STAT_GOSC_OK = false → err c5 2)
      ∧ (m.dev.st = .loaded → m.armable = true → m.flag aCLK_STAT fCLK_STAT_GOSC_OK = true → to_ c5 .armed)
      ∧ (m.dev.st = .armed → to_ c6 .running)
      ∧ (m.dev.st = .running → Runs c5 s (fun m' => reaches m' .armed ∧ Touches [.status, .dev, .regs, .mem, .grp, .qmg, .saf] m m'))
      ∧ (m.hot = true → Runs c4 s (fun m' => reaches m' .loaded))
      ∧ (m.dev.st = .linked → (∀ e, e < 282 → m.loadOk e = true) → to_ c4 .loaded)
      ∧ (m.dev.st = .linked → (∃ e, e < 282 ∧ m.loadOk e = false) → Runs c4 s (fun m' => m'.dev.st = .linked
          ∧ m'.fld aGLB_STATE fGLB_STATE_REQ_ERR = 3 ∧ (∀ e, e < 282 → m.loadOk e = false → (m'.e e).reqErr = if (m.e e).verified then 6 else 3)
          ∧ m.regsBut m' [aGLB_STATE] ∧ Touches [.status, .regs, .eng] m m'))
      ∧ (m.dev.st = .oasis → m.dev.causes.all m.cleared = true → m.dev.loadedOnce = true → to_ c4 .loaded)
      ∧ (m.dev.st = .oasis → m.dev.causes.all m.cleared = true → m.flag aSAF_STAT fSAF_STAT_ACTIVE = false → Runs c3 s (fun m' =>
          reaches m' .linked ∧ ∀ e, e < 282 → (m'.e e).st = .stopped
            ∧ (m'.e e).stopCause = if (m.e e).active then 0 else (m.e e).stopCause))
      ∧ (m.dev.st ≠ .off → m.dev.st ≠ .oasis → Runs c7 s (fun m' => reaches m' .oasis ∧ m'.dev.causes = [.host]
          ∧ ∀ n, n < 16 → (m'.sq n).active = false)))

/-! ## Registers and commits (R9, R28, R31 to R35) -/

/-- A register write changes the fields its access types say (R9); a committed field takes it in its shadow, and the write is refused and
counted while a commit of its group is pending (R28, R33). A commit requested is pending until it applies or is cancelled; applied, every
committed field of its group takes its shadow value and APPLIED counts once (R31, R32, R34). -/
def Obligations.CommitsMoveShadowToActive : Prop :=
  ∀ (s : State),
    let m := s.m
    (∀ src a v b r ix, wfRegisterWrite src a v = true → blkOf a = some b → b ∈ [Blk.thm, .cal, .wcv, .prt, .emt, .cam, .time] →
      (b.locate a).1 < b.count → (b.locate a).2 < 0x7EC → b.page (b.locate a).1 + (b.locate a).2 = a → regAt a = some (r, ix) →
      m.mayWrite src b (b.locate a).1 (b.locate a).2 = 0 →
      let page := b.page (b.locate a).1
      (∀ g, r.groupOf ix = some g → m.isPending page g = true → Runs (.registerWrite src a v) s (fun m' => m'.status = 1
        ∧ (Fld.mk 31 16).get (m'.reg (page + 0x7FC)) = min 0xFFFF ((Fld.mk 31 16).get (m.reg (page + 0x7FC)) + 1)
        ∧ m.regsBut m' [page + 0x7FC] ∧ Touches [.status, .regs] m m'))
      ∧ (∀ g, r.groupOf ix = some g → m.isPending page g = false → Runs (.registerWrite src a v) s (fun m' => m'.status = 0
        ∧ m'.shadowReg a = (m.shadowReg a &&& ~~~ r.committed) ||| (v &&& r.committed) ∧ m'.reg a = r.writeImmediate (m.reg a) v
        ∧ (∀ k, k ≠ a → m'.reg k = m.reg k ∧ m'.shadowReg k = m.shadowReg k) ∧ Touches [.status, .regs, .shadow] m m'))
      ∧ (r.groupOf ix = none → Runs (.registerWrite src a v) s (fun m' => m'.status = 0 ∧ m'.reg a = r.writeImmediate (m.reg a) v
        ∧ m.regsBut m' [a] ∧ Touches [.status, .regs] m m')))
    ∧ (∀ src a v, wfRegisterWrite src a v = true → blkOf a = none → RunsTo (.registerWrite src a v) s (m.done 2))
    ∧ (∀ src (p : Page) v, src.wf = true → p.wf = true →
      let b := Page.block p
      let page := b.page p.inst
      b ≠ .grd → b ≠ .saf →
      (m.mayCommit src b p.inst = 0 → Runs (.commitRequest src p v) s (fun m' =>
        (∀ g, g < groupCount b p.inst → v.getLsbD g = true → m'.isPending page g = true)
        ∧ (∀ q g, q ≠ page ∨ v.getLsbD g = false → m'.isPending q g = m.isPending q g) ∧ m'.status = 0 ∧ Touches [.status, .commits] m m'))
      ∧ (m.mayCommit src b p.inst ≠ 0 → RunsTo (.commitRequest src p v) s (m.done (m.mayCommit src b p.inst)))
      ∧ (m.mayWrite src b p.inst 0x7EC = 0 → Runs (.commitCancel src p v) s (fun m' =>
        (∀ g, g < groupCount b p.inst → v.getLsbD g = true → m'.isPending page g = false)
        ∧ (∀ q g, q ≠ page ∨ v.getLsbD g = false → m'.isPending q g = m.isPending q g) ∧ m'.status = 0 ∧ Touches [.status, .commits] m m')))
    ∧ (∀ p : Page, p.wf = true →
      let b := Page.block p
      let page := b.page p.inst
      b ∈ [Blk.cal, .wcv, .tdc, .erg] →
      ((∀ g, g < groupCount b p.inst → m.ready page g = false) → RunsTo (.idleCommitApply p) s m)
      ∧ ((∃ g, g < groupCount b p.inst ∧ m.ready page g = true) → Runs (.idleCommitApply p) s (fun m' =>
        (∀ g, g < groupCount b p.inst → m.ready page g = true → m'.isPending page g = false
          ∧ ∀ x ∈ groupRegs b page g, x.1 ≠ page + 0x7FC → m'.reg x.1 &&& x.2 = m.shadowReg x.1 &&& x.2)
        ∧ (∀ g, m.ready page g = false → m'.isPending page g = m.isPending page g)
        ∧ (∀ a, a ≠ page + 0x7FC → (∀ g, m.ready page g = true → ∀ x ∈ groupRegs b page g, x.1 ≠ a) → m'.reg a = m.reg a)
        ∧ Touches [.regs, .commits] m m')))

/-! ## DRAM (R408 to R417) -/

/-- DRAM: initialisation runs 5 ms and sets READY; refresh and MR4 set the rate in force; a patrol scrub counts what it corrects; the arbiter
serves up to 256 bytes of the request it picks and notes the wait; a request that starves is notified; a channel that fails is marked. -/
def Obligations.DramServesAndFails : Prop :=
  ∀ (s : State),
    let m := s.m
    let ready := m.flag aMEM_STAT fMEM_STAT_READY
    (∀ src, src.wf = true → m.mayWrite src .mem 0 4 = 0 →
      (ready = true → RunsTo (.dramInit src) s (m.done 0))
      ∧ (ready = false → Runs (.dramInit src) s (fun m' => m'.dram.initDue = some (m.cyc + 4000000) ∧ m'.status = 0
          ∧ Touches [.status, .dram] m m')))
    ∧ (m.dram.initDue = none → RunsTo (.dramReady 0) s m)
    ∧ (∀ c, m.dram.initDue = some c → Runs (.dramReady 0) s (fun m' => m'.flag aMEM_STAT fMEM_STAT_READY = true
        ∧ m'.fld aMEM_STAT fMEM_STAT_TRAINERR = 0 ∧ m'.dram.initDue = none ∧ m.regsBut m' [aMEM_STAT] ∧ Touches [.regs, .dram] m m'))
    ∧ (∀ ch, ch < 4 → ready = true → ch ∈ m.dramCh →
      (m.chanFailed ch = true → RunsTo (.dramChannelFail ch) s m)
      ∧ (m.queuesOn = [] → m.flag aREJ_SUNCFG fREJ_SUNCFG_MAP_EN = false → m.fld aFLT_OASISMASK fFLT_OASISMASK_MASK = 0 →
          m.chanFailed ch = false → Runs (.dramChannelFail ch) s (fun m' => m'.chanFailed ch = true
            ∧ (∀ k, k ≠ ch → m'.chanFailed k = m.chanFailed k) ∧ m'.flt.recs.length ≤ m.flt.recs.length + 1 ∧ m'.dev = m.dev))
      ∧ (m.flag aMEM_CFG fMEM_CFG_ECC = true → m.fld aMEM_REF fMEM_REF_SCRUB ≠ 0 → m.chanFailed ch = false →
          Runs (.patrolScrub ch true false) s (fun m' =>
            m'.fld (aMEM_ECC ch) fMEM_ECC_CORR = min 0xFFFF (m.fld (aMEM_ECC ch) fMEM_ECC_CORR + 1)
            ∧ (0 < m.dramC / 8 * 7 / 8 → mapGet 0 m'.dram.scrubPos ch = (mapGet 0 m.dram.scrubPos ch + 1) % (m.dramC / 8 * 7 / 8))
            ∧ m.regsBut m' [aMEM_ECC ch] ∧ Touches [.regs, .dram] m m'))
      ∧ (Runs (.refresh ch) s (fun m' => mapGet 0 m'.dram.rate ch = m.refreshRate (mapGet 4 m.dram.mr4 ch)
            ∧ mapGet 0 m'.dram.refreshes ch = mapGet 0 m.dram.refreshes ch + 1 ∧ Touches [.dram] m m'))
      ∧ (∀ q, q ≤ 64 → Runs (.mr4Read ch q) s (fun m' => mapGet 4 m'.dram.mr4 ch = q
            ∧ (∀ k, k ≠ ch → mapGet 4 m'.dram.mr4 k = mapGet 4 m.dram.mr4 k) ∧ Touches [.dram] m m')))
    ∧ (∀ ch, ch < 4 →
      (m.dramPick ch = none → RunsTo (.dramBurstGrant ch) s m)
      ∧ (∀ r, m.dramPick ch = some r →
          let w := m.fld (aARB_WAIT r.cls) fARB_WAIT_MAXWAIT
          let rest := m.dram.reqs.filter (fun x => x != r)
          Runs (.dramBurstGrant ch) s (fun m' =>
            m'.dram.reqs = (if r.left ≤ 256 then rest else rest ++ [{ r with left := r.left - 256, cyc := m.cyc }])
            ∧ m'.fld (aARB_WAIT r.cls) fARB_WAIT_MAXWAIT = max w (min 0xFFFF ((m.cyc - r.cyc) / 8))
            ∧ m.regsBut m' [aARB_WAIT r.cls] ∧ Touches [.regs, .dram] m m')))
    ∧ (∀ k, k < 5 → ∀ r, m.dram.reqs.find? (fun r => r.cls == k) = some r → Runs (.dramStarve k) s (fun m' =>
        m'.cyc = max m.cyc (r.cyc + m.dstarve + 1) ∧ (m'.fld aARB_STAT fARB_STAT_DRAM).testBit k = true
        ∧ Touches [.cyc, .time, .regs, .grp] m m'))

/-! ## Caravans and the emitter driver (R127 to R172) -/

/-- Firing codes, patterns, windows and armed ports (R134, R135, R138, R171). Illegal operands end with their status and nothing else; what is
selected is held in the sequencer's state until the next selection. -/
def Obligations.SequencersSelectCodesPortsAndWindows : Prop :=
  ∀ (s : State) (e : Nat) (i : FX), s.m.canIssue e → engClass e = .sq →
    let m := s.m
    let n := engInst e
    let x := m.e e
    let a := (x.gr i.rs).toNat
    let b := (x.gr i.rt).toNat
    let sh := m.inShadow n
    let st (k : Nat) : Word := if sh then 0 else word k
    let seqs (c : Instr) (v : Word) (q : SeqProfile) : Prop := Runs c s (fun m' => x.wrote (m'.e e) i.rd v ∧ x.wentOn (m'.e e)
      ∧ (m'.e e).seq = q ∧ m.othersKept m' e ∧ Touches [.regs, .eng, .port] m m')
    (i.xi = 0 → (16383 < a ∨ b < 8 ∨ 64 < b → GrRuns (.code e i) s e i.rd (st 1))
      ∧ (a ≤ 16383 → 8 ≤ b → b ≤ 64 → m.codeAllowed a = false → GrRuns (.code e i) s e i.rd (st 2))
      ∧ (a ≤ 16383 → 8 ≤ b → b ≤ 64 → m.codeAllowed a = true →
          seqs (.code e i) 0 { x.seq with code := a, len := b, step := 0, coding := true, armn := b }))
    ∧ (i.xi = 1 → i.rs = 0 → i.rt = 0 → seqs (.codeOff e i) 0 { x.seq with coding := false })
    ∧ (i.xi = 0 → seqs (.pat e i)
        (if m.matrix then 0 else word ((x.gr i.rs).toNat % 65536 &&& m.fld (aEMT_HOLD (b % 16)) fEMT_HOLD_HOLD)) { x.seq with pat := x.gr i.rs })
    ∧ (i.xi.toNat < 16 →
      let c := if i.xi.getLsbD 3 then Instr.zoomOff e i else Instr.zoom e i
      (sh = true → GrRuns c s e i.rd 0)
      ∧ (sh = false → m.zoomPorts e i = none → GrRuns c s e i.rd 1)
      ∧ (∀ t, sh = false → m.zoomPorts e i = some t →
          (i.xi.getLsbD 3 = false → 2 ^ 18 ≤ a → GrRuns c s e i.rd 2)
          ∧ (i.xi.getLsbD 3 = true ∨ a < 2 ^ 18 → Runs c s (fun m' => x.wrote (m'.e e) i.rd 0 ∧ x.wentOn (m'.e e)
              ∧ (∀ p, p ∉ t → m'.p p = m.p p) ∧ m.othersKept m' e ∧ Touches [.eng, .mem, .port] m m'))))
    ∧ (m.flag (aSEQ_STBY n) fSEQ_STBY_LIVE = false →
      let cnt := i.xi.toNat % 64 + 1
      let all := m.pset n a
      let mine (o : Option Nat) : Bool := o == some n || (sh && o == some (m.fld (aSEQ_STBY n) fSEQ_STBY_FOR))
      let own := all.filter (fun p => mine (m.ownerOf p))
      (i.xi.getLsbD 9 = false → i.rt = 0 →
        (15 < a → GrRuns (.arm e i) s e i.rd (st 4))
        ∧ (a ≤ 15 → x.seq.coding = true → cnt ≠ x.seq.len → GrRuns (.arm e i) s e i.rd (st 2))
        ∧ (a ≤ 15 → x.seq.coding = false ∨ cnt = x.seq.len → Runs (.arm e i) s (fun m' =>
            x.wrote (m'.e e) i.rd (if sh ∨ own.length = all.length then 0 else if own.isEmpty then 3 else 1) ∧ x.wentOn (m'.e e)
            ∧ (m'.e e).seq = { x.seq with armset := own, armn := cnt, armh := i.xi.toNat / 64 % 8 }
            ∧ m'.fld (aSEQ_ARMST n) fSEQ_ARMST_SET = a ∧ m.othersKept m' e ∧ m.regsBut m' [aSEQ_ARMST n, aSEQ_CODE n] ∧ Touches [.regs, .eng] m m')))
      ∧ (i.xi.getLsbD 9 = true → i.xi &&& 0x1FF = 0 → i.rt = 0 →
        (15 < a → GrRuns (.armClose e i) s e i.rd (st 4))
        ∧ (a ≤ 15 → Runs (.armClose e i) s (fun m' => x.wrote (m'.e e) i.rd 0 ∧ x.wentOn (m'.e e)
            ∧ (sh = false → ∀ p ∈ m.pset n a, m.ownerOf p = some n → (m'.p p).openCell = none)
            ∧ (∀ p, p ∉ m.pset n a ∨ m.ownerOf p ≠ some n → m'.p p = m.p p) ∧ m.othersKept m' e ∧ Touches [.regs, .eng, .port] m m'))))

/-- Requests (R127, R129, R131, R139 to R146, R161, R168 to R172). A fire with two edges ahead of it does not issue; another asks for its shot, and so do proof and its walk; the string arbiter decides every request of one cycle at once, 8 cycles after their
issue; the guard's decision ends the fire with its status, counting a granted shot; a standby takes over its primary's ports. -/
def Obligations.ShotsAreRequestedAndDecided : Prop :=
  ∀ (s : State),
    let m := s.m
    (∀ e (i : FX), m.canIssue e → engClass e = .sq →
      let n := engInst e
      let x := m.e e
      let waits (m' : Mach) (w : Wait) : Prop := (m'.e e).st = .waiting ∧ (m'.e e).wait = w ∧ (m'.e e).wrd = i.rd.toNat
        ∧ (m'.e e).pc = x.pc ∧ (m'.e e).issue = m.cyc ∧ m.othersKept m' e
      let asks (m' : Mach) (index pre : Nat) (proof : Bool) : Prop := ∃ y, m'.emt.shots = m.emt.shots ++ [y] ∧ y.id = m.emt.nextId ∧ y.sq = n
        ∧ y.stage = .asked ∧ y.issue = m.cyc ∧ y.index = index ∧ y.proof = proof ∧ y.walk = 0 ∧ y.pre = pre
      let s' := (x.gr i.rs).toNat % 16
      let coded := i.xi.getLsbD 0
      (i.xi.toNat < 4 →
        (2 ≤ m.edgesLeft n → Runs (.fire e i) s (fun m' => waits m' .fire ∧ (m'.e e).seq.stall = some i ∧ Touches [.regs, .eng] m m'))
        ∧ (m.edgesLeft n < 2 → m.ready (engPage e) 0 = false →
          (m.inShadow n = true → Runs (.fire e i) s (fun m' => waits m' .fire ∧ Touches [.regs, .eng] m m'))
          ∧ (m.inShadow n = false → Runs (.fire e i) s (fun m' => waits m' .fire
            ∧ asks m' ((x.gr i.rs).toNat % 32) (if coded ∧ x.seq.coding = false then 4 else 0) false
            ∧ (m'.e e).seq.step = (if coded ∧ x.seq.coding = true then (x.seq.step + 1) % x.seq.len else x.seq.step)
            ∧ Touches [.regs, .commits, .eng, .emt, .port] m m'))))
      ∧ (i.xi = 0 → i.rt = 0 → m.ready (engPage e) 0 = false → m.inShadow n = false → Runs (.proof e i) s (fun m' => waits m' .proof
          ∧ asks m' s' 0 true ∧ Touches [.eng, .emt] m m'))
      ∧ (i.xi = 1 → i.rt = 0 → m.ready (engPage e) 0 = false → m.inShadow n = false →
        let todo := bitsOf 16 (m.populated s' &&& (0xFFFF - m.hold s'))
        (m.emt.walks.any (fun w => w.str == s') = true → GrRuns (.proofWalk e i) s e i.rd 4)
        ∧ (m.emt.walks.any (fun w => w.str == s') = false → todo ≠ [] → Runs (.proofWalk e i) s (fun m' => waits m' (.walk s')
            ∧ (∃ w, m'.emt.walks = m.emt.walks ++ [w] ∧ w.str = s' ∧ w.sq = n ∧ w.todo = todo)
            ∧ m'.flag (aEMT_STR_STAT s') fEMT_STR_STAT_WALK = true ∧ m'.emt.shots = m.emt.shots ∧ Touches [.regs, .eng, .emt] m m'))))
    ∧ (m.nextAsk = none → RunsTo .stringArbitration s m)
    ∧ (∀ c, m.nextAsk = some c → Runs .stringArbitration s (fun m' => m'.cyc = max m.cyc (c + 8)
        ∧ ∀ y ∈ m'.emt.shots, ∃ z ∈ m.emt.shots, z.id = y.id ∧ (y.stage = .asked → z = y ∧ y.issue ≠ c)))
    ∧ (∀ n late x, wfGuardDecision n late = true → m.emt.shots.find? (fun x => x.sq == n && x.stage == .reserved) = some x → x.walk = 0 →
      (m.sq n).stopping = none → (m.sq n).wait = .fire →
      let M := m.advanceTo (x.issue + 160)
      let r := (M.guardDecide x late).1
      let M' := (M.guardDecide x late).2
      let gone (m' : Mach) : Prop := m'.emt.shots = m.emt.shots.filter (fun y => y.id != x.id)
      let deny := aSEQ_DENY n
      (x.pre ≠ 0 → Runs (.guardDecision n late) s (fun m' => gone m' ∧ (m.sq n).resumed (m'.sq n) (word x.pre) ∧ m'.cyc = M.cyc
        ∧ m.othersKept m' (256 + n) ∧ Touches [.cyc, .time, .eng, .emt] m m'))
      ∧ (x.pre = 0 → r = 0 → Runs (.guardDecision n late) s (fun m' =>
        m'.emt.shots = m.emt.shots.map (fun y => if y.id = x.id then { x with stage := .granted } else y) ∧ (m.sq n).resumed (m'.sq n) 0
        ∧ (x.ports = [] → m'.fld (aSEQ_SHOTS n) fSEQ_SHOTS_SHOTS = (M'.fld (aSEQ_SHOTS n) fSEQ_SHOTS_SHOTS + 1) % 2 ^ 32)
        ∧ m'.cyc = M.cyc ∧ m.othersKept m' (256 + n)))
      ∧ (x.pre = 0 → r ≠ 0 → Runs (.guardDecision n late) s (fun m' => gone m' ∧ (m.sq n).resumed (m'.sq n) 1
        ∧ (x.ports = [] → m'.fld deny fSEQ_DENY_GUARD = min 0xFF (M'.fld deny fSEQ_DENY_GUARD + 1))
        ∧ m'.cyc = M.cyc ∧ m.othersKept m' (256 + n))))
    ∧ (∀ p, p < 16 →
      (m.standbyOf p = none → RunsTo (.sequencerHandover p) s m)
      ∧ (∀ b, m.standbyOf p = some b → (m.sq p).active = false → Runs (.sequencerHandover p) s (fun m' =>
          m'.reg (aEMT_SQCFG b) = m.reg (aEMT_SQCFG p) ∧ m'.shadowReg (aEMT_SQCFG b) = m.reg (aEMT_SQCFG p)
          ∧ m'.flag (aSEQ_STBY b) fSEQ_STBY_LIVE = true ∧ (m'.sq p).stopCause = 6 ∧ m.othersKept m' (256 + p)
          ∧ (∀ q, q < 96 → m'.ownerOf q = if m.ownerOf q = some p then some b else m.ownerOf q)
          ∧ Touches [.regs, .shadow, .eng, .port] m m')))

/-- Frames, edges and starts (R128, R147, R148, R155 to R161). The earliest granted shot's frame goes out at its latch instant; its edge
leaves through an open gate and is counted as blocked at a closed one; an optical start ends the wait for it and clears its emitters' counts,
a missing one counts; a walk requests its next shot; a string without a granted shot for 101 ms is PROOF_LATE. -/
def Obligations.EdgesLeaveAndStartsAreJudged : Prop :=
  ∀ (s : State),
    let m := s.m
    let granted := m.emt.shots.filter (fun x => x.stage == .granted)
    (leastShot (fun x => x.slot) (granted.filter (fun x => !x.framed)) = none → RunsTo .patternFrame s m)
    ∧ (∀ x, leastShot (fun x => x.slot) (m.emt.shots.filter (fun x => x.stage == .granted && !x.framed)) = some x →
        Runs .patternFrame s (fun m' => m'.emt.frame = m.frameOf x ∧ m'.emt.latch = 64 * x.slot ∧ m'.cyc = max m.cyc x.slot
          ∧ m'.emt.shots = m.emt.shots.map (fun y => if y.id = x.id then { x with framed := true } else y) ∧ Touches [.cyc, .time, .emt] m m'))
    ∧ (granted = [] → RunsTo .fireEdge s m)
    ∧ (∀ x, leastShot (fun x => x.edge) granted = some x → x.framed = true → (m.sq x.sq).stopping = none → (m.sq x.sq).seq.stall = none →
      (m.gateOpen = true → Runs .fireEdge s (fun m' => m'.emt.fire = some (x.str, x.edge)
        ∧ m'.emt.shots = m.emt.shots.map (fun y => if y.id = x.id then { x with stage := .left, framed := true } else y)
        ∧ (x.str, x.edge) ∈ m'.emt.edges ∧ m'.cyc = max m.cyc (divCeil x.edge 64) ∧ Touches [.cyc, .time, .emt, .tdc] m m'))
      ∧ (m.gateOpen = false → x.walk = 0 → x.proof = false → Runs .fireEdge s (fun m' => m'.emt.fire = m.emt.fire
        ∧ m'.emt.shots = m.emt.shots.filter (fun y => y.id != x.id)
        ∧ m'.fld aGRD_STAT fGRD_STAT_BLOCKED = min 0xFFFF (m.fld aGRD_STAT fGRD_STAT_BLOCKED + 1)
        ∧ m.regsBut m' [aGRD_STAT] ∧ Touches [.cyc, .time, .regs, .emt, .port, .tdc] m m')))
    ∧ (∀ k t, k < 16 → wfOpticalStart k t = true →
      (m.awaited k = none → RunsTo (.opticalStart k t) s m ∧ RunsTo (.noStart k) s m)
      ∧ (∀ x, m.awaited k = some x → x.walk = 0 → x.proof = false →
        let dly : Int := ((t + 32) / 64 : Nat) - (x.edge : Int)
        let off := (dly - (m.fld (aEMT_STR_CFG0 k) fEMT_STR_CFG0_OST_DLY : Int)).natAbs
        let win := m.fld (aEMT_STR_CFG0 k) fEMT_STR_CFG0_OST_WIN
        (win + 256 < off → RunsTo (.opticalStart k t) s m)
        ∧ (m.startOk k = true → off ≤ win + 256 → Runs (.opticalStart k t) s (fun m' =>
            m'.emt.shots = m.emt.shots.filter (fun y => y.id != x.id)
            ∧ (x.ports = [] → m'.fld (aEMT_STR_DIAG k) fEMT_STR_DIAG_LASTDLY = (clampInt 0 1023 dly).toNat)
            ∧ (∀ j ∈ m.diagKeys x, mapGet 0 m'.emt.nostart j = 0) ∧ m'.cyc = max m.cyc (divCeil (divCeil t 64) 64) ∧ m'.eng = m.eng))
        ∧ ((∀ j ∈ m.diagKeys x, mapGet 0 m.emt.nostart j = 0) → Runs (.noStart k) s (fun m' => m'.emt.shots = m.emt.shots.filter (fun y => y.id != x.id)
            ∧ m'.emt.nostart = (m.diagKeys x).foldl (fun l j => mapPut 0 l j (mapGet 0 l j + 1)) m.emt.nostart
            ∧ m'.cyc = max m.cyc (divCeil (m.startEnd k x.edge) 64) ∧ m'.eng = m.eng))))
    ∧ (∀ k, k < 16 →
      (m.emt.walks.find? (fun w => w.str == k) = none → RunsTo (.walkShot k) s m)
      ∧ (∀ w j t, m.emt.walks.find? (fun w => w.str == k) = some w → w.final = false → w.todo = j :: t → Runs (.walkShot k) s (fun m' =>
          (∃ y, m'.emt.shots = m.emt.shots ++ [y] ∧ y.proof = true ∧ y.walk = 1 ∧ y.index = k ∧ y.emit = 2 ^ j ∧ y.sq = w.sq ∧ y.stage = .asked)
          ∧ m'.cyc = max m.cyc w.due ∧ (∀ w' ∈ m'.emt.walks, w'.str = k → w'.due = m'.cyc + m.gap) ∧ Touches [.cyc, .time, .emt] m m'))
      ∧ (∀ c, m.emt.lastGrant.find? (fun x => x.1 == k) = some (k, c) → m.fld aFLT_OASISMASK fFLT_OASISMASK_MASK = 0 → Runs (.proofLate k) s (fun m' =>
          m'.flag (aEMT_STR_STAT k) fEMT_STR_STAT_PROOF_LATE = true ∧ m'.cyc = max m.cyc (c + 80800000)
          ∧ m.regsBut m' [aEMT_STR_STAT k, aFLT_STAT] ∧ Touches [.cyc, .time, .regs, .emt, .flt] m m')))

/-! ## Scanner axes (R132, R133, R175 to R199) -/

/-- The axis profile (R181 to R183, R187, R193, R194, R196 and the tables of *Axis profile instructions*). macs adds the rounded product with
the effective coefficient to an accumulator, clipped to 64 bits with SAT; lim clips, limits and may clear it; ferr answers the state of the
error and marks the drive holder's cycle; xfade changes nothing towards the current bank and else starts a fade at F = 0; pub and dacw act
on a running axis for the drive holder only; adcr answers the latched or the latest position, waiting for an average not yet there. -/
def Obligations.AxisProfileComputes : Prop :=
  ∀ (s : State) (e : Nat) (i : FX), s.m.canIssue e → engClass e = .ae →
    let m := s.m
    let a := axisOf e
    let x := m.e e
    let y := m.ax a
    let rs := (x.gr i.rs).toInt
    let rt := (x.gr i.rt).toInt
    let k := i.xi.toNat
    let off := !m.axOn a || m.axTrip a || m.axFailed a
    let acts (c : Instr) (v : Word) (P : Mach → Prop) : Prop := Runs c s (fun m' => x.wrote (m'.e e) i.rd v ∧ x.wentOn (m'.e e)
      ∧ m.othersKept m' e ∧ (∀ b, b ≠ a → m'.ax b = m.ax b) ∧ P m')
    (i.rd = 0 → i.rt = 0 → k < 128 →
      let v := (if i.xi.getLsbD 6 then 0 else x.accu (k / 32 % 2)) + divAway (rs * m.effective a (k % 32)) (2 ^ 32)
      Runs (.macs e i) s (fun m' => (m'.e e).accu (k / 32 % 2) = clip64 v ∧ (∀ j, j ≠ k / 32 % 2 → (m'.e e).accu j = x.accu j)
        ∧ (m'.e e).sat = (x.sat || decide (clip64 v ≠ v)) ∧ (m'.e e).g = x.g ∧ (m'.e e).p = x.p ∧ x.wentOn (m'.e e) ∧ m.onlyEng m' e))
    ∧ (k < 32 →
      let v := clip32 (x.accu (k % 2))
      let r := min (max v rs) rt
      Runs (.lim e i) s (fun m' => x.wrote (m'.e e) i.rd (wordOfInt r) ∧ (m'.e e).sat = (x.sat || decide (v ≠ x.accu (k % 2)))
        ∧ (∀ j, (m'.e e).accu j = if j = k % 2 ∧ i.xi.getLsbD 1 = true then 0 else x.accu j)
        ∧ (∀ j, j < 4 → (m'.e e).pred j = if i.xi.getLsbD 2 = true ∧ k / 8 % 4 = j then decide (r ≠ v) else x.pred j)
        ∧ x.wentOn (m'.e e) ∧ m.onlyEng m' e))
    ∧ (i.rt = 0 → k = 0 →
      let big := decide (m.fld (aAXS_FELIM a) fAXS_FELIM_LIM < rs.natAbs)
      acts (.ferr e i) (if m.axTrip a then 2 else if big then 1 else 0) (fun m' =>
        m'.ax a = (if m.axHolds e then { y with ferr := true, ovl := y.ovl || (big && !m.axTrip a) } else y) ∧ Touches [.eng, .axis] m m'))
    ∧ (i.rt = 0 → k < 4 →
      let st := aAXS_ASTAT a
      let len := min 4096 (max 1 (x.gr i.rs).toNat)
      let starts (src : Nat) : Prop := acts (.xfade e i) 0 (fun m' => m'.flag st fAXS_ASTAT_FADING = true ∧ m'.fld st fAXS_ASTAT_FROM = src
        ∧ m'.fld st fAXS_ASTAT_TO = k ∧ m'.fld (aAXS_FADE a) fAXS_FADE_F = 0 ∧ m'.fld (aAXS_FADE a) fAXS_FADE_LEN = len
        ∧ Touches [.regs, .eng, .axis] m m')
      (m.axHolds e = false → GrRuns (.xfade e i) s e i.rd 2)
      ∧ (m.axHolds e = true → m.flag st fAXS_ASTAT_FADING = false → m.fld st fAXS_ASTAT_TO = k → GrRuns (.xfade e i) s e i.rd 1)
      ∧ (m.axHolds e = true → m.flag st fAXS_ASTAT_FADING = false → m.fld st fAXS_ASTAT_TO ≠ k → starts (m.fld st fAXS_ASTAT_TO))
      ∧ (m.axHolds e = true → m.flag st fAXS_ASTAT_FADING = true → starts 4))
    ∧ (k < 2 →
      (off = true → GrRuns (.pub e i) s e i.rd 3)
      ∧ (off = false → m.axHolds e = false → acts (.pub e i) 4 (fun m' => (m'.ax a).published = y.published ∧ (m'.ax a).pubA = y.pubA
          ∧ (m'.ax a).pubW = y.pubW ∧ (m'.ax a).pubT = y.pubT ∧ Touches [.eng, .axis] m m'))
      ∧ (∀ c, off = false → m.axHolds e = true → (k = 1 → c = m.cyc) → (k = 0 → y.start = some c) → acts (.pub e i) 0 (fun m' =>
          (m'.ax a).published = true ∧ (m'.ax a).pubA = x.gr i.rs ∧ (m'.ax a).pubW = x.gr i.rt
          ∧ (m'.ax a).pubT = toField 32 ((c : Int) + m.sfld (aAXS_TOFS a) fAXS_TOFS_TOFS) ∧ Touches [.eng, .axis, .pts] m m')))
    ∧ (i.rt = 0 → k = 0 →
      let c := clampInt (-32768) 32767 rs
      let d := min (max c (m.sfld (aAXS_DLIM a) fAXS_DLIM_DMIN)) (m.sfld (aAXS_DLIM a) fAXS_DLIM_DMAX)
      let writes (v : Word) (code : Int) : Prop := acts (.dacw e i) v (fun m' => (m'.ax a).code = code
        ∧ (m'.e e).sat = (x.sat || decide (c ≠ rs)) ∧ (if engInst e % 2 = 0 then (m'.ax a).prim.code = some d else (m'.ax a).mon.code = some d)
        ∧ Touches [.eng, .axis] m m')
      (m.axHolds e = false → writes 4 y.code) ∧ (m.axHolds e = true → off = true → writes 3 y.code)
        ∧ (m.axHolds e = true → off = false → writes (if d = c then 0 else 1) d))
    ∧ (i.rs = 0 → i.rt = 0 → k < 32 →
      let me := 2 ^ (engInst e % 2)
      let reads (v : Int) (p : Bool) : Prop := acts (.adcr e i) (wordOfInt v) (fun m' =>
        (∀ j, j < 4 → (m'.e e).pred j = if i.xi.getLsbD 2 = true ∧ k / 8 % 4 = j then p else x.pred j) ∧ Touches [.eng, .axis] m m')
      (k % 4 = 0 → y.start ≠ none → y.avgReady = false → Runs (.adcr e i) s (fun m' => x.waitsFrom (m'.e e) m.cyc (.adcr k) i.rd 0
          ∧ m.onlyEng m' e))
      ∧ (k % 4 = 0 → y.start ≠ none → y.avgReady = true → reads y.avg ((y.avgNew &&& me) != 0 && y.avgGood))
      ∧ (k % 4 = 1 → reads y.latched y.latchOk)
      ∧ (k % 4 = 2 → reads y.index ((y.newIndex &&& me) != 0))
      ∧ (∀ z t, k % 4 = 3 → y.samples = z :: t → reads z.1 (!z.2)))

/-- Positions, encoders and the host's side of an axis (R186, R188, R194 to R196; R212 for the guard's own count). wangle (R132, R133). An axis that is not running answers 3, another starts a wait judged every 8 cycles from its issue; one evaluation ends
it with the lowest of 0 for the crossing, with the trigger when BOTH is set, 1 for the timeout and 2 for a stale publication, and otherwise
remembers what it saw. -/
def Obligations.AxisPositionsAndAngleWaits : Prop :=
  (∀ (s : State) (a : Nat), a < 4 →
    let m := s.m
    let x := m.ax a
    let others (m' : Mach) : Prop := ∀ b, b ≠ a → m'.ax b = m.ax b
    (∀ adc ovl, -32768 ≤ adc → adc < 32768 → Runs (.positionConverterSample a adc ovl) s (fun m' =>
        m'.ax a = { x with samples := ((if ovl then (if adc < 0 then -32768 else 32767) else adc, ovl) :: x.samples).take 32 }
        ∧ m'.fld (aAXS_CNT a) fAXS_CNT_OVR = min 0xFF (m.fld (aAXS_CNT a) fAXS_CNT_OVR + if ovl then 1 else 0)
        ∧ others m' ∧ m.regsBut m' [aAXS_CNT a] ∧ Touches [.regs, .axis] m m'))
    ∧ ((x.start = none → RunsTo (.positionAverageReady a) s m)
      ∧ (x.start ≠ none → (∀ k, k < 2 → ∀ w, (m.e (axEngine a k)).wait ≠ .adcr w) → Runs (.positionAverageReady a) s (fun m' =>
          m'.ax a = { x with avgReady := true } ∧ others m' ∧ Touches [.axis] m m'))
      ∧ (∀ k w, k < 2 → x.start ≠ none → (m.e (axEngine a k)).wait = .adcr w → w % 4 = 0 → (∀ w', (m.e (axEngine a (1 - k))).wait ≠ .adcr w') →
          Runs (.positionAverageReady a) s (fun m' => (m.e (axEngine a k)).resumed (m'.e (axEngine a k)) (wordOfInt x.avg)
            ∧ (m'.ax a).avgReady = true ∧ m.othersKept m' (axEngine a k) ∧ others m' ∧ Touches [.eng, .axis] m m')))
    ∧ (∀ p q, let n := bit p + 2 * bit q
      let on := m.flag (aAXS_CFG a) fAXS_CFG_ENC_EN
      (x.encAb = n → RunsTo (.encoderEdge a p q) s m)
      ∧ (x.encAb < 4 → x.encAb ^^^ n = 3 → Runs (.encoderEdge a p q) s (fun m' =>
          m'.ax a = { x with encAb := n, illegal := x.illegal || on } ∧ others m'
          ∧ m'.fld (aAXS_CNT a) fAXS_CNT_QERR = min 0xFF (m.fld (aAXS_CNT a) fAXS_CNT_QERR + bit on)
          ∧ (∀ h, h ∈ m.encHeads a → (m'.head h).known = false ∧ (m'.head h).count = (m.head h).count)
          ∧ Touches [.regs, .grd, .axis] m m'))
      ∧ (x.encAb < 4 → x.encAb ≠ n → x.encAb ^^^ n ≠ 3 → ∃ d : Int, (d = 1 ∨ d = -1) ∧ Runs (.encoderEdge a p q) s (fun m' =>
          m'.ax a = { x with encAb := n, count := if on then x.count + d else x.count } ∧ others m' ∧ m'.reg (aAXS_CNT a) = m.reg (aAXS_CNT a)
          ∧ (∀ h, h ∈ m.encHeads a → (m'.head h).count = (m.head h).count + d ∧ (m'.head h).lastEdge = some (m.cyc / 16)
              ∧ (m'.head h).known = ((m.head h).known && decide (((m.head h).count + d).natAbs ≤ m.cpr h + m.ztol h)))
          ∧ Touches [.regs, .grd, .axis] m m')))
    ∧ Runs (.encoderIndex a) s (fun m' =>
        m'.ax a = { x with index := x.count, newIndex := 3, count := if m.flag (aAXS_CFG a) fAXS_CFG_ZRST then 0 else x.count } ∧ others m'
        ∧ (∀ h, h ∈ m.encHeads a → (m'.head h).count = 0 ∧ ((m.head h).known = false → (m'.head h).known = true))
        ∧ Touches [.regs, .grd, .axis] m m')
    ∧ (∀ src b k second v, wfCoefficientWrite src a b k second v = true →
      let off := 0x1000 + 0x100 * b + 8 * k + 4 * bit second
      (m.mayWrite src .axs (2 * a) off ≠ 0 → RunsTo (.coefficientWrite src a b k second v) s (m.done (m.mayWrite src .axs (2 * a) off)))
      ∧ (m.mayWrite src .axs (2 * a) off = 0 → m.bankUsed a b = true → Runs (.coefficientWrite src a b k second v) s (fun m' => m'.status = 1
          ∧ m'.fld (aAXS_CNT a) fAXS_CNT_BANKREF = min 0xFF (m.fld (aAXS_CNT a) fAXS_CNT_BANKREF + 1) ∧ m.regsBut m' [aAXS_CNT a]
          ∧ Touches [.status, .regs] m m'))
      ∧ (m.mayWrite src .axs (2 * a) off = 0 → m.bankUsed a b = false → Runs (.coefficientWrite src a b k second v) s (fun m' => m'.status = 0
          ∧ (second = false → m'.reg (aAXS_COEFV a b k) = v ∧ m.regsBut m' [aAXS_COEFV a b k])
          ∧ (second = true → m'.reg (aAXS_COEFS a b k) = (v &&& 31) ∧ m.regsBut m' [aAXS_COEFS a b k]) ∧ Touches [.status, .regs] m m')))
    ∧ (∀ src, src.wf = true →
      (m.mayRead src .axs 0x230 ≠ 0 → RunsTo (.pubRead src a) s (m.done (m.mayRead src .axs 0x230)))
      ∧ (m.mayRead src .axs 0x230 = 0 → Runs (.pubRead src a) s (fun m' => m'.status = 0 ∧ m'.reg (aAXS_PUBW a) = x.pubW
          ∧ m'.reg (aAXS_PUBT a) = word x.pubT ∧ m.regsBut m' [aAXS_PUBW a, aAXS_PUBT a] ∧ Touches [.status, .regs] m m'))
      ∧ (m.mayWrite src .axs (2 * a) 0x220 ≠ 0 → RunsTo (.feTripClear src a) s (m.done (m.mayWrite src .axs (2 * a) 0x220)))
      ∧ (m.mayWrite src .axs (2 * a) 0x220 = 0 → m.axTrip a = false → RunsTo (.feTripClear src a) s (m.done 0))
      ∧ (m.mayWrite src .axs (2 * a) 0x220 = 0 → m.axTrip a = true → Runs (.feTripClear src a) s (fun m' => m'.status = 0 ∧ m'.axTrip a = false
          ∧ m'.fld (aAXS_ASTAT a) fAXS_ASTAT_FE_TIMER = 0 ∧ m'.ax a = { x with code := m.sfld (aAXS_SAFE a) fAXS_SAFE_SAFE } ∧ others m'
          ∧ m.regsBut m' [aAXS_ASTAT a] ∧ Touches [.status, .regs, .axis] m m'))))
  ∧ (∀ (s : State) (e : Nat),
    let m := s.m
    let x := m.e e
    (∀ i : FX, m.canIssue e → engClass e = .sq → i.xi.toNat < 256 →
      let t := (x.gr i.rt).toNat
      let a := i.xi.toNat % 4
      (m.axRun a = false → GrRuns (.wangle e i) s e i.rd 3)
      ∧ (m.axRun a = true → Runs (.wangle e i) s (fun m' => x.waitsFrom (m'.e e) m.cyc
          (.wangle a t (i.xi.getLsbD 2) (i.xi.getLsbD 3) (i.xi.toNat / 16 % 16) false false (m.offTarget a m.cyc t)) i.rd (x.gr i.rs).toNat
          ∧ m.onlyEng m' e)))
    ∧ (∀ a t down both trig crossed fired last, e < 282 → x.wait = .wangle a t down both trig crossed fired last →
      let c := m.cyc + (x.issue + 8 * ((m.cyc - x.issue) / 8 + 1) - m.cyc)
      let d := m.offTarget a c t
      let met := crossed || (if down then decide (0 < last) && decide (d ≤ 0) else decide (last < 0) && decide (0 ≤ d))
      let late := x.limit ≠ 0 ∧ x.issue + x.limit ≤ c
      let age := signed 32 (c + 2 ^ 32 - (m.ax a).pubT % 2 ^ 32)
      let stale := (800 * max 1 (m.fld (aSEQ_FIRECFG (engInst e)) fSEQ_FIRECFG_STALE) : Nat) < age
      let ends (v : Word) : Prop := Runs (.wangleEvaluation e) s (fun m' => x.resumed (m'.e e) v ∧ m'.cyc = c ∧ m.othersKept m' e
        ∧ Touches [.cyc, .eng, .time] m m')
      ((met && (!both || fired)) = true → ends 0)
      ∧ ((met && (!both || fired)) = false → late → ends 1)
      ∧ ((met && (!both || fired)) = false → ¬ late → stale → ends 2)
      ∧ ((met && (!both || fired)) = false → ¬ late → ¬ stale → Runs (.wangleEvaluation e) s (fun m' =>
          m'.e e = { x with wait := .wangle a t down both trig met fired d } ∧ m'.cyc = c ∧ m.othersKept m' e
          ∧ Touches [.cyc, .eng, .time] m m'))))

/-! ## The emission guard (R200 to R218, R534) -/

/-- The decision (R202, R204, R205, R209). A grant means that every condition of R202 held, that each touched sector had room in all three
windows after its decay, and that its level is now the decayed level plus the shot's energy, at most half its limit. A denial adds to no
level, is counted under its reason and in the deny map, and is remembered. -/
def Obligations.GuardGrantsWithinBudget : Prop :=
  ∀ (m : Mach) (x : Shot) (late : Bool),
    let r := m.guardDecide x late
    let decayed (s w : Nat) : Nat := m.level s w - m.lim s w * (m.gcyc - mapGet m.grd.base m.grd.updated s) / (2 * guardT w)
    (r.1 = 0 → late = false ∧ m.hot = true ∧ m.grdOn = true ∧ m.flag aGRD_STAT fGRD_STAT_FAULT = false
      ∧ m.flag aGRD_STAT fGRD_STAT_COLD = false ∧ (m.gw 0x10).testBit 0 = m.matrix ∧ (∀ h, h < 2 → (m.head h).stalled = false)
      ∧ (∀ i, i ∈ m.entries x → m.motionOk (m.entryHead i) = true ∧ 0 ≤ m.entryEl i ∧ m.entryEl i ≤ 63 ∧ m.posOut (m.entryHead i) = false)
      ∧ (∀ k, k < 4 → (m.gw (0x80 + 8 * k)).testBit x.str = true → m.modBad k = false)
      ∧ (∀ s n, mapGet none (m.shotEnergy x) s = some n → n ≤ m.gw (0x1100 + 4 * (s / 256))
          ∧ ∀ w, w < 3 → r.2.level s w = decayed s w + n ∧ r.2.level s w ≤ m.lim s w / 2)
      ∧ (∀ s w, w < 3 → mapGet none (m.shotEnergy x) s = none → r.2.level s w = m.level s w))
    ∧ (r.1 ≠ 0 →
      let s0 := r.2.fld aGRD_LASTDENY fGRD_LASTDENY_SECTOR
      (∀ s w, w < 3 → r.2.level s w = m.level s w ∨ r.2.level s w = decayed s w)
      ∧ r.2.fld (aGRD_DENY (r.1 - 1)) fGRD_DENY_COUNT = min 0xFFFFFFFF (m.fld (aGRD_DENY (r.1 - 1)) fGRD_DENY_COUNT + 1)
      ∧ r.2.fld aGRD_LASTDENY fGRD_LASTDENY_REASON = r.1 ∧ (r.1 < 7 ∨ r.1 = 11 → s0 = 0)
      ∧ (r.2.byte (grdDeny + s0)).toNat = min 255 ((m.byte (grdDeny + s0)).toNat + 1)
      ∧ m.regsBut r.2 [aGRD_DENY (r.1 - 1), aGRD_LASTDENY])

/-- The guard's configuration (R217, R208, R534). The staging image and the records are written as their rules allow; verification ends with
the first failed check in VERR and the old image in force, or with the staged image active, its numbers shown, levels kept or started
afresh, and the sensing state of a head whose record did not change kept. -/
def Obligations.GuardImagesAreVerified : Prop :=
  ∀ (s : State),
    let m := s.m
    (∀ src off w, wfGuardStagingWrite src off w = true →
      let may := m.mayWrite src .grd 0 (0x40000 + off)
      (may ≠ 0 → RunsTo (.guardStagingWrite src off w) s (m.done may))
      ∧ (may = 0 → m.isPending grdPage 0 = true → Runs (.guardStagingWrite src off w) s (fun m' => m'.status = 1
          ∧ m'.fld (aCSTAT grdPage) fCSTAT_REFUSED = min 0xFFFF (m.fld (aCSTAT grdPage) fCSTAT_REFUSED + 1)
          ∧ m.regsBut m' [aCSTAT grdPage] ∧ Touches [.status, .regs] m m'))
      ∧ (may = 0 → m.isPending grdPage 0 = false → Runs (.guardStagingWrite src off w) s (fun m' => m'.status = 0
          ∧ m'.mword (grdStage + off) = w ∧ m.bytesBut m' (grdStage + off) 4 ∧ Touches [.status, .mem] m m')))
    ∧ (∀ ctx grp off w, wfRequestRecordWrite ctx grp off w = true →
      let ends (st : Nat) : Prop := RunsTo (.requestRecordWrite ctx grp off w) s (m.done st)
      (m.ctxOn ctx = false → ends 7)
      ∧ (m.ctxOn ctx = true → m.dev.st = .shutdown → ends 1)
      ∧ (m.ctxOn ctx = true → m.dev.st ≠ .shutdown → ctx ≠ m.safetyCtx → ends 3)
      ∧ (m.ctxOn ctx = true → m.dev.st ≠ .shutdown → ctx = m.safetyCtx → m.isPending grdPage 0 = true →
          RunsTo (.requestRecordWrite ctx grp off w) s (m.refusePending grdPage))
      ∧ (m.ctxOn ctx = true → m.dev.st ≠ .shutdown → ctx = m.safetyCtx → m.isPending grdPage 0 = false →
          Runs (.requestRecordWrite ctx grp off w) s (fun m' => let a := grdPage + 0x100 + 0x80 * grp + off
            m'.status = 0 ∧ m'.mword a = w ∧ m.bytesBut m' a 4
            ∧ (grp = 0 → m'.grd = { m.grd with wrA := m.grd.wrA ||| 2 ^ (off / 4) }
                ∧ m'.flag aGRD_VSTAT fGRD_VSTAT_REQ_A = (m.grd.wrA ||| 2 ^ (off / 4) == 2 ^ 32 - 1))
            ∧ (grp = 1 → m'.grd = { m.grd with wrB := m.grd.wrB ||| 2 ^ (off / 4) }
                ∧ m'.flag aGRD_VSTAT fGRD_VSTAT_REQ_B = (m.grd.wrB ||| 2 ^ (off / 4) == 2 ^ 32 - 1))
            ∧ m.regsBut m' [aGRD_VSTAT] ∧ Touches [.status, .regs, .mem, .grd] m m')))
    ∧ (m.grd.verifyDue = none → RunsTo .guardVerifyDone s m)
    ∧ (∀ c, m.grd.verifyDue = some c →
      let ra := m.bytes (grdPage + 0x100) 128
      let img := m.image grdStage grdLen
      let w (o : Nat) := leNat (recPart ra o 4)
      let iw (o : Nat) := leNat (recPart img o 4)
      let checks : List Bool := [
        recordFull m.grd.wrA && recordFull m.grd.wrB && ra == m.bytes (grdPage + 0x180) 128,
        grdHeaderOk img && w 8 == iw 8 && w 4 == iw 12 && decide (w 12 < 4) && (ra.drop 0x70).all (fun b => b == 0),
        sha256 img == recPart ra 0x10 32, s.otp.signedBy ra,
        (match m.grd.seqMax with | none => true | some q => decide (q < w 0)), decide (s.otp.gminver ≤ w 4)]
      Runs .guardVerifyDone s (fun m' =>
        m'.grd.verifyDue = none ∧ m'.grd.wrA = 0 ∧ m'.grd.wrB = 0 ∧ m'.isPending grdPage 0 = false
        ∧ m'.flag aGRD_VSTAT fGRD_VSTAT_BUSY = false ∧ m'.flag aGRD_VSTAT fGRD_VSTAT_REQ_A = false ∧ m'.flag aGRD_VSTAT fGRD_VSTAT_REQ_B = false
        ∧ m'.fld aGRD_VSTAT fGRD_VSTAT_VERR = (if checks.all id then 0 else checks.findIdx (fun b => !b) + 1)
        ∧ (checks.all id = false → m'.mem = m.mem ∧ m.regsBut m' [aGRD_VSTAT])
        ∧ (checks.all id = true → m'.grdOn = true ∧ m'.grd.seqMax = some (w 0) ∧ m'.fld aGRD_SEQNO fGRD_SEQNO_SEQNO = w 0
          ∧ m'.fld (aCSTAT grdPage) fCSTAT_APPLIED = (m.fld (aCSTAT grdPage) fCSTAT_APPLIED + 1) % 2 ^ 16
          ∧ m'.grd.firstAct = false ∧ (∀ k, k < grdLen → m'.byte (grdImg + k) = m.byte (grdStage + k))
          ∧ (m.grd.firstAct = false → m.bytesBut m' grdImg grdLen)
          ∧ (m.grd.firstAct = true → (m.mnat (grdStage + 0x10) 4).testBit 1 = false → ∀ z v, z < 16384 → v < 3 → m'.level z v = 0)
          ∧ ∀ h, h < 2 →
            let same := !m.grd.firstAct && m.image (grdImg + 0x40 + 32 * h) 32 == m.image (grdStage + 0x40 + 32 * h) 32
            (same = true → (m'.head h).known = (m.head h).known ∧ (m'.head h).count = (m.head h).count ∧ (m'.head h).resume = (m.head h).resume)
            ∧ (same = false → (m'.head h).known = false ∧ (m'.head h).resume = 0 ∧ (m'.head h).stalled = false))
        ∧ Touches [.regs, .mem, .commits, .grd] m m'))

/-- Sensing and faults of the guard (R210, R213 to R216, R218). A stall of a valid head is declared STALL_GAP guard cycles after its last edge, or
when its position no longer moves: STALL sets and the gate closes. A stale module is hot; a fault puts the configuration out of force, closes
the gate and enters OASIS. -/
def Obligations.GuardStallsAndFaults : Prop :=
  ∀ (s : State),
    let m := s.m
    (∀ h, h < 2 →
      let declares (c : Nat) : Prop := Runs (.stall h) s (fun m' => m'.cyc = c ∧ m'.gateOpen = false ∧ (m'.head h).stalled = true
        ∧ (m'.head h).resume = 0 ∧ (m'.fld aGRD_STAT fGRD_STAT_STALL).testBit h = true ∧ m'.eng = m.eng
        ∧ m.regsBut m' [aGRD_STAT, aGRD_SENSE 0, aGRD_SENSE 1, aFLT_STAT] ∧ Touches [.cyc, .time, .regs, .flt, .grd] m m')
      (m.grdOn = false ∨ m.motionOk h = false → RunsTo (.stall h) s m)
      ∧ (∀ l, m.grdOn = true → m.motionOk h = true → m.fld aFLT_OASISMASK fFLT_OASISMASK_MASK = 0 → m.azSrc h = 1 → 0 < m.resumeN h →
          (m.head h).lastEdge = some l → declares (max m.cyc (16 * (l + m.stallGap h))))
      ∧ (m.grdOn = true → m.motionOk h = true → m.fld aFLT_OASISMASK fFLT_OASISMASK_MASK = 0 → m.azSrc h ≠ 1 → m.posAxes h ≠ [] →
          m.spansOk h = false → declares m.cyc)
      ∧ (m.azSrc h ≠ 1 → m.spansOk h = true → RunsTo (.stall h) s m))
    ∧ (∀ k, k < 4 →
      (m.grd.temp.find? (fun t => t.1 == k) = none → RunsTo (.moduleStale k) s m)
      ∧ (∀ t c, m.grd.temp.find? (fun t => t.1 == k) = some (k, t, c) → Runs (.moduleStale k) s (fun m' => m'.cyc = max m.cyc (c + 80000001)
          ∧ m'.modBad k = true ∧ (m.grdOn = true → (m'.fld aGRD_STAT fGRD_STAT_MODHOT).testBit k = true)
          ∧ m.regsBut m' [aGRD_STAT, aGRD_SENSE 0, aGRD_SENSE 1] ∧ Touches [.cyc, .regs, .time, .grd] m m')))
    ∧ (∀ a adc, a < 4 → adc < 4096 →
      let samples := (signed 12 adc :: mapGet [] m.grd.pos a).take 5
      Runs (.guardPositionSample a adc) s (fun m' => mapGet [] m'.grd.pos a = samples ∧ (∀ b, b ≠ a → mapGet [] m'.grd.pos b = mapGet [] m.grd.pos b)
        ∧ m'.cyc = m.cyc ∧ (m.grdOn = false → Touches [.grd] m m')
        ∧ (m.grdOn = true → (∀ h, h < 2 → m.motionOk h = false) → Touches [.grd, .regs] m m' ∧
            m.regsBut m' [aGRD_STAT, aGRD_SENSE 0, aGRD_SENSE 1])))
    ∧ ((m.dev.st = .off ∨ m.dev.st = .reset ∨ m.dev.st = .shutdown → RunsTo .guardFault s m)
      ∧ (m.dev.st ≠ .off → m.dev.st ≠ .reset → m.dev.st ≠ .shutdown → Runs .guardFault s (fun m' => m'.gateOpen = false ∧ m'.grdOn = false
          ∧ m'.flag aGRD_STAT fGRD_STAT_FAULT = true ∧ m'.dev.st = .oasis ∧ m'.grd.firstAct = true ∧ m'.cyc = m.cyc)))

/-! ## Receive ports and timing (R223 to R253, R485, R486) -/

/-- What a port takes in (R223, R227 to R235, R239, R240, R243, R244). A listening interval opens 40 ns before the edge and cuts one that is still
open; it closes at the range gate or at the latest start. A leading edge is lost to dead time, to blanking or outside an interval, with its
trailing edge, and else joins the interval; samples join it corrected; an overload is noted in every open interval of the tile; the input
current shows as a code, with OVERCUR after three readings above ILIM and OPEN after ten high ones. -/
def Obligations.PortsCollectEvidence : Prop :=
  ∀ (s : State) (p : Nat), p < 96 →
    let m := s.m
    let y := m.p p
    let only (m' : Mach) : Prop := ∀ q, q ≠ p → m'.p q = m.p q
    let next := y.shots.find? (fun x => x.status.isNone && x.iv.isNone)
    ((next = none → RunsTo (.listenOpen p) s m)
      ∧ (∀ x, next = some x → Runs (.listenOpen p) s (fun m' => m'.cyc = max m.cyc (divCeil (x.edge - 2048) 64)
          ∧ (∃ z v, z ∈ (m'.p p).shots ∧ z.id = x.id ∧ z.iv = some v ∧ v.opened = x.edge - 2048 ∧ v.start = none ∧ v.closed = none ∧ v.edges = []
              ∧ v.samples = [] ∧ v.chFail = m.chFail p ∧ v.dllErr = !m.pairOk (p / 4))
          ∧ (m'.p p).pofs = (List.range 4).map (fun c => m.pofs (4 * p + c))
          ∧ m'.fld (aPRT_LOST2 p) fPRT_LOST2_GATE_CUT = min 0xFFFF (m.fld (aPRT_LOST2 p) fPRT_LOST2_GATE_CUT + bit y.listening.isSome)
          ∧ (y.listening.isSome = true → (m'.p p).lastClose = some (x.edge - 2048))
          ∧ only m' ∧ m.regsBut m' [aPRT_LOST2 p] ∧ Touches [.cyc, .regs, .time, .port, .tdc] m m')))
    ∧ ((y.listening = none → RunsTo (.listenClose p) s m)
      ∧ (∀ x v, y.listening = some x → x.iv = some v →
        let closes (t : Nat) : Prop := Runs (.listenClose p) s (fun m' => m'.cyc = max m.cyc (divCeil t 64) ∧ (m'.p p).listening = none
          ∧ (m'.p p).lastClose = some t ∧ only m' ∧ Touches [.cyc, .time, .port, .tdc] m m')
        (x.status = some 3 → closes (m.startEnd x.str x.edge))
        ∧ (x.status ≠ some 3 → v.start ≠ none → closes (v.t0 + m.gateOf p x).toNat)
        ∧ (x.status ≠ some 3 → v.start = none → RunsTo (.listenClose p) s m)))
    ∧ (∀ c t, c < 4 →
      let u := m.corrected p c t
      let when_ (m' : Mach) : Prop := m'.cyc = max m.cyc (divCeil (divCeil t 64) 64) ∧ only m'
      let dead := match y.lead.find? (fun l => l.1 == c) with | some (_, l) => decide ((t : Int) - l < 4096) | none => false
      let unheard := y.listening = none ∨ m.tdc.bad.contains (m.physComp p c) = true
      Runs (.comparatorEdge p c false t) s (fun m' => m'.p p = y.trail c u ∧ when_ m' ∧ Touches [.cyc, .time, .port] m m')
      ∧ (m.compOn p c = false → Runs (.comparatorEdge p c true t) s (fun m' => m'.p p = y ∧ when_ m' ∧ Touches [.cyc, .time] m m'))
      ∧ (m.compOn p c = true → dead = true → Runs (.comparatorEdge p c true t) s (fun m' => c ∈ (m'.p p).drop ∧ (m'.p p).shots = y.shots
          ∧ (m'.p p).lead = y.lead ∧ when_ m' ∧ m.regsBut m' [aPRT_LOST0 p] ∧ m'.fld (aPRT_LOST0 p) fPRT_LOST0_DEAD_LOST
              = min 0xFFFF (m.fld (aPRT_LOST0 p) fPRT_LOST0_DEAD_LOST + bit y.listening.isSome) ∧ Touches [.cyc, .regs, .time, .port] m m'))
      ∧ (m.compOn p c = true → dead = false → unheard → Runs (.comparatorEdge p c true t) s (fun m' => c ∈ (m'.p p).drop
          ∧ (m'.p p).shots = y.shots ∧ (c, (t : Int)) ∈ (m'.p p).lead ∧ when_ m' ∧ Touches [.cyc, .time, .port] m m'))
      ∧ (m.compOn p c = true → dead = false → ¬ unheard → m.blanked p t = true → Runs (.comparatorEdge p c true t) s (fun m' =>
          c ∈ (m'.p p).drop ∧ (m'.p p).shots = y.shots ∧ (c, (t : Int)) ∈ (m'.p p).lead ∧ when_ m' ∧ m.regsBut m' [aPRT_LOST1 p]
          ∧ m'.fld (aPRT_LOST1 p) fPRT_LOST1_BLANKED = min 0xFFFF (m.fld (aPRT_LOST1 p) fPRT_LOST1_BLANKED + 1)
          ∧ Touches [.cyc, .regs, .time, .port] m m'))
      ∧ (∀ x v, m.compOn p c = true → dead = false → ¬ unheard → m.blanked p t = false → y.listening = some x → x.iv = some v →
          let full := v.start = none ∧ 8 ≤ (v.edges.filter (fun e => e.c == c)).length
          Runs (.comparatorEdge p c true t) s (fun m' => c ∉ (m'.p p).drop ∧ when_ m'
            ∧ (∃ z w, (m'.p p).listening = some z ∧ z.id = x.id ∧ z.iv = some w ∧ { c := c, lead := u, trail := none } ∈ w.edges
                ∧ (¬ full → w.edges = v.edges ++ [{ c := c, lead := u, trail := none }]) ∧ (full → w.edges.length = v.edges.length))
            ∧ (¬ full → Touches [.cyc, .time, .port] m m')
            ∧ (full → m'.fld (aPRT_LOST0 p) fPRT_LOST0_PRE_LOST = min 0xFFFF (m.fld (aPRT_LOST0 p) fPRT_LOST0_PRE_LOST + 1)
                ∧ m.regsBut m' [aPRT_LOST0 p] ∧ Touches [.cyc, .regs, .time, .port] m m'))))
    ∧ (∀ odd k adc, adc < 1024 →
      let t := 64 * k + 32 * bit odd
      let sc := m.fld (aWCV_PORT p) (if odd then fWCV_PORT_ODD else fWCV_PORT_EVEN)
      Runs (.waveformSample p odd k adc) s (fun m' => m'.cyc = max m.cyc (k + bit odd) ∧ only m'
        ∧ (y.listening = none → (m'.p p).shots = y.shots)
        ∧ (∀ x v, y.listening = some x → x.iv = some v → v.wfSkip = false → ∃ z w q, (m'.p p).listening = some z ∧ z.id = x.id ∧ z.iv = some w
            ∧ w.samples = v.samples ++ [q] ∧ q.t = t ∧ q.blank = m.blanked p (64 * t)
            ∧ (q.code : Int) = clampInt 0 1023 (divRound ((4 * adc + m.sfld (aWCV_SCAL p sc) fWCV_SCAL_OFS)
                * (4096 + m.sfld (aWCV_SCAL p sc) fWCV_SCAL_GAIN)) 16384))
        ∧ Touches [.cyc, .time, .port] m m'))
    ∧ (∀ t,
      let c := max m.cyc (divCeil t 64)
      (y.ovl ≠ none → Runs (.overloadTrip p t) s (fun m' => m'.cyc = c ∧ (∀ q, m'.p q = m.p q) ∧ Touches [.cyc, .time] m m'))
      ∧ (y.ovl = none → Runs (.overloadTrip p t) s (fun m' => m'.cyc = c ∧ (m'.p p).ovl = some t
          ∧ m'.fld (aPRT_OVL p) fPRT_OVL_OVL = min 0xFFFF (m.fld (aPRT_OVL p) fPRT_OVL_OVL + 1) ∧ m.regsBut m' [aPRT_OVL p]
          ∧ (∀ q, q / 4 ≠ p / 4 → m'.p q = m.p q) ∧ (∀ q, q ≠ p → (m'.p q).ovl = (m.p q).ovl)
          ∧ (∀ q z v, q / 4 = p / 4 → (m.p q).listening = some z → z.iv = some v → ∃ z' w, (m'.p q).listening = some z' ∧ z'.iv = some w
              ∧ (q = p → w.own = v.own ++ [(t, none)] ∧ w.tile = v.tile) ∧ (q ≠ p → w.tile = v.tile ++ [(t, none)] ∧ w.own = v.own))
          ∧ Touches [.cyc, .regs, .time, .port] m m'))
      ∧ Runs (.overloadRelease p t) s (fun m' => m'.cyc = c ∧ (m'.p p).ovl = none ∧ (∀ q, q / 4 ≠ p / 4 → m'.p q = m.p q)
          ∧ (∀ q, q ≠ p → (m'.p q).ovl = (m.p q).ovl) ∧ (y.ovl = none → ∀ q, m'.p q = m.p q) ∧ Touches [.cyc, .time, .port] m m'))
    ∧ (∀ i level t, i < 4 → Runs (.blankPin i level t) s (fun m' => m'.cyc = max m.cyc (divCeil t 64)
        ∧ m'.tdc = { m.tdc with pins := mapPut [] m.tdc.pins i (((t, level) :: mapGet [] m.tdc.pins i).take 16) }
        ∧ Touches [.cyc, .time, .tdc] m m'))
    ∧ (∀ pA high, pA < 2 ^ 32 →
      let a := aPRT_IMON p
      let ilim := m.fld (aPRT_BIAS p) fPRT_BIAS_ILIM
      let above := decide (ilim ≤ 36065) && decide (ilim < ibiasCode pA)
      let isOpen := high && decide (9 ≤ y.openN)
      Runs (.ibiasReading p pA high) s (fun m' => m'.fld a fPRT_IMON_IBIAS = ibiasCode pA % 2 ^ 16
        ∧ m'.flag a fPRT_IMON_LOW = decide (pA < 10000) ∧ m'.flag a fPRT_IMON_HIGH = decide (2000000000 < pA) ∧ m'.flag a fPRT_IMON_OPEN = isOpen
        ∧ m'.flag (aPRT_STAT p) fPRT_STAT_OVERCUR = (m.flag (aPRT_STAT p) fPRT_STAT_OVERCUR || (above && decide (2 ≤ y.high)))
        ∧ m'.flag (aPRT_STAT p) fPRT_STAT_OPEN_SEEN = (m.flag (aPRT_STAT p) fPRT_STAT_OPEN_SEEN || (isOpen && !m.flag a fPRT_IMON_OPEN))
        ∧ (m.fld aFLT_OASISMASK fFLT_OASISMASK_MASK = 0 → (m'.p p).high = (if above then min 3 (y.high + 1) else 0)
            ∧ (m'.p p).openN = (if high then min 10 (y.openN + 1) else 0) ∧ only m')
        ∧ m'.cyc = m.cyc))

/-- Timing channels stay in service (R246 to R252, R485, R486). A DLL locks once locking has been requested and takes over a due pair; lost lock of
the serving DLL makes a swap due; a calibration writes its results and its record; a test that fails twice in a row, or a failed calibration,
fails the channel, and the spare takes the slot at the next shot boundary; a handover within tolerance moves the slot to or from the spare. -/
def Obligations.TimingChannelsStayInService : Prop :=
  ∀ (s : State),
    let m := s.m
    (∀ src, src.wf = true → (m.mayWrite src .tdc 0 0 ≠ 0 → RunsTo (.dllLockRequest src) s (m.done (m.mayWrite src .tdc 0 0)))
      ∧ (m.mayWrite src .tdc 0 0 = 0 → Runs (.dllLockRequest src) s (fun m' => m'.tdc = { m.tdc with req := true } ∧ m'.status = 0
          ∧ Touches [.status, .tdc] m m')))
    ∧ (∀ k d, k < 25 → d < 2 → m.dllSel k < 2 →
      let free := k = 24 ∨ m.tileOpen k = false
      (m.tdc.req = false → RunsTo (.dllLock k d) s m)
      ∧ (m.tdc.req = true → Runs (.dllLock k d) s (fun m' => m'.dllLocked k d = true
          ∧ (∀ j e, j < 25 → e < 2 → (j ≠ k ∨ e ≠ d) → m'.dllLocked j e = m.dllLocked j e) ∧ (∀ j, j < 25 → j ≠ k → m'.dllSel j = m.dllSel j)
          ∧ m'.dllSel k = (if m.dllDue k = true ∧ m.pairOk k = false ∧ d ≠ m.dllSel k ∧ free then d else m.dllSel k)
          ∧ (m'.flag aTDC_DLLSTAT fTDC_DLLSTAT_ALL_LOCK = true ↔ ∀ j, j < 25 → m'.pairOk j = true) ∧ Touches [.regs, .tdc] m m'))
      ∧ (m.dllLocked k d = false → RunsTo (.dllLockLoss k d) s m)
      ∧ (m.dllLocked k d = true → m.fld aFLT_OASISMASK fFLT_OASISMASK_MASK = 0 → Runs (.dllLockLoss k d) s (fun m' => m'.dllLocked k d = false ∧ m'.dllLocked k (1 - d) = m.dllLocked k (1 - d)
          ∧ m'.dllSel k = (if d = m.dllSel k ∧ m.dllLocked k (1 - d) = true ∧ free then 1 - d else m.dllSel k)
          ∧ (d = m.dllSel k → m'.pairOk k = false → m'.dllDue k = true)
          ∧ (d = m.dllSel k → ∀ j, j < 4 → k < 24 → m'.flag (aPRT_STAT (4 * k + j)) fPRT_STAT_DLLERR = true)
          ∧ (d ≠ m.dllSel k → Touches [.regs, .tdc] m m')))
      ∧ Runs (.dllSwap k) s (fun m' => m'.dllSel k = (if m.dllDue k = true ∧ m.dllLocked k (1 - m.dllSel k) = true then 1 - m.dllSel k else m.dllSel k)
          ∧ (∀ j e, j < 25 → e < 2 → m'.dllLocked j e = m.dllLocked j e) ∧ (∀ j, j < 25 → j ≠ k → m'.dllSel j = m.dllSel j)
          ∧ Touches [.regs, .tdc] m m'))
    ∧ (∀ i ok dnl ofs, wfChannelCalibrationDone i ok dnl ofs = true → m.time.now.ns < 10 ^ 9 →
      let a := calRecAddr i
      Runs (.channelCalibrationDone i ok dnl ofs) s (fun m' =>
        (ok = true → m'.mnat (a + 2) 2 = min 0xFFFF (m.mnat (a + 2) 2 + 1) ∧ m'.mnat a 2 = m.time.now.ns / 1000000
          ∧ m'.mnat (a + 4) 4 = m.time.now.sec % 2 ^ 32 ∧ m.bytesBut m' a 8)
        ∧ (i < 424 → i ∈ m'.tdc.cald)
        ∧ (i < 408 → m'.fld (aTDC_CHCAL i) fTDC_CHCAL_DNLMAX = dnl ∧ m'.chofs i = ofs ∧ (ok = false → m'.physFailed (i / 17) (i % 17) = true))
        ∧ (408 ≤ i → i < 424 → mapGet 0 m'.tdc.startOfs (i - 408) = ofs
            ∧ (ok = false → (m'.fld aTDC_STSTAT fTDC_STSTAT_FAIL).testBit (i - 408) = true))
        ∧ (424 ≤ i → m'.reg (aWCV_SCAL ((i - 424) / 3) ((i - 424) % 3)) = word (dnl + 256 * toField 16 ofs)
            ∧ (ok = false → (m'.fld (aWCV_PORT ((i - 424) / 3)) fWCV_PORT_FAIL).testBit ((i - 424) % 3) = true))
        ∧ (ok = true → Touches [.regs, .mem, .tdc] m m') ∧ m'.cyc = m.cyc))
    ∧ (∀ i off, i < 424 →
      let on := if i < 408 then m.physServes (i / 17) (i % 17) else !(m.fld aTDC_STSTAT fTDC_STSTAT_FAIL).testBit (i - 408)
      let tol := m.fld aTDC_ROT fTDC_ROT_TEST_TOL
      (on = false → RunsTo (.testEdge i off) s m)
      ∧ (on = true → off ≤ tol → Runs (.testEdge i off) s (fun m' => i ∉ m'.tdc.bad ∧ Touches [.tdc] m m'))
      ∧ (on = true → tol < off → i ∉ m.tdc.bad → Runs (.testEdge i off) s (fun m' => m'.tdc = { m.tdc with bad := m.tdc.bad ++ [i] }
          ∧ Touches [.tdc] m m'))
      ∧ (on = true → tol < off → i ∈ m.tdc.bad → Runs (.testEdge i off) s (fun m' => i ∉ m'.tdc.bad
          ∧ (i < 408 → m'.physFailed (i / 17) (i % 17) = true)
          ∧ (408 ≤ i → (m'.fld aTDC_STSTAT fTDC_STSTAT_FAIL).testBit (i - 408) = true))))
    ∧ (∀ t k, t < 24 → k < 16 → m.spareFree t = true → (m.tile t).takeover = [k] → (m.tile t).swapDue = false → (∀ j, j < 4 → (m.p (4 * t + j)).sliceDue = []) →
      Runs (.spareTakeover t) s (fun m' => m'.flag (aTDC_TILE t) fTDC_TILE_SUBST_V = true ∧ m'.fld (aTDC_TILE t) fTDC_TILE_SUBST = k
        ∧ (m'.tile t).takeover = [] ∧ m.regsBut m' [aTDC_TILE t] ∧ Touches [.regs, .port, .tdc] m m'))
    ∧ (∀ t diff, t < 24 →
      let x := m.tile t
      let a := aTDC_TILE t
      let due := m.rotates t = true ∧ x.swapDue = false ∧ x.takeover = [] ∧ m.hoShots ≤ x.shots
      let moves (v : Bool) (y : Tile) : Prop := Runs (.rotationHandover t diff) s (fun m' => m'.flag a fTDC_TILE_SUBST_V = v
        ∧ (v = true → m'.fld a fTDC_TILE_SUBST = x.slot % 16) ∧ m'.tile t = y ∧ (∀ u, u ≠ t → m'.tile u = m.tile u) ∧ m.regsBut m' [a]
        ∧ Touches [.regs, .tdc] m m')
      (¬ due ∨ (x.phase ≠ 1 ∧ x.phase ≠ 3) → RunsTo (.rotationHandover t diff) s m)
      ∧ (due → diff ≤ m.fld aTDC_ROT fTDC_ROT_HO_TOL → x.phase = 1 → moves true { x with phase := 2, mis := 0 })
      ∧ (due → diff ≤ m.fld aTDC_ROT fTDC_ROT_HO_TOL → x.phase = 3 → moves false
          (if x.slot = 15 then { x with slot := 16, phase := 0, mis := 0 } else { x with slot := x.slot + 1, phase := 1, mis := 0, shots := 0 }))
      ∧ (due → m.fld aTDC_ROT fTDC_ROT_HO_TOL < diff → x.phase = 1 ∨ x.phase = 3 → x.mis = 0 → Runs (.rotationHandover t diff) s (fun m' =>
          m'.flag a fTDC_TILE_HOERR = true ∧ m'.tile t = { x with phase := x.phase - 1, mis := 1 }
          ∧ m'.mnat (calRecAddr (17 * t + if x.phase = 1 then 16 else x.slot)) 4 / 2 ^ 14 % 4 = 2 ∧ m.regsBut m' [a]
          ∧ Touches [.regs, .mem, .tdc] m m')))

/-! ## Cells, banks and handles (R254 to R288) -/

/-- Cells and banks (R255, R263 to R268, R270, R271, R273, R274). The oldest shot of a port settles into its cell with its shot-table entry; a
closed and settled cell swaps: its header is written, its bank is DONE under the next GEN and its handle joins the queue of the port's pool.
A bank is assigned while UNASSIGNED or FREE; FLUSH empties every DONE bank; the Owner writes banks that are not in use, an engine the bank it
holds; an uncorrectable error fails a FREE bank and marks one in use. -/
def Obligations.CellsSettleAndSwap : Prop :=
  ∀ (s : State),
    let m := s.m
    (∀ p, p < 96 →
      let y := m.p p
      (y.shots = [] → RunsTo (.shotSettle p) s m)
      ∧ (∀ x t, y.shots = x :: t → x.ready = none ∨ y.cells.find? (fun c => c.bank == x.bank) = none → RunsTo (.shotSettle p) s m)
      ∧ (∀ x rest st t c, y.shots = x :: rest → x.ready = some (st, t) → y.cells.find? (fun c => c.bank == x.bank) = some c →
        Runs (.shotSettle p) s (fun m' => m'.cyc = max m.cyc (divCeil t 64) ∧ (m'.p p).shots = rest ∧ (∀ q, q ≠ p → m'.p q = m.p q)
          ∧ (m'.p p).cells.length = y.cells.length
          ∧ (∃ c', c' ∈ (m'.p p).cells ∧ c'.bank = c.bank ∧ c'.done = c.done + 1 ∧ c'.counted = c.counted ∧ (st = 0 → x.iv ≠ none → c'.acc = c.acc + 1)
              ∧ (st ≠ 0 → c' = { c with done := c.done + 1, last := max c.last (divCeil t 64) }))
          ∧ (st ≠ 0 → let a := bankBase c.bank + 0x100 + 32 * c.done
              m'.mnat a 4 = (2 ^ 29 * st + 2 ^ 16 * x.d + 2 ^ 10 * bit x.covloss) % 2 ^ 32 ∧ m'.mnat (a + 4) 4 = x.edge / 64 % 2 ^ 32
              ∧ m'.mnat (a + 8) 4 = 0 ∧ m'.mnat (a + 12) 4 = 0 ∧ m'.mnat (a + 16) 4 = 0 ∧ m.bytesBut m' a 20
              ∧ m'.fld (aPRT_LOST2 p) fPRT_LOST2_SETTLE_LOST = min 0xFFFF (m.fld (aPRT_LOST2 p) fPRT_LOST2_SETTLE_LOST + bit (st == 4))
              ∧ m.regsBut m' [aPRT_LOST2 p, aERG_PSTAT p]))))
    ∧ (∀ p, p < 96 →
      let y := m.p p
      (y.cells = [] → RunsTo (.cellSwap p) s m)
      ∧ (∀ c rest, y.cells = c :: rest → c.closed = false ∨ c.done ≠ c.counted → RunsTo (.cellSwap p) s m)
      ∧ (∀ c rest, y.cells = c :: rest → c.closed = true → c.done = c.counted → c.bank < 192 → Runs (.cellSwap p) s (fun m' =>
          let b := c.bank
          let gen := (m.bankGen b + 1) % 256
          let h := (c.flag 8 ((m.byte (bankBase b + 0xF)).getLsbD 0)).header p
          let k := m.portPool p
          m'.cyc = max m.cyc (c.last + 16) ∧ (m'.p p).cells = rest ∧ m'.bankGen b = gen ∧ m'.bankSt b = 3
          ∧ m'.bytes (bankBase b) h.length = h ∧ m.bytesBut m' (bankBase b) h.length ∧ m'.mnat (bankBase b) 4 = c.seq % 2 ^ 32
          ∧ m'.fld aERG_CELLS fERG_CELLS_CELLS = (m.fld aERG_CELLS fERG_CELLS_CELLS + 1) % 2 ^ 32
          ∧ (∃ dly, (m'.pl k).queue = (m.pl k).queue ++ [{ bank := b, gen := gen, red := 0, at_ := m'.cyc + dly }] ∧ (m.pertActs = false → dly = 0))
          ∧ (∀ j, j ≠ k → m'.pl j = m.pl j) ∧ (∀ q, q ≠ p → m'.p q = m.p q)
          ∧ Touches [.cyc, .regs, .mem, .commits, .time, .port, .pool] m m')))
    ∧ (∀ src b v, src.wf = true → b < 192 →
      let may := m.mayWrite src .erg 0 (0x400 + 4 * b)
      let en := fERG_BANK_EN.get v
      let port := fERG_BANK_PORT.get v
      let same := en = m.fld (aERG_BANK b) fERG_BANK_EN ∧ port = m.bankPort b
      (may ≠ 0 → RunsTo (.bankAssign src b v) s (m.done may))
      ∧ (may = 0 → same ∨ m.bankSt b = 5 → RunsTo (.bankAssign src b v) s (m.done 0))
      ∧ (may = 0 → ¬ same → m.bankSt b ≠ 5 → 1 < m.bankSt b ∨ 95 < port → Runs (.bankAssign src b v) s (fun m' => m'.status = 0
          ∧ m'.fld aERG_STAT fERG_STAT_ALLOC_REF = min 0xFF (m.fld aERG_STAT fERG_STAT_ALLOC_REF + 1) ∧ m.regsBut m' [aERG_STAT]
          ∧ Touches [.status, .regs] m m'))
      ∧ (may = 0 → ¬ same → m.bankSt b ≤ 1 → port ≤ 95 → Runs (.bankAssign src b v) s (fun m' => m'.status = 0
          ∧ m'.fld (aERG_BANK b) fERG_BANK_EN = en ∧ m'.bankPort b = port ∧ m'.bankSt b = en ∧ m'.bankGen b = m.bankGen b
          ∧ m.regsBut m' [aERG_BANK b, aERG_PSTAT (m.bankPort b), aERG_PSTAT port] ∧ Touches [.status, .regs] m m')))
    ∧ (∀ src, src.wf = true →
      let may := m.mayWrite src .erg 0 0
      let on := m.dev.st = .linked ∨ m.dev.st = .loaded ∨ m.dev.st = .oasis
      (may ≠ 0 → RunsTo (.flush src) s (m.done may)) ∧ (may = 0 → ¬ on → RunsTo (.flush src) s (m.done 0))
      ∧ (may = 0 → on → Runs (.flush src) s (fun m' => m'.status = 0
          ∧ (∀ b, b < 192 → m.bankSt b = 3 → m'.bankSt b ≠ 3 ∧ ∀ k, k < 0x10000 → m'.byte (bankBase b + k) = 0)
          ∧ (∀ b, b < 192 → m.bankSt b ≠ 3 → m'.bankSt b = m.bankSt b ∧ ∀ k, k < 0x10000 → m'.byte (bankBase b + k) = m.byte (bankBase b + k))
          ∧ (∀ k h, k < 8 → h.bank < 192 → (h ∈ (m'.pl k).queue ↔ h ∈ (m.pl k).queue ∧ m.bankSt h.bank ≠ 3))
          ∧ (∀ k, (m'.pl k).waiters = (m.pl k).waiters) ∧ Touches [.status, .regs, .mem, .pool] m m')))
    ∧ (∀ src b off w, wfErgWindowWrite src b off w = true →
      let c := Instr.ergWindowWrite src b off w
      let st : Nat := match src with
        | .link c _ => if m.ctxOn c = false then 7 else if m.dev.st = .shutdown then 1 else if c ≠ m.owner then 3 else if 1 < m.bankSt b then 2 else 0
        | .eng e => if (m.e e).held.any (fun h => h.bank == b) then 0 else 3
      (st ≠ 0 ∨ bankResv off = true → RunsTo c s (m.done st))
      ∧ (st = 0 → bankResv off = false → Runs c s (fun m' => m'.status = 0 ∧ m'.mword (bankBase b + off) = w
          ∧ m.bytesBut m' (bankBase b + off) 4 ∧ Touches [.status, .mem] m m')))
    ∧ (∀ b, b < 192 → m.fld aFLT_OASISMASK fFLT_OASISMASK_MASK = 0 →
      let bad := (m.byte (bankBase b + 0xF)).getLsbD 0
      let used := m.bankSt b = 2 ∨ m.bankSt b = 3 ∨ m.bankSt b = 4
      (m.bankSt b = 1 → Runs (.ergEccError b) s (fun m' => m'.bankSt b = 5 ∧ (∀ k, k < 0x10000 → m'.byte (bankBase b + k) = 0)
          ∧ m'.flt.inCyc ≠ 0 ∧ Touches [.regs, .mem, .flt] m m'))
      ∧ (used → bad = false → Runs (.ergEccError b) s (fun m' => (m'.byte (bankBase b + 0xF)).getLsbD 0 = true ∧ m.bytesBut m' (bankBase b + 0xF) 1
          ∧ m'.bankSt b = m.bankSt b ∧ Touches [.regs, .mem, .flt] m m'))
      ∧ (m.bankSt b ≠ 1 → ¬ used ∨ bad = true → RunsTo (.ergEccError b) s m))

/-- Handles (R270, R271, R275 to R277, R284, R285, R287, R288, R535). take gets the oldest handle of its pool at once, or waits behind the
earlier ones with a timeout; LOOK maps the active bank of a port of the pool; the hardware hands the oldest handle to the longest waiter; rel
waits for PTS, which accepts one group in a cycle, releases the bank and answers the number of returns. -/
def Obligations.HandlesPassThroughPools : Prop :=
  ∀ (s : State) (e : Nat),
    let m := s.m
    let x := m.e e
    let p := m.poolOf e
    let holds (m' : Mach) (e : Nat) (h : Handle) : Prop := (m'.e e).held = some h ∧ m'.bankSt h.bank = 4 ∧ m'.bankGen h.bank = m.bankGen h.bank
    (∀ i : FX, m.canIssue e → engClass e = .re → i.rt = 0 →
      (i.xi = 0 →
        (x.held ≠ none ∨ x.openq ≠ none → EngFaults (.take e i) s e 5)
        ∧ (∀ h, x.held = none → x.openq = none → m.firstHandle p = some h → h.bank < 192 → (m.pl p).waiters = [] → Runs (.take e i) s (fun m' =>
            x.wrote (m'.e e) i.rd (word h.word) ∧ x.wentOn (m'.e e) ∧ holds m' e h ∧ (m'.pl p).queue = (m.pl p).queue.drop 1
            ∧ (∀ k, k ≠ p → m'.pl k = m.pl k) ∧ m.othersKept m' e ∧ Touches [.regs, .eng, .pool] m m'))
        ∧ (x.held = none → x.openq = none → m.firstHandle p = none ∨ (m.pl p).waiters ≠ [] →
            (x.gr i.rs = 0 → GrRuns (.take e i) s e i.rd 0x10000)
            ∧ (x.gr i.rs ≠ 0 → Runs (.take e i) s (fun m' => x.waitsFrom (m'.e e) m.cyc .take i.rd (x.gr i.rs).toNat ∧ e ∈ (m'.pl p).waiters
                ∧ (m'.pl p).queue = (m.pl p).queue ∧ m.othersKept m' e ∧ Touches [.regs, .eng, .pool] m m'))))
      ∧ (i.xi = 1 →
        let q := (x.gr i.rs).toNat
        let b := m.fld (aERG_PSTAT q) fERG_PSTAT_ACTIVE
        (95 < q ∨ m.portPool q ≠ p → GrRuns (.takeLook e i) s e i.rd 0x20000)
        ∧ (q ≤ 95 → m.portPool q = p → b = 0xFF → GrRuns (.takeLook e i) s e i.rd 0x30000)
        ∧ (q ≤ 95 → m.portPool q = p → b ≠ 0xFF → Runs (.takeLook e i) s (fun m' => x.wrote (m'.e e) i.rd (word (256 * m.bankGen b + b))
            ∧ x.wentOn (m'.e e) ∧ (m'.e e).look = some { port := q, bank := b, gen := m.bankGen b, moved := false } ∧ (m'.e e).held = x.held
            ∧ m.othersKept m' e ∧ Touches [.regs, .eng] m m'))))
    ∧ (∀ i : FX, m.canIssue e → engClass e = .re → i.xi = 0 →
      let t := (x.gr i.rt).toNat
      let n := t / 2 ^ 18 % 16
      let a := t % 2 ^ 18
      let big := 8 < n ∨ t / 2 ^ 22 ≠ 0
      let mine := ∃ h, x.held = some h ∧ h.word = (x.gr i.rs).toNat % 65536
      (big → EngFaults (.rel e i) s e 1) ∧ (¬ big → a % 16 ≠ 0 → EngFaults (.rel e i) s e 3)
      ∧ (¬ big → a % 16 = 0 → dataBytes e < a + 16 * n → EngFaults (.rel e i) s e 4)
      ∧ (¬ big → a % 16 = 0 → a + 16 * n ≤ dataBytes e → ¬ mine → EngFaults (.rel e i) s e 5)
      ∧ (¬ big → a % 16 = 0 → a + 16 * n ≤ dataBytes e → mine → Runs (.rel e i) s (fun m' => x.waitsFrom (m'.e e) m.cyc (.rel a n) i.rd 0
          ∧ m.onlyEng m' e)))
    ∧ (e < 282 → x.wait = .take → Runs (.takeTimeout e) s (fun m' => x.resumed (m'.e e) 0x10000 ∧ m'.cyc = max m.cyc (x.issue + x.limit)
        ∧ (m'.pl p).waiters = (m.pl p).waiters.filter (fun w => w != e) ∧ (m'.pl p).queue = (m.pl p).queue ∧ m.othersKept m' e
        ∧ Touches [.cyc, .regs, .eng, .time, .pool] m m'))
    ∧ (∀ k, k < 8 → (m.pl k).queue = [] ∨ (m.pl k).waiters = [] ∨ m.dev.st = .oasis → RunsTo (.handleDispatch k) s m)
    ∧ (∀ k h t w ws, k < 8 → (m.pl k).queue = h :: t → (m.pl k).waiters = w :: ws → h.bank < 192 → m.dev.st ≠ .oasis → Runs (.handleDispatch k) s (fun m' =>
        (m.e w).resumed (m'.e w) (word h.word) ∧ holds m' w h ∧ (m'.pl k).queue = t ∧ (m'.pl k).waiters = ws ∧ m'.cyc = max m.cyc h.at_
        ∧ m.othersKept m' w ∧ Touches [.cyc, .regs, .eng, .time, .pool] m m'))
    ∧ (e < 264 →
      let slot := m.cyc + if m.pts.accCyc = some m.cyc then 1 else 0
      (m.pts.blocked ≠ [] → RunsTo (.groupAccept e) s m)
      ∧ (∀ a n h, m.pts.blocked = [] → e < 256 → x.wait = .rel a n → x.held = some h → m.streamsOn = [] → h.bank < 192 →
          Runs (.groupAccept e) s (fun m' => x.resumed (m'.e e) (word n) ∧ (m'.e e).held = none ∧ m'.cyc = slot ∧ m'.pts.accCyc = some slot
            ∧ m'.pts.groups = (m.pts.groups + 1) % 2 ^ 32))
      ∧ (m.pts.blocked = [] → e < 256 → x.held = none → RunsTo (.groupAccept e) s m))
    ∧ (∀ src n v, wfPoolWrite src n v = true →
      let may := m.mayWrite src .rng n 0x200
      let k := fRNG_POOL_POOL.get v
      (may ≠ 0 → RunsTo (.poolWrite src n v) s (m.done may))
      ∧ (may = 0 → (m.e n).active = true → RunsTo (.poolWrite src n v) s (m.done 1))
      ∧ (may = 0 → (m.e n).active = false → k = m.poolOf n → RunsTo (.poolWrite src n v) s (m.done 0))
      ∧ (may = 0 → (m.e n).active = false → k ≠ m.poolOf n → Runs (.poolWrite src n v) s (fun m' => m'.status = 0 ∧ m'.poolOf n = k
          ∧ (m'.e n).verified = false ∧ (m'.e n).ibuf = [] ∧ (∀ l, (m.e n).look = some l → (m'.e n).look = some { l with moved := true })
          ∧ m.othersKept m' n ∧ m.regsBut m' [aRNG_POOL n] ∧ Touches [.status, .regs, .eng] m m')))
    ∧ (∀ src k v, wfPortPoolWrite src k v = true →
      let may := m.mayWrite src .rng 0 (0x2000 + 4 * k)
      (may ≠ 0 → RunsTo (.portPoolWrite src k v) s (m.done may))
      ∧ (may = 0 → Runs (.portPoolWrite src k v) s (fun m' => m'.status = 0 ∧ m'.reg (aRNG_PORTPOOL k) = (v &&& 0x77777777)
          ∧ (∀ n l, n < 256 → (m.e n).look = some l → (m'.e n).look = some { l with moved := l.moved || (m'.portPool l.port != m.portPool l.port) })
          ∧ (∀ n, (m'.e n).g = (m.e n).g ∧ (m'.e n).st = (m.e n).st ∧ (m'.e n).held = (m.e n).held)
          ∧ m.regsBut m' [aRNG_PORTPOOL k] ∧ Touches [.status, .regs, .eng] m m')))

/-! ## Range engine instructions (R281, R285, R290 to R298) -/

/-- The histogram instructions over vectors (R281, R285, R290 to R295). Operands that name no vector, or a block outside data memory or not
aligned, fault with the lowest code that applies; a stale look answers 0xFFFF_FFFF and counts, its outputs left open; otherwise the results
stand in rd and in the block named, every other byte as before. Without trimming, bgest answers the exact mean and count of all elements. -/
def Obligations.HistogramInstructionsCompute : Prop :=
  (∀ (s : State) (e : Nat) (i : FX), s.m.canIssue e → engClass e = .re →
    let m := s.m
    let x := m.e e
    let d := x.gr i.rs
    let t := (x.gr i.rt).toNat
    let v := m.vec e d
    let k := i.xi.toNat
    let stores (c : Instr) (a : Nat) (ws : List Word) (r : Word) (sat : Bool) : Prop := Runs c s (fun m' => x.wrote (m'.e e) i.rd r
      ∧ x.wentOn (m'.e e) ∧ (m'.e e).sat = (x.sat || sat) ∧ (∀ j, j < ws.length → m'.mword (dataBase e + a + 4 * j) = ws.getD j 0)
      ∧ m.bytesBut m' (dataBase e + a) (4 * ws.length) ∧ m.othersKept m' e ∧ Touches [.eng, .mem] m m')
    let stale (c : Instr) (a n : Nat) : Prop := Runs c s (fun m' => x.wrote (m'.e e) i.rd 0xFFFFFFFF ∧ x.wentOn (m'.e e)
      ∧ m'.fld (aRNG_LOSS e) fRNG_LOSS_STALE = min 0xFFFF (m.fld (aRNG_LOSS e) fRNG_LOSS_STALE + 1) ∧ m.bytesBut m' (dataBase e + a) (4 * n)
      ∧ m.regsBut m' [aRNG_LOSS e] ∧ m.othersKept m' e ∧ Touches [.free, .regs, .eng, .mem] m m')
    let judged (c : Instr) (codes : List Nat) (P : Prop) : Prop :=
      (lowestCode codes ≠ 0 → EngFaults c s e (lowestCode codes)) ∧ (lowestCode codes = 0 → P)
    (k < 16 → judged (.bgest e i) [m.vecErr e d, blockErr e t 16 16] (
      let r := bgestOf v.vals k
      (v.stale = true → stale (.bgest e i) t 4)
      ∧ (v.stale = false → stores (.bgest e i) t [wordOfInt r.1, word r.2.1, word r.2.2.1, word r.2.2.2.1] (wordOfInt r.1) r.2.2.2.2)))
    ∧ judged (.bscan e i) [m.vecErr e d, blockErr e t 8 4] (
      let all := bscanOf v.vals (m.dword e t).toInt (m.dword e (t + 4)).toNat (k % 64)
      let n := k / 64 + 1
      let found := all.take n
      (v.stale = true → inData e (t + 16) (12 * n) = true → stale (.bscan e i) (t + 16) (3 * n))
      ∧ (v.stale = true → inData e (t + 16) (12 * n) = false → EngFaults (.bscan e i) s e 4)
      ∧ (v.stale = false → found ≠ [] → blockErr e (t + 16) (12 * found.length) 4 ≠ 0 →
          EngFaults (.bscan e i) s e (blockErr e (t + 16) (12 * found.length) 4))
      ∧ (v.stale = false → found = [] ∨ blockErr e (t + 16) (12 * found.length) 4 = 0 →
          stores (.bscan e i) (t + 16) (found.flatMap (m.duneWords v)) (word all.length) (all.any (fun u => u.clipped))))
    ∧ (let o := vecAddr (x.gr i.rt)
      let w0 := m.dword e (32 * k)
      let code := w0.getLsbD 31
      let n := min 64 (max 1 (w0.toNat % 128))
      judged (.corr e i) [m.vecErr e d, blockErr e o (4 * vecLen d) 4, if code && decide (vecAddr d < 0x8000) then 4 else 0,
          blockErr e (32 * k) (if code then 4 else 4 + 4 * divCeil n 2) 4] (
        let out := if code then corrCode v.vals (m.codeWeights v.bank) (elemTime (m.bankView v.bank) v.kind)
          else corrTaps v.vals (m.taps e (32 * k) n) (w0.toNat / 256 % 32)
        (v.stale = true → stale (.corr e i) o (vecLen d))
        ∧ (v.stale = false → stores (.corr e i) o ((out.map clip32).map wordOfInt) (word (argMax (out.map clip32)).1) (out.map clip32 != out))))
    ∧ (k < 2 → judged (.fit e i) [m.vecErr e d, blockErr e t 16 4] (
      let w := (m.dword e t).toNat
      let h := w / 2 ^ 16 % 64
      let r := fitOf v.vals (w % 65536) (if h = 0 then 1 else min 32 h) (m.dword e (t + 4)).toInt (i.xi == 1)
      (v.stale = true → stale (.fit e i) (t + 8) 2)
      ∧ (v.stale = false → stores (.fit e i) (t + 8) (match r.2.2 with | some n => [r.2.1, word n] | none => [r.2.1]) r.1 false)))
    ∧ (k = 0 → judged (.wfpk e i) [m.vecErr e d, if v.kind = .acc then 0 else 4, blockErr e t 8 4] (
      let r := wfpkOf v.vals (v.marks.map (fun k => k.testBit 0)) (v.marks.any (fun k => k.testBit 1)) (m.bankView v.bank).wf
      (v.stale = true → stale (.wfpk e i) t 2)
      ∧ (v.stale = false → (r.2 = none → GrRuns (.wfpk e i) s e i.rd r.1)
        ∧ (∀ a b, r.2 = some (a, b) → stores (.wfpk e i) t [a, b] r.1 false)))))
  ∧ (∀ l : List Int, l ≠ [] →
    let mean := 65536 * l.sum / l.length
    (bgestOf l 0).1 = clip32 mean ∧ (bgestOf l 0).2.2.1 = l.length ∧ (bgestOf l 0).2.2.2.1 = 0)

/-- poly and cls (R296 to R298). poly answers the time corrected with the tile's temperature, clipped with SAT; cls the number and class of the
first rule whose bounds all hold, and 0x1F_000F when none of the entries up to END matches. -/
def Obligations.ReturnsAreCorrectedAndClassed : Prop :=
  ∀ (s : State) (e : Nat) (i : FX), s.m.canIssue e → engClass e = .re → i.xi = 0 →
    let m := s.m
    let x := m.e e
    let t := (x.gr i.rt).toNat
    (let c := t % 2 ^ 18
      let w0 := (m.dword e c).toNat
      let th := if 23 < w0 % 32 then 0 else clampInt (-32768) 32767 (m.sfld (aTHM_TEMP (w0 % 32)) fTHM_TEMP_TEMP - signed 16 (w0 / 2 ^ 16))
      let v := polyOf (x.gr i.rs).toInt (t / 2 ^ 20) th ((List.range 15).map (fun k => (m.dword e (c + 4 + 4 * k)).toInt))
      let err := lowestCode [blockErr e c 64 64, if t / 2 ^ 18 % 4 ≠ 0 then 4 else 0]
      (err ≠ 0 → EngFaults (.poly e i) s e err)
      ∧ (err = 0 → Runs (.poly e i) s (fun m' => x.wrote (m'.e e) i.rd (wordOfInt (clip32 v)) ∧ x.wentOn (m'.e e)
          ∧ (m'.e e).sat = (x.sat || decide (clip32 v ≠ v)) ∧ m.onlyEng m' e)))
    ∧ (let a := (x.gr i.rs).toNat
      let f := (List.range 8).map (fun j => m.mnat (dataBase e + a + 2 * j) 2)
      let rule (r : Nat) := (m.dword e (t + 36 * r)).toNat
      let matches_ (r : Nat) : Prop := clsMatch (rule r) ((List.range 8).map (fun j => (m.dword e (t + 36 * r + 4 + 4 * j)).toNat)) f = true
      let reached (r : Nat) : Prop := (∀ j, j ≤ r → blockErr e (t + 36 * j) 36 4 = 0) ∧ ∀ j, j < r → ¬ matches_ j ∧ (rule j).testBit 31 = false
      (a % 4 ≠ 0 → EngFaults (.cls e i) s e 3)
      ∧ (∀ r, r < 16 → blockErr e a 16 4 = 0 → reached r → matches_ r →
          GrRuns (.cls e i) s e i.rd (word (2 ^ 16 * r + 2 ^ 8 * (rule r / 2 ^ 8 % 256) + rule r % 16)))
      ∧ (∀ r, r < 16 → blockErr e a 16 4 = 0 → reached r → ¬ matches_ r → (rule r).testBit 31 = true ∨ r = 15 → GrRuns (.cls e i) s e i.rd 0x1F000F))

/-! ## Rejection unit (R299 to R324) -/

/-- The sun map, haboob mode and the mirage table (R307, R308, R312, R320 to R324). The line a port has asked for longest arrives from DRAM
beside the line used last, and a dirty line that leaves is written back. The mode is judged when a HOLD time has run out. The oldest
observation updates the entry it matches, or takes a free entry, or the one with the oldest LAST. An entry older than AGE is freed;
CLR frees every entry. -/
def Obligations.RejectionUnitLearns : Prop :=
  ∀ (s : State),
    let m := s.m
    (∀ p, p < 96 →
      let want := m.rej.wants.find? (fun w => w.port == p)
      (want = none → RunsTo (.mapLineFetch p) s m)
      ∧ (∀ w, want = some w → Runs (.mapLineFetch p) s (fun m' =>
          let a := m.mapAddr p w.row w.line
          let ok := m.mapOn = true ∧ m.dramStatus (a - dramBase) 64 = 0
          m'.rej = { m.rej with wants := m.rej.wants.erase w, lines := m'.rej.lines }
          ∧ m'.dram.reqs = m.dram.reqs.filter (fun r => !(r.cls == 2 && r.who == p))
          ∧ (¬ ok → m'.rej.lines = m.rej.lines ∧ m'.mem = m.mem)
          ∧ (ok → m'.mapLines p = (m.mapLines p).take 1 ++ [{ row := w.row, line := w.line, ents := (List.range 32).map (fun i => m.mnat (a + 2 * i) 2),
                                                                dirty := false, bumped := [] }])
          ∧ (∀ q, q ≠ p → m'.mapLines q = m.mapLines q)
          ∧ ((∀ x, x ∈ (m.mapLines p).drop 1 → x.dirty = false) → m'.mem = m.mem)
          ∧ (∀ y x, ok → m.mapLines p = [y, x] → x.dirty = true → m'.bytes (m.mapAddr p x.row x.line) (2 * x.ents.length) = x.ents.flatMap (leBytes 2)
              ∧ m.bytesBut m' (m.mapAddr p x.row x.line) (2 * x.ents.length))
          ∧ Touches [.mem, .dram, .rej] m m')))
    ∧ (∀ c,
      let due := [(m.hbHead 0).on, (m.hbHead 1).on, (m.hbHead 0).off, (m.hbHead 1).off].filterMap (fun o => o.map (fun c => c + m.hbHold))
      let q (h : Nat) : Bool := match (m.hbHead h).on with | some t => decide (t + m.hbHold ≤ c) | none => false
      let clear (h : Nat) : Bool := match (m.hbHead h).off with | some t => decide (t + m.hbHold ≤ c) | none => false
      ((∀ d, d ∈ due → d ≤ m.cyc) ∧ c = m.cyc) ∨ (c ∈ due ∧ m.cyc < c ∧ ∀ d, d ∈ due → m.cyc < d → c ≤ d) →
        Runs .haboobSwitch s (fun m' =>
          let was := m.fld aREJ_MODE fREJ_MODE_HABOOB
          let is := m'.fld aREJ_MODE fREJ_MODE_HABOOB
          let ctl := m.fld aREJ_MODE fREJ_MODE_CTL
          m'.cyc = c ∧ m'.fld aREJ_MODE fREJ_MODE_QUAL = bit (q 0) + 2 * bit (q 1)
          ∧ (ctl = 1 → is = 0) ∧ (ctl = 2 → is = 1)
          ∧ (ctl ≠ 1 → ctl ≠ 2 → is = if q 0 || q 1 then 1 else if clear 0 && clear 1 then 0 else was)
          ∧ m'.fld aREJ_MODE fREJ_MODE_MODEGEN = (m.fld aREJ_MODE fREJ_MODE_MODEGEN + bit (is != was)) % 256
          ∧ m'.fld aREJ_MODE fREJ_MODE_CTL = ctl ∧ m.regsBut m' [aREJ_MODE] ∧ Touches [.cyc, .regs, .time] m m'))
    ∧ (m.rej.obs = [] → RunsTo .mirageObservation s m)
    ∧ (∀ o t, m.rej.obs = o :: t →
      let q := m.fld aREJ_MIRCFG fREJ_MIRCFG_MIRQ
      let hotN := m.fld aREJ_MIRCFG2 fREJ_MIRCFG2_HOT_N
      let ms := m.time.now.nanos / 1000000
      let sent := if m.rej.noteMs = ms then m.rej.noteN else 0
      let most := m.fld aREJ_MIRCFG2 fREJ_MIRCFG2_NOTE_MAX
      let image (i count amax : Nat) : List Byte :=
        let seq := (m.mir i 0 / 2 ^ 24 + 1) % 256
        [2 ^ 24 * seq + 2 ^ 23 + 2 ^ 22 * bit (decide (hotN ≤ count)) + 2 ^ 21 * o.head + 2 ^ 17 * o.slot + 2 ^ 7 * o.az + o.port,
          count, o.sec, 2 ^ 24 * seq + amax].flatMap (leBytes 4)
      let holds (m' : Mach) (i count amax : Nat) : Prop := m'.rej.obs = t ∧ m'.bytes (mirAddr i) 16 = image i count amax
        ∧ (∀ a, a < 0x8180000 → a < mirAddr i ∨ mirAddr i + 16 ≤ a → m'.byte a = m.byte a)
        ∧ Touches [.regs, .mem, .grp, .qmg, .rej] m m'
      let silent (m' : Mach) (i : Nat) : Prop := m'.rej = { m.rej with obs := t } ∧ m'.qmg = m.qmg ∧ m.bytesBut m' (mirAddr i) 16
      let noted (m' : Mach) : Prop := (most ≤ sent → m'.qmg = m.qmg
            ∧ m'.fld aREJ_MIRCNT1 fREJ_MIRCNT1_NOTEDROP = min 0xFFFF (m.fld aREJ_MIRCNT1 fREJ_MIRCNT1_NOTEDROP + 1))
        ∧ (sent < most → m'.rej.noteMs = ms ∧ m'.rej.noteN = sent + 1)
      0x8180000 ≤ m.qBase q →
      (∀ i, m.mirMatch o = some i →
        let w := m.mir i 0
        let count := min 0xFFFFFFFF (m.mir i 1 + 1)
        let amax := max (m.mir i 3 % 2 ^ 16) o.amp
        Runs .mirageObservation s (fun m' => i < 4096 ∧ w.testBit 23 = true ∧ holds m' i count amax
          ∧ (w.testBit 22 = true ∨ (m'.mir i 0).testBit 22 = false → silent m' i ∧ m.regsBut m' [])
          ∧ (w.testBit 22 = false → (m'.mir i 0).testBit 22 = true → noted m')))
      ∧ (∀ i, m.mirMatch o = none → (List.range 4096).find? (fun i => !m.mirValid i) = some i → Runs .mirageObservation s (fun m' =>
          holds m' i 1 o.amp ∧ noted m'
          ∧ m'.fld aREJ_MIRSTAT fREJ_MIRSTAT_ENTRIES = (m.fld aREJ_MIRSTAT fREJ_MIRSTAT_ENTRIES + 1) % 2 ^ 13
          ∧ m'.fld aREJ_MIRSTAT fREJ_MIRSTAT_NEW = min 0xFFFF (m.fld aREJ_MIRSTAT fREJ_MIRSTAT_NEW + 1)))
      ∧ (m.mirMatch o = none → (∀ i, i < 4096 → m.mirValid i = true) → Runs .mirageObservation s (fun m' => ∃ i, i < 4096
          ∧ (∀ j, j < 4096 → m.mir i 2 ≤ m.mir j 2) ∧ holds m' i 1 o.amp ∧ noted m'
          ∧ m'.fld aREJ_MIRSTAT fREJ_MIRSTAT_NEW = min 0xFFFF (m.fld aREJ_MIRSTAT fREJ_MIRSTAT_NEW + 1)
          ∧ m'.fld aREJ_MIRCNT0 fREJ_MIRCNT0_EVICT = min 0xFFFF (m.fld aREJ_MIRCNT0 fREJ_MIRCNT0_EVICT + 1))))
    ∧ (∀ i, i < 4096 →
      let age := signed 32 (m.time.now.sec % 2 ^ 32 + 2 ^ 32 - m.mir i 2)
      let old := (max 1 (m.fld aREJ_MIRCFG fREJ_MIRCFG_AGE) : Int) < age ∧ m.mirValid i = true
      (¬ old → RunsTo (.mirageEntryAge i) s m)
      ∧ (old → Runs (.mirageEntryAge i) s (fun m' => m'.mirValid i = false ∧ m'.mir i 0 = m.mir i 0 - 2 ^ 23 ∧ m.bytesBut m' (mirAddr i) 4
          ∧ m'.fld aREJ_MIRSTAT fREJ_MIRSTAT_ENTRIES = m.fld aREJ_MIRSTAT fREJ_MIRSTAT_ENTRIES - 1
          ∧ m.regsBut m' [aREJ_MIRSTAT] ∧ Touches [.regs, .mem] m m')))
    ∧ (∀ src, src.wf = true →
      let may := m.mayWrite src .rej 0 0x114
      (may ≠ 0 → RunsTo (.mirageClear src) s (m.done may))
      ∧ (may = 0 → Runs (.mirageClear src) s (fun m' => m'.status = 0 ∧ (∀ i, i < 4096 → m'.mirValid i = false)
          ∧ (∀ i k, i < 4096 → 1 ≤ k → k < 4 → m'.mir i k = m.mir i k)
          ∧ (∀ a, a < 0x6010000 ∨ 0x6020000 ≤ a → m'.byte a = m.byte a)
          ∧ m'.fld aREJ_MIRSTAT fREJ_MIRSTAT_ENTRIES
              = m.fld aREJ_MIRSTAT fREJ_MIRSTAT_ENTRIES - ((List.range 4096).filter m.mirValid).length
          ∧ m.regsBut m' [aREJ_MIRSTAT] ∧ Touches [.status, .regs, .mem] m m')))

/-! ## Time (R109 to R125) -/

/-- The time base at its events (R109, R110, R117 to R122, R124, R125). A running trigger fires in its cycle, counts, advances by its period (after
a late firing past the present) or stops, and engines waiting for it go on with 0. NS carries into SEC. An active edge is captured unless a
capture waits, and realigns triggers in MODE 1 when it comes from SYNC_IN. A read of the capture frees it; a read of NS latches the
present time. -/
def Obligations.TimeBaseAndTriggers : Prop :=
  ∀ (s : State),
    let m := s.m
    (∀ t, t < 16 →
      let x := m.trig t
      let st := aTIME_TRIG_STAT t
      let runs := m.timeRuns = true ∧ m.trigRun t = true ∧ (x.armed = true ∨ x.lateAt ≠ none)
      let late := x.lateAt ≠ none
      let per := m.trigPeriod t
      let count := m.fld (aTIME_TRIG_CTRL t) fTIME_TRIG_CTRL_COUNT
      let fired := (m.fld st fTIME_TRIG_STAT_FIRED + 1) % 2 ^ 16
      let ends := per = 0 ∨ count ≠ 0 ∧ count ≤ fired
      (¬ runs → RunsTo (.timeTriggerFire t) s m)
      ∧ (runs → m.commits = [] → (∀ a, a < 4 → m.fld (aAXS_CFG a) fAXS_CFG_CC_TRIG ≠ t) → Runs (.timeTriggerFire t) s (fun m' =>
          m'.cyc = max m.cyc (m.trigDue x) ∧ m'.fld st fTIME_TRIG_STAT_FIRED = fired ∧ (m'.trig t).last = some m'.cyc ∧ (m'.trig t).lateAt = none
          ∧ m'.fld st fTIME_TRIG_STAT_LATE = (if x.lateAt.isSome then 1 else m.fld st fTIME_TRIG_STAT_LATE)
          ∧ (ends → m'.trigRun t = false ∧ (m'.trig t).armed = false ∧ (m'.trig t).time = x.time)
          ∧ (¬ ends → m'.trigRun t = true ∧ (m'.trig t).armed = x.armed ∧ ∃ k, 1 ≤ k ∧ (¬ late → k = 1)
              ∧ (m'.trig t).time.total = (x.time.total + k * per) % timePeriod
              ∧ m'.fld st fTIME_TRIG_STAT_MISSED = min 0xFF (m.fld st fTIME_TRIG_STAT_MISSED + (k - 1))
              ∧ (late → x.time.total ≤ m'.time.now.total → m'.time.now.total < x.time.total + k * per
                  ∧ (k ≠ 1 → x.time.total + (k - 1) * per < (m'.time.now.nanos + 1) * 2 ^ 32)))
          ∧ (∀ k, k ≠ t → m'.trig k = m.trig k)
          ∧ (∀ e, e < 282 → (m.e e).st = .waiting → (m.e e).wait = .trig t → (m.e e).issue < m'.cyc → (m.e e).resumed (m'.e e) 0)
          ∧ (∀ e, (m.e e).st = .waiting → (m.e e).wait = .trig t → m'.cyc ≤ (m.e e).issue → m'.e e = m.e e)
          ∧ (∀ e, (m.e e).st ≠ .waiting → m'.e e = m.e e)
          ∧ (t = 15 → m.flag aTIME_PPSO fTIME_PPSO_EN = true → m.fld aTIME_PPSO fTIME_PPSO_SRC = 1 →
              m'.time.ppsEnd = some (m'.cyc + 800000 * max 1 (m.fld aTIME_PPSO fTIME_PPSO_WIDTH)))
          ∧ (t ≠ 15 → m'.time.ppsEnd = m.time.ppsEnd) ∧ m'.mem = m.mem ∧ m'.dev = m.dev ∧ m'.axis = m.axis)))
    ∧ (m.timeRuns = false → RunsTo .secondCarry s m)
    ∧ (m.timeRuns = true → 0 < m.inc → m.inc ≤ 2 ^ 33 → m.time.now.ns < 1000000000 → m.time.now.frac < 2 ^ 32 → Runs .secondCarry s (fun m' =>
        m.cyc < m'.cyc ∧ m'.time.now.sec = (m.time.now.sec + 1) % 2 ^ 48 ∧ m'.time.now.ns * 2 ^ 32 + m'.time.now.frac < m.inc
        ∧ m'.time.now.total % timePeriod = (m.time.now.total + m.inc * (m'.cyc - m.cyc)) % timePeriod
        ∧ m'.time.ppsEnd = (if m.flag aTIME_PPSO fTIME_PPSO_EN && m.fld aTIME_PPSO fTIME_PPSO_SRC == 0
            then some (m'.cyc + 800000 * max 1 (m.fld aTIME_PPSO fTIME_PPSO_WIDTH)) else m.time.ppsEnd)
        ∧ m'.time.trigs = m.time.trigs ∧ Touches [.cyc, .time] m m'))
    ∧ (m.time.ppsEnd = none → RunsTo .ppsOutPulseEnd s m)
    ∧ (∀ c, m.time.ppsEnd = some c → Runs .ppsOutPulseEnd s (fun m' => m'.cyc = max m.cyc c ∧ m'.time.ppsEnd = none
        ∧ m'.ppsOut = m.flag aTIME_PPSO fTIME_PPSO_POL ∧ m'.time.trigs = m.time.trigs ∧ Touches [.cyc, .time] m m'))
    ∧ (∀ n rising half, n < 3 →
      let c := aTIME_CAP_CTRL n
      let active := (m.fld c fTIME_CAP_CTRL_EDGE).testBit (if rising then 0 else 1)
      let t := m.time.now.after (if half then m.inc / 2 else 0) 1
      (m.timeRuns = false ∨ active = false → RunsTo (.edgeCapture n rising half) s m)
      ∧ (m.timeRuns = true → active = true → Runs (.edgeCapture n rising half) s (fun m' =>
          (m.flag c fTIME_CAP_CTRL_EN = false → m'.regs = m.regs)
          ∧ (m.flag c fTIME_CAP_CTRL_EN = true → m.flag c fTIME_CAP_CTRL_VALID = true →
              m'.fld c fTIME_CAP_CTRL_MISSED = min 0xFFFF (m.fld c fTIME_CAP_CTRL_MISSED + 1) ∧ m.regsBut m' [c])
          ∧ (m.flag c fTIME_CAP_CTRL_EN = true → m.flag c fTIME_CAP_CTRL_VALID = false → m'.fld c fTIME_CAP_CTRL_VALID = 1
              ∧ m'.fld c fTIME_CAP_CTRL_STEPSEQ = m.fld aTIME_STAT fTIME_STAT_STEPSEQ
              ∧ m'.fld (aTIME_CAP_SEC_LO n) fTIME_CAP_SEC_LO_SEC_LO + 2 ^ 32 * m'.fld (aTIME_CAP_SEC_HI n) fTIME_CAP_SEC_HI_SEC_HI = t.sec
              ∧ m'.fld (aTIME_CAP_NS n) fTIME_CAP_NS_NS = t.ns
              ∧ m.regsBut m' [c, aTIME_CAP_SEC_LO n, aTIME_CAP_SEC_HI n, aTIME_CAP_NS n])
          ∧ (∀ k, k < 16 → m'.trig k =
              if n = 1 ∧ m.trigRun k = true ∧ m.flag (aTIME_TRIG_CTRL k) fTIME_TRIG_CTRL_MODE = true
              then { (m.trig k).at (DTime.ofTotal ((t.total + 2 ^ 32 * m.fld (aTIME_TRIG_NS k) fTIME_TRIG_NS_NS : Nat) : Int)) with
                      armed := true, lateAt := none }
              else m.trig k)
          ∧ m'.time.now = m.time.now ∧ Touches [.regs, .time] m m')))
    ∧ (∀ src n, src.wf = true → n < 3 →
      let may := m.mayRead src .time (0x5C + 0x10 * n)
      (may ≠ 0 → RunsTo (.captureRead src n) s (m.done may))
      ∧ (may = 0 → Runs (.captureRead src n) s (fun m' => m'.status = 0 ∧ m'.fld (aTIME_CAP_CTRL n) fTIME_CAP_CTRL_VALID = 0
          ∧ m'.fld (aTIME_CAP_CTRL n) fTIME_CAP_CTRL_MISSED = m.fld (aTIME_CAP_CTRL n) fTIME_CAP_CTRL_MISSED
          ∧ m.regsBut m' [aTIME_CAP_CTRL n] ∧ Touches [.status, .regs] m m')))
    ∧ (∀ src, src.wf = true → m.time.now.sec < 2 ^ 48 → m.time.now.ns < 1000000000 → m.time.now.frac < 2 ^ 32 →
      let may := m.mayRead src .time 0
      let t := m.time.now
      (may ≠ 0 → RunsTo (.timeNowRead src) s (m.done may))
      ∧ (may = 0 → Runs (.timeNowRead src) s (fun m' => m'.status = 0 ∧ m'.fld aTIME_NOW_NS fTIME_NOW_NS_NS = t.ns
          ∧ m'.fld aTIME_NOW_SEC_LO fTIME_NOW_SEC_LO_SEC_LO + 2 ^ 32 * m'.fld aTIME_NOW_SEC_HI fTIME_NOW_SEC_HI_SEC_HI = t.sec
          ∧ m'.fld aTIME_NOW_FRAC fTIME_NOW_FRAC_FRAC = t.frac
          ∧ m.regsBut m' [aTIME_NOW_NS, aTIME_NOW_SEC_LO, aTIME_NOW_SEC_HI, aTIME_NOW_FRAC] ∧ Touches [.status, .regs] m m')))

/-! ## Frames and the colour port (R332 to R356) -/

/-- Frame and slice boundaries while nothing is committed (R332 to R336). A boundary comes by the azimuth crossing, a firing or a request that is
due, or MAXAGE after the last: FRAMESEQ counts, the epoch lies 16.777216 ms back, the counts start anew, and each enabled stream gets a
frame header. A slice crossing ends a slice unless the frame boundary comes no later. -/
def Obligations.FramesAndSlicesEnd : Prop :=
  ∀ (s : State),
    let m := s.m
    let framed (cause : Nat) (m' : Mach) : Prop :=
      m'.fld aPTS_FSEQ fPTS_FSEQ_FRAMESEQ = (m.fld aPTS_FSEQ fPTS_FSEQ_FRAMESEQ + 1) % 2 ^ 32
      ∧ m'.pts.epoch = DTime.ofTotal ((m'.time.now.total : Int) - (16777216 * 2 ^ 32 : Nat)) ∧ m'.pts.last = m'.cyc ∧ m'.pts.reqs = []
      ∧ m'.pts.groups = 0 ∧ m'.pts.abandon = 0 ∧ m'.pts.sliceGroups = 0 ∧ m'.pts.blocked = m.pts.blocked
      ∧ (∀ k, k < 8 → m'.strm k = { PtsStream.reset with lost := (m'.strm k).lost })
      ∧ (∀ st q, m.streamsOn = [st] → m.strmQ st = q → m.qOn q = false ∨ m.qShut q = true → (m'.strm st).lost = true ∧ m'.mem = m.mem
          ∧ m'.fld (aPTS_SCNT st) fPTS_SCNT_HDRLOST = min 0xFF (m.fld (aPTS_SCNT st) fPTS_SCNT_HDRLOST + 1))
      ∧ (∀ st q, m.streamsOn = [st] → m.strmQ st = q → m.qOn q = true → m.qShut q = false → (m.q q).waiters = [] → m.qFits q 48 = true →
          m.qPert q = false → (m'.strm st).lost = false ∧ (m'.q q).recs = (m.q q).recs + 1
          ∧ ∃ r, r.length = 48 ∧ m'.mem = (m.qPut q (m.qWr q) (leBytes 4 (2 ^ 16 * m.fld (qdesc q 8) fQ_RSEQ + 48) ++ r)).mem
            ∧ leNat (r.take 4) = 15 * 2 ^ 28 + 48 ∧ leNat ((r.drop 4).take 4) = m'.fld aPTS_FSEQ fPTS_FSEQ_FRAMESEQ
            ∧ (r.drop 8).take 12 = (m.stampOf m'.pts.epoch).bytes
            ∧ leNat ((r.drop 20).take 4) / 2 ^ 21 % 4 = (m.pts.reqs.map (fun x => x.1)).foldl min cause % 4
            ∧ leNat ((r.drop 20).take 4) % 2 ^ 8 = st ∧ leNat ((r.drop 28).take 4) = (m.strm st).points % 2 ^ 32
            ∧ leNat ((r.drop 32).take 4) = m.pts.groups % 2 ^ 32)
      ∧ Touches [.cyc, .regs, .mem, .time, .grp, .qmg, .pts] m m'
    (∀ src, src.wf = true →
      let may := m.mayWrite src .pts 0 0xC
      (may ≠ 0 → RunsTo (.frameRequest src) s (m.done may))
      ∧ (may = 0 → m.streamsOn = [] → RunsTo (.frameRequest src) s (m.done 0))
      ∧ (may = 0 → m.streamsOn ≠ [] → RunsTo (.frameRequest src) s
          { m.done 0 with pts := { m.pts with reqs := m.pts.reqs ++ [(2, m.cyc)] } }))
    ∧ (∀ cause, cause < 4 → m.streamsOn = [] → RunsTo (.frameBoundary cause) s m)
    ∧ (m.fld aPTS_FRAMECFG fPTS_FRAMECFG_FSRC ≠ 0 ∨ m.frameAxis = none → RunsTo (.frameBoundary 0) s m)
    ∧ (∀ a, m.streamsOn ≠ [] → m.commits = [] → m.fld aPTS_FRAMECFG fPTS_FRAMECFG_FSRC = 0 → m.frameAxis = some a →
      let at_ := m.crossAt a (m.fld aPTS_FRAMEAZ fPTS_FRAMEAZ_FRAME_AZ)
      (at_ = none → RunsTo (.frameBoundary 0) s m)
      ∧ (∀ c, at_ = some c → Runs (.frameBoundary 0) s (fun m' => m'.cyc = max m.cyc c ∧ framed 0 m')))
    ∧ (∀ k, k = 1 ∨ k = 2 → m.streamsOn ≠ [] → m.commits = [] →
      ((∀ x, x ∈ m.pts.reqs → x.1 ≠ k) → RunsTo (.frameBoundary k) s m)
      ∧ (∀ c, (k, c) ∈ m.pts.reqs → Runs (.frameBoundary k) s (fun m' => m'.cyc = m.cyc ∧ framed k m')))
    ∧ (m.streamsOn ≠ [] → m.commits = [] → Runs (.frameBoundary 3) s (fun m' => framed 3 m'
        ∧ m'.cyc = max m.cyc (m.pts.last + 800000 * min 4000 (max 1 (m.fld aPTS_FRAMECFG fPTS_FRAMECFG_MAXAGE)))))
    ∧ (let n := m.fld aPTS_FRAMECFG fPTS_FRAMECFG_NSLICE
       let cross (a k : Nat) := m.crossAt a (k * 2 ^ 32 / n)
       (m.frameAxis = none ∨ n = 0 ∨ m.streamsOn = [] → RunsTo .sliceBoundary s m)
       ∧ (∀ a, m.frameAxis = some a → (∀ k, k < n → cross a k = none) → RunsTo .sliceBoundary s m)
       ∧ (∀ a k c, m.frameAxis = some a → m.streamsOn ≠ [] → k < n → cross a k = some c → (∀ j d, j < n → cross a j = some d → c ≤ d) →
          let frame := m.fld aPTS_FRAMECFG fPTS_FRAMECFG_FSRC = 0
            ∧ ∃ f, m.crossAt a (m.fld aPTS_FRAMEAZ fPTS_FRAMEAZ_FRAME_AZ) = some f ∧ f ≤ c
          (frame → RunsTo .sliceBoundary s m)
          ∧ (¬ frame → Runs .sliceBoundary s (fun m' => m'.cyc = max m.cyc c
              ∧ m'.pts = { m.pts with azWas := none, sliceGroups := 0, streams := m'.pts.streams }
              ∧ (∀ j, j < 8 → m'.strm j = { m.strm j with slicePts := 0 })
              ∧ (∀ st q, m.streamsOn = [st] → m.strmQ st = q → m.qOn q = true → m.qShut q = false → (m.q q).waiters = [] →
                  m.qFits q 16 = true → m.qPert q = false → (m'.q q).recs = (m.q q).recs + 1)
              ∧ Touches [.cyc, .regs, .mem, .time, .grp, .qmg, .pts] m m'))))

/-- The colour port at its events while nothing is committed (R344 to R347, R349, R353 to R356). VS closes the open frame, counting a short
or long one and recording its flags, and opens the next; the timeout only closes. A bus line is padded or cut to WIDTH and gathered; the last
exposure of a line sends the line before through the pipeline into the store. A sensor set that is acknowledged takes effect after its
delay. CAM_TRIG goes active after its delay, for its width. -/
def Obligations.CameraFramesLinesAndSets : Prop :=
  ∀ (s : State),
    let m := s.m
    let w := m.camW
    let closed (f : CamFrame) (m' : Mach) : Prop :=
      let short := decide (f.lines < m.camBusLines)
      m'.fld aCAM_FCNT fCAM_FCNT_SHORTF = min 0xFF (m.fld aCAM_FCNT fCAM_FCNT_SHORTF + bit short)
      ∧ m'.fld aCAM_FCNT fCAM_FCNT_LONGF = min 0xFF (m.fld aCAM_FCNT fCAM_FCNT_LONGF + bit f.long)
      ∧ m'.fld aCAM_FSTAT fCAM_FSTAT_SETID = f.setid % 2 ^ 8
      ∧ m'.fld aCAM_FSTAT fCAM_FSTAT_FLAGS = bit short + 2 * bit f.long + 4 * bit f.lineErr + 8 * bit f.late
      ∧ m'.fld aCAM_FSTAT fCAM_FSTAT_MISSLN = (m.camH - f.lines / m.camNexp) % 2 ^ 12
      ∧ (short = true → m'.cam.next = none ∧ m'.cam.skip = m.cam.skip ∧ (∀ c, m.cam.cur = some c → m.cam.next = none →
          m'.cam.cur = some { c with old := true }))
      ∧ (short = false → m'.cam.next = m.cam.next ∧ m'.cam.cur = m.cam.cur
          ∧ ∀ k, k < 2 → mapGet 0 m'.cam.skip k = if f.sent.contains k then m.fld (aCAM_STRM k) fCAM_STRM_SKIP else mapGet 0 m.cam.skip k - 1)
    let opened (half : Bool) (m' : Mach) : Prop := ∃ f, m'.cam.frame = some f ∧ m'.cam.frames = f.seq ∧ f.seq = (m.cam.frames + 1) % 2 ^ 32
      ∧ f.lines = 0 ∧ f.exps = [] ∧ f.cyc = m.cyc ∧ f.long = false ∧ f.lineErr = false ∧ f.late = false ∧ f.nack = false
      ∧ f.time = (if half then DTime.ofTotal (m.time.now.total + m.inc / 2 : Nat) else m.time.now) ∧ f.stamp = m.stampOf f.time
      ∧ m'.fld aCAM_I2CSTAT fCAM_I2CSTAT_INEFFECT = f.setid % 2 ^ 8
      ∧ ((∀ x, x ∈ m.cam.sets → f.seq < x.1) → f.setid = m.fld aCAM_I2CSTAT fCAM_I2CSTAT_INEFFECT ∧ m'.cam.sets = m.cam.sets)
      ∧ (∀ n id, m.cam.sets = [(n, id)] → n ≤ f.seq → f.setid = id ∧ m'.cam.sets = [])
    (∀ half, m.commits = [] →
      let en := m.flag aCAM_CTRL fCAM_CTRL_EN
      (m.cam.frame = none → en = false → RunsTo (.camVsEdge half) s m)
      ∧ (m.cam.frame = none → en = true → Runs (.camVsEdge half) s (fun m' => opened half m' ∧ m'.cam.cur = m.cam.cur ∧ m'.cam.next = m.cam.next
          ∧ Touches [.regs, .mem, .grp, .qmg, .cam] m m'))
      ∧ (∀ f, m.cam.frame = some f → Runs (.camVsEdge half) s (fun m' => closed f m' ∧ (en = false → m'.cam.frame = none) ∧ (en = true → opened half m')
          ∧ Touches [.regs, .mem, .grp, .qmg, .cam] m m')))
    ∧ (m.cam.frame = none → RunsTo .camFrameTimeout s m)
    ∧ (∀ f, m.cam.frame = some f → m.cam.next = none → Runs .camFrameTimeout s (fun m' => m'.cyc = max m.cyc (f.cyc + 800000000) ∧ m'.cam.frame = none
        ∧ closed f m' ∧ Touches [.cyc, .regs, .mem, .time, .grp, .qmg, .cam] m m'))
    ∧ (∀ px, wfBusLine px = true →
      (m.cam.frame = none → RunsTo (.busLine px) s m)
      ∧ (∀ f, m.cam.frame = some f → m.camBusLines ≤ f.lines → RunsTo (.busLine px) s { m with cam := { m.cam with frame := some { f with long := true } } })
      ∧ (∀ f, m.cam.frame = some f → f.lines < m.camBusLines →
        let l := (px ++ List.replicate (w - px.length) (px.getLastD 0)).take w
        let odd : Bool := px.length != w
        let full : Bool := f.exps.length + 1 == m.camNexp
        let y := f.lines / m.camNexp
        let row := (m.camRaw y (f.exps ++ [l])).1
        let d := m.camD
        Runs (.busLine px) s (fun m' => (∃ f', m'.cam.frame = some f' ∧ f'.lines = f.lines + 1 ∧ f'.lineErr = (f.lineErr || odd) ∧ f'.seq = f.seq
            ∧ f'.exps = (if full then [] else f.exps ++ [l]) ∧ (full = true → f'.rows = (row :: f.rows).take 2))
          ∧ m'.fld aCAM_FCNT fCAM_FCNT_LINEERR = min 0xFF (m.fld aCAM_FCNT fCAM_FCNT_LINEERR + bit odd)
          ∧ (full = false → m'.mem = m.mem)
          ∧ (full = true → 1 ≤ y → y + 1 ≠ m.camH → m.cam.colBad = false → f.sent = [] → y % d = 0 →
              let out := m.camLine (y - 1) (if y = 1 then row else f.rows.getD 1 []) (f.rows.getD 0 []) row
              m'.mem = (m.setBytes (storeAddr m.cam.wrBuf ((y - 1) / d * (w / d)))
                ((boxRow d ((out :: f.out).take 16)).flatMap (fun p => leBytes 2 (rgb565 p)))).mem)
          ∧ (f.lines + 1 = m.camBusLines → m.cam.colBad = false → m'.cam.wrBuf = 1 - m.cam.wrBuf
              ∧ m'.cam.next = some ({ buf := m.cam.wrBuf, time := f.time, old := false }, m.cyc))
          ∧ Touches [.regs, .mem, .grp, .qmg, .cam] m m')))
    ∧ (∀ nack rd,
      (m.cam.i2c = none → RunsTo (.i2cTransferDone nack rd) s m)
      ∧ (∀ r, m.cam.i2c = some r → Runs (.i2cTransferDone nack rd) s (fun m' => m'.cam.i2c = none ∧ m'.fld aCAM_I2CSTAT fCAM_I2CSTAT_BUSY = 0
          ∧ (nack = true → m'.fld aCAM_I2CSTAT fCAM_I2CSTAT_NACK = 1 ∧ m'.cam.sets = m.cam.sets ∧ m.regsBut m' [aCAM_I2CSTAT]
              ∧ ∀ f, m.cam.frame = some f → m'.cam.frame = some { f with nack := true })
          ∧ (nack = false → m'.cam.sets = m.cam.sets ++ [(if r.on then m.cam.frames + r.delay else m.cam.frames + 1, r.setid)]
              ∧ m'.reg aCAM_I2CRD = (if i2cReads 128 (m.bytes (0x7105000 + 128 * r.buf) 128) then rd else m.reg aCAM_I2CRD)
              ∧ m'.fld aCAM_I2CSTAT fCAM_I2CSTAT_I2C_LATE
                  = min 0xFF (m.fld aCAM_I2CSTAT fCAM_I2CSTAT_I2C_LATE + bit (r.on && m.cam.frames != r.frame))
              ∧ m.regsBut m' [aCAM_I2CSTAT, aCAM_I2CRD])
          ∧ Touches [.regs, .cam] m m')))
    ∧ (m.cam.trigDue = none → RunsTo .camTrigActive s m)
    ∧ (∀ d, m.cam.trigDue = some d → Runs .camTrigActive s (fun m' => m'.cyc = max m.cyc d
        ∧ m'.cam = { m.cam with trigDue := none, trigOn := true, trigEnd := d + 800 * max 1 (m.fld aCAM_TRIG fCAM_TRIG_TRIG_W) }
        ∧ m'.camTrigPin = !m.flag aCAM_TRIG fCAM_TRIG_TPOL ∧ Touches [.cyc, .time, .cam] m m'))
    ∧ (m.cam.trigOn = false ∨ m.cam.trigDue ≠ none → RunsTo .camTrigInactive s m)
    ∧ (m.cam.trigOn = true → m.cam.trigDue = none → Runs .camTrigInactive s (fun m' => m'.cyc = max m.cyc m.cam.trigEnd
        ∧ m'.cam = { m.cam with trigOn := false } ∧ m'.camTrigPin = m.flag aCAM_TRIG fCAM_TRIG_TPOL ∧ Touches [.cyc, .time, .cam] m m'))

/-! ## Safety functions (R420 to R457) -/

/-- The safety configuration and channel B's confirmation (R421, R423, R424, R429, R447). Staging and records are written as their rules allow.
Verification ends with the first failed check in VERR, or makes the staged image both active copies, with the pairs off, waiting for a RESTART,
PERIOD 0 and the first period running. SAF_OK comes with channel B's matching CRC; without it in 1 ms nothing is active. -/
def Obligations.SafetyImagesAreVerified : Prop :=
  ∀ (s : State),
    let m := s.m
    (∀ src off w, wfSafetyStagingWrite src off w = true →
      let may := m.mayWrite src .saf 0 (0x40000 + off)
      (may ≠ 0 → RunsTo (.safetyStagingWrite src off w) s (m.done may))
      ∧ (may = 0 → m.isPending safPage 0 = true → RunsTo (.safetyStagingWrite src off w) s (m.refusePending safPage))
      ∧ (may = 0 → m.isPending safPage 0 = false → Runs (.safetyStagingWrite src off w) s (fun m' => m'.status = 0
          ∧ m'.mword (safStage + off) = w ∧ m.bytesBut m' (safStage + off) 4 ∧ Touches [.status, .mem] m m')))
    ∧ (∀ ctx grp off w, wfSafetyRecordWrite ctx grp off w = true →
      let c := Instr.safetyRecordWrite ctx grp off w
      let st : Nat := if m.ctxOn ctx = false then 7 else if m.dev.st = .shutdown then 1 else if ctx ≠ m.safetyCtx then 3 else 0
      (st ≠ 0 → RunsTo c s (m.done st))
      ∧ (st = 0 → m.isPending safPage 0 = true → RunsTo c s (m.refusePending safPage))
      ∧ (st = 0 → m.isPending safPage 0 = false → Runs c s (fun m' => let a := safPage + 0x100 + 0x80 * grp + off
          m'.status = 0 ∧ m'.mword a = w ∧ m.bytesBut m' a 4
          ∧ (grp = 0 → m'.saf = { m.saf with wrA := m.saf.wrA ||| 2 ^ (off / 4) }
              ∧ m'.flag aSAF_VSTAT fSAF_VSTAT_REQ_A = (m.saf.wrA ||| 2 ^ (off / 4) == 2 ^ 32 - 1))
          ∧ (grp = 1 → m'.saf = { m.saf with wrB := m.saf.wrB ||| 2 ^ (off / 4) }
              ∧ m'.flag aSAF_VSTAT fSAF_VSTAT_REQ_B = (m.saf.wrB ||| 2 ^ (off / 4) == 2 ^ 32 - 1))
          ∧ m.regsBut m' [aSAF_VSTAT] ∧ Touches [.status, .regs, .mem, .saf] m m')))
    ∧ (m.saf.verifyDue = none → RunsTo .safetyVerifyDone s m)
    ∧ (∀ c, m.saf.verifyDue = some c →
      let ra := m.bytes (safPage + 0x100) 128
      let img := m.image safStage safLen
      let w (o : Nat) := leNat (recPart ra o 4)
      let iw (o : Nat) := leNat (recPart img o 4)
      let checks : List Bool := [
        recordFull m.saf.wrA && recordFull m.saf.wrB && ra == m.bytes (safPage + 0x180) 128,
        safHeaderOk img && w 8 == iw 8 && w 4 == iw 12 && decide (w 12 < 4) && (ra.drop 0x70).all (fun b => b == 0),
        sha256 img == recPart ra 0x10 32, s.otp.signedBy ra,
        (match m.saf.seqMax with | none => true | some q => decide (q < w 0)), decide (s.otp.sminver ≤ w 4)]
      Runs .safetyVerifyDone s (fun m' =>
        m'.saf.verifyDue = none ∧ m'.saf.wrA = 0 ∧ m'.saf.wrB = 0 ∧ m'.isPending safPage 0 = false
        ∧ m'.flag aSAF_VSTAT fSAF_VSTAT_BUSY = false ∧ m'.flag aSAF_VSTAT fSAF_VSTAT_REQ_A = false ∧ m'.flag aSAF_VSTAT fSAF_VSTAT_REQ_B = false
        ∧ m'.fld aSAF_VSTAT fSAF_VSTAT_VERR = (if checks.all id then 0 else checks.findIdx (fun b => !b) + 1)
        ∧ (checks.all id = false → m'.mem = m.mem ∧ m.regsBut m' [aSAF_VSTAT] ∧ m'.saf = { m.saf with verifyDue := none, wrA := 0, wrB := 0 })
        ∧ (checks.all id = true → m'.flag aSAF_STAT fSAF_STAT_ACTIVE = false ∧ m'.flag aSAF_VSTAT fSAF_VSTAT_BOK = false
          ∧ m'.reg aSAF_ICRC = word (crc32c img) ∧ m'.reg aSAF_PERIOD = 0 ∧ m'.fld aSAF_SEQNO fSAF_SEQNO_SEQNO = w 0
          ∧ m'.fld (aCSTAT safPage) fCSTAT_APPLIED = (m.fld (aCSTAT safPage) fCSTAT_APPLIED + 1) % 2 ^ 16
          ∧ (∀ k, k < safLen → m'.byte (safImgA + k) = m.byte (safStage + k) ∧ m'.byte (safImgB + k) = m.byte (safStage + k))
          ∧ (∀ a, a < safImgA ∨ safImgB + safLen ≤ a → m'.byte a = m.byte a)
          ∧ m'.saf.seqMax = some (w 0) ∧ m'.saf.confDue = some (m.cyc + 800000) ∧ m'.saf.periodCyc = some m.cyc ∧ m'.saf.setOn = false
          ∧ m'.saf.covered = [] ∧ m'.saf.hits = [] ∧ m'.saf.txMsn = 0
          ∧ m'.flag aSAF_STAT fSAF_STAT_HEART = true ∧ m'.flag aSAF_STAT fSAF_STAT_FSWERR = false
          ∧ ∀ p, p < 2 → m'.ossdSt p = 0 ∧ m'.fld (aSAF_OSSD p) fSAF_OSSD_HS = 0 ∧ m'.fld (aSAF_OSSD p) fSAF_OSSD_LS = 0
            ∧ m'.flag (aSAF_OSSD p) fSAF_OSSD_WAIT_RST = true ∧ m'.fld (aSAF_OSSD p) fSAF_OSSD_FB = m.fld (aSAF_OSSD p) fSAF_OSSD_FB)
        ∧ Touches [.regs, .mem, .commits, .saf] m m'))
    ∧ (∀ src v, src.wf = true →
      let may := m.mayWrite src .saf 0 0x14
      let good := m.saf.confDue.isSome = true ∧ v = m.reg aSAF_ICRC
      (may ≠ 0 → RunsTo (.bconfWrite src v) s (m.done may))
      ∧ (may = 0 → ¬ good → Runs (.bconfWrite src v) s (fun m' => m'.status = 0 ∧ m'.reg aSAF_BCONF = v ∧ m.regsBut m' [aSAF_BCONF]
          ∧ Touches [.status, .regs] m m'))
      ∧ (may = 0 → good → Runs (.bconfWrite src v) s (fun m' => m'.status = 0 ∧ m'.reg aSAF_BCONF = v ∧ m'.flag aSAF_STAT fSAF_STAT_ACTIVE = true
          ∧ m'.flag aSAF_VSTAT fSAF_VSTAT_BOK = true ∧ m'.saf = { m.saf with confDue := none }
          ∧ m.regsBut m' [aSAF_BCONF, aSAF_STAT, aSAF_VSTAT] ∧ Touches [.status, .regs, .saf] m m')))
    ∧ (m.saf.confDue = none → RunsTo .bconfTimeout s m)
    ∧ (∀ c, m.saf.confDue = some c → Runs .bconfTimeout s (fun m' => m'.cyc = max m.cyc c ∧ m'.saf.confDue = none ∧ m'.safRuns = false
        ∧ m'.fld aSAF_VSTAT fSAF_VSTAT_VERR = 7
        ∧ (∀ p, p < 2 → m'.ossdSt p ≠ 1 ∧ m'.ossdSt p ≠ 2 ∧ m'.ossdSt p ≠ 3 ∧ m'.pairOn p = false)
        ∧ Touches [.cyc, .regs, .mem, .time, .grp, .qmg, .saf] m m'))

/-- Protective fields and channel B (R428 to R434, R438, R455). A field is violated exactly by a cell with a limit that is uncovered or has enough
hits. A period end sets the verdicts and counts, applies a set that awaited it, and begins a new period; too many differing verdicts are a safety
fault. A write of SAF_BRES for the period last ended sets VB and the gate; one after T_BLAT, or none, closes it. -/
def Obligations.FieldsAndPeriodsAreJudged : Prop :=
  (∀ (cov hits : Nat → Nat) (n i : Nat) (tbl : List Byte), tbl.length % 2 = 0 →
    let bad (k : Nat) : Prop := k < tbl.length / 2 ∧ leNat ((tbl.drop (2 * k)).take 2) ≠ 0 ∧ (cov (i + k) = 0 ∨ n ≤ hits (i + k))
    (firstViolated cov hits n i tbl = none ↔ ∀ k, ¬ bad k)
    ∧ (∀ unc c, firstViolated cov hits n i tbl = some (unc, c) → i ≤ c ∧ bad (c - i) ∧ (unc = true ↔ cov c = 0) ∧ ∀ k, k < c - i → ¬ bad k))
  ∧ (∀ (s : State),
    let m := s.m
    let faulted (k : Nat) (m' : Mach) : Prop := m'.flag aSAF_STAT fSAF_STAT_FAULT = true
      ∧ (m.flag aSAF_STAT fSAF_STAT_FAULT = false → m'.fld aSAF_STAT fSAF_STAT_FCAUSE = k)
      ∧ (m.dev.st ≠ .off → m.dev.st ≠ .shutdown → m'.dev.st = .oasis)
      ∧ ∀ p, p < 2 → m'.ossdSt p = 4 ∧ m'.fld (aSAF_OSSD p) fSAF_OSSD_HS = 0 ∧ m'.fld (aSAF_OSSD p) fSAF_OSSD_LS = 0
    (m.saf.periodCyc = none → RunsTo .periodEnd s m)
    ∧ (∀ c, m.saf.periodCyc = some c →
      let fin := c + m.safPeriod
      let per := m.fld aSAF_PERIOD fSAF_PERIOD_PERIOD
      let o (p : Nat) (f : Fld) := m.fld (aSAF_OSSD p) f
      let differ (p : Nat) := if (m.ossd p).bSeen && o p fSAF_OSSD_VA != o p fSAF_OSSD_VB then (m.ossd p).differ + 1 else 0
      let bad := differ 0 = m.safCmpn ∨ differ 1 = m.safCmpn
      Runs .periodEnd s (fun m' => m'.cyc = max m.cyc fin ∧ m'.fld aSAF_PERIOD fSAF_PERIOD_PERIOD = (per + 1) % 2 ^ 32
        ∧ m'.saf.periodCyc = some fin ∧ m'.saf.covered = [] ∧ m'.saf.hits = []
        ∧ (∀ p, p < 2 →
          let v := (m.safViolated p).1
          let vc := if v then min 255 (o p fSAF_OSSD_VCNT + 1) else 0
          let cc := if v then 0 else min 255 (o p fSAF_OSSD_CCNT + 1)
          m'.fld (aSAF_OSSD p) fSAF_OSSD_VA = bit v ∧ m'.fld (aSAF_OSSD p) fSAF_OSSD_VCNT = vc ∧ m'.fld (aSAF_OSSD p) fSAF_OSSD_CCNT = cc
          ∧ (m'.ossd p).offA = (if m.safMulti ≤ vc then true else if m.safClearn ≤ cc then false else (m.ossd p).offA)
          ∧ (m'.ossd p).differ = differ p ∧ (m'.ossd p).bSeen = false
          ∧ (m'.ossd p).bDue = some ((m.ossd p).bDue.getD (per, fin + m.safTblat))
          ∧ (∀ unc k, (m.safViolated p).2 = some (unc, k) → m'.fld (aSAF_VIOL p) fSAF_VIOL_UNCOV = bit unc
              ∧ m'.fld (aSAF_VIOL p) fSAF_VIOL_HEAD = k / 1024 % 2 ∧ m'.fld (aSAF_VIOL p) fSAF_VIOL_BAND = k / 128 % 8
              ∧ m'.fld (aSAF_VIOL p) fSAF_VIOL_COL = k % 128))
        ∧ ((m.advanceTo fin).codeHeld = false → m.flag aSAF_FIELD fSAF_FIELD_PEND = true → m'.saf.setOn = true
            ∧ m'.fld aSAF_FIELD fSAF_FIELD_SET = m.fld aSAF_FIELD fSAF_FIELD_NEXT ∧ m'.flag aSAF_FIELD fSAF_FIELD_PEND = false
            ∧ m'.fld aSAF_FIELD fSAF_FIELD_FSWCNT = min 0xFF (m.fld aSAF_FIELD fSAF_FIELD_FSWCNT + 1))
        ∧ ((m.advanceTo fin).codeHeld = false → m.flag aSAF_FIELD fSAF_FIELD_PEND = false → m'.reg aSAF_FIELD = m.reg aSAF_FIELD
            ∧ m'.saf.setOn = m.saf.setOn)
        ∧ (bad → faulted 2 m')
        ∧ (¬ bad → m'.dev = m.dev ∧ m'.reg aSAF_STAT = (m.advanceTo fin).selSettle.reg aSAF_STAT)
        ∧ (¬ bad → m.ossdSt 0 = 0 → m.ossdSt 1 = 0 → m'.saf.txMsn = (m.saf.txMsn + 1) % 2 ^ 32
            ∧ ∀ g, g < 2 → m.bonded g = true → (m'.g g).safeq.length = (m.g g).safeq.length + 1)))
    ∧ (∀ src p v, src.wf = true → p < 2 → m.codeHeld = false →
      let c := Instr.bresWrite src p v
      let may := m.mayWrite src .saf 0 (0x30 + 4 * p)
      let per := m.fld aSAF_PERIOD fSAF_PERIOD_PERIOD
      let taken := m.saf.periodCyc.isSome = true ∧ per ≠ 0 ∧ fSAF_BRES_PERIOD.get v = (per - 1) % 2 ^ 20
      (may ≠ 0 → RunsTo c s (m.done may))
      ∧ (may = 0 → Runs c s (fun m' => m'.status = 0 ∧ m'.reg (aSAF_BRES p) = v &&& 0xFFFFF003
          ∧ (¬ taken → m'.saf = m.saf ∧ m.regsBut m' [aSAF_BRES p])
          ∧ (∀ k, taken → m.saf.periodCyc = some k → m.cyc ≤ k + m.safTblat → (m'.ossd p).bEn = (fSAF_BRES_EN.get v == 1)
              ∧ (m'.ossd p).bSeen = true ∧ m'.fld (aSAF_OSSD p) fSAF_OSSD_VB = fSAF_BRES_VIOL.get v)
          ∧ (∀ k, taken → m.saf.periodCyc = some k → k + m.safTblat < m.cyc → (m'.ossd p).bEn = false
              ∧ m'.fld (aSAF_OSSD p) fSAF_OSSD_VB = m.fld (aSAF_OSSD p) fSAF_OSSD_VB)
          ∧ (taken → (m'.ossd p).bEn = false → m'.fld (aSAF_OSSD p) fSAF_OSSD_LS = 0)
          ∧ Touches [.status, .regs, .mem, .grp, .qmg, .saf] m m')))
    ∧ (∀ p k c, p < 2 → m.safRuns = true → (m.ossd p).bDue = some (k, c) → Runs (.blatDeadline p) s (fun m' => m'.cyc = max m.cyc c
        ∧ (m'.ossd p).bDue = none ∧ (m'.ossd p).bEn = false ∧ faulted 4 m'))
    ∧ (∀ p, p < 2 → m.safRuns = false ∨ (m.ossd p).bDue = none → RunsTo (.blatDeadline p) s m.selSettle.ossdJudge))

/-- Safety inputs and test pulses (R438 to R445, R455). A level that has held for FILT moves the states of its input in the evaluators named; DISC
that elapses puts an input into FAULT; a two-hand function leaves ONE for WAIT after 0.5 s; evaluators that differ for more than 1 ms are a safety
fault. A pulse starts its window and the next one is due; two failed judgments in a row set TPERR. FSW_T without a valid code sets FSWERR. -/
def Obligations.SafetyInputsAreEvaluated : Prop :=
  (∀ c0 c1 first, first < 2 →
    let f := if first = 0 then c0 else c1
    let o := if first = 0 then c1 else c0
    (inStep c0 c1 0 first).1 = (if c0 && c1 then 2 else if c0 || c1 then 1 else 0)
    ∧ (inStep c0 c1 1 first).1 = (if !f then 0 else if o then 2 else 1)
    ∧ (inStep c0 c1 2 first).1 = (if c0 && c1 then 2 else 3)
    ∧ (inStep c0 c1 3 first).1 = (if f then 4 else if o then 3 else 0)
    ∧ (inStep c0 c1 4 first).1 = (if c0 || c1 then 4 else 0))
  ∧ (∀ (s : State),
    let m := s.m
    let faulted (k : Nat) (m' : Mach) : Prop := m'.flag aSAF_STAT fSAF_STAT_FAULT = true
      ∧ (m.flag aSAF_STAT fSAF_STAT_FAULT = false → m'.fld aSAF_STAT fSAF_STAT_FCAUSE = k)
      ∧ (m.dev.st ≠ .off → m.dev.st ≠ .shutdown → m'.dev.st = .oasis) ∧ ∀ p, p < 2 → m'.ossdSt p = 4 ∧ m'.pairOn p = false
    let idle (c : Instr) : Prop := RunsTo c s m.selSettle.ossdJudge
    (∀ k level evs, k < 16 → evs < 4 → Runs (.inputLevel k level evs) s (fun m' =>
      let i := k / 2
      let c := k % 2
      (∀ ev, ev < 2 → evs.testBit ev = true →
        let lv (j : Nat) : Bool := let l := if j = c then level else (m.safIn ev i).ch.testBit j
          if j = 1 ∧ m.safInAnti i = true then !l else l
        let step (q : Nat × Nat) := inStep (lv 0) (lv 1) q.1 q.2
        (m'.safIn ev i).ch.testBit c = level ∧ (m'.safIn ev i).ch.testBit (1 - c) = (m.safIn ev i).ch.testBit (1 - c)
        ∧ (m.safRuns = false → m'.inSt ev i = m.inSt ev i)
        ∧ (m.safRuns = true → m.safInType i = 1 ∨ m.safInType i = 2 ∨ m.safInType i = 4 → m.inSt ev i ≤ 4 →
            m'.inSt ev i = (step (step (step (m.inSt ev i, (m.safIn ev i).first)))).1)
        ∧ (m.safRuns = true → m.safInType i = 5 → m'.inSt ev i = selState (m'.safIn ev i).ch))
      ∧ (∀ ev j, ev < 2 → j < 8 → j / 2 ≠ i / 2 → m'.inSt ev j = m.inSt ev j)
      ∧ (evs.testBit 0 = true → m'.fld (aSAF_IN i) (if c = 0 then fSAF_IN_CH0 else fSAF_IN_CH1) = bit level)
      ∧ (evs.testBit 0 = true → m.safRuns = true → m.safInType i = 1 → m.inSt 0 i = 2 → m'.inSt 0 i ≠ 2 →
          m'.fld (aSAF_IN i) fSAF_IN_DEMANDS = min 0xFFFF (m.fld (aSAF_IN i) fSAF_IN_DEMANDS + 1)
          ∧ ∀ p, p < 2 → (m.safInMask i).testBit p = true → m'.flag (aSAF_OSSD p) fSAF_OSSD_WAIT_RST = true ∧ (m'.ossd p).needRst = true)
      ∧ Touches [.regs, .mem, .grp, .qmg, .saf] m m'))
    ∧ (∀ i, i < 8 →
      let runs (ev : Nat) : Prop := ev < 2 ∧ (m.safIn ev i).dis = true
      let at_ (ev : Nat) := (m.safIn ev i).since + m.safInDisc i
      (m.safRuns = false ∨ (∀ ev, ¬ runs ev) → idle (.discrepancyExpiry i))
      ∧ (∀ ev, m.safRuns = true → runs ev → (∀ f, runs f → at_ ev ≤ at_ f) → Runs (.discrepancyExpiry i) s (fun m' =>
          m'.cyc = max m.cyc (at_ ev) ∧ m'.flag (aSAF_IN i) fSAF_IN_DISCERR = true
          ∧ (1 ≤ m.safInType i → m.safInType i ≤ 4 → ∀ f, runs f → at_ f ≤ m'.cyc → m'.inSt f i = 4)
          ∧ Touches [.cyc, .regs, .mem, .time, .grp, .qmg, .saf] m m')))
    ∧ (∀ k, k < 8 →
      let i := k / 2 * 2
      let runs (ev : Nat) : Prop := ev < 2 ∧ m.safInType i = 3 ∧ m.inSt ev i = 7
      let at_ (ev : Nat) := (m.safIn ev i).two + 400000000
      (m.safRuns = false ∨ (∀ ev, ¬ runs ev) → idle (.twoHandTimeout k))
      ∧ (∀ ev, m.safRuns = true → runs ev → (∀ f, runs f → at_ ev ≤ at_ f) → Runs (.twoHandTimeout k) s (fun m' =>
          m'.cyc = max m.cyc (at_ ev)
          ∧ (∀ f, runs f → at_ f ≤ m'.cyc →
              let free : Bool := (List.range 2).all (fun j => !m.inLevel f (i + j) 0 && !m.inLevel f (i + j) 1)
              m'.inSt f i = (if free then 6 else 5) ∧ m'.inSt f (i + 1) = m'.inSt f i)
          ∧ Touches [.cyc, .regs, .mem, .time, .grp, .qmg, .saf] m m')))
    ∧ (∀ i, i < 8 →
      let found := m.saf.diffCyc.find? (fun x => x.1 == i)
      (m.safRuns = false ∨ found = none → idle (.evaluatorDisagree i))
      ∧ (∀ j c, m.safRuns = true → found = some (j, c) → Runs (.evaluatorDisagree i) s (fun m' => m'.cyc = max m.cyc (c + 800001) ∧ faulted 3 m')))
    ∧ (∀ k, k < 2 →
      let due := m.saf.tpDue.find? (fun x => x.1 == k)
      (due = none → idle (.testPulse k))
      ∧ (∀ j d, due = some (j, d) → Runs (.testPulse k) s (fun m' => m'.cyc = max m.cyc d
          ∧ m'.saf.tpCyc.find? (fun x => x.1 == k) = some (k, d) ∧ m'.saf.tpDue.find? (fun x => x.1 == k) = some (k, d + m.safTpp)
          ∧ (m'.cyc < d + m.safTpw → m'.tpPin k = false)
          ∧ Touches [.cyc, .regs, .mem, .time, .grp, .qmg, .saf] m m')))
    ∧ (∀ k failed, k < 2 → failed < 65536 →
      let last := m.saf.tpCyc.find? (fun x => x.1 == k)
      (m.safRuns = false ∨ last = none → idle (.testPulseJudge k failed))
      ∧ (∀ j c, m.safRuns = true → last = some (j, c) → Runs (.testPulseJudge k failed) s (fun m' => m'.cyc = max m.cyc (c + m.safTpw + 16000)
          ∧ (∀ n, n < 16 → n % 2 = k → m.tpFed n = true →
            let bad := failed.testBit n || m.saf.tpCross.contains n
            (bad = false → mapGet 0 m'.saf.tpFail n = 0 ∧ m'.fld (aSAF_IN (n / 2)) fSAF_IN_TPERR = m.fld (aSAF_IN (n / 2)) fSAF_IN_TPERR)
            ∧ (bad = true → mapGet 0 m'.saf.tpFail n = mapGet 0 m.saf.tpFail n + 1)
            ∧ (bad = true → 1 ≤ mapGet 0 m.saf.tpFail n → m'.flag (aSAF_IN (n / 2)) fSAF_IN_TPERR = true
                ∧ (1 ≤ m.safInType (n / 2) → m.safInType (n / 2) ≤ 4 → ∀ ev, ev < 2 → m'.inSt ev (n / 2) = 4)))
          ∧ (∀ n, n < 16 → n % 2 ≠ k → m.tpFed n = true → failed.testBit n = true → n ∈ m'.saf.tpCross)
          ∧ Touches [.cyc, .regs, .mem, .time, .grp, .qmg, .saf] m m')))
    ∧ (m.codeHeld = false → (m.safRuns = false ∨ m.saf.noCode = none → idle .fswerr)
      ∧ (∀ c, m.safRuns = true → m.saf.noCode = some c → (m.advanceTo (c + m.safFswT)).codeHeld = true → Runs .fswerr s (fun m' =>
          m'.cyc = max m.cyc (c + m.safFswT) ∧ m'.flag aSAF_STAT fSAF_STAT_FSWERR = false))
      ∧ (∀ c, m.safRuns = true → m.saf.noCode = some c → (m.advanceTo (c + m.safFswT)).codeHeld = false → Runs .fswerr s (fun m' => m'.cyc = max m.cyc (c + m.safFswT)
          ∧ m'.flag aSAF_STAT fSAF_STAT_FSWERR = true ∧ (∀ p, p < 2 → m'.ossdSt p ≠ 1 ∧ m'.ossdSt p ≠ 2 ∧ m'.ossdSt p ≠ 3)
          ∧ Touches [.cyc, .regs, .mem, .time, .grp, .qmg, .saf] m m'))))

/-- OSSD pairs (R447 to R450, R455, R457). After a safety command a pair is on, or switching on, only while every condition of R447 holds for it.
The switch-on closes HS, then LS, checks the feedback at each step, and ends in ON; a failed check, or feedback that stays high, locks the pairs out
with FBERR and a safety fault. The periodic test opens LS for OFFT. -/
def Obligations.OssdPairsSwitch : Prop :=
  ∀ (s : State) (p : Nat), p < 2 →
    let m := s.m
    let a := aSAF_OSSD p
    let x := m.ossd p
    let st := m.ossdSt p
    let due (m' : Mach) : Prop := m'.cyc = max m.cyc (x.checkDue.getD m.cyc)
    let shows (m' : Mach) (st hs ls : Nat) : Prop := m'.ossdSt p = st ∧ m'.fld a fSAF_OSSD_HS = hs ∧ m'.fld a fSAF_OSSD_LS = ls
    let locked (code : Nat) (m' : Mach) : Prop := m'.fld a fSAF_OSSD_FBERR = code ∧ m'.flag aSAF_STAT fSAF_STAT_FAULT = true
      ∧ (m.flag aSAF_STAT fSAF_STAT_FAULT = false → m'.fld aSAF_STAT fSAF_STAT_FCAUSE = 1)
      ∧ (m.dev.st ≠ .off → m.dev.st ≠ .shutdown → m'.dev.st = .oasis)
      ∧ ∀ q, q < 2 → m'.ossdSt q = 4 ∧ m'.fld (aSAF_OSSD q) fSAF_OSSD_HS = 0 ∧ m'.fld (aSAF_OSSD q) fSAF_OSSD_LS = 0
          ∧ m'.fld (aSAF_OSSD q) fSAF_OSSD_OFFCAUSE = 7
    (∀ c t, (∃ k l e, c = .inputLevel k l e) ∨ (∃ i, c = .discrepancyExpiry i ∨ c = .twoHandTimeout i ∨ c = .evaluatorDisagree i)
          ∨ (∃ k f, c = .testPulse k ∨ c = .testPulseJudge k f) ∨ c = .fswerr ∨ c = .heartbeatTimeout
          ∨ (∃ q b, c = .switchOn q ∨ c = .fbCheck q b ∨ c = .offpTest q ∨ c = .offtTestEnd q b ∨ c = .fbHighTimeout q ∨ c = .blatDeadline q
              ∨ c = .safeCopyTimeout q)
          ∨ (c = .periodEnd ∧ m.saf.periodCyc ≠ none) → exec c s = .next t →
        t.m.ossdSt p = 1 ∨ t.m.ossdSt p = 2 ∨ t.m.ossdSt p = 3 → t.m.ossdWhy p = 0)
    ∧ (m.codeHeld = false →
      let ready := st = 0 ∧ m.ossdWhy p = 0 ∧ x.needRst = false
      (ready → Runs (.switchOn p) s (fun m' => shows m' 1 1 0 ∧ m'.fld a fSAF_OSSD_OFFCAUSE = 0 ∧ (m'.ossd p).checkDue = some (m.cyc + m.safFbt)
          ∧ Touches [.regs, .mem, .grp, .qmg, .saf] m m'))
      ∧ (¬ ready → RunsTo (.switchOn p) s m.ossdJudge))
    ∧ (∀ fb, m.codeHeld = false → m.ossdWhy p = 0 →
      (st = 1 → fb = true → Runs (.fbCheck p fb) s (fun m' => due m' ∧ shows m' 2 (m.fld a fSAF_OSSD_HS) 1 ∧ m'.flag a fSAF_OSSD_FB = true
          ∧ (m'.ossd p).checkDue = some (m'.cyc + m.safFbt)))
      ∧ (st = 1 → fb = false → Runs (.fbCheck p fb) s (fun m' => due m' ∧ locked 1 m'))
      ∧ (st = 2 → fb = true → Runs (.fbCheck p fb) s (fun m' => due m' ∧ locked 2 m'))
      ∧ (st = 2 → fb = false → Runs (.fbCheck p fb) s (fun m' => due m' ∧ shows m' 3 (m.fld a fSAF_OSSD_HS) (m.fld a fSAF_OSSD_LS)
          ∧ m'.flag a fSAF_OSSD_FB = false ∧ (m'.ossd p).checkDue = none ∧ (m'.ossd p).testing = false ∧ (m'.ossd p).testDue = m'.cyc + m.safOffp))
      ∧ (st = 3 → Runs (.fbCheck p fb) s (fun m' => m'.ossdSt p = 3 ∧ m'.cyc = m.cyc ∧ m'.flag a fSAF_OSSD_FB = fb
          ∧ (m'.ossd p).seen = (x.seen || (x.testing && fb))))
      ∧ (st = 3 → x.testing = false → Runs (.offpTest p) s (fun m' => m'.cyc = max m.cyc x.testDue ∧ shows m' 3 (m.fld a fSAF_OSSD_HS) 0
          ∧ (m'.ossd p).testing = true ∧ (m'.ossd p).checkDue = some (m'.cyc + m.safOfft) ∧ (m'.ossd p).testDue = x.testDue + m.safOffp
          ∧ Touches [.cyc, .regs, .mem, .time, .grp, .qmg, .saf] m m'))
      ∧ (st = 3 → x.testing = true → fb = true ∨ x.seen = true → Runs (.offtTestEnd p fb) s (fun m' => due m'
          ∧ shows m' 3 (m.fld a fSAF_OSSD_HS) 1 ∧ (m'.ossd p).testing = false))
      ∧ (st = 3 → x.testing = true → fb = false → x.seen = false → Runs (.offtTestEnd p fb) s (fun m' => due m' ∧ locked 3 m'))
      ∧ (m.safRuns = true → st = 0 → m.fld a fSAF_OSSD_HS = 0 → m.fld a fSAF_OSSD_LS = 0 →
          Runs (.fbHighTimeout p) s (fun m' => m'.cyc = m.cyc ∧ locked 4 m'))
      ∧ (m.safRuns = true → st = 3 → x.testing = false → Runs (.fbHighTimeout p) s (fun m' => m'.cyc = m.cyc ∧ locked 5 m'))
      ∧ (m.safRuns = false → Runs (.fbHighTimeout p) s (fun m' => m'.flag a fSAF_OSSD_FB = true ∧ m'.ossdSt p = st ∧ m'.dev = m.dev)))
    ∧ (m.codeHeld = false → st ≠ 3 ∨ x.testing = true → RunsTo (.offpTest p) s m.ossdJudge)
    ∧ (∀ fb, m.codeHeld = false → st ≠ 3 ∨ x.testing = false → RunsTo (.offtTestEnd p fb) s m.ossdJudge)

/-- Safe messages (R399, R437, R449 to R453). A SAFE packet of the Safety context is checked, then held until its twin comes over the other group: a
matched, newer message waits for execution and is a heartbeat; every other outcome counts. A copy that waits longer than MSG_SKEW is dropped. The
matched messages execute: HEARTBEAT, FIELDSEL, RESTART, FAULT_ACK, OASIS. Without one for MSG_TMO the pairs go off. -/
def Obligations.SafeMessagesMatchAndExecute : Prop :=
  ∀ (s : State),
    let m := s.m
    let cnt (m : Mach) (f : Fld) := m.fld aSAF_MSGCNT f
    let takes (kind : Nat) (x : SafMsg) (m' : Mach) : Prop := m.saf.matched.find? (fun y => y.kind == kind) = some x
      ∧ m'.saf.matched = m.saf.matched.erase x ∧ m'.cyc = m.cyc
    let none_ (kind : Nat) (c : Instr) : Prop := m.saf.matched.find? (fun y => y.kind == kind) = none → RunsTo c s m
    (∀ g ctx spec payload, wfSafe g ctx spec payload = true →
      let c := Instr.safe g ctx spec payload
      let w (o : Nat) := leNat (recPart payload o 4)
      let x : SafMsg := { grp := g, msn := w 0, kind := w 4, bytes := payload, cyc := m.cyc }
      let ok := m.safMsgOk spec payload
      let twin := m.saf.held.find? (fun h => h.msn == x.msn)
      let kept := m.saf.held.filter (fun y => y.msn != x.msn)
      let last := m.fld aSAF_MSG fSAF_MSG_LASTMSN
      let newer := 0 < signed 32 (x.msn + 2 ^ 32 - last)
      let counts (f : Fld) (k : Nat) (held : List SafMsg) : Prop := Runs c s (fun m' => cnt m' f = min 0xFF (cnt m f + k) ∧ m'.saf.held = held
        ∧ m'.saf.matched = m.saf.matched ∧ m'.saf.beatCyc = m.saf.beatCyc ∧ m'.fld aSAF_MSG fSAF_MSG_LASTMSN = last ∧ m'.cyc = m.cyc
        ∧ Touches [.regs, .mem, .grp, .qmg, .saf] m m')
      (m.linkUp g = false → RunsTo c s m)
      ∧ (m.linkUp g = true → m.dev.st = .shutdown → RunsTo c s (m.accept g))
      ∧ (m.linkUp g = true → m.dev.st ≠ .shutdown → m.ctxOn ctx = false → RunsTo c s ((m.accept g).badPkt 0))
      ∧ (m.linkUp g = true → m.dev.st ≠ .shutdown → m.ctxOn ctx = true → ctx ≠ m.safetyCtx ∨ safFormed spec payload = false →
          RunsTo c s ((m.accept g).badPkt ctx))
      ∧ (m.linkUp g = true → m.dev.st ≠ .shutdown → m.ctxOn ctx = true → ctx = m.safetyCtx → safFormed spec payload = true →
        (ok = false → counts fSAF_MSGCNT_SCHKERR 1 m.saf.held)
        ∧ (ok = true → x.kind = 0 ∨ 5 < x.kind → counts fSAF_MSGCNT_MISMATCH 1 m.saf.held)
        ∧ (ok = true → 1 ≤ x.kind → x.kind ≤ 5 →
          (twin = none → 4 ≤ m.saf.held.length → counts fSAF_MSGCNT_LONE 1 m.saf.held)
          ∧ (twin = none → m.saf.held.length < 4 → Runs c s (fun m' => m'.saf.held = m.saf.held ++ [x] ∧ m'.saf.matched = m.saf.matched
              ∧ m'.reg aSAF_MSGCNT = m.reg aSAF_MSGCNT ∧ m'.reg aSAF_MSG = m.reg aSAF_MSG ∧ m'.cyc = m.cyc
              ∧ Touches [.regs, .mem, .grp, .qmg, .saf] m m'))
          ∧ (∀ h, twin = some h → h.grp = g → counts fSAF_MSGCNT_LONE 1 m.saf.held)
          ∧ (∀ h, twin = some h → h.grp ≠ g → h.bytes ≠ payload → counts fSAF_MSGCNT_MISMATCH 2 kept)
          ∧ (∀ h, twin = some h → h.grp ≠ g → h.bytes = payload → ¬ newer → counts fSAF_MSGCNT_STALE 1 kept)
          ∧ (∀ h, twin = some h → h.grp ≠ g → h.bytes = payload → newer → Runs c s (fun m' => m'.saf.held = kept
              ∧ m'.saf.matched = m.saf.matched ++ [x] ∧ m'.fld aSAF_MSG fSAF_MSG_LASTMSN = x.msn ∧ m'.saf.beatCyc = m.cyc
              ∧ m'.flag aSAF_STAT fSAF_STAT_HEART = true ∧ m'.reg aSAF_MSGCNT = m.reg aSAF_MSGCNT ∧ m'.cyc = m.cyc
              ∧ Touches [.regs, .mem, .grp, .qmg, .saf] m m')))))
    ∧ (∀ g, g < 2 →
      let copy := m.saf.held.find? (fun h => h.grp == g)
      (copy = none → RunsTo (.safeCopyTimeout g) s m.selSettle.ossdJudge)
      ∧ (∀ h, copy = some h → Runs (.safeCopyTimeout g) s (fun m' => m'.cyc = max m.cyc (h.cyc + m.safSkew)
          ∧ m'.saf.held = m.saf.held.filter (fun y => y.msn != h.msn) ∧ cnt m' fSAF_MSGCNT_LONE = min 0xFF (cnt m fSAF_MSGCNT_LONE + 1)
          ∧ m'.saf.matched = m.saf.matched ∧ Touches [.cyc, .regs, .mem, .time, .grp, .qmg, .saf] m m')))
    ∧ none_ 1 .heartbeat ∧ none_ 2 .fieldsel ∧ none_ 3 .restart ∧ none_ 4 .faultAck ∧ none_ 5 .oasis
    ∧ (∀ x, m.saf.matched.find? (fun y => y.kind == 1) = some x → Runs .heartbeat s (fun m' => takes 1 x m' ∧ m'.saf.beatCyc = m.cyc
        ∧ m'.flag aSAF_STAT fSAF_STAT_HEART = true ∧ Touches [.regs, .mem, .grp, .qmg, .saf] m m'))
    ∧ (∀ x, m.saf.matched.find? (fun y => y.kind == 2) = some x → Runs .fieldsel s (fun m' => takes 2 x m'
        ∧ m'.saf.msgCode = some (x.arg0 % 32) ∧ Touches [.regs, .mem, .grp, .qmg, .saf] m m'))
    ∧ (∀ x, m.saf.matched.find? (fun y => y.kind == 3) = some x → m.codeHeld = false → Runs .restart s (fun m' => takes 3 x m'
        ∧ (∀ p, p < 2 → x.arg0.testBit p = true → m.ossdSt p = 0 → m.ossdWhy p = 0 →
            (m'.ossd p).needRst = false ∧ m'.flag (aSAF_OSSD p) fSAF_OSSD_WAIT_RST = false)
        ∧ (∀ p, p < 2 → x.arg0.testBit p = false ∨ m.ossdWhy p ≠ 0 → m.ossdSt p = 0 ∨ m.ossdSt p = 4 →
            (m'.ossd p).needRst = (m.ossd p).needRst
            ∧ m'.fld (aSAF_OSSD p) fSAF_OSSD_WAIT_RST = m.fld (aSAF_OSSD p) fSAF_OSSD_WAIT_RST)
        ∧ Touches [.regs, .mem, .grp, .qmg, .saf] m m'))
    ∧ (∀ x, m.saf.matched.find? (fun y => y.kind == 4) = some x → Runs .faultAck s (fun m' => takes 4 x m'
        ∧ (∀ i, i < 8 → x.arg0.testBit (8 + i) = true → m'.flag (aSAF_IN i) fSAF_IN_TPERR = false ∧ m'.flag (aSAF_IN i) fSAF_IN_DISCERR = false)
        ∧ (∀ i, i < 8 → x.arg0.testBit (8 + i) = false → m'.reg (aSAF_IN i) = m.reg (aSAF_IN i))
        ∧ (∀ p, p < 2 → m.ossdSt p = 4 →
            (x.arg0.testBit p = false → m'.ossdSt p = 4)
            ∧ (x.arg0.testBit p = true → m.flag (aSAF_OSSD p) fSAF_OSSD_FB = false → m'.ossdSt p = 0)
            ∧ (x.arg0.testBit p = true → m.flag (aSAF_OSSD p) fSAF_OSSD_FB = true → m'.ossdSt p = 4 ∧ (m'.ossd p).acked = true))
        ∧ Touches [.regs, .mem, .grp, .qmg, .saf] m m'))
    ∧ (∀ x, m.saf.matched.find? (fun y => y.kind == 5) = some x → m.dev.st ≠ .off → m.dev.st ≠ .shutdown → Runs .oasis s (fun m' => takes 5 x m'
        ∧ m'.dev.st = .oasis ∧ (m.dev.st ≠ .oasis → m'.fld aGLB_STATE fGLB_STATE_OASIS_CAUSE = 1)
        ∧ ∀ p, p < 2 → m'.ossdSt p ≠ 1 ∧ m'.ossdSt p ≠ 2 ∧ m'.ossdSt p ≠ 3))
    ∧ (m.safMsgTmo = 0 ∨ m.safRuns = false → RunsTo .heartbeatTimeout s m.selSettle.ossdJudge)
    ∧ (m.safMsgTmo ≠ 0 → m.safRuns = true → Runs .heartbeatTimeout s (fun m' => m'.cyc = max m.cyc (m.saf.beatCyc + m.safMsgTmo)
        ∧ m'.flag aSAF_STAT fSAF_STAT_HEART = false ∧ (∀ p, p < 2 → m'.ossdSt p ≠ 1 ∧ m'.ossdSt p ≠ 2 ∧ m'.ossdSt p ≠ 3)
        ∧ Touches [.cyc, .regs, .mem, .time, .grp, .qmg, .saf] m m'))

/-! ## Housekeeping, temperatures, calibration sets, fault log (R458 to R493) -/

/-- Housekeeping (R458 to R473, R487). The actions of HK_CTRL; a pass begins and its entries are measured one after another, each with its
result, status and filter; output words appear in HK_OUT and go to the queue; fixed-pair blocks and calibration slots take their place between
entries. -/
def Obligations.HousekeepingMeasures : Prop :=
  ∀ (s : State),
    let m := s.m
    let ctl (src : Src) : Prop := src.wf = true ∧ m.mayWrite src .hk 0 0 = 0
    let late := m.hkHeld = true ∨ m.hk.fixRun ≠ none ∨ m.blockDue m.hk.freeAt = true
    (∀ src, src.wf = true → m.mayWrite src .hk 0 0 ≠ 0 →
      let no (c : Instr) : Prop := RunsTo c s (m.done (m.mayWrite src .hk 0 0))
      (∀ on, no (.hkRefEn src on)) ∧ no (.hkGo src) ∧ no (.hkSync src))
    ∧ (∀ src on, ctl src → Runs (.hkRefEn src on) s (fun m' =>
        let was := m.flag aHK_CTRL fHK_CTRL_REF_EN
        m'.status = 0 ∧ m'.flag aHK_CTRL fHK_CTRL_REF_EN = on
        ∧ (on = was → m'.hk = m.hk ∧ m'.dev = m.dev ∧ m.regsBut m' [])
        ∧ (on = true → was = false → m'.hk = { m.hk with refDue := some (m.cyc + 1600000) } ∧ m'.dev = m.dev ∧ m.regsBut m' [aHK_CTRL])
        ∧ (on = false → was = true → m'.flag aHK_CTRL fHK_CTRL_HKREF_OK = false ∧ m'.hkHeld = true
            ∧ m'.hk = { m.hk with refDue := none, fixRun := none } ∧ (m.hot = true → m'.dev.st = .oasis) ∧ (m.hot = false → m'.dev = m.dev))))
    ∧ (∀ src, ctl src → Runs (.hkGo src) s (fun m' => m'.status = 0 ∧ m.regsBut m' [] ∧ Touches [.status, .regs, .hk] m m'
        ∧ (m.hkOn = true → m.hkMode = 2 → m.hk.pos = none → m.hk.req = none → m'.hk = { m.hk with req := some m.cyc })
        ∧ (m.hkOn = false ∨ m.hkMode ≠ 2 ∨ m.hk.pos ≠ none ∨ m.hk.req ≠ none → m'.hk = m.hk)))
    ∧ (∀ src, ctl src → Runs (.hkSync src) s (fun m' => m'.status = 0 ∧ m.regsBut m' [] ∧ m'.hk = { m.hk with sync := true }
        ∧ Touches [.status, .regs, .hk] m m'))
    ∧ (let at_ := if m.hkMode = 0 then some m.cyc else m.hk.req
       let starts := m.hkOn = true ∧ m.hkHeld = false ∧ m.hk.pos = none
       (at_ = none ∨ ¬ starts → RunsTo .hkPassStart s m)
       ∧ (∀ c, at_ = some c → starts → Runs .hkPassStart s (fun m' => m'.cyc = max m.cyc (max m.hk.freeAt c)
          ∧ m'.flag aHK_STAT fHK_STAT_RUN = true ∧ m'.hk.pos = some 0 ∧ m'.hk.req = none ∧ m'.hk.sync = false ∧ m'.hk.freeAt = max m.hk.freeAt c
          ∧ (∀ e, m'.hkEnt e = if m.hk.sync then { HkEnt.reset with res := (m.hkEnt e).res } else m.hkEnt e)
          ∧ m.regsBut m' [aHK_STAT] ∧ Touches [.cyc, .regs, .time, .hk] m m')))
    ∧ (∀ codes, codes.length ≤ 4096 → m.hk.pos = none → RunsTo (.hkEntryDone codes) s m)
    ∧ (∀ e (codes : List Int), codes.length ≤ 4096 → m.hk.pos = some e → e < 16 →
      let c := m.hk.freeAt + m.entryLen e
      let r := entryMean codes (m.entryDriven e) (m.fld (aHK_ENTA e) fHK_ENTA_GAIN)
      let v := subtractLead r (m.hkEnt (m.fld (aHK_ENTB e) fHK_ENTB_LREF)).res (min 2 (m.fld (aHK_ENTB e) fHK_ENTB_LSUB))
      let x := m.hkEnt e
      (late ∨ (m.entryOk e = true ∧ codes.length ≠ m.entryN e) → RunsTo (.hkEntryDone codes) s m)
      ∧ (¬ late → m.entryOk e = false ∨ codes.length = m.entryN e → m.commits = [] → m.fld aFLT_OASISMASK fFLT_OASISMASK_MASK = 0 →
        Runs (.hkEntryDone codes) s (fun m' => m'.cyc = max m.cyc c ∧ m'.hk.freeAt = c
          ∧ (e ≠ m.fld aHK_SEQCFG fHK_SEQCFG_LAST → m'.hk.pos = some (e + 1) ∧ m'.reg aHK_STAT = m.reg aHK_STAT)
          ∧ (e = m.fld aHK_SEQCFG fHK_SEQCFG_LAST → m'.hk.pos = none ∧ m'.flag aHK_STAT fHK_STAT_RUN = false
              ∧ m'.fld aHK_STAT fHK_STAT_PASSN = (m.fld aHK_STAT fHK_STAT_PASSN + 1) % 2 ^ 16)
          ∧ (∀ k, k ≠ e → m'.hkEnt k = m.hkEnt k)
          ∧ (m.entryOk e = false → m'.flag (aHK_EST e) fHK_EST_CFGERR = true ∧ m'.hkEnt e = x ∧ m'.hk.words = m.hk.words ∧ m'.flt = m.flt)
          ∧ (m.entryOk e = true → m'.flag (aHK_EST e) fHK_EST_CFGERR = false ∧ (m'.hkEnt e).res = r ∧ (m'.hkEnt e).n = x.n + 1
              ∧ (m'.hkEnt e).hist = (v :: x.hist).take 5120 ∧ m'.fld (aHK_EST e) fHK_EST_OPEN_NOW = bit v.2.2
              ∧ m'.flag (aHK_EST e) fHK_EST_OPEN_SEEN = (m.flag (aHK_EST e) fHK_EST_OPEN_SEEN || v.2.2)
              ∧ m'.flag (aHK_EST e) fHK_EST_OVR_SEEN = (m.flag (aHK_EST e) fHK_EST_OVR_SEEN || v.2.1)
              ∧ (v.2.2 = false → m'.flt = m.flt)
              ∧ (m.hkOrd e = 0 → m.hkMed e = 0 → m'.hk.words = m.hk.words ++ [
                { entry := e, due := c + 1600,
                  word := word (2 ^ 30 * bit (x.n == 0) + 2 ^ 29 * bit v.2.2 + 2 ^ 28 * bit v.2.1 + toField 24 v.1),
                  stamp := m'.stampOf (m'.timeAt (c - 200 * m.entryN e)) }])
              ∧ (m.hkOrd e ≠ 0 → (x.n + 1) % m.hkR e ≠ 0 → m'.hk.words = m.hk.words ∧ (m'.hkEnt e).outs = x.outs)))))
    ∧ (∀ e, e < 16 →
      let q := m.fld aHK_QCFG fHK_QCFG_QUEUE
      let first := m.hk.words.find? (fun w => w.entry == e)
      (first = none → RunsTo (.outputWord e) s m)
      ∧ (∀ w, first = some w → Runs (.outputWord e) s (fun m' => m'.cyc = max m.cyc w.due ∧ m'.hk = { m.hk with words := m.hk.words.erase w }
          ∧ m'.reg (aHK_OUT e) = fHK_OUT_NEW.set w.word 1 ∧ m'.fld (aHK_EST e) fHK_EST_WORDS = (m.fld (aHK_EST e) fHK_EST_WORDS + 1) % 2 ^ 16
          ∧ (m.flag (aHK_ENTF e) fHK_ENTF_QEN = false → m'.qmg = m.qmg ∧ m'.mem = m.mem ∧ m.regsBut m' [aHK_OUT e, aHK_EST e])
          ∧ (m.flag (aHK_ENTF e) fHK_ENTF_QEN = true → m.qOn q = false ∨ m.qShut q = true →
              m'.fld aHK_QCFG fHK_QCFG_QDROP = min 0xFF (m.fld aHK_QCFG fHK_QCFG_QDROP + 1) ∧ m'.mem = m.mem)
          ∧ (m.flag (aHK_ENTF e) fHK_ENTF_QEN = true → m.qOn q = true → m.qShut q = false → m.qFits q 20 = true → m.qPert q = false →
              (m'.q q).recs = (m.q q).recs + 1 ∧ m'.mem = (m.qPut q (m.qWr q) (leBytes 4 (2 ^ 16 * m.fld (qdesc q 8) fQ_RSEQ + 20)
                ++ (leBytes 4 (6 * 2 ^ 28 + 2 ^ 24 * e + 20) ++ leBytes 4 w.word.toNat ++ w.stamp.bytes))).mem)
          ∧ Touches [.cyc, .regs, .mem, .time, .grp, .qmg, .hk] m m')))
    ∧ (m.blockStart m.hk.fixDue = none → RunsTo .fixedPairBlock s m)
    ∧ (∀ c, m.blockStart m.hk.fixDue = some c → Runs .fixedPairBlock s (fun m' => m'.cyc = max m.cyc c
        ∧ m'.hk = { m.hk with fixRun := some (c, 0), freeAt := c + 224000, fixDue := m.hk.fixDue + 4000000 } ∧ Touches [.cyc, .time, .hk] m m'))
    ∧ (∀ k sum ovl, k < 4 →
      let t := if ovl then none else pairTemp sum
      ((∀ c, m.hk.fixRun ≠ some (c, k)) → RunsTo (.fixedPairResult k sum ovl) s m)
      ∧ (∀ c, m.hk.fixRun = some (c, k) → Runs (.fixedPairResult k sum ovl) s (fun m' => m'.cyc = max m.cyc (c + 56000 * (k + 1))
          ∧ m'.fld (aHK_FIX k) fHK_FIX_FIXERR = bit t.isNone ∧ m'.fld (aHK_FIX k) fHK_FIX_AGE = 0
          ∧ m'.fld (aHK_FIX k) fHK_FIX_TEMP = toField 16 (t.getD 0x7FFF) ∧ m'.hk.fixRun = (if k = 3 then none else some (c, k + 1))
          ∧ m'.grd.temp.find? (fun x => x.1 == k) = some (k, (t.getD 0x7FFF, m'.cyc))
          ∧ (∀ j, j ≠ k → m'.grd.temp.find? (fun x => x.1 == j) = m.grd.temp.find? (fun x => x.1 == j))
          ∧ Touches [.cyc, .regs, .time, .grd, .hk] m m')))
    ∧ (∀ zero full,
      let slot := m.calSlotDue.bind m.blockStart
      (slot = none → RunsTo (.hkCalibrationSlot zero full) s m)
      ∧ (∀ c, slot = some c → m.hk.fixDue ≤ c → RunsTo (.hkCalibrationSlot zero full) s m)
      ∧ (∀ c, slot = some c → c < m.hk.fixDue → m.time.now.ns < 1000000000 → Runs (.hkCalibrationSlot zero full) s (fun m' => m'.cyc = max m.cyc (c + 160000)
          ∧ m'.hk.freeAt = c + 160000 ∧ some m'.hk.calLast = m.calSlotDue ∧ m'.hk.calGain = (m.hk.calGain + 1) % 8
          ∧ m'.hk.corr.find? (fun x => x.1 == m.hk.calGain) = some (m.hk.calGain, (zero, full))
          ∧ m'.mnat (calRecAddr 712 + 2) 2 = min 0xFFFF (m.mnat (calRecAddr 712 + 2) 2 + 1) ∧ m.bytesBut m' (calRecAddr 712) 8
          ∧ Touches [.cyc, .mem, .time, .hk] m m')))

/-- Die temperatures, calibration sets and the fault log (R474 to R485, R490 to R493). A reading fails sensors that are out of range, shows every
tile's temperature and the extremes, moves the band and the cold hold, and shuts down after two readings at SD_T. Every set is evaluated from its
points. A record whose window ends enters the log. -/
def Obligations.TemperaturesSetsAndFaultLog : Prop :=
  ∀ (s : State),
    let m := s.m
    (∀ temps : List Int, temps.length = 24 →
      let t (u : Nat) := temps.getD u 0
      let med2 := twiceMedian temps
      let off := m.dev.st = .off ∨ m.dev.st = .reset ∨ m.dev.st = .shutdown
      let sd : Int := 128 * (min 140 (max 100 (m.fld aTHM_CFG fTHM_CFG_SD_T)) : Nat)
      let fine := ∀ u, u < 24 → m.dieFailed u = false ∧ -7680 ≤ t u ∧ t u ≤ 20480 ∧ -6400 ≤ 2 * t u - med2 ∧ 2 * t u - med2 ≤ 6400
      (off → RunsTo (.dieSensorRead temps) s m)
      ∧ (¬ off → m.fld aFLT_OASISMASK fFLT_OASISMASK_MASK = 0 → Runs (.dieSensorRead temps) s (fun m' => m'.thm.dieDue = m.thm.dieDue + 40000
          ∧ max m.cyc m.thm.dieDue ≤ m'.cyc ∧ m'.cyc ≤ max m.cyc m.thm.dieDue + 1
          ∧ (∀ u, u < 24 → m.dieFailed u = true ∨ t u < -7680 ∨ 20480 < t u → m'.dieFailed u = true)
          ∧ (fine → ∀ hi lo, hi < 24 → lo < 24 → (∀ u, u < 24 → t lo ≤ t u ∧ t u ≤ t hi) →
              let band := bandNext (t hi) (if m.thm.seen then m.fld aTHM_STAT fTHM_STAT_BAND else 0)
              (∀ u, u < 24 → m'.dieFailed u = false ∧ m'.fld (aTHM_TEMP u) fTHM_TEMP_TEMP = toField 16 (t u))
              ∧ m'.fld aTHM_JT fTHM_JT_JMAX = toField 16 (t hi) ∧ m'.fld aTHM_JT fTHM_JT_JMIN = toField 16 (t lo)
              ∧ m'.fld aTHM_STAT fTHM_STAT_BAND = band ∧ m'.thm.seen = true
              ∧ (band ≠ m.fld aTHM_STAT fTHM_STAT_BAND → m'.fld aTHM_CNT fTHM_CNT_BANDCHG = min 0xFFFF (m.fld aTHM_CNT fTHM_CNT_BANDCHG + 1))
              ∧ (t lo < -5760 → m'.flag aTHM_STAT fTHM_STAT_COLD = true) ∧ (-5120 < t lo → m'.flag aTHM_STAT fTHM_STAT_COLD = false)
              ∧ (-5760 ≤ t lo → t lo ≤ -5120 → m'.flag aTHM_STAT fTHM_STAT_COLD = m.flag aTHM_STAT fTHM_STAT_COLD)
              ∧ (m.thm.hiArmed = true → 128 * m.sfld aTHM_CFG fTHM_CFG_HIWARN ≤ t hi → m'.flag aTHM_STAT fTHM_STAT_HIWARN_F = true ∧ m'.thm.hiArmed = false)
              ∧ (m.thm.loArmed = true → t lo < 128 * m.sfld aTHM_CFG fTHM_CFG_LOWARN → m'.flag aTHM_STAT fTHM_STAT_LOWARN_F = true ∧ m'.thm.loArmed = false)
              ∧ (t hi < sd → m'.thm.hot = 0 ∧ m'.dev.st = m.dev.st) ∧ (sd ≤ t hi → m'.thm.hot = m.thm.hot + 1)
              ∧ (sd ≤ t hi → 1 ≤ m.thm.hot → m'.dev.st = .shutdown) ∧ (sd ≤ t hi → m.thm.hot = 0 → m'.dev.st = m.dev.st)))))
    ∧ Runs .calSetEvaluation s (fun m' => m'.cyc = max m.cyc m.hk.evalDue ∧ m'.hk = { m.hk with evalDue := m.hk.evalDue + 160000 }
        ∧ (∀ q, q < 512 →
          let w0 := m.mnat (calSet q) 4
          let ps := m.calPoints q w0
          let valid := w0.testBit 31
          let old := if q < 400 then m.fld (aTDC_POFS q) fTDC_POFS_POFS else m.fld (aCAL_OUT (q - 400)) fCAL_OUT_VALUE
          let new := if q < 400 then m'.fld (aTDC_POFS q) fTDC_POFS_POFS else m'.fld (aCAL_OUT (q - 400)) fCAL_OUT_VALUE
          (m'.reg (aCAL_SETERR (q / 32))).getLsbD (q % 32) = (valid && !risesStrictly ps)
          ∧ (valid = false ∨ risesStrictly ps = false ∨ m.calSource w0 = none → new = old)
          ∧ (∀ th p rest, valid = true → risesStrictly ps = true → m.calSource w0 = some th → ps = p :: rest →
              new = toField 16 (if th ≤ p.1 then p.2 else interpolate th ps)))
        ∧ m'.fld aCAL_STAT fCAL_STAT_NBAD = ((List.range 512).filter (fun q =>
            (m.mnat (calSet q) 4).testBit 31 && !risesStrictly (m.calPoints q (m.mnat (calSet q) 4)))).length
        ∧ Touches [.cyc, .regs, .time, .hk] m m')
    ∧ (∀ t v0 t0 v1 t1 rest, t < t1 → interpolate t ((t0, v0) :: (t1, v1) :: rest) = v0 + divAway ((v1 - v0) * (t - t0)) (t1 - t0).toNat)
    ∧ (∀ root, root < 65536 →
      let rec_ := m.flt.recs.find? (fun r => r.root == root)
      let n := m.flt.recseq
      (rec_ = none → RunsTo (.faultRecordClose root) s m)
      ∧ (∀ r, rec_ = some r → Runs (.faultRecordClose root) s (fun m' => m'.cyc = max m.cyc r.due ∧ m'.flt.recs = m.flt.recs.erase r
          ∧ m'.flt.recseq = n + 1 ∧ m'.fld aFLT_LOG fFLT_LOG_WR = (n + 1) % 2 ^ 16
          ∧ m'.fld aFLT_STAT fFLT_STAT_OPEN = (m.flt.recs.erase r).length % 2 ^ 7
          ∧ m'.bytes (fltSlot n) 36 = r.bytes n ∧ m.bytesBut m' (fltSlot n) 64
          ∧ m'.fld aFLT_STAT fFLT_STAT_LOST = min 0xFFFF (m.fld aFLT_STAT fFLT_STAT_LOST + bit (decide (1024 ≤ n) && m.fltUnread (n - 1024)))
          ∧ Touches [.cyc, .regs, .mem, .time, .flt, .grp] m m')))

/-! ## Probe capture, injection, fuses and the test port (R498 to R509) -/

/-- Probe capture and injection (R494, R495, R498 to R504). GO takes the settings and starts, STOP ends; a sample falls due, is stored or is a gap, and a
condition that fires starts the POST samples, after which the capture is done. An injected report goes to the fault manager marked as
injected, and a DRAM channel so named fails. -/
def Obligations.ProbesCaptureAndReportsInject : Prop :=
  ∀ (s : State),
    let m := s.m
    let shows (m' : Mach) (f : Fld) (v : Nat) : Prop := m'.fld aPRB_STAT f = v
    let runs := m.prbState = 1 ∨ m.prbState = 2
    let cut := min m.probe.n m.probe.pre / m.prbUnit % 2 ^ 16
    (∀ src v, src.wf = true →
      let may := m.mayWrite src .tstfus 0 0
      let stop := fPRB_CTRL_STOP.get v = 1
      let cap := if m.prbDram then 8 * m.fld aPRB_SIZE fPRB_SIZE_SIZE else 16384
      let pre := min (m.prbUnit * m.fld aPRB_DEPTH fPRB_DEPTH_PRE) (cap - 1)
      let post := m.prbUnit * m.fld aPRB_DEPTH fPRB_DEPTH_POST
      (may ≠ 0 → RunsTo (.captureGo src v) s (m.done may) ∧ RunsTo (.captureStop src) s (m.done may))
      ∧ (may = 0 → runs → ¬ stop → RunsTo (.captureGo src v) s (m.done 1))
      ∧ (may = 0 → ¬ runs → m.isPending 0x700000 0 = true → RunsTo (.captureGo src v) s (m.refusePending 0x700000))
      ∧ (may = 0 → ¬ runs → m.isPending 0x700000 0 = false → Runs (.captureGo src v) s (fun m' => m'.status = 0
          ∧ (m'.shadowReg aPRB_CTRL) &&& 0x2000000F = v &&& 0x2000000F
          ∧ (stop → m'.regs = m.regs ∧ m'.probe = m.probe)
          ∧ (¬ stop → shows m' fPRB_STAT_STATE 1 ∧ shows m' fPRB_STAT_PRECNT 0 ∧ shows m' fPRB_STAT_CLAMPED (bit (decide (cap - pre < post)))
              ∧ m'.reg aPRB_TSTAT = 0 ∧ m.regsBut m' [aPRB_STAT, aPRB_TSTAT]
              ∧ m'.probe = { idx := 0, n := 0, left := 0, due := m.cyc + m.prbStep, pre := pre, post := min post (cap - pre), cap := cap,
                             conds := List.replicate 4 { rise := false, fall := false, match_ := false } })
          ∧ Touches [.status, .regs, .shadow, .probe] m m'))
      ∧ (may = 0 → runs → (stop → Runs (.captureGo src v) s (fun m' => shows m' fPRB_STAT_STATE 3 ∧ m'.status = 0))
          ∧ Runs (.captureStop src) s (fun m' => shows m' fPRB_STAT_STATE 3 ∧ m'.status = 0 ∧ (m.prbState = 1 → shows m' fPRB_STAT_PRECNT cut)
            ∧ m.regsBut m' [aPRB_STAT] ∧ Touches [.status, .regs] m m'))
      ∧ (may = 0 → ¬ runs → RunsTo (.captureStop src) s (m.done 0)))
    ∧ (∀ lost,
      let x := m.probe
      let at_ := m.advanceTo x.due
      let ws := at_.probeSample
      let arm (k : Nat) := x.conds.getD k { rise := false, fall := false, match_ := false }
      let fired := (List.range 4).filter (fun k => (at_.condSees ws k (arm k)).2)
      let off := 64 * m.fld aPRB_DEST fPRB_DEST_BASE + 8 * x.idx
      let to_ := if m.prbDram then dramBase + off else probeBase + 8 * x.idx
      let gone := x.cap = 0 ∨ (m.prbDram = true ∧ (lost = true ∨ m.dramStatus off 8 ≠ 0))
      let ovl := m.prbState = 2 ∧ x.left = 0
      (¬ runs ∨ ovl → RunsTo (.probeSample lost) s m)
      ∧ (runs → ¬ ovl → Runs (.probeSample lost) s (fun m' => m'.cyc = max m.cyc x.due ∧ m'.probe.due = x.due + m.prbStep
          ∧ (gone → m'.mem = m.mem ∧ m'.probe.idx = x.idx ∧ m'.probe.n = x.n
              ∧ shows m' fPRB_STAT_GAPS (min 0x1FFF (m.fld aPRB_STAT fPRB_STAT_GAPS + 1)))
          ∧ (¬ gone → m'.bytes to_ 8 = ws.flatMap (fun w => leBytes 2 w) ∧ m.bytesBut m' to_ 8 ∧ m'.probe.idx = (x.idx + 1) % x.cap ∧ m'.probe.n = x.n + 1
              ∧ shows m' fPRB_STAT_GAPS (m.fld aPRB_STAT fPRB_STAT_GAPS))
          ∧ (m.prbState = 2 → shows m' fPRB_STAT_STATE 2 ∧ m'.probe.conds = x.conds ∧ (¬ gone → m'.probe.left = x.left - 1) ∧ m.regsBut m' [aPRB_STAT])
          ∧ (m.prbState = 1 → fired = [] → shows m' fPRB_STAT_STATE 1 ∧ m.regsBut m' [aPRB_STAT])
          ∧ (m.prbState = 1 → ∀ k rest, fired = k :: rest → shows m' fPRB_STAT_STATE 2 ∧ m'.reg aPRB_TIDX = word x.idx ∧ shows m' fPRB_STAT_PRECNT cut
              ∧ m'.probe.left = x.post ∧ m'.flag aPRB_TSTAT fPRB_TSTAT_VALID = true ∧ m'.fld aPRB_TSTAT fPRB_TSTAT_PRIMARY = k
              ∧ ∀ j, j < 4 → ((m'.fld aPRB_TSTAT fPRB_TSTAT_FIRED).testBit j = true ↔ j ∈ fired))
          ∧ Touches [.cyc, .regs, .mem, .time, .probe] m m')))
    ∧ (let ovl := m.prbState = 2 ∧ m.probe.left = 0
       (¬ ovl → RunsTo .captureDone s m)
       ∧ (ovl → Runs .captureDone s (fun m' => shows m' fPRB_STAT_STATE 3 ∧ m.regsBut m' [aPRB_STAT] ∧ Touches [.regs] m m')))
    ∧ (∀ src v, src.wf = true →
      let may := m.mayWrite src .tstfus 0 0x10C
      let go := fTST_INJECT_GO.get v = 1
      let code := fTST_INJECT_CODE.get v
      let from_ := fTST_INJECT_SRC.get v
      let cls := from_ / 2048
      let quiet := may = 0 ∧ go ∧ m.pertActs = true ∧ m.fld aFLT_OASISMASK fFLT_OASISMASK_MASK = 0
      (may ≠ 0 → RunsTo (.inject src v) s (m.done may))
      ∧ (may = 0 → ¬ go → RunsTo (.inject src v) s (m.done 0))
      ∧ (may = 0 → go → m.pertActs = false → RunsTo (.inject src v) s (m.done 1))
      ∧ (quiet → cls ∉ [4, 7, 9, 10, 12, 20, 21] → (∀ r, r ∈ m.flt.recs → r.ovfl = false ∧ r.root ≠ from_) → m.flt.recs.length < 64 →
          Runs (.inject src v) s (fun m' => m'.status = 0 ∧ m'.flt.recs = m.flt.recs ++ [
            { root := from_, src := from_, code := code, action := 0, inj := true, ovfl := false, count := 1, first := m.stamp, last := m.stamp,
              due := m.cyc + 8000 }] ∧ Touches [.status, .regs, .flt] m m'))
      ∧ (quiet → ∀ ch, from_ = 2048 * 20 + ch → ch < 4 → ch ∈ m.dramCh → m.chanFailed ch = false →
          Runs (.inject src v) s (fun m' => m'.chanFailed ch = true ∧ ∃ r, r ∈ m'.flt.recs ∧ r.inj = true ∧ (r.root = from_ ∨ r.ovfl = true))))

/-- Fuses and the test port (R506 to R508). An operation on the fuses is refused without the key, outside LINKED and LOADED, while another runs, or where
no bit may blow; else it runs for its bits, and ends with the fuses blown, or with PROGERR where a bit did not verify. The port selects its
instruction; EXTEST, and the private instructions of a part that is not closed, hold the device in RESET. -/
def Obligations.FusesBlowAndTheTestPortHolds : Prop :=
  (∀ (o : Otp) (arg due free : Nat) (data : List Byte),
    let job (op : Nat) : FusJob := { op := op, arg := arg, data := data, due := due }
    (o.slotOn arg = false → o.blow (job 1) true free = { o with slots := o.slots ++ [(arg, data)] })
    ∧ (o.slotOn arg = true → ∀ ok, o.blow (job 1) ok free = o)
    ∧ o.blow (job 2) true free = { o with revoked := o.revoked ||| 2 ^ arg } ∧ o.blow (job 2) false free = o
    ∧ o.blow (job 3) true free = { o with gminver := max o.gminver arg } ∧ o.blow (job 4) true free = { o with sminver := max o.sminver arg }
    ∧ (∀ ok, o.gminver ≤ (o.blow (job 3) ok free).gminver ∧ (o.gminver ≤ arg → (o.blow (job 3) ok free).gminver ≤ arg))
    ∧ (∀ ok, o.sminver ≤ (o.blow (job 4) ok free).sminver ∧ (o.sminver ≤ arg → (o.blow (job 4) ok free).sminver ≤ arg)))
  ∧ (∀ (s : State),
    let m := s.m
    (∀ src v c op, src.wf = true → (c, op) ∈ [(Instr.programSlot src v, 1), (.revokeSlot src v, 2), (.raiseGminver src v, 3), (.raiseSminver src v, 4)] →
      let may := m.mayWrite src .tstfus 0 0x204
      let arg := fFUS_PROG_ARG.get v
      let bad := fFUS_PROG_KEY.get v ≠ 0x5A17 ∨ (m.dev.st ≠ .linked ∧ m.dev.st ≠ .loaded) ∨ m.fusJob.isSome = true
      let bits := s.otp.bitsToBlow op arg m.fusStage
      (may ≠ 0 → RunsTo c s (m.done may)) ∧ (may = 0 → bad ∨ bits = none → RunsTo c s (m.done 1))
      ∧ (∀ n, may = 0 → ¬ bad → bits = some n →
          RunsTo c s { m.done 0 with fusJob := some { op := op, arg := arg, data := m.fusStage, due := m.cyc + 16000 * n } }))
    ∧ (∀ ok,
      (m.fusJob = none → exec (.fuseProgramDone ok) s = .next s)
      ∧ (∀ j, m.fusJob = some j → ∃ m', exec (.fuseProgramDone ok) s = .next { s with otp := s.otp.blow j ok m.free, m := m' }
          ∧ m'.cyc = max m.cyc j.due ∧ m'.fusJob = none ∧ (ok = true → m'.regs = m.regs)
          ∧ (ok = false → m'.flag aFUS_STAT fFUS_STAT_PROGERR = true ∧ m.regsBut m' [aFUS_STAT])
          ∧ Touches [.cyc, .free, .regs, .time, .fusJob] m m'))
    ∧ (let port (ir : Nat) (hold : Bool) : Tap := { m.tap with ir := ir, extest := hold }
       let held (c : Instr) (ir : Nat) : Prop :=
         (m.dev.st = .off ∨ m.dev.st = .reset → RunsTo c s { m with tap := port ir true })
         ∧ (m.dev.st ≠ .off → m.dev.st ≠ .reset → Runs c s (fun m' => m'.dev.st = .reset ∧ m'.tap = port ir true ∧ m'.cyc = m.cyc
             ∧ m'.mem = [] ∧ m'.eng = [] ∧ m'.commits = [] ∧ m'.fusJob = none ∧ (∀ p, p < 2 → m'.pairOn p = false) ∧ m'.gateOpen = false))
       RunsTo .tapReset s { m with tap := port 0xFF false }
       ∧ held .extest 0
       ∧ (∀ ir, ir < 256 →
         let private_ := s.otp.tapClosed = false ∧ 0x80 ≤ ir ∧ ir < 0x90
         (ir ≤ 1 → RunsTo (.bypass ir) s m) ∧ (private_ → held (.bypass ir) ir)
         ∧ (2 ≤ ir → ¬ private_ → RunsTo (.bypass ir) s { m with tap := port ir false }))
       ∧ (∀ k v, Runs (.samplePreload [(k, v)]) s (fun m' => m'.tap.ir = 1 ∧ m'.tap.extest = false
           ∧ m'.tap.cells.find? (fun x => x.1 == k) = some (k, v)
           ∧ (∀ j, j ≠ k → m'.tap.cells.find? (fun x => x.1 == j) = m.tap.cells.find? (fun x => x.1 == j)) ∧ Touches [.tap] m m'))))

/-! ## Invariants -/

/-- Memory keeps its canonical form: addresses strictly rising, no byte listed that an unlisted address reads as. -/
def Obligations.EveryStepKeepsMemoryCanonical : Prop :=
  ∀ (s t : State), step s = .next t → Memory.wf s.m.mem = true → Memory.wf t.m.mem = true
end

