-- ==== Sys2Proof/Laws/Map.lean ====
section
/-!
SUPPORT. Laws of the sparse maps: what a key reads after one key has been written, and that writing keeps the canonical form.
-/
namespace Sys2Proof.Machine

variable {β : Type}

@[simp] theorem mapGet_nil (d : β) (k : Nat) : mapGet d [] k = d := rfl

theorem mapGet_mapErase (d : β) (l : List (Nat × β)) (k j : Nat) :
    mapGet d (mapErase l k) j = if j = k then d else mapGet d l j := by
  induction l with
  | nil => simp [mapErase]
  | cons p t ih => rcases p with ⟨k', v⟩; grind [mapErase, mapGet]

theorem mapGet_mapInsert (d : β) (l : List (Nat × β)) (k j : Nat) (v : β) :
    mapGet d (mapInsert (mapErase l k) k v) j = if j = k then v else mapGet d (mapErase l k) j := by
  induction l with
  | nil => grind [mapErase, mapInsert, mapGet]
  | cons p t ih => rcases p with ⟨k', w⟩; grind [mapErase, mapInsert, mapGet]

/-- What a key reads after one key has been written. -/
theorem mapGet_mapPut [DecidableEq β] (d : β) (l : List (Nat × β)) (k j : Nat) (v : β) :
    mapGet d (mapPut d l k v) j = if j = k then v else mapGet d l j := by
  unfold mapPut
  split
  · next h => rw [mapGet_mapErase, h]
  · rw [mapGet_mapInsert]; grind [mapGet_mapErase]

@[simp] theorem mapGet_mapPut_same [DecidableEq β] (d : β) (l : List (Nat × β)) (k : Nat) (v : β) :
    mapGet d (mapPut d l k v) k = v := by simp [mapGet_mapPut]

theorem mapGet_mapPut_ne [DecidableEq β] (d : β) (l : List (Nat × β)) {k j : Nat} (v : β) (h : j ≠ k) :
    mapGet d (mapPut d l k v) j = mapGet d l j := by simp [mapGet_mapPut, h]

/-- Another key keeps its value, whatever an unlisted key reads as. -/
theorem mapGet_mapPut_other [DecidableEq β] (d d' : β) (l : List (Nat × β)) {k j : Nat} (v : β) (h : j ≠ k) :
    mapGet d' (mapPut d l k v) j = mapGet d' l j := by
  unfold mapPut
  split
  · simp [mapGet_mapErase, h]
  · simp [mapGet_mapInsert, mapGet_mapErase, h]

/-! ## The canonical form -/

/-- Every key of a list lies above `k`. -/
theorem mapWf_cons [DecidableEq β] (d : β) (k : Nat) (v : β) (t : List (Nat × β)) :
    mapWf d ((k, v) :: t) = true ↔ v ≠ d ∧ (∀ p ∈ t, k < p.1) ∧ mapWf d t = true := by
  induction t generalizing k v with
  | nil => simp [mapWf]
  | cons p t ih =>
    rcases p with ⟨k', v'⟩
    have h2 := ih k' v'
    simp only [mapWf, Bool.and_eq_true, decide_eq_true_eq, List.mem_cons, forall_eq_or_imp]
    constructor
    · rintro ⟨⟨hv, hk⟩, hw⟩
      exact ⟨hv, ⟨hk, fun p hp => Nat.lt_trans hk ((h2.mp hw).2.1 p hp)⟩, hw⟩
    · rintro ⟨hv, ⟨hk, _⟩, hw⟩
      exact ⟨⟨hv, hk⟩, hw⟩

theorem mem_mapErase (l : List (Nat × β)) (k : Nat) (p : Nat × β) (h : p ∈ mapErase l k) : p ∈ l ∧ p.1 ≠ k := by
  induction l with
  | nil => simp [mapErase] at h
  | cons q t ih => rcases q with ⟨k', v⟩; grind [mapErase]

theorem mapWf_mapErase [DecidableEq β] (d : β) (l : List (Nat × β)) (k : Nat) (h : mapWf d l = true) :
    mapWf d (mapErase l k) = true := by
  induction l with
  | nil => rfl
  | cons p t ih =>
    rcases p with ⟨k', v⟩
    rw [mapWf_cons] at h
    unfold mapErase
    split
    · exact ih h.2.2
    · rw [mapWf_cons]
      exact ⟨h.1, fun p hp => h.2.1 p (mem_mapErase t k p hp).1, ih h.2.2⟩

theorem mem_mapInsert (l : List (Nat × β)) (k : Nat) (v : β) (p : Nat × β) (h : p ∈ mapInsert l k v) :
    p = (k, v) ∨ p ∈ l := by
  induction l with
  | nil => simp_all [mapInsert]
  | cons q t ih => rcases q with ⟨k', w⟩; grind [mapInsert]

theorem mapWf_mapInsert [DecidableEq β] (d : β) (l : List (Nat × β)) (k : Nat) (v : β) (hv : v ≠ d)
    (h : mapWf d l = true) (hk : ∀ p ∈ l, p.1 ≠ k) : mapWf d (mapInsert l k v) = true := by
  induction l with
  | nil => simpa [mapInsert, mapWf] using hv
  | cons p t ih =>
    rcases p with ⟨k', w⟩
    have hc := (mapWf_cons d k' w t).mp h
    unfold mapInsert
    split
    · next hlt =>
      refine (mapWf_cons d k v _).mpr ⟨hv, ?_, h⟩
      intro p hp
      rcases List.mem_cons.mp hp with rfl | hp
      · exact hlt
      · exact Nat.lt_trans hlt (hc.2.1 p hp)
    · next hlt =>
      have hne : k' ≠ k := hk (k', w) List.mem_cons_self
      refine (mapWf_cons d k' w _).mpr ⟨hc.1, ?_, ih hc.2.2 (fun p hp => hk p (List.mem_cons_of_mem _ hp))⟩
      intro p hp
      rcases mem_mapInsert t k v p hp with rfl | hp
      · show k' < k; omega
      · exact hc.2.1 p hp

/-- Writing a key keeps the canonical form. -/
theorem mapWf_mapPut [DecidableEq β] (d : β) (l : List (Nat × β)) (k : Nat) (v : β) (h : mapWf d l = true) :
    mapWf d (mapPut d l k v) = true := by
  unfold mapPut
  split
  · exact mapWf_mapErase d l k h
  · next hv => exact mapWf_mapInsert d _ k v hv (mapWf_mapErase d l k h) (fun p hp => (mem_mapErase l k p hp).2)

/-- A part of a canonical map is canonical. -/
theorem mapWf_filter [DecidableEq β] (d : β) (l : List (Nat × β)) (f : Nat × β → Bool) (h : mapWf d l = true) :
    mapWf d (l.filter f) = true := by
  induction l with
  | nil => rfl
  | cons p t ih =>
    rcases p with ⟨k, v⟩
    have hc := (mapWf_cons d k v t).mp h
    rw [List.filter_cons]
    split
    · exact (mapWf_cons d k v _).mpr ⟨hc.1, fun p hp => hc.2.1 p ((List.mem_filter.mp hp).1), ih hc.2.2⟩
    · exact ih hc.2.2

end Sys2Proof.Machine
end

