-- ==== Sys2Proof/Laws/Fields.lean ====
section
/-!
SUPPORT. Laws of fields and registers: what a field of a word and a register of the machine reads after a field or a register has been
written.
-/
namespace Sys2Proof.Machine

/-- The field lies in a 32-bit word. -/
def Fld.ok (f : Fld) : Bool := decide (f.lo ≤ f.hi) && decide (f.hi < 32)

/-- The two fields share no bit. -/
def Fld.apart (f g : Fld) : Bool := decide (f.hi < g.lo) || decide (g.hi < f.lo)

theorem Fld.testBit_get (f : Fld) (w : Word) (i : Nat) :
    (f.get w).testBit i = (decide (i < f.width) && w.getLsbD (f.lo + i)) := by
  simp [Fld.get, Nat.testBit_mod_two_pow, Nat.testBit_shiftRight, BitVec.getLsbD]

theorem Fld.getLsbD_mask (f : Fld) (j : Nat) :
    f.mask.getLsbD j = (decide (j < 32) && (decide (f.lo ≤ j) && decide (j - f.lo < f.width))) := by
  simp [Fld.mask, word, BitVec.getLsbD_ofNat, Nat.testBit_shiftLeft, Nat.testBit_two_pow_sub_one]

theorem Fld.getLsbD_set (f : Fld) (w : Word) (v j : Nat) :
    (f.set w v).getLsbD j = (decide (j < 32) &&
      (if f.lo ≤ j ∧ j - f.lo < f.width then v.testBit (j - f.lo) else w.getLsbD j)) := by
  simp only [Fld.set, BitVec.getLsbD_or, BitVec.getLsbD_and, BitVec.getLsbD_not, Fld.getLsbD_mask]
  simp only [word, BitVec.getLsbD_ofNat, Nat.testBit_shiftLeft, Nat.testBit_mod_two_pow]
  by_cases hj : j < 32
  · by_cases h1 : f.lo ≤ j <;> by_cases h2 : j - f.lo < f.width <;> simp [hj, h1, h2]
  · simp [hj]

/-- A field reads the value last written to it, modulo its width. -/
theorem Fld.get_set (f : Fld) (hf : f.ok = true) (w : Word) (v : Nat) : f.get (f.set w v) = v % 2 ^ f.width := by
  apply Nat.eq_of_testBit_eq
  intro i
  simp only [Fld.ok, Bool.and_eq_true, decide_eq_true_eq] at hf
  rw [Fld.testBit_get, Fld.getLsbD_set, Nat.testBit_mod_two_pow]
  by_cases hi : i < f.width
  · have h1 : f.lo + i < 32 := by simp only [Fld.width] at hi; omega
    have h2 : f.lo ≤ f.lo + i ∧ f.lo + i - f.lo < f.width := by omega
    simp [hi, h1]
  · simp [hi]

/-- A field apart from the one written keeps its value. -/
theorem Fld.get_set_apart (f g : Fld) (h : f.apart g = true) (hg : g.ok = true) (w : Word) (v : Nat) :
    g.get (f.set w v) = g.get w := by
  apply Nat.eq_of_testBit_eq
  intro i
  simp only [Fld.ok, Fld.apart, Bool.and_eq_true, Bool.or_eq_true, decide_eq_true_eq] at hg h
  rw [Fld.testBit_get, Fld.testBit_get, Fld.getLsbD_set]
  by_cases hi : i < g.width
  · have h1 : g.lo + i < 32 := by simp only [Fld.width] at hi; omega
    have h2 : ¬ (f.lo ≤ g.lo + i ∧ g.lo + i - f.lo < f.width) := by simp only [Fld.width] at *; omega
    simp [hi, h1, h2]
  · simp [hi]

theorem Fld.get_lt (f : Fld) (w : Word) : f.get w < 2 ^ f.width := Nat.mod_lt _ (Nat.two_pow_pos _)

/-! ## Registers of the machine -/

/-- What a register reads after a register has been written. -/
theorem Mach.reg_setReg (m : Mach) (a b : Nat) (w : Word) : (m.setReg a w).reg b = if b = a then w else m.reg b := by
  unfold Mach.reg Mach.setReg
  by_cases h : b = a
  · subst h; simp
  · simpa [h] using mapGet_mapPut_other _ _ _ _ h

@[simp] theorem Mach.reg_setReg_same (m : Mach) (a : Nat) (w : Word) : (m.setReg a w).reg a = w := by simp [Mach.reg_setReg]

theorem Mach.reg_setReg_ne (m : Mach) {a b : Nat} (w : Word) (h : b ≠ a) : (m.setReg a w).reg b = m.reg b := by
  simp [Mach.reg_setReg, h]

/-- What a register reads after a field of a register has been written. -/
theorem Mach.reg_setFld (m : Mach) (a b : Nat) (f : Fld) (v : Nat) :
    (m.setFld a f v).reg b = if b = a then f.set (m.reg a) v else m.reg b := by simp [Mach.setFld, Mach.reg_setReg]

theorem Mach.reg_setFld_ne (m : Mach) {a b : Nat} (f : Fld) (v : Nat) (h : b ≠ a) : (m.setFld a f v).reg b = m.reg b := by
  simp [Mach.reg_setFld, h]

/-- A field reads the value last written to it. -/
theorem Mach.fld_setFld_same (m : Mach) (a : Nat) (f : Fld) (hf : f.ok = true) (v : Nat) :
    (m.setFld a f v).fld a f = v % 2 ^ f.width := by simp [Mach.fld, Mach.setFld, Fld.get_set f hf]

/-- A field apart from the one written keeps its value. -/
theorem Mach.fld_setFld_apart (m : Mach) (a b : Nat) (f g : Fld) (v : Nat) (h : f.apart g = true) (hg : g.ok = true) :
    (m.setFld a f v).fld b g = m.fld b g := by
  unfold Mach.fld
  rw [Mach.reg_setFld]
  split
  · next e => rw [e]; exact Fld.get_set_apart f g h hg _ _
  · rfl

/-- A field of another register keeps its value. -/
theorem Mach.fld_setFld_ne (m : Mach) {a b : Nat} (f g : Fld) (v : Nat) (h : b ≠ a) : (m.setFld a f v).fld b g = m.fld b g := by
  simp [Mach.fld, Mach.reg_setFld, h]

theorem Mach.fld_setReg (m : Mach) (a b : Nat) (w : Word) (g : Fld) :
    (m.setReg a w).fld b g = if b = a then g.get w else m.fld b g := by
  unfold Mach.fld; rw [Mach.reg_setReg]; split <;> rfl

/-- What a shadow word reads after a shadow word has been written. -/
theorem Mach.shadowReg_setShadow (m : Mach) (a b : Nat) (w : Word) :
    (m.setShadow a w).shadowReg b = if b = a then w else m.shadowReg b := by
  unfold Mach.shadowReg Mach.setShadow
  by_cases h : b = a
  · subst h; simp
  · simpa [h] using mapGet_mapPut_other _ _ _ _ h

end Sys2Proof.Machine
end

