-- ==== Sys2Proof/Laws/State.lean ====
section
/-!
SUPPORT. What each update of the machine leaves alone, one lemma per field and per accessor, and what the accessor of the updated part
reads after it. All are true by unfolding the update, so that no proof need unfold one.
-/
namespace Sys2Proof.Machine

variable (m : Mach)

/-! ## Running a meaning -/

/-- A well-formed command takes its effect on the machine and leaves the queue and the fuses. -/
theorem State.run_of_wf (s : State) (f : Otp → Mach → Mach) : s.run true f = .next { s with m := f s.otp s.m } := rfl

/-- An ill-formed command is refused. -/
theorem State.run_of_not_wf (s : State) (f : Otp → Mach → Mach) : s.run false f = .refused .illFormed := rfl

/-- Everything a run can answer. -/
theorem State.run_next {s t : State} {ok : Bool} {f : Otp → Mach → Mach} (h : s.run ok f = .next t) :
    ok = true ∧ t = { s with m := f s.otp s.m } := by
  cases ok with
  | false => cases h
  | true => cases h; exact ⟨rfl, rfl⟩

@[simp] theorem Mach.when_true (f : Mach → Mach) : m.when true f = f m := rfl
@[simp] theorem Mach.when_false (f : Mach → Mach) : m.when false f = m := rfl

/-! ## Parts of the machine written and read -/

theorem Mach.e_setE (n k : Nat) (x : Engine) : (m.setE n x).e k = if k = n then x else m.e k := mapGet_mapPut _ _ _ _ _
@[simp] theorem Mach.e_setE_same (n : Nat) (x : Engine) : (m.setE n x).e n = x := by simp [Mach.e_setE]
theorem Mach.e_modE (n k : Nat) (f : Engine → Engine) : (m.modE n f).e k = if k = n then f (m.e n) else m.e k := Mach.e_setE m n k _
@[simp] theorem Mach.e_modE_same (n : Nat) (f : Engine → Engine) : (m.modE n f).e n = f (m.e n) := by simp [Mach.e_modE]
theorem Mach.sem_setSem (n k : Nat) (x : Sem) : (m.setSem n x).sem k = if k = n then x else m.sem k := mapGet_mapPut _ _ _ _ _
@[simp] theorem Mach.sem_setSem_same (n : Nat) (x : Sem) : (m.setSem n x).sem n = x := by simp [Mach.sem_setSem]
theorem Mach.g_modG (n k : Nat) (f : Group → Group) : (m.modG n f).g k = if k = n then f (m.g n) else m.g k := mapGet_mapPut _ _ _ _ _
@[simp] theorem Mach.g_modG_same (n : Nat) (f : Group → Group) : (m.modG n f).g n = f (m.g n) := by simp [Mach.g_modG]
theorem Mach.l_modL (n k : Nat) (f : Lane → Lane) : (m.modL n f).l k = if k = n then f (m.l n) else m.l k := mapGet_mapPut _ _ _ _ _
@[simp] theorem Mach.l_modL_same (n : Nat) (f : Lane → Lane) : (m.modL n f).l n = f (m.l n) := by simp [Mach.l_modL]
theorem Mach.q_modQ (n k : Nat) (f : QState → QState) : (m.modQ n f).q k = if k = n then f (m.q n) else m.q k := mapGet_mapPut _ _ _ _ _
@[simp] theorem Mach.q_modQ_same (n : Nat) (f : QState → QState) : (m.modQ n f).q n = f (m.q n) := by simp [Mach.q_modQ]
theorem Mach.trig_setTrig (n k : Nat) (x : Trig) : (m.setTrig n x).trig k = if k = n then x else m.trig k := mapGet_mapPut _ _ _ _ _
@[simp] theorem Mach.trig_setTrig_same (n : Nat) (x : Trig) : (m.setTrig n x).trig n = x := by simp [Mach.trig_setTrig]
theorem Mach.byte_setByte (a k : Nat) (b : Byte) : (m.setByte a b).byte k = if k = a then b else m.byte k := mapGet_mapPut _ _ _ _ _
theorem Mach.p_modP (n k : Nat) (f : Port → Port) : (m.modP n f).p k = if k = n then f (m.p n) else m.p k := mapGet_mapPut _ _ _ _ _
@[simp] theorem Mach.p_modP_same (n : Nat) (f : Port → Port) : (m.modP n f).p n = f (m.p n) := by simp [Mach.p_modP]
theorem Mach.ax_modAx (n k : Nat) (f : Axis → Axis) : (m.modAx n f).ax k = if k = n then f (m.ax n) else m.ax k := mapGet_mapPut _ _ _ _ _
@[simp] theorem Mach.ax_modAx_same (n : Nat) (f : Axis → Axis) : (m.modAx n f).ax n = f (m.ax n) := by simp [Mach.ax_modAx]
theorem Mach.ossd_modOssd (n k : Nat) (f : Ossd → Ossd) : (m.modOssd n f).ossd k = if k = n then f (m.ossd n) else m.ossd k := mapGet_mapPut _ _ _ _ _
@[simp] theorem Mach.ossd_modOssd_same (n : Nat) (f : Ossd → Ossd) : (m.modOssd n f).ossd n = f (m.ossd n) := by simp [Mach.ossd_modOssd]
theorem Mach.tile_modTile (n k : Nat) (f : Tile → Tile) : (m.modTile n f).tile k = if k = n then f (m.tile n) else m.tile k := mapGet_mapPut _ _ _ _ _
@[simp] theorem Mach.tile_modTile_same (n : Nat) (f : Tile → Tile) : (m.modTile n f).tile n = f (m.tile n) := by simp [Mach.tile_modTile]
@[simp] theorem Mach.status_done (st : Nat) : (m.done st).status = st := rfl
@[simp] theorem Mach.cyc_advance (n : Nat) : (m.advance n).cyc = m.cyc + n := rfl


/-! ## setReg -/

@[simp] theorem Mach.cyc_setReg (a : Nat) (w : Word) : (m.setReg a w).cyc = m.cyc := rfl
@[simp] theorem Mach.free_setReg (a : Nat) (w : Word) : (m.setReg a w).free = m.free := rfl
@[simp] theorem Mach.status_setReg (a : Nat) (w : Word) : (m.setReg a w).status = m.status := rfl
@[simp] theorem Mach.dev_setReg (a : Nat) (w : Word) : (m.setReg a w).dev = m.dev := rfl
@[simp] theorem Mach.tap_setReg (a : Nat) (w : Word) : (m.setReg a w).tap = m.tap := rfl
@[simp] theorem Mach.shadow_setReg (a : Nat) (w : Word) : (m.setReg a w).shadow = m.shadow := rfl
@[simp] theorem Mach.mem_setReg (a : Nat) (w : Word) : (m.setReg a w).mem = m.mem := rfl
@[simp] theorem Mach.commits_setReg (a : Nat) (w : Word) : (m.setReg a w).commits = m.commits := rfl
@[simp] theorem Mach.eng_setReg (a : Nat) (w : Word) : (m.setReg a w).eng = m.eng := rfl
@[simp] theorem Mach.sems_setReg (a : Nat) (w : Word) : (m.setReg a w).sems = m.sems := rfl
@[simp] theorem Mach.time_setReg (a : Nat) (w : Word) : (m.setReg a w).time = m.time := rfl
@[simp] theorem Mach.flt_setReg (a : Nat) (w : Word) : (m.setReg a w).flt = m.flt := rfl
@[simp] theorem Mach.grp_setReg (a : Nat) (w : Word) : (m.setReg a w).grp = m.grp := rfl
@[simp] theorem Mach.lane_setReg (a : Nat) (w : Word) : (m.setReg a w).lane = m.lane := rfl
@[simp] theorem Mach.qmg_setReg (a : Nat) (w : Word) : (m.setReg a w).qmg = m.qmg := rfl
@[simp] theorem Mach.dram_setReg (a : Nat) (w : Word) : (m.setReg a w).dram = m.dram := rfl
@[simp] theorem Mach.emt_setReg (a : Nat) (w : Word) : (m.setReg a w).emt = m.emt := rfl
@[simp] theorem Mach.grd_setReg (a : Nat) (w : Word) : (m.setReg a w).grd = m.grd := rfl
@[simp] theorem Mach.saf_setReg (a : Nat) (w : Word) : (m.setReg a w).saf = m.saf := rfl
@[simp] theorem Mach.axis_setReg (a : Nat) (w : Word) : (m.setReg a w).axis = m.axis := rfl
@[simp] theorem Mach.port_setReg (a : Nat) (w : Word) : (m.setReg a w).port = m.port := rfl
@[simp] theorem Mach.tdc_setReg (a : Nat) (w : Word) : (m.setReg a w).tdc = m.tdc := rfl
@[simp] theorem Mach.pool_setReg (a : Nat) (w : Word) : (m.setReg a w).pool = m.pool := rfl
@[simp] theorem Mach.rej_setReg (a : Nat) (w : Word) : (m.setReg a w).rej = m.rej := rfl
@[simp] theorem Mach.cam_setReg (a : Nat) (w : Word) : (m.setReg a w).cam = m.cam := rfl
@[simp] theorem Mach.pts_setReg (a : Nat) (w : Word) : (m.setReg a w).pts = m.pts := rfl
@[simp] theorem Mach.hk_setReg (a : Nat) (w : Word) : (m.setReg a w).hk = m.hk := rfl
@[simp] theorem Mach.thm_setReg (a : Nat) (w : Word) : (m.setReg a w).thm = m.thm := rfl
@[simp] theorem Mach.probe_setReg (a : Nat) (w : Word) : (m.setReg a w).probe = m.probe := rfl
@[simp] theorem Mach.fusJob_setReg (a : Nat) (w : Word) : (m.setReg a w).fusJob = m.fusJob := rfl
@[simp] theorem Mach.shadowReg_setReg (a : Nat) (w : Word) (b0 : Nat) : (m.setReg a w).shadowReg b0 = m.shadowReg b0 := rfl
@[simp] theorem Mach.e_setReg (a : Nat) (w : Word) (k0 : Nat) : (m.setReg a w).e k0 = m.e k0 := rfl
@[simp] theorem Mach.sem_setReg (a : Nat) (w : Word) (k0 : Nat) : (m.setReg a w).sem k0 = m.sem k0 := rfl
@[simp] theorem Mach.g_setReg (a : Nat) (w : Word) (k0 : Nat) : (m.setReg a w).g k0 = m.g k0 := rfl
@[simp] theorem Mach.l_setReg (a : Nat) (w : Word) (k0 : Nat) : (m.setReg a w).l k0 = m.l k0 := rfl
@[simp] theorem Mach.q_setReg (a : Nat) (w : Word) (k0 : Nat) : (m.setReg a w).q k0 = m.q k0 := rfl
@[simp] theorem Mach.trig_setReg (a : Nat) (w : Word) (k0 : Nat) : (m.setReg a w).trig k0 = m.trig k0 := rfl
@[simp] theorem Mach.byte_setReg (a : Nat) (w : Word) (b0 : Nat) : (m.setReg a w).byte b0 = m.byte b0 := rfl
@[simp] theorem Mach.p_setReg (a : Nat) (w : Word) (k0 : Nat) : (m.setReg a w).p k0 = m.p k0 := rfl
@[simp] theorem Mach.ax_setReg (a : Nat) (w : Word) (k0 : Nat) : (m.setReg a w).ax k0 = m.ax k0 := rfl
@[simp] theorem Mach.ossd_setReg (a : Nat) (w : Word) (k0 : Nat) : (m.setReg a w).ossd k0 = m.ossd k0 := rfl
@[simp] theorem Mach.tile_setReg (a : Nat) (w : Word) (k0 : Nat) : (m.setReg a w).tile k0 = m.tile k0 := rfl
@[simp] theorem Mach.pl_setReg (a : Nat) (w : Word) (k0 : Nat) : (m.setReg a w).pl k0 = m.pl k0 := rfl
@[simp] theorem Mach.hot_setReg (a : Nat) (w : Word)  : (m.setReg a w).hot  = m.hot  := rfl

/-! ## setFld -/

@[simp] theorem Mach.cyc_setFld (a : Nat) (f : Fld) (v : Nat) : (m.setFld a f v).cyc = m.cyc := rfl
@[simp] theorem Mach.free_setFld (a : Nat) (f : Fld) (v : Nat) : (m.setFld a f v).free = m.free := rfl
@[simp] theorem Mach.status_setFld (a : Nat) (f : Fld) (v : Nat) : (m.setFld a f v).status = m.status := rfl
@[simp] theorem Mach.dev_setFld (a : Nat) (f : Fld) (v : Nat) : (m.setFld a f v).dev = m.dev := rfl
@[simp] theorem Mach.tap_setFld (a : Nat) (f : Fld) (v : Nat) : (m.setFld a f v).tap = m.tap := rfl
@[simp] theorem Mach.shadow_setFld (a : Nat) (f : Fld) (v : Nat) : (m.setFld a f v).shadow = m.shadow := rfl
@[simp] theorem Mach.mem_setFld (a : Nat) (f : Fld) (v : Nat) : (m.setFld a f v).mem = m.mem := rfl
@[simp] theorem Mach.commits_setFld (a : Nat) (f : Fld) (v : Nat) : (m.setFld a f v).commits = m.commits := rfl
@[simp] theorem Mach.eng_setFld (a : Nat) (f : Fld) (v : Nat) : (m.setFld a f v).eng = m.eng := rfl
@[simp] theorem Mach.sems_setFld (a : Nat) (f : Fld) (v : Nat) : (m.setFld a f v).sems = m.sems := rfl
@[simp] theorem Mach.time_setFld (a : Nat) (f : Fld) (v : Nat) : (m.setFld a f v).time = m.time := rfl
@[simp] theorem Mach.flt_setFld (a : Nat) (f : Fld) (v : Nat) : (m.setFld a f v).flt = m.flt := rfl
@[simp] theorem Mach.grp_setFld (a : Nat) (f : Fld) (v : Nat) : (m.setFld a f v).grp = m.grp := rfl
@[simp] theorem Mach.lane_setFld (a : Nat) (f : Fld) (v : Nat) : (m.setFld a f v).lane = m.lane := rfl
@[simp] theorem Mach.qmg_setFld (a : Nat) (f : Fld) (v : Nat) : (m.setFld a f v).qmg = m.qmg := rfl
@[simp] theorem Mach.dram_setFld (a : Nat) (f : Fld) (v : Nat) : (m.setFld a f v).dram = m.dram := rfl
@[simp] theorem Mach.emt_setFld (a : Nat) (f : Fld) (v : Nat) : (m.setFld a f v).emt = m.emt := rfl
@[simp] theorem Mach.grd_setFld (a : Nat) (f : Fld) (v : Nat) : (m.setFld a f v).grd = m.grd := rfl
@[simp] theorem Mach.saf_setFld (a : Nat) (f : Fld) (v : Nat) : (m.setFld a f v).saf = m.saf := rfl
@[simp] theorem Mach.axis_setFld (a : Nat) (f : Fld) (v : Nat) : (m.setFld a f v).axis = m.axis := rfl
@[simp] theorem Mach.port_setFld (a : Nat) (f : Fld) (v : Nat) : (m.setFld a f v).port = m.port := rfl
@[simp] theorem Mach.tdc_setFld (a : Nat) (f : Fld) (v : Nat) : (m.setFld a f v).tdc = m.tdc := rfl
@[simp] theorem Mach.pool_setFld (a : Nat) (f : Fld) (v : Nat) : (m.setFld a f v).pool = m.pool := rfl
@[simp] theorem Mach.rej_setFld (a : Nat) (f : Fld) (v : Nat) : (m.setFld a f v).rej = m.rej := rfl
@[simp] theorem Mach.cam_setFld (a : Nat) (f : Fld) (v : Nat) : (m.setFld a f v).cam = m.cam := rfl
@[simp] theorem Mach.pts_setFld (a : Nat) (f : Fld) (v : Nat) : (m.setFld a f v).pts = m.pts := rfl
@[simp] theorem Mach.hk_setFld (a : Nat) (f : Fld) (v : Nat) : (m.setFld a f v).hk = m.hk := rfl
@[simp] theorem Mach.thm_setFld (a : Nat) (f : Fld) (v : Nat) : (m.setFld a f v).thm = m.thm := rfl
@[simp] theorem Mach.probe_setFld (a : Nat) (f : Fld) (v : Nat) : (m.setFld a f v).probe = m.probe := rfl
@[simp] theorem Mach.fusJob_setFld (a : Nat) (f : Fld) (v : Nat) : (m.setFld a f v).fusJob = m.fusJob := rfl
@[simp] theorem Mach.shadowReg_setFld (a : Nat) (f : Fld) (v : Nat) (b0 : Nat) : (m.setFld a f v).shadowReg b0 = m.shadowReg b0 := rfl
@[simp] theorem Mach.e_setFld (a : Nat) (f : Fld) (v : Nat) (k0 : Nat) : (m.setFld a f v).e k0 = m.e k0 := rfl
@[simp] theorem Mach.sem_setFld (a : Nat) (f : Fld) (v : Nat) (k0 : Nat) : (m.setFld a f v).sem k0 = m.sem k0 := rfl
@[simp] theorem Mach.g_setFld (a : Nat) (f : Fld) (v : Nat) (k0 : Nat) : (m.setFld a f v).g k0 = m.g k0 := rfl
@[simp] theorem Mach.l_setFld (a : Nat) (f : Fld) (v : Nat) (k0 : Nat) : (m.setFld a f v).l k0 = m.l k0 := rfl
@[simp] theorem Mach.q_setFld (a : Nat) (f : Fld) (v : Nat) (k0 : Nat) : (m.setFld a f v).q k0 = m.q k0 := rfl
@[simp] theorem Mach.trig_setFld (a : Nat) (f : Fld) (v : Nat) (k0 : Nat) : (m.setFld a f v).trig k0 = m.trig k0 := rfl
@[simp] theorem Mach.byte_setFld (a : Nat) (f : Fld) (v : Nat) (b0 : Nat) : (m.setFld a f v).byte b0 = m.byte b0 := rfl
@[simp] theorem Mach.p_setFld (a : Nat) (f : Fld) (v : Nat) (k0 : Nat) : (m.setFld a f v).p k0 = m.p k0 := rfl
@[simp] theorem Mach.ax_setFld (a : Nat) (f : Fld) (v : Nat) (k0 : Nat) : (m.setFld a f v).ax k0 = m.ax k0 := rfl
@[simp] theorem Mach.ossd_setFld (a : Nat) (f : Fld) (v : Nat) (k0 : Nat) : (m.setFld a f v).ossd k0 = m.ossd k0 := rfl
@[simp] theorem Mach.tile_setFld (a : Nat) (f : Fld) (v : Nat) (k0 : Nat) : (m.setFld a f v).tile k0 = m.tile k0 := rfl
@[simp] theorem Mach.pl_setFld (a : Nat) (f : Fld) (v : Nat) (k0 : Nat) : (m.setFld a f v).pl k0 = m.pl k0 := rfl
@[simp] theorem Mach.hot_setFld (a : Nat) (f : Fld) (v : Nat)  : (m.setFld a f v).hot  = m.hot  := rfl

/-! ## satAdd -/

@[simp] theorem Mach.cyc_satAdd (a : Nat) (f : Fld) (k : Nat) : (m.satAdd a f k).cyc = m.cyc := rfl
@[simp] theorem Mach.free_satAdd (a : Nat) (f : Fld) (k : Nat) : (m.satAdd a f k).free = m.free := rfl
@[simp] theorem Mach.status_satAdd (a : Nat) (f : Fld) (k : Nat) : (m.satAdd a f k).status = m.status := rfl
@[simp] theorem Mach.dev_satAdd (a : Nat) (f : Fld) (k : Nat) : (m.satAdd a f k).dev = m.dev := rfl
@[simp] theorem Mach.tap_satAdd (a : Nat) (f : Fld) (k : Nat) : (m.satAdd a f k).tap = m.tap := rfl
@[simp] theorem Mach.shadow_satAdd (a : Nat) (f : Fld) (k : Nat) : (m.satAdd a f k).shadow = m.shadow := rfl
@[simp] theorem Mach.mem_satAdd (a : Nat) (f : Fld) (k : Nat) : (m.satAdd a f k).mem = m.mem := rfl
@[simp] theorem Mach.commits_satAdd (a : Nat) (f : Fld) (k : Nat) : (m.satAdd a f k).commits = m.commits := rfl
@[simp] theorem Mach.eng_satAdd (a : Nat) (f : Fld) (k : Nat) : (m.satAdd a f k).eng = m.eng := rfl
@[simp] theorem Mach.sems_satAdd (a : Nat) (f : Fld) (k : Nat) : (m.satAdd a f k).sems = m.sems := rfl
@[simp] theorem Mach.time_satAdd (a : Nat) (f : Fld) (k : Nat) : (m.satAdd a f k).time = m.time := rfl
@[simp] theorem Mach.flt_satAdd (a : Nat) (f : Fld) (k : Nat) : (m.satAdd a f k).flt = m.flt := rfl
@[simp] theorem Mach.grp_satAdd (a : Nat) (f : Fld) (k : Nat) : (m.satAdd a f k).grp = m.grp := rfl
@[simp] theorem Mach.lane_satAdd (a : Nat) (f : Fld) (k : Nat) : (m.satAdd a f k).lane = m.lane := rfl
@[simp] theorem Mach.qmg_satAdd (a : Nat) (f : Fld) (k : Nat) : (m.satAdd a f k).qmg = m.qmg := rfl
@[simp] theorem Mach.dram_satAdd (a : Nat) (f : Fld) (k : Nat) : (m.satAdd a f k).dram = m.dram := rfl
@[simp] theorem Mach.emt_satAdd (a : Nat) (f : Fld) (k : Nat) : (m.satAdd a f k).emt = m.emt := rfl
@[simp] theorem Mach.grd_satAdd (a : Nat) (f : Fld) (k : Nat) : (m.satAdd a f k).grd = m.grd := rfl
@[simp] theorem Mach.saf_satAdd (a : Nat) (f : Fld) (k : Nat) : (m.satAdd a f k).saf = m.saf := rfl
@[simp] theorem Mach.axis_satAdd (a : Nat) (f : Fld) (k : Nat) : (m.satAdd a f k).axis = m.axis := rfl
@[simp] theorem Mach.port_satAdd (a : Nat) (f : Fld) (k : Nat) : (m.satAdd a f k).port = m.port := rfl
@[simp] theorem Mach.tdc_satAdd (a : Nat) (f : Fld) (k : Nat) : (m.satAdd a f k).tdc = m.tdc := rfl
@[simp] theorem Mach.pool_satAdd (a : Nat) (f : Fld) (k : Nat) : (m.satAdd a f k).pool = m.pool := rfl
@[simp] theorem Mach.rej_satAdd (a : Nat) (f : Fld) (k : Nat) : (m.satAdd a f k).rej = m.rej := rfl
@[simp] theorem Mach.cam_satAdd (a : Nat) (f : Fld) (k : Nat) : (m.satAdd a f k).cam = m.cam := rfl
@[simp] theorem Mach.pts_satAdd (a : Nat) (f : Fld) (k : Nat) : (m.satAdd a f k).pts = m.pts := rfl
@[simp] theorem Mach.hk_satAdd (a : Nat) (f : Fld) (k : Nat) : (m.satAdd a f k).hk = m.hk := rfl
@[simp] theorem Mach.thm_satAdd (a : Nat) (f : Fld) (k : Nat) : (m.satAdd a f k).thm = m.thm := rfl
@[simp] theorem Mach.probe_satAdd (a : Nat) (f : Fld) (k : Nat) : (m.satAdd a f k).probe = m.probe := rfl
@[simp] theorem Mach.fusJob_satAdd (a : Nat) (f : Fld) (k : Nat) : (m.satAdd a f k).fusJob = m.fusJob := rfl
@[simp] theorem Mach.shadowReg_satAdd (a : Nat) (f : Fld) (k : Nat) (b0 : Nat) : (m.satAdd a f k).shadowReg b0 = m.shadowReg b0 := rfl
@[simp] theorem Mach.e_satAdd (a : Nat) (f : Fld) (k : Nat) (k0 : Nat) : (m.satAdd a f k).e k0 = m.e k0 := rfl
@[simp] theorem Mach.sem_satAdd (a : Nat) (f : Fld) (k : Nat) (k0 : Nat) : (m.satAdd a f k).sem k0 = m.sem k0 := rfl
@[simp] theorem Mach.g_satAdd (a : Nat) (f : Fld) (k : Nat) (k0 : Nat) : (m.satAdd a f k).g k0 = m.g k0 := rfl
@[simp] theorem Mach.l_satAdd (a : Nat) (f : Fld) (k : Nat) (k0 : Nat) : (m.satAdd a f k).l k0 = m.l k0 := rfl
@[simp] theorem Mach.q_satAdd (a : Nat) (f : Fld) (k : Nat) (k0 : Nat) : (m.satAdd a f k).q k0 = m.q k0 := rfl
@[simp] theorem Mach.trig_satAdd (a : Nat) (f : Fld) (k : Nat) (k0 : Nat) : (m.satAdd a f k).trig k0 = m.trig k0 := rfl
@[simp] theorem Mach.byte_satAdd (a : Nat) (f : Fld) (k : Nat) (b0 : Nat) : (m.satAdd a f k).byte b0 = m.byte b0 := rfl
@[simp] theorem Mach.p_satAdd (a : Nat) (f : Fld) (k : Nat) (k0 : Nat) : (m.satAdd a f k).p k0 = m.p k0 := rfl
@[simp] theorem Mach.ax_satAdd (a : Nat) (f : Fld) (k : Nat) (k0 : Nat) : (m.satAdd a f k).ax k0 = m.ax k0 := rfl
@[simp] theorem Mach.ossd_satAdd (a : Nat) (f : Fld) (k : Nat) (k0 : Nat) : (m.satAdd a f k).ossd k0 = m.ossd k0 := rfl
@[simp] theorem Mach.tile_satAdd (a : Nat) (f : Fld) (k : Nat) (k0 : Nat) : (m.satAdd a f k).tile k0 = m.tile k0 := rfl
@[simp] theorem Mach.pl_satAdd (a : Nat) (f : Fld) (k : Nat) (k0 : Nat) : (m.satAdd a f k).pl k0 = m.pl k0 := rfl
@[simp] theorem Mach.hot_satAdd (a : Nat) (f : Fld) (k : Nat)  : (m.satAdd a f k).hot  = m.hot  := rfl

/-! ## satInc -/

@[simp] theorem Mach.cyc_satInc (a : Nat) (f : Fld) : (m.satInc a f).cyc = m.cyc := rfl
@[simp] theorem Mach.free_satInc (a : Nat) (f : Fld) : (m.satInc a f).free = m.free := rfl
@[simp] theorem Mach.status_satInc (a : Nat) (f : Fld) : (m.satInc a f).status = m.status := rfl
@[simp] theorem Mach.dev_satInc (a : Nat) (f : Fld) : (m.satInc a f).dev = m.dev := rfl
@[simp] theorem Mach.tap_satInc (a : Nat) (f : Fld) : (m.satInc a f).tap = m.tap := rfl
@[simp] theorem Mach.shadow_satInc (a : Nat) (f : Fld) : (m.satInc a f).shadow = m.shadow := rfl
@[simp] theorem Mach.mem_satInc (a : Nat) (f : Fld) : (m.satInc a f).mem = m.mem := rfl
@[simp] theorem Mach.commits_satInc (a : Nat) (f : Fld) : (m.satInc a f).commits = m.commits := rfl
@[simp] theorem Mach.eng_satInc (a : Nat) (f : Fld) : (m.satInc a f).eng = m.eng := rfl
@[simp] theorem Mach.sems_satInc (a : Nat) (f : Fld) : (m.satInc a f).sems = m.sems := rfl
@[simp] theorem Mach.time_satInc (a : Nat) (f : Fld) : (m.satInc a f).time = m.time := rfl
@[simp] theorem Mach.flt_satInc (a : Nat) (f : Fld) : (m.satInc a f).flt = m.flt := rfl
@[simp] theorem Mach.grp_satInc (a : Nat) (f : Fld) : (m.satInc a f).grp = m.grp := rfl
@[simp] theorem Mach.lane_satInc (a : Nat) (f : Fld) : (m.satInc a f).lane = m.lane := rfl
@[simp] theorem Mach.qmg_satInc (a : Nat) (f : Fld) : (m.satInc a f).qmg = m.qmg := rfl
@[simp] theorem Mach.dram_satInc (a : Nat) (f : Fld) : (m.satInc a f).dram = m.dram := rfl
@[simp] theorem Mach.emt_satInc (a : Nat) (f : Fld) : (m.satInc a f).emt = m.emt := rfl
@[simp] theorem Mach.grd_satInc (a : Nat) (f : Fld) : (m.satInc a f).grd = m.grd := rfl
@[simp] theorem Mach.saf_satInc (a : Nat) (f : Fld) : (m.satInc a f).saf = m.saf := rfl
@[simp] theorem Mach.axis_satInc (a : Nat) (f : Fld) : (m.satInc a f).axis = m.axis := rfl
@[simp] theorem Mach.port_satInc (a : Nat) (f : Fld) : (m.satInc a f).port = m.port := rfl
@[simp] theorem Mach.tdc_satInc (a : Nat) (f : Fld) : (m.satInc a f).tdc = m.tdc := rfl
@[simp] theorem Mach.pool_satInc (a : Nat) (f : Fld) : (m.satInc a f).pool = m.pool := rfl
@[simp] theorem Mach.rej_satInc (a : Nat) (f : Fld) : (m.satInc a f).rej = m.rej := rfl
@[simp] theorem Mach.cam_satInc (a : Nat) (f : Fld) : (m.satInc a f).cam = m.cam := rfl
@[simp] theorem Mach.pts_satInc (a : Nat) (f : Fld) : (m.satInc a f).pts = m.pts := rfl
@[simp] theorem Mach.hk_satInc (a : Nat) (f : Fld) : (m.satInc a f).hk = m.hk := rfl
@[simp] theorem Mach.thm_satInc (a : Nat) (f : Fld) : (m.satInc a f).thm = m.thm := rfl
@[simp] theorem Mach.probe_satInc (a : Nat) (f : Fld) : (m.satInc a f).probe = m.probe := rfl
@[simp] theorem Mach.fusJob_satInc (a : Nat) (f : Fld) : (m.satInc a f).fusJob = m.fusJob := rfl
@[simp] theorem Mach.shadowReg_satInc (a : Nat) (f : Fld) (b0 : Nat) : (m.satInc a f).shadowReg b0 = m.shadowReg b0 := rfl
@[simp] theorem Mach.e_satInc (a : Nat) (f : Fld) (k0 : Nat) : (m.satInc a f).e k0 = m.e k0 := rfl
@[simp] theorem Mach.sem_satInc (a : Nat) (f : Fld) (k0 : Nat) : (m.satInc a f).sem k0 = m.sem k0 := rfl
@[simp] theorem Mach.g_satInc (a : Nat) (f : Fld) (k0 : Nat) : (m.satInc a f).g k0 = m.g k0 := rfl
@[simp] theorem Mach.l_satInc (a : Nat) (f : Fld) (k0 : Nat) : (m.satInc a f).l k0 = m.l k0 := rfl
@[simp] theorem Mach.q_satInc (a : Nat) (f : Fld) (k0 : Nat) : (m.satInc a f).q k0 = m.q k0 := rfl
@[simp] theorem Mach.trig_satInc (a : Nat) (f : Fld) (k0 : Nat) : (m.satInc a f).trig k0 = m.trig k0 := rfl
@[simp] theorem Mach.byte_satInc (a : Nat) (f : Fld) (b0 : Nat) : (m.satInc a f).byte b0 = m.byte b0 := rfl
@[simp] theorem Mach.p_satInc (a : Nat) (f : Fld) (k0 : Nat) : (m.satInc a f).p k0 = m.p k0 := rfl
@[simp] theorem Mach.ax_satInc (a : Nat) (f : Fld) (k0 : Nat) : (m.satInc a f).ax k0 = m.ax k0 := rfl
@[simp] theorem Mach.ossd_satInc (a : Nat) (f : Fld) (k0 : Nat) : (m.satInc a f).ossd k0 = m.ossd k0 := rfl
@[simp] theorem Mach.tile_satInc (a : Nat) (f : Fld) (k0 : Nat) : (m.satInc a f).tile k0 = m.tile k0 := rfl
@[simp] theorem Mach.pl_satInc (a : Nat) (f : Fld) (k0 : Nat) : (m.satInc a f).pl k0 = m.pl k0 := rfl
@[simp] theorem Mach.hot_satInc (a : Nat) (f : Fld)  : (m.satInc a f).hot  = m.hot  := rfl

/-! ## wrapInc -/

@[simp] theorem Mach.cyc_wrapInc (a : Nat) (f : Fld) : (m.wrapInc a f).cyc = m.cyc := rfl
@[simp] theorem Mach.free_wrapInc (a : Nat) (f : Fld) : (m.wrapInc a f).free = m.free := rfl
@[simp] theorem Mach.status_wrapInc (a : Nat) (f : Fld) : (m.wrapInc a f).status = m.status := rfl
@[simp] theorem Mach.dev_wrapInc (a : Nat) (f : Fld) : (m.wrapInc a f).dev = m.dev := rfl
@[simp] theorem Mach.tap_wrapInc (a : Nat) (f : Fld) : (m.wrapInc a f).tap = m.tap := rfl
@[simp] theorem Mach.shadow_wrapInc (a : Nat) (f : Fld) : (m.wrapInc a f).shadow = m.shadow := rfl
@[simp] theorem Mach.mem_wrapInc (a : Nat) (f : Fld) : (m.wrapInc a f).mem = m.mem := rfl
@[simp] theorem Mach.commits_wrapInc (a : Nat) (f : Fld) : (m.wrapInc a f).commits = m.commits := rfl
@[simp] theorem Mach.eng_wrapInc (a : Nat) (f : Fld) : (m.wrapInc a f).eng = m.eng := rfl
@[simp] theorem Mach.sems_wrapInc (a : Nat) (f : Fld) : (m.wrapInc a f).sems = m.sems := rfl
@[simp] theorem Mach.time_wrapInc (a : Nat) (f : Fld) : (m.wrapInc a f).time = m.time := rfl
@[simp] theorem Mach.flt_wrapInc (a : Nat) (f : Fld) : (m.wrapInc a f).flt = m.flt := rfl
@[simp] theorem Mach.grp_wrapInc (a : Nat) (f : Fld) : (m.wrapInc a f).grp = m.grp := rfl
@[simp] theorem Mach.lane_wrapInc (a : Nat) (f : Fld) : (m.wrapInc a f).lane = m.lane := rfl
@[simp] theorem Mach.qmg_wrapInc (a : Nat) (f : Fld) : (m.wrapInc a f).qmg = m.qmg := rfl
@[simp] theorem Mach.dram_wrapInc (a : Nat) (f : Fld) : (m.wrapInc a f).dram = m.dram := rfl
@[simp] theorem Mach.emt_wrapInc (a : Nat) (f : Fld) : (m.wrapInc a f).emt = m.emt := rfl
@[simp] theorem Mach.grd_wrapInc (a : Nat) (f : Fld) : (m.wrapInc a f).grd = m.grd := rfl
@[simp] theorem Mach.saf_wrapInc (a : Nat) (f : Fld) : (m.wrapInc a f).saf = m.saf := rfl
@[simp] theorem Mach.axis_wrapInc (a : Nat) (f : Fld) : (m.wrapInc a f).axis = m.axis := rfl
@[simp] theorem Mach.port_wrapInc (a : Nat) (f : Fld) : (m.wrapInc a f).port = m.port := rfl
@[simp] theorem Mach.tdc_wrapInc (a : Nat) (f : Fld) : (m.wrapInc a f).tdc = m.tdc := rfl
@[simp] theorem Mach.pool_wrapInc (a : Nat) (f : Fld) : (m.wrapInc a f).pool = m.pool := rfl
@[simp] theorem Mach.rej_wrapInc (a : Nat) (f : Fld) : (m.wrapInc a f).rej = m.rej := rfl
@[simp] theorem Mach.cam_wrapInc (a : Nat) (f : Fld) : (m.wrapInc a f).cam = m.cam := rfl
@[simp] theorem Mach.pts_wrapInc (a : Nat) (f : Fld) : (m.wrapInc a f).pts = m.pts := rfl
@[simp] theorem Mach.hk_wrapInc (a : Nat) (f : Fld) : (m.wrapInc a f).hk = m.hk := rfl
@[simp] theorem Mach.thm_wrapInc (a : Nat) (f : Fld) : (m.wrapInc a f).thm = m.thm := rfl
@[simp] theorem Mach.probe_wrapInc (a : Nat) (f : Fld) : (m.wrapInc a f).probe = m.probe := rfl
@[simp] theorem Mach.fusJob_wrapInc (a : Nat) (f : Fld) : (m.wrapInc a f).fusJob = m.fusJob := rfl
@[simp] theorem Mach.shadowReg_wrapInc (a : Nat) (f : Fld) (b0 : Nat) : (m.wrapInc a f).shadowReg b0 = m.shadowReg b0 := rfl
@[simp] theorem Mach.e_wrapInc (a : Nat) (f : Fld) (k0 : Nat) : (m.wrapInc a f).e k0 = m.e k0 := rfl
@[simp] theorem Mach.sem_wrapInc (a : Nat) (f : Fld) (k0 : Nat) : (m.wrapInc a f).sem k0 = m.sem k0 := rfl
@[simp] theorem Mach.g_wrapInc (a : Nat) (f : Fld) (k0 : Nat) : (m.wrapInc a f).g k0 = m.g k0 := rfl
@[simp] theorem Mach.l_wrapInc (a : Nat) (f : Fld) (k0 : Nat) : (m.wrapInc a f).l k0 = m.l k0 := rfl
@[simp] theorem Mach.q_wrapInc (a : Nat) (f : Fld) (k0 : Nat) : (m.wrapInc a f).q k0 = m.q k0 := rfl
@[simp] theorem Mach.trig_wrapInc (a : Nat) (f : Fld) (k0 : Nat) : (m.wrapInc a f).trig k0 = m.trig k0 := rfl
@[simp] theorem Mach.byte_wrapInc (a : Nat) (f : Fld) (b0 : Nat) : (m.wrapInc a f).byte b0 = m.byte b0 := rfl
@[simp] theorem Mach.p_wrapInc (a : Nat) (f : Fld) (k0 : Nat) : (m.wrapInc a f).p k0 = m.p k0 := rfl
@[simp] theorem Mach.ax_wrapInc (a : Nat) (f : Fld) (k0 : Nat) : (m.wrapInc a f).ax k0 = m.ax k0 := rfl
@[simp] theorem Mach.ossd_wrapInc (a : Nat) (f : Fld) (k0 : Nat) : (m.wrapInc a f).ossd k0 = m.ossd k0 := rfl
@[simp] theorem Mach.tile_wrapInc (a : Nat) (f : Fld) (k0 : Nat) : (m.wrapInc a f).tile k0 = m.tile k0 := rfl
@[simp] theorem Mach.pl_wrapInc (a : Nat) (f : Fld) (k0 : Nat) : (m.wrapInc a f).pl k0 = m.pl k0 := rfl
@[simp] theorem Mach.hot_wrapInc (a : Nat) (f : Fld)  : (m.wrapInc a f).hot  = m.hot  := rfl

/-! ## setShadow -/

@[simp] theorem Mach.cyc_setShadow (a : Nat) (w : Word) : (m.setShadow a w).cyc = m.cyc := rfl
@[simp] theorem Mach.free_setShadow (a : Nat) (w : Word) : (m.setShadow a w).free = m.free := rfl
@[simp] theorem Mach.status_setShadow (a : Nat) (w : Word) : (m.setShadow a w).status = m.status := rfl
@[simp] theorem Mach.dev_setShadow (a : Nat) (w : Word) : (m.setShadow a w).dev = m.dev := rfl
@[simp] theorem Mach.tap_setShadow (a : Nat) (w : Word) : (m.setShadow a w).tap = m.tap := rfl
@[simp] theorem Mach.regs_setShadow (a : Nat) (w : Word) : (m.setShadow a w).regs = m.regs := rfl
@[simp] theorem Mach.mem_setShadow (a : Nat) (w : Word) : (m.setShadow a w).mem = m.mem := rfl
@[simp] theorem Mach.commits_setShadow (a : Nat) (w : Word) : (m.setShadow a w).commits = m.commits := rfl
@[simp] theorem Mach.eng_setShadow (a : Nat) (w : Word) : (m.setShadow a w).eng = m.eng := rfl
@[simp] theorem Mach.sems_setShadow (a : Nat) (w : Word) : (m.setShadow a w).sems = m.sems := rfl
@[simp] theorem Mach.time_setShadow (a : Nat) (w : Word) : (m.setShadow a w).time = m.time := rfl
@[simp] theorem Mach.flt_setShadow (a : Nat) (w : Word) : (m.setShadow a w).flt = m.flt := rfl
@[simp] theorem Mach.grp_setShadow (a : Nat) (w : Word) : (m.setShadow a w).grp = m.grp := rfl
@[simp] theorem Mach.lane_setShadow (a : Nat) (w : Word) : (m.setShadow a w).lane = m.lane := rfl
@[simp] theorem Mach.qmg_setShadow (a : Nat) (w : Word) : (m.setShadow a w).qmg = m.qmg := rfl
@[simp] theorem Mach.dram_setShadow (a : Nat) (w : Word) : (m.setShadow a w).dram = m.dram := rfl
@[simp] theorem Mach.emt_setShadow (a : Nat) (w : Word) : (m.setShadow a w).emt = m.emt := rfl
@[simp] theorem Mach.grd_setShadow (a : Nat) (w : Word) : (m.setShadow a w).grd = m.grd := rfl
@[simp] theorem Mach.saf_setShadow (a : Nat) (w : Word) : (m.setShadow a w).saf = m.saf := rfl
@[simp] theorem Mach.axis_setShadow (a : Nat) (w : Word) : (m.setShadow a w).axis = m.axis := rfl
@[simp] theorem Mach.port_setShadow (a : Nat) (w : Word) : (m.setShadow a w).port = m.port := rfl
@[simp] theorem Mach.tdc_setShadow (a : Nat) (w : Word) : (m.setShadow a w).tdc = m.tdc := rfl
@[simp] theorem Mach.pool_setShadow (a : Nat) (w : Word) : (m.setShadow a w).pool = m.pool := rfl
@[simp] theorem Mach.rej_setShadow (a : Nat) (w : Word) : (m.setShadow a w).rej = m.rej := rfl
@[simp] theorem Mach.cam_setShadow (a : Nat) (w : Word) : (m.setShadow a w).cam = m.cam := rfl
@[simp] theorem Mach.pts_setShadow (a : Nat) (w : Word) : (m.setShadow a w).pts = m.pts := rfl
@[simp] theorem Mach.hk_setShadow (a : Nat) (w : Word) : (m.setShadow a w).hk = m.hk := rfl
@[simp] theorem Mach.thm_setShadow (a : Nat) (w : Word) : (m.setShadow a w).thm = m.thm := rfl
@[simp] theorem Mach.probe_setShadow (a : Nat) (w : Word) : (m.setShadow a w).probe = m.probe := rfl
@[simp] theorem Mach.fusJob_setShadow (a : Nat) (w : Word) : (m.setShadow a w).fusJob = m.fusJob := rfl
@[simp] theorem Mach.reg_setShadow (a : Nat) (w : Word) (b0 : Nat) : (m.setShadow a w).reg b0 = m.reg b0 := rfl
@[simp] theorem Mach.fld_setShadow (a : Nat) (w : Word) (b0 : Nat) (g0 : Fld) : (m.setShadow a w).fld b0 g0 = m.fld b0 g0 := rfl
@[simp] theorem Mach.flag_setShadow (a : Nat) (w : Word) (b0 : Nat) (g0 : Fld) : (m.setShadow a w).flag b0 g0 = m.flag b0 g0 := rfl
@[simp] theorem Mach.e_setShadow (a : Nat) (w : Word) (k0 : Nat) : (m.setShadow a w).e k0 = m.e k0 := rfl
@[simp] theorem Mach.sem_setShadow (a : Nat) (w : Word) (k0 : Nat) : (m.setShadow a w).sem k0 = m.sem k0 := rfl
@[simp] theorem Mach.g_setShadow (a : Nat) (w : Word) (k0 : Nat) : (m.setShadow a w).g k0 = m.g k0 := rfl
@[simp] theorem Mach.l_setShadow (a : Nat) (w : Word) (k0 : Nat) : (m.setShadow a w).l k0 = m.l k0 := rfl
@[simp] theorem Mach.q_setShadow (a : Nat) (w : Word) (k0 : Nat) : (m.setShadow a w).q k0 = m.q k0 := rfl
@[simp] theorem Mach.trig_setShadow (a : Nat) (w : Word) (k0 : Nat) : (m.setShadow a w).trig k0 = m.trig k0 := rfl
@[simp] theorem Mach.byte_setShadow (a : Nat) (w : Word) (b0 : Nat) : (m.setShadow a w).byte b0 = m.byte b0 := rfl
@[simp] theorem Mach.p_setShadow (a : Nat) (w : Word) (k0 : Nat) : (m.setShadow a w).p k0 = m.p k0 := rfl
@[simp] theorem Mach.ax_setShadow (a : Nat) (w : Word) (k0 : Nat) : (m.setShadow a w).ax k0 = m.ax k0 := rfl
@[simp] theorem Mach.ossd_setShadow (a : Nat) (w : Word) (k0 : Nat) : (m.setShadow a w).ossd k0 = m.ossd k0 := rfl
@[simp] theorem Mach.tile_setShadow (a : Nat) (w : Word) (k0 : Nat) : (m.setShadow a w).tile k0 = m.tile k0 := rfl
@[simp] theorem Mach.pl_setShadow (a : Nat) (w : Word) (k0 : Nat) : (m.setShadow a w).pl k0 = m.pl k0 := rfl
@[simp] theorem Mach.hot_setShadow (a : Nat) (w : Word)  : (m.setShadow a w).hot  = m.hot  := rfl
@[simp] theorem Mach.owner_setShadow (a : Nat) (w : Word)  : (m.setShadow a w).owner  = m.owner  := rfl
@[simp] theorem Mach.ctxOn_setShadow (a : Nat) (w : Word) (c0 : Nat) : (m.setShadow a w).ctxOn c0 = m.ctxOn c0 := rfl

/-! ## setE -/

@[simp] theorem Mach.cyc_setE (n : Nat) (x : Engine) : (m.setE n x).cyc = m.cyc := rfl
@[simp] theorem Mach.free_setE (n : Nat) (x : Engine) : (m.setE n x).free = m.free := rfl
@[simp] theorem Mach.status_setE (n : Nat) (x : Engine) : (m.setE n x).status = m.status := rfl
@[simp] theorem Mach.dev_setE (n : Nat) (x : Engine) : (m.setE n x).dev = m.dev := rfl
@[simp] theorem Mach.tap_setE (n : Nat) (x : Engine) : (m.setE n x).tap = m.tap := rfl
@[simp] theorem Mach.regs_setE (n : Nat) (x : Engine) : (m.setE n x).regs = m.regs := rfl
@[simp] theorem Mach.shadow_setE (n : Nat) (x : Engine) : (m.setE n x).shadow = m.shadow := rfl
@[simp] theorem Mach.mem_setE (n : Nat) (x : Engine) : (m.setE n x).mem = m.mem := rfl
@[simp] theorem Mach.commits_setE (n : Nat) (x : Engine) : (m.setE n x).commits = m.commits := rfl
@[simp] theorem Mach.sems_setE (n : Nat) (x : Engine) : (m.setE n x).sems = m.sems := rfl
@[simp] theorem Mach.time_setE (n : Nat) (x : Engine) : (m.setE n x).time = m.time := rfl
@[simp] theorem Mach.flt_setE (n : Nat) (x : Engine) : (m.setE n x).flt = m.flt := rfl
@[simp] theorem Mach.grp_setE (n : Nat) (x : Engine) : (m.setE n x).grp = m.grp := rfl
@[simp] theorem Mach.lane_setE (n : Nat) (x : Engine) : (m.setE n x).lane = m.lane := rfl
@[simp] theorem Mach.qmg_setE (n : Nat) (x : Engine) : (m.setE n x).qmg = m.qmg := rfl
@[simp] theorem Mach.dram_setE (n : Nat) (x : Engine) : (m.setE n x).dram = m.dram := rfl
@[simp] theorem Mach.emt_setE (n : Nat) (x : Engine) : (m.setE n x).emt = m.emt := rfl
@[simp] theorem Mach.grd_setE (n : Nat) (x : Engine) : (m.setE n x).grd = m.grd := rfl
@[simp] theorem Mach.saf_setE (n : Nat) (x : Engine) : (m.setE n x).saf = m.saf := rfl
@[simp] theorem Mach.axis_setE (n : Nat) (x : Engine) : (m.setE n x).axis = m.axis := rfl
@[simp] theorem Mach.port_setE (n : Nat) (x : Engine) : (m.setE n x).port = m.port := rfl
@[simp] theorem Mach.tdc_setE (n : Nat) (x : Engine) : (m.setE n x).tdc = m.tdc := rfl
@[simp] theorem Mach.pool_setE (n : Nat) (x : Engine) : (m.setE n x).pool = m.pool := rfl
@[simp] theorem Mach.rej_setE (n : Nat) (x : Engine) : (m.setE n x).rej = m.rej := rfl
@[simp] theorem Mach.cam_setE (n : Nat) (x : Engine) : (m.setE n x).cam = m.cam := rfl
@[simp] theorem Mach.pts_setE (n : Nat) (x : Engine) : (m.setE n x).pts = m.pts := rfl
@[simp] theorem Mach.hk_setE (n : Nat) (x : Engine) : (m.setE n x).hk = m.hk := rfl
@[simp] theorem Mach.thm_setE (n : Nat) (x : Engine) : (m.setE n x).thm = m.thm := rfl
@[simp] theorem Mach.probe_setE (n : Nat) (x : Engine) : (m.setE n x).probe = m.probe := rfl
@[simp] theorem Mach.fusJob_setE (n : Nat) (x : Engine) : (m.setE n x).fusJob = m.fusJob := rfl
@[simp] theorem Mach.reg_setE (n : Nat) (x : Engine) (b0 : Nat) : (m.setE n x).reg b0 = m.reg b0 := rfl
@[simp] theorem Mach.fld_setE (n : Nat) (x : Engine) (b0 : Nat) (g0 : Fld) : (m.setE n x).fld b0 g0 = m.fld b0 g0 := rfl
@[simp] theorem Mach.flag_setE (n : Nat) (x : Engine) (b0 : Nat) (g0 : Fld) : (m.setE n x).flag b0 g0 = m.flag b0 g0 := rfl
@[simp] theorem Mach.shadowReg_setE (n : Nat) (x : Engine) (b0 : Nat) : (m.setE n x).shadowReg b0 = m.shadowReg b0 := rfl
@[simp] theorem Mach.sem_setE (n : Nat) (x : Engine) (k0 : Nat) : (m.setE n x).sem k0 = m.sem k0 := rfl
@[simp] theorem Mach.g_setE (n : Nat) (x : Engine) (k0 : Nat) : (m.setE n x).g k0 = m.g k0 := rfl
@[simp] theorem Mach.l_setE (n : Nat) (x : Engine) (k0 : Nat) : (m.setE n x).l k0 = m.l k0 := rfl
@[simp] theorem Mach.q_setE (n : Nat) (x : Engine) (k0 : Nat) : (m.setE n x).q k0 = m.q k0 := rfl
@[simp] theorem Mach.trig_setE (n : Nat) (x : Engine) (k0 : Nat) : (m.setE n x).trig k0 = m.trig k0 := rfl
@[simp] theorem Mach.byte_setE (n : Nat) (x : Engine) (b0 : Nat) : (m.setE n x).byte b0 = m.byte b0 := rfl
@[simp] theorem Mach.p_setE (n : Nat) (x : Engine) (k0 : Nat) : (m.setE n x).p k0 = m.p k0 := rfl
@[simp] theorem Mach.ax_setE (n : Nat) (x : Engine) (k0 : Nat) : (m.setE n x).ax k0 = m.ax k0 := rfl
@[simp] theorem Mach.ossd_setE (n : Nat) (x : Engine) (k0 : Nat) : (m.setE n x).ossd k0 = m.ossd k0 := rfl
@[simp] theorem Mach.tile_setE (n : Nat) (x : Engine) (k0 : Nat) : (m.setE n x).tile k0 = m.tile k0 := rfl
@[simp] theorem Mach.pl_setE (n : Nat) (x : Engine) (k0 : Nat) : (m.setE n x).pl k0 = m.pl k0 := rfl
@[simp] theorem Mach.hot_setE (n : Nat) (x : Engine)  : (m.setE n x).hot  = m.hot  := rfl
@[simp] theorem Mach.owner_setE (n : Nat) (x : Engine)  : (m.setE n x).owner  = m.owner  := rfl
@[simp] theorem Mach.ctxOn_setE (n : Nat) (x : Engine) (c0 : Nat) : (m.setE n x).ctxOn c0 = m.ctxOn c0 := rfl

/-! ## modE -/

@[simp] theorem Mach.cyc_modE (n : Nat) (f : Engine → Engine) : (m.modE n f).cyc = m.cyc := rfl
@[simp] theorem Mach.free_modE (n : Nat) (f : Engine → Engine) : (m.modE n f).free = m.free := rfl
@[simp] theorem Mach.status_modE (n : Nat) (f : Engine → Engine) : (m.modE n f).status = m.status := rfl
@[simp] theorem Mach.dev_modE (n : Nat) (f : Engine → Engine) : (m.modE n f).dev = m.dev := rfl
@[simp] theorem Mach.tap_modE (n : Nat) (f : Engine → Engine) : (m.modE n f).tap = m.tap := rfl
@[simp] theorem Mach.regs_modE (n : Nat) (f : Engine → Engine) : (m.modE n f).regs = m.regs := rfl
@[simp] theorem Mach.shadow_modE (n : Nat) (f : Engine → Engine) : (m.modE n f).shadow = m.shadow := rfl
@[simp] theorem Mach.mem_modE (n : Nat) (f : Engine → Engine) : (m.modE n f).mem = m.mem := rfl
@[simp] theorem Mach.commits_modE (n : Nat) (f : Engine → Engine) : (m.modE n f).commits = m.commits := rfl
@[simp] theorem Mach.sems_modE (n : Nat) (f : Engine → Engine) : (m.modE n f).sems = m.sems := rfl
@[simp] theorem Mach.time_modE (n : Nat) (f : Engine → Engine) : (m.modE n f).time = m.time := rfl
@[simp] theorem Mach.flt_modE (n : Nat) (f : Engine → Engine) : (m.modE n f).flt = m.flt := rfl
@[simp] theorem Mach.grp_modE (n : Nat) (f : Engine → Engine) : (m.modE n f).grp = m.grp := rfl
@[simp] theorem Mach.lane_modE (n : Nat) (f : Engine → Engine) : (m.modE n f).lane = m.lane := rfl
@[simp] theorem Mach.qmg_modE (n : Nat) (f : Engine → Engine) : (m.modE n f).qmg = m.qmg := rfl
@[simp] theorem Mach.dram_modE (n : Nat) (f : Engine → Engine) : (m.modE n f).dram = m.dram := rfl
@[simp] theorem Mach.emt_modE (n : Nat) (f : Engine → Engine) : (m.modE n f).emt = m.emt := rfl
@[simp] theorem Mach.grd_modE (n : Nat) (f : Engine → Engine) : (m.modE n f).grd = m.grd := rfl
@[simp] theorem Mach.saf_modE (n : Nat) (f : Engine → Engine) : (m.modE n f).saf = m.saf := rfl
@[simp] theorem Mach.axis_modE (n : Nat) (f : Engine → Engine) : (m.modE n f).axis = m.axis := rfl
@[simp] theorem Mach.port_modE (n : Nat) (f : Engine → Engine) : (m.modE n f).port = m.port := rfl
@[simp] theorem Mach.tdc_modE (n : Nat) (f : Engine → Engine) : (m.modE n f).tdc = m.tdc := rfl
@[simp] theorem Mach.pool_modE (n : Nat) (f : Engine → Engine) : (m.modE n f).pool = m.pool := rfl
@[simp] theorem Mach.rej_modE (n : Nat) (f : Engine → Engine) : (m.modE n f).rej = m.rej := rfl
@[simp] theorem Mach.cam_modE (n : Nat) (f : Engine → Engine) : (m.modE n f).cam = m.cam := rfl
@[simp] theorem Mach.pts_modE (n : Nat) (f : Engine → Engine) : (m.modE n f).pts = m.pts := rfl
@[simp] theorem Mach.hk_modE (n : Nat) (f : Engine → Engine) : (m.modE n f).hk = m.hk := rfl
@[simp] theorem Mach.thm_modE (n : Nat) (f : Engine → Engine) : (m.modE n f).thm = m.thm := rfl
@[simp] theorem Mach.probe_modE (n : Nat) (f : Engine → Engine) : (m.modE n f).probe = m.probe := rfl
@[simp] theorem Mach.fusJob_modE (n : Nat) (f : Engine → Engine) : (m.modE n f).fusJob = m.fusJob := rfl
@[simp] theorem Mach.reg_modE (n : Nat) (f : Engine → Engine) (b0 : Nat) : (m.modE n f).reg b0 = m.reg b0 := rfl
@[simp] theorem Mach.fld_modE (n : Nat) (f : Engine → Engine) (b0 : Nat) (g0 : Fld) : (m.modE n f).fld b0 g0 = m.fld b0 g0 := rfl
@[simp] theorem Mach.flag_modE (n : Nat) (f : Engine → Engine) (b0 : Nat) (g0 : Fld) : (m.modE n f).flag b0 g0 = m.flag b0 g0 := rfl
@[simp] theorem Mach.shadowReg_modE (n : Nat) (f : Engine → Engine) (b0 : Nat) : (m.modE n f).shadowReg b0 = m.shadowReg b0 := rfl
@[simp] theorem Mach.sem_modE (n : Nat) (f : Engine → Engine) (k0 : Nat) : (m.modE n f).sem k0 = m.sem k0 := rfl
@[simp] theorem Mach.g_modE (n : Nat) (f : Engine → Engine) (k0 : Nat) : (m.modE n f).g k0 = m.g k0 := rfl
@[simp] theorem Mach.l_modE (n : Nat) (f : Engine → Engine) (k0 : Nat) : (m.modE n f).l k0 = m.l k0 := rfl
@[simp] theorem Mach.q_modE (n : Nat) (f : Engine → Engine) (k0 : Nat) : (m.modE n f).q k0 = m.q k0 := rfl
@[simp] theorem Mach.trig_modE (n : Nat) (f : Engine → Engine) (k0 : Nat) : (m.modE n f).trig k0 = m.trig k0 := rfl
@[simp] theorem Mach.byte_modE (n : Nat) (f : Engine → Engine) (b0 : Nat) : (m.modE n f).byte b0 = m.byte b0 := rfl
@[simp] theorem Mach.p_modE (n : Nat) (f : Engine → Engine) (k0 : Nat) : (m.modE n f).p k0 = m.p k0 := rfl
@[simp] theorem Mach.ax_modE (n : Nat) (f : Engine → Engine) (k0 : Nat) : (m.modE n f).ax k0 = m.ax k0 := rfl
@[simp] theorem Mach.ossd_modE (n : Nat) (f : Engine → Engine) (k0 : Nat) : (m.modE n f).ossd k0 = m.ossd k0 := rfl
@[simp] theorem Mach.tile_modE (n : Nat) (f : Engine → Engine) (k0 : Nat) : (m.modE n f).tile k0 = m.tile k0 := rfl
@[simp] theorem Mach.pl_modE (n : Nat) (f : Engine → Engine) (k0 : Nat) : (m.modE n f).pl k0 = m.pl k0 := rfl
@[simp] theorem Mach.hot_modE (n : Nat) (f : Engine → Engine)  : (m.modE n f).hot  = m.hot  := rfl
@[simp] theorem Mach.owner_modE (n : Nat) (f : Engine → Engine)  : (m.modE n f).owner  = m.owner  := rfl
@[simp] theorem Mach.ctxOn_modE (n : Nat) (f : Engine → Engine) (c0 : Nat) : (m.modE n f).ctxOn c0 = m.ctxOn c0 := rfl

/-! ## setSem -/

@[simp] theorem Mach.cyc_setSem (n : Nat) (x : Sem) : (m.setSem n x).cyc = m.cyc := rfl
@[simp] theorem Mach.free_setSem (n : Nat) (x : Sem) : (m.setSem n x).free = m.free := rfl
@[simp] theorem Mach.status_setSem (n : Nat) (x : Sem) : (m.setSem n x).status = m.status := rfl
@[simp] theorem Mach.dev_setSem (n : Nat) (x : Sem) : (m.setSem n x).dev = m.dev := rfl
@[simp] theorem Mach.tap_setSem (n : Nat) (x : Sem) : (m.setSem n x).tap = m.tap := rfl
@[simp] theorem Mach.regs_setSem (n : Nat) (x : Sem) : (m.setSem n x).regs = m.regs := rfl
@[simp] theorem Mach.shadow_setSem (n : Nat) (x : Sem) : (m.setSem n x).shadow = m.shadow := rfl
@[simp] theorem Mach.mem_setSem (n : Nat) (x : Sem) : (m.setSem n x).mem = m.mem := rfl
@[simp] theorem Mach.commits_setSem (n : Nat) (x : Sem) : (m.setSem n x).commits = m.commits := rfl
@[simp] theorem Mach.eng_setSem (n : Nat) (x : Sem) : (m.setSem n x).eng = m.eng := rfl
@[simp] theorem Mach.time_setSem (n : Nat) (x : Sem) : (m.setSem n x).time = m.time := rfl
@[simp] theorem Mach.flt_setSem (n : Nat) (x : Sem) : (m.setSem n x).flt = m.flt := rfl
@[simp] theorem Mach.grp_setSem (n : Nat) (x : Sem) : (m.setSem n x).grp = m.grp := rfl
@[simp] theorem Mach.lane_setSem (n : Nat) (x : Sem) : (m.setSem n x).lane = m.lane := rfl
@[simp] theorem Mach.qmg_setSem (n : Nat) (x : Sem) : (m.setSem n x).qmg = m.qmg := rfl
@[simp] theorem Mach.dram_setSem (n : Nat) (x : Sem) : (m.setSem n x).dram = m.dram := rfl
@[simp] theorem Mach.emt_setSem (n : Nat) (x : Sem) : (m.setSem n x).emt = m.emt := rfl
@[simp] theorem Mach.grd_setSem (n : Nat) (x : Sem) : (m.setSem n x).grd = m.grd := rfl
@[simp] theorem Mach.saf_setSem (n : Nat) (x : Sem) : (m.setSem n x).saf = m.saf := rfl
@[simp] theorem Mach.axis_setSem (n : Nat) (x : Sem) : (m.setSem n x).axis = m.axis := rfl
@[simp] theorem Mach.port_setSem (n : Nat) (x : Sem) : (m.setSem n x).port = m.port := rfl
@[simp] theorem Mach.tdc_setSem (n : Nat) (x : Sem) : (m.setSem n x).tdc = m.tdc := rfl
@[simp] theorem Mach.pool_setSem (n : Nat) (x : Sem) : (m.setSem n x).pool = m.pool := rfl
@[simp] theorem Mach.rej_setSem (n : Nat) (x : Sem) : (m.setSem n x).rej = m.rej := rfl
@[simp] theorem Mach.cam_setSem (n : Nat) (x : Sem) : (m.setSem n x).cam = m.cam := rfl
@[simp] theorem Mach.pts_setSem (n : Nat) (x : Sem) : (m.setSem n x).pts = m.pts := rfl
@[simp] theorem Mach.hk_setSem (n : Nat) (x : Sem) : (m.setSem n x).hk = m.hk := rfl
@[simp] theorem Mach.thm_setSem (n : Nat) (x : Sem) : (m.setSem n x).thm = m.thm := rfl
@[simp] theorem Mach.probe_setSem (n : Nat) (x : Sem) : (m.setSem n x).probe = m.probe := rfl
@[simp] theorem Mach.fusJob_setSem (n : Nat) (x : Sem) : (m.setSem n x).fusJob = m.fusJob := rfl
@[simp] theorem Mach.reg_setSem (n : Nat) (x : Sem) (b0 : Nat) : (m.setSem n x).reg b0 = m.reg b0 := rfl
@[simp] theorem Mach.fld_setSem (n : Nat) (x : Sem) (b0 : Nat) (g0 : Fld) : (m.setSem n x).fld b0 g0 = m.fld b0 g0 := rfl
@[simp] theorem Mach.flag_setSem (n : Nat) (x : Sem) (b0 : Nat) (g0 : Fld) : (m.setSem n x).flag b0 g0 = m.flag b0 g0 := rfl
@[simp] theorem Mach.shadowReg_setSem (n : Nat) (x : Sem) (b0 : Nat) : (m.setSem n x).shadowReg b0 = m.shadowReg b0 := rfl
@[simp] theorem Mach.e_setSem (n : Nat) (x : Sem) (k0 : Nat) : (m.setSem n x).e k0 = m.e k0 := rfl
@[simp] theorem Mach.g_setSem (n : Nat) (x : Sem) (k0 : Nat) : (m.setSem n x).g k0 = m.g k0 := rfl
@[simp] theorem Mach.l_setSem (n : Nat) (x : Sem) (k0 : Nat) : (m.setSem n x).l k0 = m.l k0 := rfl
@[simp] theorem Mach.q_setSem (n : Nat) (x : Sem) (k0 : Nat) : (m.setSem n x).q k0 = m.q k0 := rfl
@[simp] theorem Mach.trig_setSem (n : Nat) (x : Sem) (k0 : Nat) : (m.setSem n x).trig k0 = m.trig k0 := rfl
@[simp] theorem Mach.byte_setSem (n : Nat) (x : Sem) (b0 : Nat) : (m.setSem n x).byte b0 = m.byte b0 := rfl
@[simp] theorem Mach.p_setSem (n : Nat) (x : Sem) (k0 : Nat) : (m.setSem n x).p k0 = m.p k0 := rfl
@[simp] theorem Mach.ax_setSem (n : Nat) (x : Sem) (k0 : Nat) : (m.setSem n x).ax k0 = m.ax k0 := rfl
@[simp] theorem Mach.ossd_setSem (n : Nat) (x : Sem) (k0 : Nat) : (m.setSem n x).ossd k0 = m.ossd k0 := rfl
@[simp] theorem Mach.tile_setSem (n : Nat) (x : Sem) (k0 : Nat) : (m.setSem n x).tile k0 = m.tile k0 := rfl
@[simp] theorem Mach.pl_setSem (n : Nat) (x : Sem) (k0 : Nat) : (m.setSem n x).pl k0 = m.pl k0 := rfl
@[simp] theorem Mach.hot_setSem (n : Nat) (x : Sem)  : (m.setSem n x).hot  = m.hot  := rfl
@[simp] theorem Mach.owner_setSem (n : Nat) (x : Sem)  : (m.setSem n x).owner  = m.owner  := rfl
@[simp] theorem Mach.ctxOn_setSem (n : Nat) (x : Sem) (c0 : Nat) : (m.setSem n x).ctxOn c0 = m.ctxOn c0 := rfl

/-! ## modG -/

@[simp] theorem Mach.cyc_modG (g : Nat) (f : Group → Group) : (m.modG g f).cyc = m.cyc := rfl
@[simp] theorem Mach.free_modG (g : Nat) (f : Group → Group) : (m.modG g f).free = m.free := rfl
@[simp] theorem Mach.status_modG (g : Nat) (f : Group → Group) : (m.modG g f).status = m.status := rfl
@[simp] theorem Mach.dev_modG (g : Nat) (f : Group → Group) : (m.modG g f).dev = m.dev := rfl
@[simp] theorem Mach.tap_modG (g : Nat) (f : Group → Group) : (m.modG g f).tap = m.tap := rfl
@[simp] theorem Mach.regs_modG (g : Nat) (f : Group → Group) : (m.modG g f).regs = m.regs := rfl
@[simp] theorem Mach.shadow_modG (g : Nat) (f : Group → Group) : (m.modG g f).shadow = m.shadow := rfl
@[simp] theorem Mach.mem_modG (g : Nat) (f : Group → Group) : (m.modG g f).mem = m.mem := rfl
@[simp] theorem Mach.commits_modG (g : Nat) (f : Group → Group) : (m.modG g f).commits = m.commits := rfl
@[simp] theorem Mach.eng_modG (g : Nat) (f : Group → Group) : (m.modG g f).eng = m.eng := rfl
@[simp] theorem Mach.sems_modG (g : Nat) (f : Group → Group) : (m.modG g f).sems = m.sems := rfl
@[simp] theorem Mach.time_modG (g : Nat) (f : Group → Group) : (m.modG g f).time = m.time := rfl
@[simp] theorem Mach.flt_modG (g : Nat) (f : Group → Group) : (m.modG g f).flt = m.flt := rfl
@[simp] theorem Mach.lane_modG (g : Nat) (f : Group → Group) : (m.modG g f).lane = m.lane := rfl
@[simp] theorem Mach.qmg_modG (g : Nat) (f : Group → Group) : (m.modG g f).qmg = m.qmg := rfl
@[simp] theorem Mach.dram_modG (g : Nat) (f : Group → Group) : (m.modG g f).dram = m.dram := rfl
@[simp] theorem Mach.emt_modG (g : Nat) (f : Group → Group) : (m.modG g f).emt = m.emt := rfl
@[simp] theorem Mach.grd_modG (g : Nat) (f : Group → Group) : (m.modG g f).grd = m.grd := rfl
@[simp] theorem Mach.saf_modG (g : Nat) (f : Group → Group) : (m.modG g f).saf = m.saf := rfl
@[simp] theorem Mach.axis_modG (g : Nat) (f : Group → Group) : (m.modG g f).axis = m.axis := rfl
@[simp] theorem Mach.port_modG (g : Nat) (f : Group → Group) : (m.modG g f).port = m.port := rfl
@[simp] theorem Mach.tdc_modG (g : Nat) (f : Group → Group) : (m.modG g f).tdc = m.tdc := rfl
@[simp] theorem Mach.pool_modG (g : Nat) (f : Group → Group) : (m.modG g f).pool = m.pool := rfl
@[simp] theorem Mach.rej_modG (g : Nat) (f : Group → Group) : (m.modG g f).rej = m.rej := rfl
@[simp] theorem Mach.cam_modG (g : Nat) (f : Group → Group) : (m.modG g f).cam = m.cam := rfl
@[simp] theorem Mach.pts_modG (g : Nat) (f : Group → Group) : (m.modG g f).pts = m.pts := rfl
@[simp] theorem Mach.hk_modG (g : Nat) (f : Group → Group) : (m.modG g f).hk = m.hk := rfl
@[simp] theorem Mach.thm_modG (g : Nat) (f : Group → Group) : (m.modG g f).thm = m.thm := rfl
@[simp] theorem Mach.probe_modG (g : Nat) (f : Group → Group) : (m.modG g f).probe = m.probe := rfl
@[simp] theorem Mach.fusJob_modG (g : Nat) (f : Group → Group) : (m.modG g f).fusJob = m.fusJob := rfl
@[simp] theorem Mach.reg_modG (g : Nat) (f : Group → Group) (b0 : Nat) : (m.modG g f).reg b0 = m.reg b0 := rfl
@[simp] theorem Mach.fld_modG (g : Nat) (f : Group → Group) (b0 : Nat) (g0 : Fld) : (m.modG g f).fld b0 g0 = m.fld b0 g0 := rfl
@[simp] theorem Mach.flag_modG (g : Nat) (f : Group → Group) (b0 : Nat) (g0 : Fld) : (m.modG g f).flag b0 g0 = m.flag b0 g0 := rfl
@[simp] theorem Mach.shadowReg_modG (g : Nat) (f : Group → Group) (b0 : Nat) : (m.modG g f).shadowReg b0 = m.shadowReg b0 := rfl
@[simp] theorem Mach.e_modG (g : Nat) (f : Group → Group) (k0 : Nat) : (m.modG g f).e k0 = m.e k0 := rfl
@[simp] theorem Mach.sem_modG (g : Nat) (f : Group → Group) (k0 : Nat) : (m.modG g f).sem k0 = m.sem k0 := rfl
@[simp] theorem Mach.l_modG (g : Nat) (f : Group → Group) (k0 : Nat) : (m.modG g f).l k0 = m.l k0 := rfl
@[simp] theorem Mach.q_modG (g : Nat) (f : Group → Group) (k0 : Nat) : (m.modG g f).q k0 = m.q k0 := rfl
@[simp] theorem Mach.trig_modG (g : Nat) (f : Group → Group) (k0 : Nat) : (m.modG g f).trig k0 = m.trig k0 := rfl
@[simp] theorem Mach.byte_modG (g : Nat) (f : Group → Group) (b0 : Nat) : (m.modG g f).byte b0 = m.byte b0 := rfl
@[simp] theorem Mach.p_modG (g : Nat) (f : Group → Group) (k0 : Nat) : (m.modG g f).p k0 = m.p k0 := rfl
@[simp] theorem Mach.ax_modG (g : Nat) (f : Group → Group) (k0 : Nat) : (m.modG g f).ax k0 = m.ax k0 := rfl
@[simp] theorem Mach.ossd_modG (g : Nat) (f : Group → Group) (k0 : Nat) : (m.modG g f).ossd k0 = m.ossd k0 := rfl
@[simp] theorem Mach.tile_modG (g : Nat) (f : Group → Group) (k0 : Nat) : (m.modG g f).tile k0 = m.tile k0 := rfl
@[simp] theorem Mach.pl_modG (g : Nat) (f : Group → Group) (k0 : Nat) : (m.modG g f).pl k0 = m.pl k0 := rfl
@[simp] theorem Mach.hot_modG (g : Nat) (f : Group → Group)  : (m.modG g f).hot  = m.hot  := rfl
@[simp] theorem Mach.owner_modG (g : Nat) (f : Group → Group)  : (m.modG g f).owner  = m.owner  := rfl
@[simp] theorem Mach.ctxOn_modG (g : Nat) (f : Group → Group) (c0 : Nat) : (m.modG g f).ctxOn c0 = m.ctxOn c0 := rfl

/-! ## modL -/

@[simp] theorem Mach.cyc_modL (l : Nat) (f : Lane → Lane) : (m.modL l f).cyc = m.cyc := rfl
@[simp] theorem Mach.free_modL (l : Nat) (f : Lane → Lane) : (m.modL l f).free = m.free := rfl
@[simp] theorem Mach.status_modL (l : Nat) (f : Lane → Lane) : (m.modL l f).status = m.status := rfl
@[simp] theorem Mach.dev_modL (l : Nat) (f : Lane → Lane) : (m.modL l f).dev = m.dev := rfl
@[simp] theorem Mach.tap_modL (l : Nat) (f : Lane → Lane) : (m.modL l f).tap = m.tap := rfl
@[simp] theorem Mach.regs_modL (l : Nat) (f : Lane → Lane) : (m.modL l f).regs = m.regs := rfl
@[simp] theorem Mach.shadow_modL (l : Nat) (f : Lane → Lane) : (m.modL l f).shadow = m.shadow := rfl
@[simp] theorem Mach.mem_modL (l : Nat) (f : Lane → Lane) : (m.modL l f).mem = m.mem := rfl
@[simp] theorem Mach.commits_modL (l : Nat) (f : Lane → Lane) : (m.modL l f).commits = m.commits := rfl
@[simp] theorem Mach.eng_modL (l : Nat) (f : Lane → Lane) : (m.modL l f).eng = m.eng := rfl
@[simp] theorem Mach.sems_modL (l : Nat) (f : Lane → Lane) : (m.modL l f).sems = m.sems := rfl
@[simp] theorem Mach.time_modL (l : Nat) (f : Lane → Lane) : (m.modL l f).time = m.time := rfl
@[simp] theorem Mach.flt_modL (l : Nat) (f : Lane → Lane) : (m.modL l f).flt = m.flt := rfl
@[simp] theorem Mach.grp_modL (l : Nat) (f : Lane → Lane) : (m.modL l f).grp = m.grp := rfl
@[simp] theorem Mach.qmg_modL (l : Nat) (f : Lane → Lane) : (m.modL l f).qmg = m.qmg := rfl
@[simp] theorem Mach.dram_modL (l : Nat) (f : Lane → Lane) : (m.modL l f).dram = m.dram := rfl
@[simp] theorem Mach.emt_modL (l : Nat) (f : Lane → Lane) : (m.modL l f).emt = m.emt := rfl
@[simp] theorem Mach.grd_modL (l : Nat) (f : Lane → Lane) : (m.modL l f).grd = m.grd := rfl
@[simp] theorem Mach.saf_modL (l : Nat) (f : Lane → Lane) : (m.modL l f).saf = m.saf := rfl
@[simp] theorem Mach.axis_modL (l : Nat) (f : Lane → Lane) : (m.modL l f).axis = m.axis := rfl
@[simp] theorem Mach.port_modL (l : Nat) (f : Lane → Lane) : (m.modL l f).port = m.port := rfl
@[simp] theorem Mach.tdc_modL (l : Nat) (f : Lane → Lane) : (m.modL l f).tdc = m.tdc := rfl
@[simp] theorem Mach.pool_modL (l : Nat) (f : Lane → Lane) : (m.modL l f).pool = m.pool := rfl
@[simp] theorem Mach.rej_modL (l : Nat) (f : Lane → Lane) : (m.modL l f).rej = m.rej := rfl
@[simp] theorem Mach.cam_modL (l : Nat) (f : Lane → Lane) : (m.modL l f).cam = m.cam := rfl
@[simp] theorem Mach.pts_modL (l : Nat) (f : Lane → Lane) : (m.modL l f).pts = m.pts := rfl
@[simp] theorem Mach.hk_modL (l : Nat) (f : Lane → Lane) : (m.modL l f).hk = m.hk := rfl
@[simp] theorem Mach.thm_modL (l : Nat) (f : Lane → Lane) : (m.modL l f).thm = m.thm := rfl
@[simp] theorem Mach.probe_modL (l : Nat) (f : Lane → Lane) : (m.modL l f).probe = m.probe := rfl
@[simp] theorem Mach.fusJob_modL (l : Nat) (f : Lane → Lane) : (m.modL l f).fusJob = m.fusJob := rfl
@[simp] theorem Mach.reg_modL (l : Nat) (f : Lane → Lane) (b0 : Nat) : (m.modL l f).reg b0 = m.reg b0 := rfl
@[simp] theorem Mach.fld_modL (l : Nat) (f : Lane → Lane) (b0 : Nat) (g0 : Fld) : (m.modL l f).fld b0 g0 = m.fld b0 g0 := rfl
@[simp] theorem Mach.flag_modL (l : Nat) (f : Lane → Lane) (b0 : Nat) (g0 : Fld) : (m.modL l f).flag b0 g0 = m.flag b0 g0 := rfl
@[simp] theorem Mach.shadowReg_modL (l : Nat) (f : Lane → Lane) (b0 : Nat) : (m.modL l f).shadowReg b0 = m.shadowReg b0 := rfl
@[simp] theorem Mach.e_modL (l : Nat) (f : Lane → Lane) (k0 : Nat) : (m.modL l f).e k0 = m.e k0 := rfl
@[simp] theorem Mach.sem_modL (l : Nat) (f : Lane → Lane) (k0 : Nat) : (m.modL l f).sem k0 = m.sem k0 := rfl
@[simp] theorem Mach.g_modL (l : Nat) (f : Lane → Lane) (k0 : Nat) : (m.modL l f).g k0 = m.g k0 := rfl
@[simp] theorem Mach.q_modL (l : Nat) (f : Lane → Lane) (k0 : Nat) : (m.modL l f).q k0 = m.q k0 := rfl
@[simp] theorem Mach.trig_modL (l : Nat) (f : Lane → Lane) (k0 : Nat) : (m.modL l f).trig k0 = m.trig k0 := rfl
@[simp] theorem Mach.byte_modL (l : Nat) (f : Lane → Lane) (b0 : Nat) : (m.modL l f).byte b0 = m.byte b0 := rfl
@[simp] theorem Mach.p_modL (l : Nat) (f : Lane → Lane) (k0 : Nat) : (m.modL l f).p k0 = m.p k0 := rfl
@[simp] theorem Mach.ax_modL (l : Nat) (f : Lane → Lane) (k0 : Nat) : (m.modL l f).ax k0 = m.ax k0 := rfl
@[simp] theorem Mach.ossd_modL (l : Nat) (f : Lane → Lane) (k0 : Nat) : (m.modL l f).ossd k0 = m.ossd k0 := rfl
@[simp] theorem Mach.tile_modL (l : Nat) (f : Lane → Lane) (k0 : Nat) : (m.modL l f).tile k0 = m.tile k0 := rfl
@[simp] theorem Mach.pl_modL (l : Nat) (f : Lane → Lane) (k0 : Nat) : (m.modL l f).pl k0 = m.pl k0 := rfl
@[simp] theorem Mach.hot_modL (l : Nat) (f : Lane → Lane)  : (m.modL l f).hot  = m.hot  := rfl
@[simp] theorem Mach.owner_modL (l : Nat) (f : Lane → Lane)  : (m.modL l f).owner  = m.owner  := rfl
@[simp] theorem Mach.ctxOn_modL (l : Nat) (f : Lane → Lane) (c0 : Nat) : (m.modL l f).ctxOn c0 = m.ctxOn c0 := rfl

/-! ## modQ -/

@[simp] theorem Mach.cyc_modQ (q : Nat) (f : QState → QState) : (m.modQ q f).cyc = m.cyc := rfl
@[simp] theorem Mach.free_modQ (q : Nat) (f : QState → QState) : (m.modQ q f).free = m.free := rfl
@[simp] theorem Mach.status_modQ (q : Nat) (f : QState → QState) : (m.modQ q f).status = m.status := rfl
@[simp] theorem Mach.dev_modQ (q : Nat) (f : QState → QState) : (m.modQ q f).dev = m.dev := rfl
@[simp] theorem Mach.tap_modQ (q : Nat) (f : QState → QState) : (m.modQ q f).tap = m.tap := rfl
@[simp] theorem Mach.regs_modQ (q : Nat) (f : QState → QState) : (m.modQ q f).regs = m.regs := rfl
@[simp] theorem Mach.shadow_modQ (q : Nat) (f : QState → QState) : (m.modQ q f).shadow = m.shadow := rfl
@[simp] theorem Mach.mem_modQ (q : Nat) (f : QState → QState) : (m.modQ q f).mem = m.mem := rfl
@[simp] theorem Mach.commits_modQ (q : Nat) (f : QState → QState) : (m.modQ q f).commits = m.commits := rfl
@[simp] theorem Mach.eng_modQ (q : Nat) (f : QState → QState) : (m.modQ q f).eng = m.eng := rfl
@[simp] theorem Mach.sems_modQ (q : Nat) (f : QState → QState) : (m.modQ q f).sems = m.sems := rfl
@[simp] theorem Mach.time_modQ (q : Nat) (f : QState → QState) : (m.modQ q f).time = m.time := rfl
@[simp] theorem Mach.flt_modQ (q : Nat) (f : QState → QState) : (m.modQ q f).flt = m.flt := rfl
@[simp] theorem Mach.grp_modQ (q : Nat) (f : QState → QState) : (m.modQ q f).grp = m.grp := rfl
@[simp] theorem Mach.lane_modQ (q : Nat) (f : QState → QState) : (m.modQ q f).lane = m.lane := rfl
@[simp] theorem Mach.dram_modQ (q : Nat) (f : QState → QState) : (m.modQ q f).dram = m.dram := rfl
@[simp] theorem Mach.emt_modQ (q : Nat) (f : QState → QState) : (m.modQ q f).emt = m.emt := rfl
@[simp] theorem Mach.grd_modQ (q : Nat) (f : QState → QState) : (m.modQ q f).grd = m.grd := rfl
@[simp] theorem Mach.saf_modQ (q : Nat) (f : QState → QState) : (m.modQ q f).saf = m.saf := rfl
@[simp] theorem Mach.axis_modQ (q : Nat) (f : QState → QState) : (m.modQ q f).axis = m.axis := rfl
@[simp] theorem Mach.port_modQ (q : Nat) (f : QState → QState) : (m.modQ q f).port = m.port := rfl
@[simp] theorem Mach.tdc_modQ (q : Nat) (f : QState → QState) : (m.modQ q f).tdc = m.tdc := rfl
@[simp] theorem Mach.pool_modQ (q : Nat) (f : QState → QState) : (m.modQ q f).pool = m.pool := rfl
@[simp] theorem Mach.rej_modQ (q : Nat) (f : QState → QState) : (m.modQ q f).rej = m.rej := rfl
@[simp] theorem Mach.cam_modQ (q : Nat) (f : QState → QState) : (m.modQ q f).cam = m.cam := rfl
@[simp] theorem Mach.pts_modQ (q : Nat) (f : QState → QState) : (m.modQ q f).pts = m.pts := rfl
@[simp] theorem Mach.hk_modQ (q : Nat) (f : QState → QState) : (m.modQ q f).hk = m.hk := rfl
@[simp] theorem Mach.thm_modQ (q : Nat) (f : QState → QState) : (m.modQ q f).thm = m.thm := rfl
@[simp] theorem Mach.probe_modQ (q : Nat) (f : QState → QState) : (m.modQ q f).probe = m.probe := rfl
@[simp] theorem Mach.fusJob_modQ (q : Nat) (f : QState → QState) : (m.modQ q f).fusJob = m.fusJob := rfl
@[simp] theorem Mach.reg_modQ (q : Nat) (f : QState → QState) (b0 : Nat) : (m.modQ q f).reg b0 = m.reg b0 := rfl
@[simp] theorem Mach.fld_modQ (q : Nat) (f : QState → QState) (b0 : Nat) (g0 : Fld) : (m.modQ q f).fld b0 g0 = m.fld b0 g0 := rfl
@[simp] theorem Mach.flag_modQ (q : Nat) (f : QState → QState) (b0 : Nat) (g0 : Fld) : (m.modQ q f).flag b0 g0 = m.flag b0 g0 := rfl
@[simp] theorem Mach.shadowReg_modQ (q : Nat) (f : QState → QState) (b0 : Nat) : (m.modQ q f).shadowReg b0 = m.shadowReg b0 := rfl
@[simp] theorem Mach.e_modQ (q : Nat) (f : QState → QState) (k0 : Nat) : (m.modQ q f).e k0 = m.e k0 := rfl
@[simp] theorem Mach.sem_modQ (q : Nat) (f : QState → QState) (k0 : Nat) : (m.modQ q f).sem k0 = m.sem k0 := rfl
@[simp] theorem Mach.g_modQ (q : Nat) (f : QState → QState) (k0 : Nat) : (m.modQ q f).g k0 = m.g k0 := rfl
@[simp] theorem Mach.l_modQ (q : Nat) (f : QState → QState) (k0 : Nat) : (m.modQ q f).l k0 = m.l k0 := rfl
@[simp] theorem Mach.trig_modQ (q : Nat) (f : QState → QState) (k0 : Nat) : (m.modQ q f).trig k0 = m.trig k0 := rfl
@[simp] theorem Mach.byte_modQ (q : Nat) (f : QState → QState) (b0 : Nat) : (m.modQ q f).byte b0 = m.byte b0 := rfl
@[simp] theorem Mach.p_modQ (q : Nat) (f : QState → QState) (k0 : Nat) : (m.modQ q f).p k0 = m.p k0 := rfl
@[simp] theorem Mach.ax_modQ (q : Nat) (f : QState → QState) (k0 : Nat) : (m.modQ q f).ax k0 = m.ax k0 := rfl
@[simp] theorem Mach.ossd_modQ (q : Nat) (f : QState → QState) (k0 : Nat) : (m.modQ q f).ossd k0 = m.ossd k0 := rfl
@[simp] theorem Mach.tile_modQ (q : Nat) (f : QState → QState) (k0 : Nat) : (m.modQ q f).tile k0 = m.tile k0 := rfl
@[simp] theorem Mach.pl_modQ (q : Nat) (f : QState → QState) (k0 : Nat) : (m.modQ q f).pl k0 = m.pl k0 := rfl
@[simp] theorem Mach.hot_modQ (q : Nat) (f : QState → QState)  : (m.modQ q f).hot  = m.hot  := rfl
@[simp] theorem Mach.owner_modQ (q : Nat) (f : QState → QState)  : (m.modQ q f).owner  = m.owner  := rfl
@[simp] theorem Mach.ctxOn_modQ (q : Nat) (f : QState → QState) (c0 : Nat) : (m.modQ q f).ctxOn c0 = m.ctxOn c0 := rfl

/-! ## setTrig -/

@[simp] theorem Mach.cyc_setTrig (t : Nat) (x : Trig) : (m.setTrig t x).cyc = m.cyc := rfl
@[simp] theorem Mach.free_setTrig (t : Nat) (x : Trig) : (m.setTrig t x).free = m.free := rfl
@[simp] theorem Mach.status_setTrig (t : Nat) (x : Trig) : (m.setTrig t x).status = m.status := rfl
@[simp] theorem Mach.dev_setTrig (t : Nat) (x : Trig) : (m.setTrig t x).dev = m.dev := rfl
@[simp] theorem Mach.tap_setTrig (t : Nat) (x : Trig) : (m.setTrig t x).tap = m.tap := rfl
@[simp] theorem Mach.regs_setTrig (t : Nat) (x : Trig) : (m.setTrig t x).regs = m.regs := rfl
@[simp] theorem Mach.shadow_setTrig (t : Nat) (x : Trig) : (m.setTrig t x).shadow = m.shadow := rfl
@[simp] theorem Mach.mem_setTrig (t : Nat) (x : Trig) : (m.setTrig t x).mem = m.mem := rfl
@[simp] theorem Mach.commits_setTrig (t : Nat) (x : Trig) : (m.setTrig t x).commits = m.commits := rfl
@[simp] theorem Mach.eng_setTrig (t : Nat) (x : Trig) : (m.setTrig t x).eng = m.eng := rfl
@[simp] theorem Mach.sems_setTrig (t : Nat) (x : Trig) : (m.setTrig t x).sems = m.sems := rfl
@[simp] theorem Mach.flt_setTrig (t : Nat) (x : Trig) : (m.setTrig t x).flt = m.flt := rfl
@[simp] theorem Mach.grp_setTrig (t : Nat) (x : Trig) : (m.setTrig t x).grp = m.grp := rfl
@[simp] theorem Mach.lane_setTrig (t : Nat) (x : Trig) : (m.setTrig t x).lane = m.lane := rfl
@[simp] theorem Mach.qmg_setTrig (t : Nat) (x : Trig) : (m.setTrig t x).qmg = m.qmg := rfl
@[simp] theorem Mach.dram_setTrig (t : Nat) (x : Trig) : (m.setTrig t x).dram = m.dram := rfl
@[simp] theorem Mach.emt_setTrig (t : Nat) (x : Trig) : (m.setTrig t x).emt = m.emt := rfl
@[simp] theorem Mach.grd_setTrig (t : Nat) (x : Trig) : (m.setTrig t x).grd = m.grd := rfl
@[simp] theorem Mach.saf_setTrig (t : Nat) (x : Trig) : (m.setTrig t x).saf = m.saf := rfl
@[simp] theorem Mach.axis_setTrig (t : Nat) (x : Trig) : (m.setTrig t x).axis = m.axis := rfl
@[simp] theorem Mach.port_setTrig (t : Nat) (x : Trig) : (m.setTrig t x).port = m.port := rfl
@[simp] theorem Mach.tdc_setTrig (t : Nat) (x : Trig) : (m.setTrig t x).tdc = m.tdc := rfl
@[simp] theorem Mach.pool_setTrig (t : Nat) (x : Trig) : (m.setTrig t x).pool = m.pool := rfl
@[simp] theorem Mach.rej_setTrig (t : Nat) (x : Trig) : (m.setTrig t x).rej = m.rej := rfl
@[simp] theorem Mach.cam_setTrig (t : Nat) (x : Trig) : (m.setTrig t x).cam = m.cam := rfl
@[simp] theorem Mach.pts_setTrig (t : Nat) (x : Trig) : (m.setTrig t x).pts = m.pts := rfl
@[simp] theorem Mach.hk_setTrig (t : Nat) (x : Trig) : (m.setTrig t x).hk = m.hk := rfl
@[simp] theorem Mach.thm_setTrig (t : Nat) (x : Trig) : (m.setTrig t x).thm = m.thm := rfl
@[simp] theorem Mach.probe_setTrig (t : Nat) (x : Trig) : (m.setTrig t x).probe = m.probe := rfl
@[simp] theorem Mach.fusJob_setTrig (t : Nat) (x : Trig) : (m.setTrig t x).fusJob = m.fusJob := rfl
@[simp] theorem Mach.reg_setTrig (t : Nat) (x : Trig) (b0 : Nat) : (m.setTrig t x).reg b0 = m.reg b0 := rfl
@[simp] theorem Mach.fld_setTrig (t : Nat) (x : Trig) (b0 : Nat) (g0 : Fld) : (m.setTrig t x).fld b0 g0 = m.fld b0 g0 := rfl
@[simp] theorem Mach.flag_setTrig (t : Nat) (x : Trig) (b0 : Nat) (g0 : Fld) : (m.setTrig t x).flag b0 g0 = m.flag b0 g0 := rfl
@[simp] theorem Mach.shadowReg_setTrig (t : Nat) (x : Trig) (b0 : Nat) : (m.setTrig t x).shadowReg b0 = m.shadowReg b0 := rfl
@[simp] theorem Mach.e_setTrig (t : Nat) (x : Trig) (k0 : Nat) : (m.setTrig t x).e k0 = m.e k0 := rfl
@[simp] theorem Mach.sem_setTrig (t : Nat) (x : Trig) (k0 : Nat) : (m.setTrig t x).sem k0 = m.sem k0 := rfl
@[simp] theorem Mach.g_setTrig (t : Nat) (x : Trig) (k0 : Nat) : (m.setTrig t x).g k0 = m.g k0 := rfl
@[simp] theorem Mach.l_setTrig (t : Nat) (x : Trig) (k0 : Nat) : (m.setTrig t x).l k0 = m.l k0 := rfl
@[simp] theorem Mach.q_setTrig (t : Nat) (x : Trig) (k0 : Nat) : (m.setTrig t x).q k0 = m.q k0 := rfl
@[simp] theorem Mach.byte_setTrig (t : Nat) (x : Trig) (b0 : Nat) : (m.setTrig t x).byte b0 = m.byte b0 := rfl
@[simp] theorem Mach.p_setTrig (t : Nat) (x : Trig) (k0 : Nat) : (m.setTrig t x).p k0 = m.p k0 := rfl
@[simp] theorem Mach.ax_setTrig (t : Nat) (x : Trig) (k0 : Nat) : (m.setTrig t x).ax k0 = m.ax k0 := rfl
@[simp] theorem Mach.ossd_setTrig (t : Nat) (x : Trig) (k0 : Nat) : (m.setTrig t x).ossd k0 = m.ossd k0 := rfl
@[simp] theorem Mach.tile_setTrig (t : Nat) (x : Trig) (k0 : Nat) : (m.setTrig t x).tile k0 = m.tile k0 := rfl
@[simp] theorem Mach.pl_setTrig (t : Nat) (x : Trig) (k0 : Nat) : (m.setTrig t x).pl k0 = m.pl k0 := rfl
@[simp] theorem Mach.hot_setTrig (t : Nat) (x : Trig)  : (m.setTrig t x).hot  = m.hot  := rfl
@[simp] theorem Mach.owner_setTrig (t : Nat) (x : Trig)  : (m.setTrig t x).owner  = m.owner  := rfl
@[simp] theorem Mach.ctxOn_setTrig (t : Nat) (x : Trig) (c0 : Nat) : (m.setTrig t x).ctxOn c0 = m.ctxOn c0 := rfl

/-! ## setByte -/

@[simp] theorem Mach.cyc_setByte (a : Nat) (b : Byte) : (m.setByte a b).cyc = m.cyc := rfl
@[simp] theorem Mach.free_setByte (a : Nat) (b : Byte) : (m.setByte a b).free = m.free := rfl
@[simp] theorem Mach.status_setByte (a : Nat) (b : Byte) : (m.setByte a b).status = m.status := rfl
@[simp] theorem Mach.dev_setByte (a : Nat) (b : Byte) : (m.setByte a b).dev = m.dev := rfl
@[simp] theorem Mach.tap_setByte (a : Nat) (b : Byte) : (m.setByte a b).tap = m.tap := rfl
@[simp] theorem Mach.regs_setByte (a : Nat) (b : Byte) : (m.setByte a b).regs = m.regs := rfl
@[simp] theorem Mach.shadow_setByte (a : Nat) (b : Byte) : (m.setByte a b).shadow = m.shadow := rfl
@[simp] theorem Mach.commits_setByte (a : Nat) (b : Byte) : (m.setByte a b).commits = m.commits := rfl
@[simp] theorem Mach.eng_setByte (a : Nat) (b : Byte) : (m.setByte a b).eng = m.eng := rfl
@[simp] theorem Mach.sems_setByte (a : Nat) (b : Byte) : (m.setByte a b).sems = m.sems := rfl
@[simp] theorem Mach.time_setByte (a : Nat) (b : Byte) : (m.setByte a b).time = m.time := rfl
@[simp] theorem Mach.flt_setByte (a : Nat) (b : Byte) : (m.setByte a b).flt = m.flt := rfl
@[simp] theorem Mach.grp_setByte (a : Nat) (b : Byte) : (m.setByte a b).grp = m.grp := rfl
@[simp] theorem Mach.lane_setByte (a : Nat) (b : Byte) : (m.setByte a b).lane = m.lane := rfl
@[simp] theorem Mach.qmg_setByte (a : Nat) (b : Byte) : (m.setByte a b).qmg = m.qmg := rfl
@[simp] theorem Mach.dram_setByte (a : Nat) (b : Byte) : (m.setByte a b).dram = m.dram := rfl
@[simp] theorem Mach.emt_setByte (a : Nat) (b : Byte) : (m.setByte a b).emt = m.emt := rfl
@[simp] theorem Mach.grd_setByte (a : Nat) (b : Byte) : (m.setByte a b).grd = m.grd := rfl
@[simp] theorem Mach.saf_setByte (a : Nat) (b : Byte) : (m.setByte a b).saf = m.saf := rfl
@[simp] theorem Mach.axis_setByte (a : Nat) (b : Byte) : (m.setByte a b).axis = m.axis := rfl
@[simp] theorem Mach.port_setByte (a : Nat) (b : Byte) : (m.setByte a b).port = m.port := rfl
@[simp] theorem Mach.tdc_setByte (a : Nat) (b : Byte) : (m.setByte a b).tdc = m.tdc := rfl
@[simp] theorem Mach.pool_setByte (a : Nat) (b : Byte) : (m.setByte a b).pool = m.pool := rfl
@[simp] theorem Mach.rej_setByte (a : Nat) (b : Byte) : (m.setByte a b).rej = m.rej := rfl
@[simp] theorem Mach.cam_setByte (a : Nat) (b : Byte) : (m.setByte a b).cam = m.cam := rfl
@[simp] theorem Mach.pts_setByte (a : Nat) (b : Byte) : (m.setByte a b).pts = m.pts := rfl
@[simp] theorem Mach.hk_setByte (a : Nat) (b : Byte) : (m.setByte a b).hk = m.hk := rfl
@[simp] theorem Mach.thm_setByte (a : Nat) (b : Byte) : (m.setByte a b).thm = m.thm := rfl
@[simp] theorem Mach.probe_setByte (a : Nat) (b : Byte) : (m.setByte a b).probe = m.probe := rfl
@[simp] theorem Mach.fusJob_setByte (a : Nat) (b : Byte) : (m.setByte a b).fusJob = m.fusJob := rfl
@[simp] theorem Mach.reg_setByte (a : Nat) (b : Byte) (b0 : Nat) : (m.setByte a b).reg b0 = m.reg b0 := rfl
@[simp] theorem Mach.fld_setByte (a : Nat) (b : Byte) (b0 : Nat) (g0 : Fld) : (m.setByte a b).fld b0 g0 = m.fld b0 g0 := rfl
@[simp] theorem Mach.flag_setByte (a : Nat) (b : Byte) (b0 : Nat) (g0 : Fld) : (m.setByte a b).flag b0 g0 = m.flag b0 g0 := rfl
@[simp] theorem Mach.shadowReg_setByte (a : Nat) (b : Byte) (b0 : Nat) : (m.setByte a b).shadowReg b0 = m.shadowReg b0 := rfl
@[simp] theorem Mach.e_setByte (a : Nat) (b : Byte) (k0 : Nat) : (m.setByte a b).e k0 = m.e k0 := rfl
@[simp] theorem Mach.sem_setByte (a : Nat) (b : Byte) (k0 : Nat) : (m.setByte a b).sem k0 = m.sem k0 := rfl
@[simp] theorem Mach.g_setByte (a : Nat) (b : Byte) (k0 : Nat) : (m.setByte a b).g k0 = m.g k0 := rfl
@[simp] theorem Mach.l_setByte (a : Nat) (b : Byte) (k0 : Nat) : (m.setByte a b).l k0 = m.l k0 := rfl
@[simp] theorem Mach.q_setByte (a : Nat) (b : Byte) (k0 : Nat) : (m.setByte a b).q k0 = m.q k0 := rfl
@[simp] theorem Mach.trig_setByte (a : Nat) (b : Byte) (k0 : Nat) : (m.setByte a b).trig k0 = m.trig k0 := rfl
@[simp] theorem Mach.p_setByte (a : Nat) (b : Byte) (k0 : Nat) : (m.setByte a b).p k0 = m.p k0 := rfl
@[simp] theorem Mach.ax_setByte (a : Nat) (b : Byte) (k0 : Nat) : (m.setByte a b).ax k0 = m.ax k0 := rfl
@[simp] theorem Mach.ossd_setByte (a : Nat) (b : Byte) (k0 : Nat) : (m.setByte a b).ossd k0 = m.ossd k0 := rfl
@[simp] theorem Mach.tile_setByte (a : Nat) (b : Byte) (k0 : Nat) : (m.setByte a b).tile k0 = m.tile k0 := rfl
@[simp] theorem Mach.pl_setByte (a : Nat) (b : Byte) (k0 : Nat) : (m.setByte a b).pl k0 = m.pl k0 := rfl
@[simp] theorem Mach.hot_setByte (a : Nat) (b : Byte)  : (m.setByte a b).hot  = m.hot  := rfl
@[simp] theorem Mach.owner_setByte (a : Nat) (b : Byte)  : (m.setByte a b).owner  = m.owner  := rfl
@[simp] theorem Mach.ctxOn_setByte (a : Nat) (b : Byte) (c0 : Nat) : (m.setByte a b).ctxOn c0 = m.ctxOn c0 := rfl

/-! ## advance -/

@[simp] theorem Mach.free_advance (n : Nat) : (m.advance n).free = m.free := rfl
@[simp] theorem Mach.status_advance (n : Nat) : (m.advance n).status = m.status := rfl
@[simp] theorem Mach.dev_advance (n : Nat) : (m.advance n).dev = m.dev := rfl
@[simp] theorem Mach.tap_advance (n : Nat) : (m.advance n).tap = m.tap := rfl
@[simp] theorem Mach.regs_advance (n : Nat) : (m.advance n).regs = m.regs := rfl
@[simp] theorem Mach.shadow_advance (n : Nat) : (m.advance n).shadow = m.shadow := rfl
@[simp] theorem Mach.mem_advance (n : Nat) : (m.advance n).mem = m.mem := rfl
@[simp] theorem Mach.commits_advance (n : Nat) : (m.advance n).commits = m.commits := rfl
@[simp] theorem Mach.eng_advance (n : Nat) : (m.advance n).eng = m.eng := rfl
@[simp] theorem Mach.sems_advance (n : Nat) : (m.advance n).sems = m.sems := rfl
@[simp] theorem Mach.flt_advance (n : Nat) : (m.advance n).flt = m.flt := rfl
@[simp] theorem Mach.grp_advance (n : Nat) : (m.advance n).grp = m.grp := rfl
@[simp] theorem Mach.lane_advance (n : Nat) : (m.advance n).lane = m.lane := rfl
@[simp] theorem Mach.qmg_advance (n : Nat) : (m.advance n).qmg = m.qmg := rfl
@[simp] theorem Mach.dram_advance (n : Nat) : (m.advance n).dram = m.dram := rfl
@[simp] theorem Mach.emt_advance (n : Nat) : (m.advance n).emt = m.emt := rfl
@[simp] theorem Mach.grd_advance (n : Nat) : (m.advance n).grd = m.grd := rfl
@[simp] theorem Mach.saf_advance (n : Nat) : (m.advance n).saf = m.saf := rfl
@[simp] theorem Mach.axis_advance (n : Nat) : (m.advance n).axis = m.axis := rfl
@[simp] theorem Mach.port_advance (n : Nat) : (m.advance n).port = m.port := rfl
@[simp] theorem Mach.tdc_advance (n : Nat) : (m.advance n).tdc = m.tdc := rfl
@[simp] theorem Mach.pool_advance (n : Nat) : (m.advance n).pool = m.pool := rfl
@[simp] theorem Mach.rej_advance (n : Nat) : (m.advance n).rej = m.rej := rfl
@[simp] theorem Mach.cam_advance (n : Nat) : (m.advance n).cam = m.cam := rfl
@[simp] theorem Mach.pts_advance (n : Nat) : (m.advance n).pts = m.pts := rfl
@[simp] theorem Mach.hk_advance (n : Nat) : (m.advance n).hk = m.hk := rfl
@[simp] theorem Mach.thm_advance (n : Nat) : (m.advance n).thm = m.thm := rfl
@[simp] theorem Mach.probe_advance (n : Nat) : (m.advance n).probe = m.probe := rfl
@[simp] theorem Mach.fusJob_advance (n : Nat) : (m.advance n).fusJob = m.fusJob := rfl
@[simp] theorem Mach.reg_advance (n : Nat) (b0 : Nat) : (m.advance n).reg b0 = m.reg b0 := rfl
@[simp] theorem Mach.fld_advance (n : Nat) (b0 : Nat) (g0 : Fld) : (m.advance n).fld b0 g0 = m.fld b0 g0 := rfl
@[simp] theorem Mach.flag_advance (n : Nat) (b0 : Nat) (g0 : Fld) : (m.advance n).flag b0 g0 = m.flag b0 g0 := rfl
@[simp] theorem Mach.shadowReg_advance (n : Nat) (b0 : Nat) : (m.advance n).shadowReg b0 = m.shadowReg b0 := rfl
@[simp] theorem Mach.e_advance (n : Nat) (k0 : Nat) : (m.advance n).e k0 = m.e k0 := rfl
@[simp] theorem Mach.sem_advance (n : Nat) (k0 : Nat) : (m.advance n).sem k0 = m.sem k0 := rfl
@[simp] theorem Mach.g_advance (n : Nat) (k0 : Nat) : (m.advance n).g k0 = m.g k0 := rfl
@[simp] theorem Mach.l_advance (n : Nat) (k0 : Nat) : (m.advance n).l k0 = m.l k0 := rfl
@[simp] theorem Mach.q_advance (n : Nat) (k0 : Nat) : (m.advance n).q k0 = m.q k0 := rfl
@[simp] theorem Mach.byte_advance (n : Nat) (b0 : Nat) : (m.advance n).byte b0 = m.byte b0 := rfl
@[simp] theorem Mach.p_advance (n : Nat) (k0 : Nat) : (m.advance n).p k0 = m.p k0 := rfl
@[simp] theorem Mach.ax_advance (n : Nat) (k0 : Nat) : (m.advance n).ax k0 = m.ax k0 := rfl
@[simp] theorem Mach.ossd_advance (n : Nat) (k0 : Nat) : (m.advance n).ossd k0 = m.ossd k0 := rfl
@[simp] theorem Mach.tile_advance (n : Nat) (k0 : Nat) : (m.advance n).tile k0 = m.tile k0 := rfl
@[simp] theorem Mach.pl_advance (n : Nat) (k0 : Nat) : (m.advance n).pl k0 = m.pl k0 := rfl
@[simp] theorem Mach.hot_advance (n : Nat)  : (m.advance n).hot  = m.hot  := rfl
@[simp] theorem Mach.owner_advance (n : Nat)  : (m.advance n).owner  = m.owner  := rfl
@[simp] theorem Mach.ctxOn_advance (n : Nat) (c0 : Nat) : (m.advance n).ctxOn c0 = m.ctxOn c0 := rfl

/-! ## done -/

@[simp] theorem Mach.cyc_done (st : Nat) : (m.done st).cyc = m.cyc := rfl
@[simp] theorem Mach.free_done (st : Nat) : (m.done st).free = m.free := rfl
@[simp] theorem Mach.dev_done (st : Nat) : (m.done st).dev = m.dev := rfl
@[simp] theorem Mach.tap_done (st : Nat) : (m.done st).tap = m.tap := rfl
@[simp] theorem Mach.regs_done (st : Nat) : (m.done st).regs = m.regs := rfl
@[simp] theorem Mach.shadow_done (st : Nat) : (m.done st).shadow = m.shadow := rfl
@[simp] theorem Mach.mem_done (st : Nat) : (m.done st).mem = m.mem := rfl
@[simp] theorem Mach.commits_done (st : Nat) : (m.done st).commits = m.commits := rfl
@[simp] theorem Mach.eng_done (st : Nat) : (m.done st).eng = m.eng := rfl
@[simp] theorem Mach.sems_done (st : Nat) : (m.done st).sems = m.sems := rfl
@[simp] theorem Mach.time_done (st : Nat) : (m.done st).time = m.time := rfl
@[simp] theorem Mach.flt_done (st : Nat) : (m.done st).flt = m.flt := rfl
@[simp] theorem Mach.grp_done (st : Nat) : (m.done st).grp = m.grp := rfl
@[simp] theorem Mach.lane_done (st : Nat) : (m.done st).lane = m.lane := rfl
@[simp] theorem Mach.qmg_done (st : Nat) : (m.done st).qmg = m.qmg := rfl
@[simp] theorem Mach.dram_done (st : Nat) : (m.done st).dram = m.dram := rfl
@[simp] theorem Mach.emt_done (st : Nat) : (m.done st).emt = m.emt := rfl
@[simp] theorem Mach.grd_done (st : Nat) : (m.done st).grd = m.grd := rfl
@[simp] theorem Mach.saf_done (st : Nat) : (m.done st).saf = m.saf := rfl
@[simp] theorem Mach.axis_done (st : Nat) : (m.done st).axis = m.axis := rfl
@[simp] theorem Mach.port_done (st : Nat) : (m.done st).port = m.port := rfl
@[simp] theorem Mach.tdc_done (st : Nat) : (m.done st).tdc = m.tdc := rfl
@[simp] theorem Mach.pool_done (st : Nat) : (m.done st).pool = m.pool := rfl
@[simp] theorem Mach.rej_done (st : Nat) : (m.done st).rej = m.rej := rfl
@[simp] theorem Mach.cam_done (st : Nat) : (m.done st).cam = m.cam := rfl
@[simp] theorem Mach.pts_done (st : Nat) : (m.done st).pts = m.pts := rfl
@[simp] theorem Mach.hk_done (st : Nat) : (m.done st).hk = m.hk := rfl
@[simp] theorem Mach.thm_done (st : Nat) : (m.done st).thm = m.thm := rfl
@[simp] theorem Mach.probe_done (st : Nat) : (m.done st).probe = m.probe := rfl
@[simp] theorem Mach.fusJob_done (st : Nat) : (m.done st).fusJob = m.fusJob := rfl
@[simp] theorem Mach.reg_done (st : Nat) (b0 : Nat) : (m.done st).reg b0 = m.reg b0 := rfl
@[simp] theorem Mach.fld_done (st : Nat) (b0 : Nat) (g0 : Fld) : (m.done st).fld b0 g0 = m.fld b0 g0 := rfl
@[simp] theorem Mach.flag_done (st : Nat) (b0 : Nat) (g0 : Fld) : (m.done st).flag b0 g0 = m.flag b0 g0 := rfl
@[simp] theorem Mach.shadowReg_done (st : Nat) (b0 : Nat) : (m.done st).shadowReg b0 = m.shadowReg b0 := rfl
@[simp] theorem Mach.e_done (st : Nat) (k0 : Nat) : (m.done st).e k0 = m.e k0 := rfl
@[simp] theorem Mach.sem_done (st : Nat) (k0 : Nat) : (m.done st).sem k0 = m.sem k0 := rfl
@[simp] theorem Mach.g_done (st : Nat) (k0 : Nat) : (m.done st).g k0 = m.g k0 := rfl
@[simp] theorem Mach.l_done (st : Nat) (k0 : Nat) : (m.done st).l k0 = m.l k0 := rfl
@[simp] theorem Mach.q_done (st : Nat) (k0 : Nat) : (m.done st).q k0 = m.q k0 := rfl
@[simp] theorem Mach.trig_done (st : Nat) (k0 : Nat) : (m.done st).trig k0 = m.trig k0 := rfl
@[simp] theorem Mach.byte_done (st : Nat) (b0 : Nat) : (m.done st).byte b0 = m.byte b0 := rfl
@[simp] theorem Mach.p_done (st : Nat) (k0 : Nat) : (m.done st).p k0 = m.p k0 := rfl
@[simp] theorem Mach.ax_done (st : Nat) (k0 : Nat) : (m.done st).ax k0 = m.ax k0 := rfl
@[simp] theorem Mach.ossd_done (st : Nat) (k0 : Nat) : (m.done st).ossd k0 = m.ossd k0 := rfl
@[simp] theorem Mach.tile_done (st : Nat) (k0 : Nat) : (m.done st).tile k0 = m.tile k0 := rfl
@[simp] theorem Mach.pl_done (st : Nat) (k0 : Nat) : (m.done st).pl k0 = m.pl k0 := rfl
@[simp] theorem Mach.hot_done (st : Nat)  : (m.done st).hot  = m.hot  := rfl
@[simp] theorem Mach.owner_done (st : Nat)  : (m.done st).owner  = m.owner  := rfl
@[simp] theorem Mach.ctxOn_done (st : Nat) (c0 : Nat) : (m.done st).ctxOn c0 = m.ctxOn c0 := rfl

/-! ## modP -/

@[simp] theorem Mach.cyc_modP (n : Nat) (f : Port → Port) : (m.modP n f).cyc = m.cyc := rfl
@[simp] theorem Mach.free_modP (n : Nat) (f : Port → Port) : (m.modP n f).free = m.free := rfl
@[simp] theorem Mach.status_modP (n : Nat) (f : Port → Port) : (m.modP n f).status = m.status := rfl
@[simp] theorem Mach.dev_modP (n : Nat) (f : Port → Port) : (m.modP n f).dev = m.dev := rfl
@[simp] theorem Mach.tap_modP (n : Nat) (f : Port → Port) : (m.modP n f).tap = m.tap := rfl
@[simp] theorem Mach.regs_modP (n : Nat) (f : Port → Port) : (m.modP n f).regs = m.regs := rfl
@[simp] theorem Mach.shadow_modP (n : Nat) (f : Port → Port) : (m.modP n f).shadow = m.shadow := rfl
@[simp] theorem Mach.mem_modP (n : Nat) (f : Port → Port) : (m.modP n f).mem = m.mem := rfl
@[simp] theorem Mach.commits_modP (n : Nat) (f : Port → Port) : (m.modP n f).commits = m.commits := rfl
@[simp] theorem Mach.eng_modP (n : Nat) (f : Port → Port) : (m.modP n f).eng = m.eng := rfl
@[simp] theorem Mach.sems_modP (n : Nat) (f : Port → Port) : (m.modP n f).sems = m.sems := rfl
@[simp] theorem Mach.time_modP (n : Nat) (f : Port → Port) : (m.modP n f).time = m.time := rfl
@[simp] theorem Mach.flt_modP (n : Nat) (f : Port → Port) : (m.modP n f).flt = m.flt := rfl
@[simp] theorem Mach.grp_modP (n : Nat) (f : Port → Port) : (m.modP n f).grp = m.grp := rfl
@[simp] theorem Mach.lane_modP (n : Nat) (f : Port → Port) : (m.modP n f).lane = m.lane := rfl
@[simp] theorem Mach.qmg_modP (n : Nat) (f : Port → Port) : (m.modP n f).qmg = m.qmg := rfl
@[simp] theorem Mach.dram_modP (n : Nat) (f : Port → Port) : (m.modP n f).dram = m.dram := rfl
@[simp] theorem Mach.emt_modP (n : Nat) (f : Port → Port) : (m.modP n f).emt = m.emt := rfl
@[simp] theorem Mach.grd_modP (n : Nat) (f : Port → Port) : (m.modP n f).grd = m.grd := rfl
@[simp] theorem Mach.saf_modP (n : Nat) (f : Port → Port) : (m.modP n f).saf = m.saf := rfl
@[simp] theorem Mach.axis_modP (n : Nat) (f : Port → Port) : (m.modP n f).axis = m.axis := rfl
@[simp] theorem Mach.tdc_modP (n : Nat) (f : Port → Port) : (m.modP n f).tdc = m.tdc := rfl
@[simp] theorem Mach.pool_modP (n : Nat) (f : Port → Port) : (m.modP n f).pool = m.pool := rfl
@[simp] theorem Mach.rej_modP (n : Nat) (f : Port → Port) : (m.modP n f).rej = m.rej := rfl
@[simp] theorem Mach.cam_modP (n : Nat) (f : Port → Port) : (m.modP n f).cam = m.cam := rfl
@[simp] theorem Mach.pts_modP (n : Nat) (f : Port → Port) : (m.modP n f).pts = m.pts := rfl
@[simp] theorem Mach.hk_modP (n : Nat) (f : Port → Port) : (m.modP n f).hk = m.hk := rfl
@[simp] theorem Mach.thm_modP (n : Nat) (f : Port → Port) : (m.modP n f).thm = m.thm := rfl
@[simp] theorem Mach.probe_modP (n : Nat) (f : Port → Port) : (m.modP n f).probe = m.probe := rfl
@[simp] theorem Mach.fusJob_modP (n : Nat) (f : Port → Port) : (m.modP n f).fusJob = m.fusJob := rfl
@[simp] theorem Mach.reg_modP (n : Nat) (f : Port → Port) (b0 : Nat) : (m.modP n f).reg b0 = m.reg b0 := rfl
@[simp] theorem Mach.fld_modP (n : Nat) (f : Port → Port) (b0 : Nat) (g0 : Fld) : (m.modP n f).fld b0 g0 = m.fld b0 g0 := rfl
@[simp] theorem Mach.flag_modP (n : Nat) (f : Port → Port) (b0 : Nat) (g0 : Fld) : (m.modP n f).flag b0 g0 = m.flag b0 g0 := rfl
@[simp] theorem Mach.shadowReg_modP (n : Nat) (f : Port → Port) (b0 : Nat) : (m.modP n f).shadowReg b0 = m.shadowReg b0 := rfl
@[simp] theorem Mach.e_modP (n : Nat) (f : Port → Port) (k0 : Nat) : (m.modP n f).e k0 = m.e k0 := rfl
@[simp] theorem Mach.sem_modP (n : Nat) (f : Port → Port) (k0 : Nat) : (m.modP n f).sem k0 = m.sem k0 := rfl
@[simp] theorem Mach.g_modP (n : Nat) (f : Port → Port) (k0 : Nat) : (m.modP n f).g k0 = m.g k0 := rfl
@[simp] theorem Mach.l_modP (n : Nat) (f : Port → Port) (k0 : Nat) : (m.modP n f).l k0 = m.l k0 := rfl
@[simp] theorem Mach.q_modP (n : Nat) (f : Port → Port) (k0 : Nat) : (m.modP n f).q k0 = m.q k0 := rfl
@[simp] theorem Mach.trig_modP (n : Nat) (f : Port → Port) (k0 : Nat) : (m.modP n f).trig k0 = m.trig k0 := rfl
@[simp] theorem Mach.byte_modP (n : Nat) (f : Port → Port) (b0 : Nat) : (m.modP n f).byte b0 = m.byte b0 := rfl
@[simp] theorem Mach.ax_modP (n : Nat) (f : Port → Port) (k0 : Nat) : (m.modP n f).ax k0 = m.ax k0 := rfl
@[simp] theorem Mach.ossd_modP (n : Nat) (f : Port → Port) (k0 : Nat) : (m.modP n f).ossd k0 = m.ossd k0 := rfl
@[simp] theorem Mach.tile_modP (n : Nat) (f : Port → Port) (k0 : Nat) : (m.modP n f).tile k0 = m.tile k0 := rfl
@[simp] theorem Mach.pl_modP (n : Nat) (f : Port → Port) (k0 : Nat) : (m.modP n f).pl k0 = m.pl k0 := rfl
@[simp] theorem Mach.hot_modP (n : Nat) (f : Port → Port)  : (m.modP n f).hot  = m.hot  := rfl
@[simp] theorem Mach.owner_modP (n : Nat) (f : Port → Port)  : (m.modP n f).owner  = m.owner  := rfl
@[simp] theorem Mach.ctxOn_modP (n : Nat) (f : Port → Port) (c0 : Nat) : (m.modP n f).ctxOn c0 = m.ctxOn c0 := rfl

/-! ## modAx -/

@[simp] theorem Mach.cyc_modAx (a : Nat) (f : Axis → Axis) : (m.modAx a f).cyc = m.cyc := rfl
@[simp] theorem Mach.free_modAx (a : Nat) (f : Axis → Axis) : (m.modAx a f).free = m.free := rfl
@[simp] theorem Mach.status_modAx (a : Nat) (f : Axis → Axis) : (m.modAx a f).status = m.status := rfl
@[simp] theorem Mach.dev_modAx (a : Nat) (f : Axis → Axis) : (m.modAx a f).dev = m.dev := rfl
@[simp] theorem Mach.tap_modAx (a : Nat) (f : Axis → Axis) : (m.modAx a f).tap = m.tap := rfl
@[simp] theorem Mach.regs_modAx (a : Nat) (f : Axis → Axis) : (m.modAx a f).regs = m.regs := rfl
@[simp] theorem Mach.shadow_modAx (a : Nat) (f : Axis → Axis) : (m.modAx a f).shadow = m.shadow := rfl
@[simp] theorem Mach.mem_modAx (a : Nat) (f : Axis → Axis) : (m.modAx a f).mem = m.mem := rfl
@[simp] theorem Mach.commits_modAx (a : Nat) (f : Axis → Axis) : (m.modAx a f).commits = m.commits := rfl
@[simp] theorem Mach.eng_modAx (a : Nat) (f : Axis → Axis) : (m.modAx a f).eng = m.eng := rfl
@[simp] theorem Mach.sems_modAx (a : Nat) (f : Axis → Axis) : (m.modAx a f).sems = m.sems := rfl
@[simp] theorem Mach.time_modAx (a : Nat) (f : Axis → Axis) : (m.modAx a f).time = m.time := rfl
@[simp] theorem Mach.flt_modAx (a : Nat) (f : Axis → Axis) : (m.modAx a f).flt = m.flt := rfl
@[simp] theorem Mach.grp_modAx (a : Nat) (f : Axis → Axis) : (m.modAx a f).grp = m.grp := rfl
@[simp] theorem Mach.lane_modAx (a : Nat) (f : Axis → Axis) : (m.modAx a f).lane = m.lane := rfl
@[simp] theorem Mach.qmg_modAx (a : Nat) (f : Axis → Axis) : (m.modAx a f).qmg = m.qmg := rfl
@[simp] theorem Mach.dram_modAx (a : Nat) (f : Axis → Axis) : (m.modAx a f).dram = m.dram := rfl
@[simp] theorem Mach.emt_modAx (a : Nat) (f : Axis → Axis) : (m.modAx a f).emt = m.emt := rfl
@[simp] theorem Mach.grd_modAx (a : Nat) (f : Axis → Axis) : (m.modAx a f).grd = m.grd := rfl
@[simp] theorem Mach.saf_modAx (a : Nat) (f : Axis → Axis) : (m.modAx a f).saf = m.saf := rfl
@[simp] theorem Mach.port_modAx (a : Nat) (f : Axis → Axis) : (m.modAx a f).port = m.port := rfl
@[simp] theorem Mach.tdc_modAx (a : Nat) (f : Axis → Axis) : (m.modAx a f).tdc = m.tdc := rfl
@[simp] theorem Mach.pool_modAx (a : Nat) (f : Axis → Axis) : (m.modAx a f).pool = m.pool := rfl
@[simp] theorem Mach.rej_modAx (a : Nat) (f : Axis → Axis) : (m.modAx a f).rej = m.rej := rfl
@[simp] theorem Mach.cam_modAx (a : Nat) (f : Axis → Axis) : (m.modAx a f).cam = m.cam := rfl
@[simp] theorem Mach.pts_modAx (a : Nat) (f : Axis → Axis) : (m.modAx a f).pts = m.pts := rfl
@[simp] theorem Mach.hk_modAx (a : Nat) (f : Axis → Axis) : (m.modAx a f).hk = m.hk := rfl
@[simp] theorem Mach.thm_modAx (a : Nat) (f : Axis → Axis) : (m.modAx a f).thm = m.thm := rfl
@[simp] theorem Mach.probe_modAx (a : Nat) (f : Axis → Axis) : (m.modAx a f).probe = m.probe := rfl
@[simp] theorem Mach.fusJob_modAx (a : Nat) (f : Axis → Axis) : (m.modAx a f).fusJob = m.fusJob := rfl
@[simp] theorem Mach.reg_modAx (a : Nat) (f : Axis → Axis) (b0 : Nat) : (m.modAx a f).reg b0 = m.reg b0 := rfl
@[simp] theorem Mach.fld_modAx (a : Nat) (f : Axis → Axis) (b0 : Nat) (g0 : Fld) : (m.modAx a f).fld b0 g0 = m.fld b0 g0 := rfl
@[simp] theorem Mach.flag_modAx (a : Nat) (f : Axis → Axis) (b0 : Nat) (g0 : Fld) : (m.modAx a f).flag b0 g0 = m.flag b0 g0 := rfl
@[simp] theorem Mach.shadowReg_modAx (a : Nat) (f : Axis → Axis) (b0 : Nat) : (m.modAx a f).shadowReg b0 = m.shadowReg b0 := rfl
@[simp] theorem Mach.e_modAx (a : Nat) (f : Axis → Axis) (k0 : Nat) : (m.modAx a f).e k0 = m.e k0 := rfl
@[simp] theorem Mach.sem_modAx (a : Nat) (f : Axis → Axis) (k0 : Nat) : (m.modAx a f).sem k0 = m.sem k0 := rfl
@[simp] theorem Mach.g_modAx (a : Nat) (f : Axis → Axis) (k0 : Nat) : (m.modAx a f).g k0 = m.g k0 := rfl
@[simp] theorem Mach.l_modAx (a : Nat) (f : Axis → Axis) (k0 : Nat) : (m.modAx a f).l k0 = m.l k0 := rfl
@[simp] theorem Mach.q_modAx (a : Nat) (f : Axis → Axis) (k0 : Nat) : (m.modAx a f).q k0 = m.q k0 := rfl
@[simp] theorem Mach.trig_modAx (a : Nat) (f : Axis → Axis) (k0 : Nat) : (m.modAx a f).trig k0 = m.trig k0 := rfl
@[simp] theorem Mach.byte_modAx (a : Nat) (f : Axis → Axis) (b0 : Nat) : (m.modAx a f).byte b0 = m.byte b0 := rfl
@[simp] theorem Mach.p_modAx (a : Nat) (f : Axis → Axis) (k0 : Nat) : (m.modAx a f).p k0 = m.p k0 := rfl
@[simp] theorem Mach.ossd_modAx (a : Nat) (f : Axis → Axis) (k0 : Nat) : (m.modAx a f).ossd k0 = m.ossd k0 := rfl
@[simp] theorem Mach.tile_modAx (a : Nat) (f : Axis → Axis) (k0 : Nat) : (m.modAx a f).tile k0 = m.tile k0 := rfl
@[simp] theorem Mach.pl_modAx (a : Nat) (f : Axis → Axis) (k0 : Nat) : (m.modAx a f).pl k0 = m.pl k0 := rfl
@[simp] theorem Mach.hot_modAx (a : Nat) (f : Axis → Axis)  : (m.modAx a f).hot  = m.hot  := rfl
@[simp] theorem Mach.owner_modAx (a : Nat) (f : Axis → Axis)  : (m.modAx a f).owner  = m.owner  := rfl
@[simp] theorem Mach.ctxOn_modAx (a : Nat) (f : Axis → Axis) (c0 : Nat) : (m.modAx a f).ctxOn c0 = m.ctxOn c0 := rfl

/-! ## modOssd -/

@[simp] theorem Mach.cyc_modOssd (p : Nat) (f : Ossd → Ossd) : (m.modOssd p f).cyc = m.cyc := rfl
@[simp] theorem Mach.free_modOssd (p : Nat) (f : Ossd → Ossd) : (m.modOssd p f).free = m.free := rfl
@[simp] theorem Mach.status_modOssd (p : Nat) (f : Ossd → Ossd) : (m.modOssd p f).status = m.status := rfl
@[simp] theorem Mach.dev_modOssd (p : Nat) (f : Ossd → Ossd) : (m.modOssd p f).dev = m.dev := rfl
@[simp] theorem Mach.tap_modOssd (p : Nat) (f : Ossd → Ossd) : (m.modOssd p f).tap = m.tap := rfl
@[simp] theorem Mach.regs_modOssd (p : Nat) (f : Ossd → Ossd) : (m.modOssd p f).regs = m.regs := rfl
@[simp] theorem Mach.shadow_modOssd (p : Nat) (f : Ossd → Ossd) : (m.modOssd p f).shadow = m.shadow := rfl
@[simp] theorem Mach.mem_modOssd (p : Nat) (f : Ossd → Ossd) : (m.modOssd p f).mem = m.mem := rfl
@[simp] theorem Mach.commits_modOssd (p : Nat) (f : Ossd → Ossd) : (m.modOssd p f).commits = m.commits := rfl
@[simp] theorem Mach.eng_modOssd (p : Nat) (f : Ossd → Ossd) : (m.modOssd p f).eng = m.eng := rfl
@[simp] theorem Mach.sems_modOssd (p : Nat) (f : Ossd → Ossd) : (m.modOssd p f).sems = m.sems := rfl
@[simp] theorem Mach.time_modOssd (p : Nat) (f : Ossd → Ossd) : (m.modOssd p f).time = m.time := rfl
@[simp] theorem Mach.flt_modOssd (p : Nat) (f : Ossd → Ossd) : (m.modOssd p f).flt = m.flt := rfl
@[simp] theorem Mach.grp_modOssd (p : Nat) (f : Ossd → Ossd) : (m.modOssd p f).grp = m.grp := rfl
@[simp] theorem Mach.lane_modOssd (p : Nat) (f : Ossd → Ossd) : (m.modOssd p f).lane = m.lane := rfl
@[simp] theorem Mach.qmg_modOssd (p : Nat) (f : Ossd → Ossd) : (m.modOssd p f).qmg = m.qmg := rfl
@[simp] theorem Mach.dram_modOssd (p : Nat) (f : Ossd → Ossd) : (m.modOssd p f).dram = m.dram := rfl
@[simp] theorem Mach.emt_modOssd (p : Nat) (f : Ossd → Ossd) : (m.modOssd p f).emt = m.emt := rfl
@[simp] theorem Mach.grd_modOssd (p : Nat) (f : Ossd → Ossd) : (m.modOssd p f).grd = m.grd := rfl
@[simp] theorem Mach.axis_modOssd (p : Nat) (f : Ossd → Ossd) : (m.modOssd p f).axis = m.axis := rfl
@[simp] theorem Mach.port_modOssd (p : Nat) (f : Ossd → Ossd) : (m.modOssd p f).port = m.port := rfl
@[simp] theorem Mach.tdc_modOssd (p : Nat) (f : Ossd → Ossd) : (m.modOssd p f).tdc = m.tdc := rfl
@[simp] theorem Mach.pool_modOssd (p : Nat) (f : Ossd → Ossd) : (m.modOssd p f).pool = m.pool := rfl
@[simp] theorem Mach.rej_modOssd (p : Nat) (f : Ossd → Ossd) : (m.modOssd p f).rej = m.rej := rfl
@[simp] theorem Mach.cam_modOssd (p : Nat) (f : Ossd → Ossd) : (m.modOssd p f).cam = m.cam := rfl
@[simp] theorem Mach.pts_modOssd (p : Nat) (f : Ossd → Ossd) : (m.modOssd p f).pts = m.pts := rfl
@[simp] theorem Mach.hk_modOssd (p : Nat) (f : Ossd → Ossd) : (m.modOssd p f).hk = m.hk := rfl
@[simp] theorem Mach.thm_modOssd (p : Nat) (f : Ossd → Ossd) : (m.modOssd p f).thm = m.thm := rfl
@[simp] theorem Mach.probe_modOssd (p : Nat) (f : Ossd → Ossd) : (m.modOssd p f).probe = m.probe := rfl
@[simp] theorem Mach.fusJob_modOssd (p : Nat) (f : Ossd → Ossd) : (m.modOssd p f).fusJob = m.fusJob := rfl
@[simp] theorem Mach.reg_modOssd (p : Nat) (f : Ossd → Ossd) (b0 : Nat) : (m.modOssd p f).reg b0 = m.reg b0 := rfl
@[simp] theorem Mach.fld_modOssd (p : Nat) (f : Ossd → Ossd) (b0 : Nat) (g0 : Fld) : (m.modOssd p f).fld b0 g0 = m.fld b0 g0 := rfl
@[simp] theorem Mach.flag_modOssd (p : Nat) (f : Ossd → Ossd) (b0 : Nat) (g0 : Fld) : (m.modOssd p f).flag b0 g0 = m.flag b0 g0 := rfl
@[simp] theorem Mach.shadowReg_modOssd (p : Nat) (f : Ossd → Ossd) (b0 : Nat) : (m.modOssd p f).shadowReg b0 = m.shadowReg b0 := rfl
@[simp] theorem Mach.e_modOssd (p : Nat) (f : Ossd → Ossd) (k0 : Nat) : (m.modOssd p f).e k0 = m.e k0 := rfl
@[simp] theorem Mach.sem_modOssd (p : Nat) (f : Ossd → Ossd) (k0 : Nat) : (m.modOssd p f).sem k0 = m.sem k0 := rfl
@[simp] theorem Mach.g_modOssd (p : Nat) (f : Ossd → Ossd) (k0 : Nat) : (m.modOssd p f).g k0 = m.g k0 := rfl
@[simp] theorem Mach.l_modOssd (p : Nat) (f : Ossd → Ossd) (k0 : Nat) : (m.modOssd p f).l k0 = m.l k0 := rfl
@[simp] theorem Mach.q_modOssd (p : Nat) (f : Ossd → Ossd) (k0 : Nat) : (m.modOssd p f).q k0 = m.q k0 := rfl
@[simp] theorem Mach.trig_modOssd (p : Nat) (f : Ossd → Ossd) (k0 : Nat) : (m.modOssd p f).trig k0 = m.trig k0 := rfl
@[simp] theorem Mach.byte_modOssd (p : Nat) (f : Ossd → Ossd) (b0 : Nat) : (m.modOssd p f).byte b0 = m.byte b0 := rfl
@[simp] theorem Mach.p_modOssd (p : Nat) (f : Ossd → Ossd) (k0 : Nat) : (m.modOssd p f).p k0 = m.p k0 := rfl
@[simp] theorem Mach.ax_modOssd (p : Nat) (f : Ossd → Ossd) (k0 : Nat) : (m.modOssd p f).ax k0 = m.ax k0 := rfl
@[simp] theorem Mach.tile_modOssd (p : Nat) (f : Ossd → Ossd) (k0 : Nat) : (m.modOssd p f).tile k0 = m.tile k0 := rfl
@[simp] theorem Mach.pl_modOssd (p : Nat) (f : Ossd → Ossd) (k0 : Nat) : (m.modOssd p f).pl k0 = m.pl k0 := rfl
@[simp] theorem Mach.hot_modOssd (p : Nat) (f : Ossd → Ossd)  : (m.modOssd p f).hot  = m.hot  := rfl
@[simp] theorem Mach.owner_modOssd (p : Nat) (f : Ossd → Ossd)  : (m.modOssd p f).owner  = m.owner  := rfl
@[simp] theorem Mach.ctxOn_modOssd (p : Nat) (f : Ossd → Ossd) (c0 : Nat) : (m.modOssd p f).ctxOn c0 = m.ctxOn c0 := rfl

/-! ## modTile -/

@[simp] theorem Mach.cyc_modTile (t : Nat) (f : Tile → Tile) : (m.modTile t f).cyc = m.cyc := rfl
@[simp] theorem Mach.free_modTile (t : Nat) (f : Tile → Tile) : (m.modTile t f).free = m.free := rfl
@[simp] theorem Mach.status_modTile (t : Nat) (f : Tile → Tile) : (m.modTile t f).status = m.status := rfl
@[simp] theorem Mach.dev_modTile (t : Nat) (f : Tile → Tile) : (m.modTile t f).dev = m.dev := rfl
@[simp] theorem Mach.tap_modTile (t : Nat) (f : Tile → Tile) : (m.modTile t f).tap = m.tap := rfl
@[simp] theorem Mach.regs_modTile (t : Nat) (f : Tile → Tile) : (m.modTile t f).regs = m.regs := rfl
@[simp] theorem Mach.shadow_modTile (t : Nat) (f : Tile → Tile) : (m.modTile t f).shadow = m.shadow := rfl
@[simp] theorem Mach.mem_modTile (t : Nat) (f : Tile → Tile) : (m.modTile t f).mem = m.mem := rfl
@[simp] theorem Mach.commits_modTile (t : Nat) (f : Tile → Tile) : (m.modTile t f).commits = m.commits := rfl
@[simp] theorem Mach.eng_modTile (t : Nat) (f : Tile → Tile) : (m.modTile t f).eng = m.eng := rfl
@[simp] theorem Mach.sems_modTile (t : Nat) (f : Tile → Tile) : (m.modTile t f).sems = m.sems := rfl
@[simp] theorem Mach.time_modTile (t : Nat) (f : Tile → Tile) : (m.modTile t f).time = m.time := rfl
@[simp] theorem Mach.flt_modTile (t : Nat) (f : Tile → Tile) : (m.modTile t f).flt = m.flt := rfl
@[simp] theorem Mach.grp_modTile (t : Nat) (f : Tile → Tile) : (m.modTile t f).grp = m.grp := rfl
@[simp] theorem Mach.lane_modTile (t : Nat) (f : Tile → Tile) : (m.modTile t f).lane = m.lane := rfl
@[simp] theorem Mach.qmg_modTile (t : Nat) (f : Tile → Tile) : (m.modTile t f).qmg = m.qmg := rfl
@[simp] theorem Mach.dram_modTile (t : Nat) (f : Tile → Tile) : (m.modTile t f).dram = m.dram := rfl
@[simp] theorem Mach.emt_modTile (t : Nat) (f : Tile → Tile) : (m.modTile t f).emt = m.emt := rfl
@[simp] theorem Mach.grd_modTile (t : Nat) (f : Tile → Tile) : (m.modTile t f).grd = m.grd := rfl
@[simp] theorem Mach.saf_modTile (t : Nat) (f : Tile → Tile) : (m.modTile t f).saf = m.saf := rfl
@[simp] theorem Mach.axis_modTile (t : Nat) (f : Tile → Tile) : (m.modTile t f).axis = m.axis := rfl
@[simp] theorem Mach.port_modTile (t : Nat) (f : Tile → Tile) : (m.modTile t f).port = m.port := rfl
@[simp] theorem Mach.pool_modTile (t : Nat) (f : Tile → Tile) : (m.modTile t f).pool = m.pool := rfl
@[simp] theorem Mach.rej_modTile (t : Nat) (f : Tile → Tile) : (m.modTile t f).rej = m.rej := rfl
@[simp] theorem Mach.cam_modTile (t : Nat) (f : Tile → Tile) : (m.modTile t f).cam = m.cam := rfl
@[simp] theorem Mach.pts_modTile (t : Nat) (f : Tile → Tile) : (m.modTile t f).pts = m.pts := rfl
@[simp] theorem Mach.hk_modTile (t : Nat) (f : Tile → Tile) : (m.modTile t f).hk = m.hk := rfl
@[simp] theorem Mach.thm_modTile (t : Nat) (f : Tile → Tile) : (m.modTile t f).thm = m.thm := rfl
@[simp] theorem Mach.probe_modTile (t : Nat) (f : Tile → Tile) : (m.modTile t f).probe = m.probe := rfl
@[simp] theorem Mach.fusJob_modTile (t : Nat) (f : Tile → Tile) : (m.modTile t f).fusJob = m.fusJob := rfl
@[simp] theorem Mach.reg_modTile (t : Nat) (f : Tile → Tile) (b0 : Nat) : (m.modTile t f).reg b0 = m.reg b0 := rfl
@[simp] theorem Mach.fld_modTile (t : Nat) (f : Tile → Tile) (b0 : Nat) (g0 : Fld) : (m.modTile t f).fld b0 g0 = m.fld b0 g0 := rfl
@[simp] theorem Mach.flag_modTile (t : Nat) (f : Tile → Tile) (b0 : Nat) (g0 : Fld) : (m.modTile t f).flag b0 g0 = m.flag b0 g0 := rfl
@[simp] theorem Mach.shadowReg_modTile (t : Nat) (f : Tile → Tile) (b0 : Nat) : (m.modTile t f).shadowReg b0 = m.shadowReg b0 := rfl
@[simp] theorem Mach.e_modTile (t : Nat) (f : Tile → Tile) (k0 : Nat) : (m.modTile t f).e k0 = m.e k0 := rfl
@[simp] theorem Mach.sem_modTile (t : Nat) (f : Tile → Tile) (k0 : Nat) : (m.modTile t f).sem k0 = m.sem k0 := rfl
@[simp] theorem Mach.g_modTile (t : Nat) (f : Tile → Tile) (k0 : Nat) : (m.modTile t f).g k0 = m.g k0 := rfl
@[simp] theorem Mach.l_modTile (t : Nat) (f : Tile → Tile) (k0 : Nat) : (m.modTile t f).l k0 = m.l k0 := rfl
@[simp] theorem Mach.q_modTile (t : Nat) (f : Tile → Tile) (k0 : Nat) : (m.modTile t f).q k0 = m.q k0 := rfl
@[simp] theorem Mach.trig_modTile (t : Nat) (f : Tile → Tile) (k0 : Nat) : (m.modTile t f).trig k0 = m.trig k0 := rfl
@[simp] theorem Mach.byte_modTile (t : Nat) (f : Tile → Tile) (b0 : Nat) : (m.modTile t f).byte b0 = m.byte b0 := rfl
@[simp] theorem Mach.p_modTile (t : Nat) (f : Tile → Tile) (k0 : Nat) : (m.modTile t f).p k0 = m.p k0 := rfl
@[simp] theorem Mach.ax_modTile (t : Nat) (f : Tile → Tile) (k0 : Nat) : (m.modTile t f).ax k0 = m.ax k0 := rfl
@[simp] theorem Mach.ossd_modTile (t : Nat) (f : Tile → Tile) (k0 : Nat) : (m.modTile t f).ossd k0 = m.ossd k0 := rfl
@[simp] theorem Mach.pl_modTile (t : Nat) (f : Tile → Tile) (k0 : Nat) : (m.modTile t f).pl k0 = m.pl k0 := rfl
@[simp] theorem Mach.hot_modTile (t : Nat) (f : Tile → Tile)  : (m.modTile t f).hot  = m.hot  := rfl
@[simp] theorem Mach.owner_modTile (t : Nat) (f : Tile → Tile)  : (m.modTile t f).owner  = m.owner  := rfl
@[simp] theorem Mach.ctxOn_modTile (t : Nat) (f : Tile → Tile) (c0 : Nat) : (m.modTile t f).ctxOn c0 = m.ctxOn c0 := rfl

end Sys2Proof.Machine
end

