-- ==== Sys2Proof/Laws/Engine.lean ====
section
/-!
SUPPORT. Spec lemmas of the operations that instructions share: when an instruction issues, what its result writes, what going on to the
next instruction does.
-/
namespace Sys2Proof.Machine

/-! ## Issue -/

/-- An engine that may issue runs the effect of a legal instruction of its profile. -/
theorem Mach.issue_runs (m : Mach) (e : Nat) (prof : Option EngClass) (f : Mach → Mach) (h : m.canIssue e)
    (hp : prof = none ∨ prof = some (engClass e)) : m.issue e prof true f = f (m.fetch e) := by
  obtain ⟨_, h1, h2, h3⟩ := h
  have hpc : ¬ (progBytes e ≤ (m.e e).pc) := by omega
  unfold Mach.issue
  rcases hp with rfl | rfl <;> simp [h1, h2, hpc]

/-- An instruction of another class's profile faults with code 2 (R73). -/
theorem Mach.issue_mismatch (m : Mach) (e : Nat) (c : EngClass) (ok : Bool) (f : Mach → Mach) (h : m.canIssue e)
    (hc : c ≠ engClass e) : m.issue e (some c) ok f = (m.fetch e).engFault e 2 := by
  obtain ⟨_, h1, h2, h3⟩ := h
  have hpc : ¬ (progBytes e ≤ (m.e e).pc) := by omega
  simp [Mach.issue, h1, h2, hpc, hc]

/-- A form with a reserved field set faults with code 1 (R69). -/
theorem Mach.issue_illegal (m : Mach) (e : Nat) (prof : Option EngClass) (f : Mach → Mach) (h : m.canIssue e)
    (hp : prof = none ∨ prof = some (engClass e)) : m.issue e prof false f = (m.fetch e).engFault e 1 := by
  obtain ⟨_, h1, h2, h3⟩ := h
  have hpc : ¬ (progBytes e ≤ (m.e e).pc) := by omega
  unfold Mach.issue
  rcases hp with rfl | rfl <;> simp [h1, h2, hpc]

/-- An engine that is not RUNNING, or is about to stop, issues nothing. -/
theorem Mach.issue_idle (m : Mach) (e : Nat) (prof : Option EngClass) (ok : Bool) (f : Mach → Mach)
    (h : (m.e e).st ≠ .running ∨ (m.e e).stopping ≠ none) : m.issue e prof ok f = m := by
  unfold Mach.issue; exact if_pos h

/-- Fetching changes no more than the instruction buffer of its engine. -/
theorem Mach.fetch_only (m : Mach) (e : Nat) : m.fetch e = { m with eng := (m.fetch e).eng } := by
  unfold Mach.fetch; split <;> rfl

theorem Mach.e_fetch_ne (m : Mach) {e k : Nat} (h : k ≠ e) : (m.fetch e).e k = m.e k := by
  unfold Mach.fetch; split
  · simp [Mach.e_modE, h]
  · rfl

theorem Mach.e_fetch (m : Mach) (e : Nat) : (m.fetch e).e e = { m.e e with ibuf := ((m.fetch e).e e).ibuf } := by
  unfold Mach.fetch; split <;> simp

@[simp] theorem Mach.reg_fetch (m : Mach) (e a : Nat) : (m.fetch e).reg a = m.reg a := by rw [Mach.fetch_only]; rfl
@[simp] theorem Mach.byte_fetch (m : Mach) (e a : Nat) : (m.fetch e).byte a = m.byte a := by rw [Mach.fetch_only]; rfl
@[simp] theorem Mach.cyc_fetch (m : Mach) (e : Nat) : (m.fetch e).cyc = m.cyc := by rw [Mach.fetch_only]
@[simp] theorem Mach.sem_fetch (m : Mach) (e n : Nat) : (m.fetch e).sem n = m.sem n := by rw [Mach.fetch_only]; rfl
@[simp] theorem Mach.ax_fetch (m : Mach) (e n : Nat) : (m.fetch e).ax n = m.ax n := by rw [Mach.fetch_only]; rfl
@[simp] theorem Mach.dev_fetch (m : Mach) (e : Nat) : (m.fetch e).dev = m.dev := by rw [Mach.fetch_only]
@[simp] theorem Mach.mem_fetch (m : Mach) (e : Nat) : (m.fetch e).mem = m.mem := by rw [Mach.fetch_only]

@[simp] theorem Mach.gr_fetch (m : Mach) (e : Nat) (r : BitVec 4) : ((m.fetch e).e e).gr r = (m.e e).gr r := by
  rw [Mach.e_fetch]; rfl
@[simp] theorem Mach.g'_fetch (m : Mach) (e : Nat) (r : BitVec 4) : (m.fetch e).g' e r = (m.e e).gr r := m.gr_fetch e r
@[simp] theorem Mach.gn_fetch (m : Mach) (e : Nat) (r : BitVec 4) : (m.fetch e).gn e r = ((m.e e).gr r).toNat :=
  congrArg BitVec.toNat (m.gr_fetch e r)
@[simp] theorem Mach.gi_fetch (m : Mach) (e : Nat) (r : BitVec 4) : (m.fetch e).gi e r = ((m.e e).gr r).toInt :=
  congrArg BitVec.toInt (m.gr_fetch e r)

/-! ## General registers -/

/-- What a general register reads after one has been written (R65). -/
theorem Engine.gr_setGr (x : Engine) (rd r : BitVec 4) (v : Word) :
    (x.setGr rd v).gr r = if r = rd ∧ r ≠ 0 then v else x.gr r := by
  unfold Engine.setGr Engine.gr
  by_cases hr : r = 0
  · rw [if_pos hr, if_pos hr, if_neg (fun h => h.2 hr)]
  · rw [if_neg hr, if_neg hr]
    by_cases hd : rd = 0
    · rw [if_pos hd, if_neg (fun h => hr (h.1.trans hd))]
    · rw [if_neg hd]
      by_cases h : r = rd
      · rw [if_pos ⟨h, hr⟩, h]; exact mapGet_mapPut_same _ _ _ _
      · rw [if_neg (fun h' => h h'.1)]
        exact mapGet_mapPut_ne _ _ _ (fun h' => h (BitVec.eq_of_toNat_eq h'))

/-- g0 reads 0 (R65). -/
@[simp] theorem Engine.gr_zero (x : Engine) : x.gr 0 = 0 := rfl

/-- Writing a general register changes no more than the general registers. -/
theorem Engine.setGr_frame (x : Engine) (rd : BitVec 4) (v : Word) : x.setGr rd v = { x with g := (x.setGr rd v).g } := by
  unfold Engine.setGr; split <;> rfl

/-- Setting a predicate changes no other. -/
theorem Engine.pred_setPred (x : Engine) {k j : Nat} (b : Bool) (hk : k < 4) (hj : j < 4) :
    (x.setPred k b).pred j = if j = k then b else x.pred j := by
  have key : ∀ j : Fin 4, ∀ k : Fin 4, (15 - 2 ^ k.val).testBit j.val = !(decide (j.val = k.val)) := by decide
  unfold Engine.pred Engine.setPred
  rw [Nat.testBit_or, Nat.testBit_and, key ⟨j, hj⟩ ⟨k, hk⟩]
  cases b
  · by_cases h : j = k <;> simp [h]
  · by_cases h : j = k
    · subst h; simp [Nat.testBit_two_pow_self]
    · simp [h, Nat.testBit_two_pow_of_ne (Ne.symm h)]

/-! ## Results -/

theorem Mach.e_retire (m : Mach) (e : Nat) : (m.retire e).e e = (m.e e).next := by simp [Mach.retire]

theorem Mach.result_onlyEng (m : Mach) (e : Nat) (rd : BitVec 4) (v : Word) : m.onlyEng (m.result e rd v) e :=
  ⟨rfl, fun k h => by simp [Mach.result, Mach.retire, Mach.setG, Mach.e_modE, h]⟩

theorem Mach.onlyEng_trans {a b c : Mach} {e : Nat} (h : a.onlyEng b e) (h' : b.onlyEng c e) : a.onlyEng c e := by
  refine ⟨?_, fun k hk => (h'.2 k hk).trans (h.2 k hk)⟩
  rw [h'.1, h.1]

theorem Mach.fetch_onlyEng (m : Mach) (e : Nat) : m.onlyEng (m.fetch e) e := ⟨m.fetch_only e, fun _ h => m.e_fetch_ne h⟩

theorem Mach.modE_onlyEng (m : Mach) (e : Nat) (f : Engine → Engine) : m.onlyEng (m.modE e f) e :=
  ⟨rfl, fun k h => by simp [Mach.e_modE, h]⟩

theorem Mach.e_result (m : Mach) (e : Nat) (rd : BitVec 4) (v : Word) : (m.result e rd v).e e = ((m.e e).setGr rd v).next := by
  simp [Mach.result, Mach.retire, Mach.setG]

theorem Mach.retire_onlyEng (m : Mach) (e : Nat) : m.onlyEng (m.retire e) e := Mach.modE_onlyEng _ _ _

/-! ## Going elsewhere -/

theorem Mach.e_jump (m : Mach) (e t : Nat) : (m.jump e t).e e = { m.e e with pc := t } := by rw [Mach.jump, Mach.e_modE_same]

theorem Mach.jump_onlyEng (m : Mach) (e t : Nat) : m.onlyEng (m.jump e t) e := Mach.modE_onlyEng _ _ _

theorem Mach.e_leave (m : Mach) (e t : Nat) :
    (m.leave e t).e e = { m.e e with pc := t, loops := leaveLoops (m.e e).pc t (m.e e).loops } := by
  rw [Mach.leave, Mach.e_jump, Mach.e_modE_same]

theorem Mach.leave_onlyEng (m : Mach) (e t : Nat) : m.onlyEng (m.leave e t) e :=
  Mach.onlyEng_trans (Mach.modE_onlyEng _ _ _) (Mach.jump_onlyEng _ _ _)

/-! ## Waiting and resuming (R535) -/

theorem Mach.e_resume (m : Mach) (e : Nat) (v : Word) :
    (m.resume e v).e e = (((m.e e).enter m.cyc .running).setGr (BitVec.ofNat 4 (m.e e).wrd) v).next := by
  simp only [Mach.resume, Mach.e_result, Mach.e_modE_same]; rfl

theorem Mach.resume_onlyEng (m : Mach) (e : Nat) (v : Word) : m.onlyEng (m.resume e v) e :=
  Mach.onlyEng_trans (Mach.modE_onlyEng _ _ _) (Mach.result_onlyEng _ _ _ _)

/-- A waiting instruction that ends writes its destination, and the engine runs on. -/
theorem Mach.resume_resumed (m : Mach) (e : Nat) (v : Word) : (m.e e).resumed ((m.resume e v).e e) v := by
  rw [Mach.e_resume]
  refine ⟨?_, ?_, fun r => ?_, ?_⟩
  · unfold Engine.next; rw [Engine.setGr_frame]; rfl
  · unfold Engine.next; rw [Engine.setGr_frame]; rfl
  · show (Engine.setGr _ _ _).gr r = _
    rw [Engine.gr_setGr]; rfl
  · unfold Engine.wentOn Engine.next; rw [Engine.setGr_frame]; rfl

/-- Resuming seen from a state whose engine agrees in what a resumption reads. -/
theorem Engine.resumed_of_eq {x y z : Engine} {v : Word} (h : x.resumed z v) (h1 : x.wrd = y.wrd) (h2 : ∀ r, x.gr r = y.gr r)
    (h3 : x.pc = y.pc) (h4 : x.loops = y.loops) : y.resumed z v := by
  obtain ⟨a, b, c, d⟩ := h
  refine ⟨a, b, fun r => ?_, ?_⟩
  · rw [c r, h1, h2]
  · unfold Engine.wentOn at *; rw [d, h3, h4]

/-! ## Running an instruction -/

/-- What an instruction that may issue answers, when its meaning has the shared form. -/
theorem exec_issue (s : State) (e : Nat) (legal : Bool) (f : Mach → Mach) (h : s.m.canIssue e) (hl : legal = true) (c : Instr)
    (hc : exec c s = s.run (decide (e < 282)) (fun _ m => m.issue e none legal f)) : RunsTo c s (f (s.m.fetch e)) := by
  unfold RunsTo
  rw [hc, show decide (e < 282) = true by simp [h.1], hl, State.run_of_wf, Mach.issue_runs _ _ _ _ h (.inl rfl)]

/-- The same for an instruction of a profile. -/
theorem exec_issue_profile (s : State) (e : Nat) (p : EngClass) (legal : Bool) (f : Mach → Mach) (h : s.m.canIssue e) (hp : engClass e = p)
    (hl : legal = true) (c : Instr) (hc : exec c s = s.run (decide (e < 282)) (fun _ m => m.issue e (some p) legal f)) :
    RunsTo c s (f (s.m.fetch e)) := by
  unfold RunsTo
  rw [hc, show decide (e < 282) = true by simp [h.1], hl, State.run_of_wf, Mach.issue_runs _ _ _ _ h (.inr (by rw [hp]))]

/-- An instruction whose effect is a result in a register. -/
theorem GrRuns.of_result (s : State) (e : Nat) (rd : BitVec 4) (v : Word) (c : Instr)
    (hc : RunsTo c s ((s.m.fetch e).result e rd v)) : GrRuns c s e rd v := by
  refine ⟨_, hc, ?_, ?_, ?_, ?_⟩
  · exact Mach.onlyEng_trans (Mach.fetch_onlyEng _ _) (Mach.result_onlyEng _ _ _ _)
  all_goals rw [Mach.e_result]
  · unfold Engine.onlyGr Engine.next; rw [Engine.setGr_frame, Mach.e_fetch]
  · intro r; show (Engine.setGr _ _ _).gr r = _; rw [Engine.gr_setGr, Mach.gr_fetch]
  · unfold Engine.wentOn Engine.next; rw [Engine.setGr_frame, Mach.e_fetch]

/-- Waiting from now on. -/
theorem Mach.waits_waitsFrom (m : Mach) (e : Nat) (w : Wait) (rd : BitVec 4) (limit : Nat) :
    (m.e e).waitsFrom ((m.waits e w rd limit).e e) m.cyc w rd limit := by
  rw [Mach.waits, Mach.e_modE_same]
  exact ⟨rfl, rfl, rfl, rfl, rfl, rfl, rfl, rfl, rfl, rfl, rfl, rfl⟩

theorem Mach.waits_onlyEng (m : Mach) (e : Nat) (w : Wait) (rd : BitVec 4) (limit : Nat) : m.onlyEng (m.waits e w rd limit) e :=
  Mach.modE_onlyEng _ _ _

end Sys2Proof.Machine
end

