-- ==== Sys2Proof/Laws/Memory.lean ====
section
/-!
SUPPORT. Laws of the byte memory: reading what was written, what a write leaves alone, and that every operation keeps the canonical
form.
-/
namespace Sys2Proof.Machine

/-! ## Numbers as bytes (R8) -/

@[simp] theorem length_leBytes (n v : Nat) : (leBytes n v).length = n := by
  induction n generalizing v with
  | zero => rfl
  | succ n ih => simp [leBytes, ih]

theorem leNat_leBytes (n v : Nat) : leNat (leBytes n v) = v % 256 ^ n := by
  induction n generalizing v with
  | zero => simp [leBytes, leNat, Nat.mod_one]
  | succ n ih =>
    simp only [leBytes, leNat, ih, BitVec.toNat_ofNat]
    rw [Nat.pow_succ' (n := n), Nat.mod_mul (x := v) (a := 256)]

/-! ## Reading what was written -/

theorem Mach.byte_setBytes (m : Mach) (a k : Nat) (l : List Byte) :
    (m.setBytes a l).byte k = if h : a ≤ k ∧ k - a < l.length then l[k - a]'h.2 else m.byte k := by
  induction l generalizing m a with
  | nil => simp [Mach.setBytes]
  | cons b t ih =>
    rw [Mach.setBytes, ih]
    by_cases h1 : a + 1 ≤ k ∧ k - (a + 1) < t.length
    · have h2 : a ≤ k ∧ k - a < (b :: t).length := by simp only [List.length_cons]; omega
      rw [dif_pos h1, dif_pos h2]
      have : k - a = (k - (a + 1)) + 1 := by omega
      simp [this]
    · rw [dif_neg h1, Mach.byte_setByte]
      by_cases h3 : k = a
      · subst h3; simp
      · have h2 : ¬ (a ≤ k ∧ k - a < (b :: t).length) := by simp only [List.length_cons]; omega
        rw [dif_neg h2, if_neg h3]

/-- Bytes outside those written keep their value. -/
theorem Mach.byte_setBytes_out (m : Mach) (a k : Nat) (l : List Byte) (h : k < a ∨ a + l.length ≤ k) :
    (m.setBytes a l).byte k = m.byte k := by
  rw [Mach.byte_setBytes, dif_neg]; omega

theorem Mach.bytes_getElem (m : Mach) (a n i : Nat) (h : i < (m.bytes a n).length) : (m.bytes a n)[i] = m.byte (a + i) := by
  induction n generalizing a i with
  | zero => simp [Mach.bytes] at h
  | succ n ih =>
    cases i with
    | zero => rfl
    | succ i =>
      simp only [Mach.bytes, List.getElem_cons_succ]
      rw [ih (a + 1) i]; congr 1; omega

@[simp] theorem Mach.length_bytes (m : Mach) (a n : Nat) : (m.bytes a n).length = n := by
  induction n generalizing a with
  | zero => rfl
  | succ n ih => simp [Mach.bytes, ih]

/-- Bytes just written read back. -/
theorem Mach.bytes_setBytes (m : Mach) (a : Nat) (l : List Byte) : (m.setBytes a l).bytes a l.length = l := by
  apply List.ext_getElem (by simp)
  intro i h1 h2
  rw [Mach.bytes_getElem, Mach.byte_setBytes, dif_pos (by omega)]
  congr 1; omega

/-- A number just written reads back, modulo its size. -/
theorem Mach.mnat_setMnat (m : Mach) (a n v : Nat) : (m.setMnat a n v).mnat a n = v % 256 ^ n := by
  unfold Mach.mnat Mach.setMnat
  have h := m.bytes_setBytes a (leBytes n v)
  rw [length_leBytes] at h
  rw [h, leNat_leBytes]

theorem Mach.byte_setMnat_out (m : Mach) (a n v k : Nat) (h : k < a ∨ a + n ≤ k) : (m.setMnat a n v).byte k = m.byte k :=
  m.byte_setBytes_out a k _ (by simpa using h)

/-- Bytes apart from those written keep their value. -/
theorem Mach.bytes_congr (m n : Mach) (a k : Nat) (h : ∀ i, i < k → m.byte (a + i) = n.byte (a + i)) :
    m.bytes a k = n.bytes a k := by
  apply List.ext_getElem (by simp)
  intro i h1 h2
  rw [Mach.bytes_getElem, Mach.bytes_getElem]; exact h i (by simpa using h1)

/-- Bytes depend on nothing but the memory. -/
theorem Mach.bytes_of_mem {m n : Mach} (h : m.mem = n.mem) (a k : Nat) : m.bytes a k = n.bytes a k :=
  Mach.bytes_congr m n a k (fun i _ => by unfold Mach.byte; rw [h])

theorem Mach.mnat_of_mem {m n : Mach} (h : m.mem = n.mem) (a k : Nat) : m.mnat a k = n.mnat a k := by
  unfold Mach.mnat; rw [Mach.bytes_of_mem h]

/-! ## What a write leaves alone -/

/-- Writing bytes changes nothing but the memory. -/
theorem Mach.setBytes_only (m : Mach) (a : Nat) (l : List Byte) : m.setBytes a l = { m with mem := (m.setBytes a l).mem } := by
  induction l generalizing m a with
  | nil => rfl
  | cons b t ih => rw [Mach.setBytes, ih]; rfl

theorem Mach.setMnat_only (m : Mach) (a n v : Nat) : m.setMnat a n v = { m with mem := (m.setMnat a n v).mem } :=
  m.setBytes_only a _

theorem Mach.qPut_only (m : Mach) (q off : Nat) (l : List Byte) : m.qPut q off l = { m with mem := (m.qPut q off l).mem } := by
  induction l generalizing m off with
  | nil => rfl
  | cons b t ih => rw [Mach.qPut, ih]; rfl

/-! ## The canonical form -/

theorem Memory.wf_setByte (m : Mach) (a : Nat) (b : Byte) (h : Memory.wf m.mem = true) : Memory.wf (m.setByte a b).mem = true :=
  mapWf_mapPut 0 m.mem a b h

theorem Memory.wf_setBytes (m : Mach) (a : Nat) (l : List Byte) (h : Memory.wf m.mem = true) :
    Memory.wf (m.setBytes a l).mem = true := by
  induction l generalizing m a with
  | nil => exact h
  | cons b t ih => exact ih _ _ (Memory.wf_setByte m a b h)

theorem Memory.wf_setMnat (m : Mach) (a n v : Nat) (h : Memory.wf m.mem = true) : Memory.wf (m.setMnat a n v).mem = true :=
  Memory.wf_setBytes m a _ h

theorem Memory.wf_qPut (m : Mach) (q off : Nat) (l : List Byte) (h : Memory.wf m.mem = true) : Memory.wf (m.qPut q off l).mem = true := by
  induction l generalizing m off with
  | nil => exact h
  | cons b t ih => exact ih _ _ (Memory.wf_setByte m _ b h)

theorem mapWf_append {β : Type} [DecidableEq β] (d : β) (l r : List (Nat × β)) (hl : mapWf d l = true) (hr : mapWf d r = true)
    (h : ∀ p ∈ l, ∀ q ∈ r, p.1 < q.1) : mapWf d (l ++ r) = true := by
  induction l with
  | nil => exact hr
  | cons p t ih =>
    rcases p with ⟨k, v⟩
    have hc := (mapWf_cons d k v t).mp hl
    refine (mapWf_cons d k v (t ++ r)).mpr ⟨hc.1, ?_, ih hc.2.2 (fun p hp => h p (List.mem_cons_of_mem _ hp))⟩
    intro q hq
    rcases List.mem_append.mp hq with hq | hq
    · exact hc.2.1 q hq
    · exact h (k, v) List.mem_cons_self q hq

/-- Replacing a range by canonical cells that lie in it keeps the form. -/
theorem Memory.wf_splice (m : Mach) (a n : Nat) (cs : List Host.Cell) (h : Memory.wf m.mem = true) (hc : Memory.wf cs = true)
    (hin : ∀ c ∈ cs, a ≤ c.1 ∧ c.1 < a + n) : Memory.wf (m.splice a n cs).mem = true := by
  refine mapWf_append _ _ _ (mapWf_append _ _ _ (mapWf_filter _ _ _ h) hc ?_) (mapWf_filter _ _ _ h) ?_
  · intro p hp q hq
    have := (List.mem_filter.mp hp).2
    have := hin q hq
    simp only [decide_eq_true_eq] at *; omega
  · intro p hp q hq
    have hq2 := (List.mem_filter.mp hq).2
    rcases List.mem_append.mp hp with hp | hp
    · have := (List.mem_filter.mp hp).2
      simp only [decide_eq_true_eq] at *; omega
    · have := hin p hp
      simp only [decide_eq_true_eq] at *; omega

theorem mapWf_shift {β : Type} [DecidableEq β] (d : β) (l : List (Nat × β)) (f t : Nat) (h : mapWf d l = true) (hf : ∀ p ∈ l, f ≤ p.1) :
    mapWf d (l.map (fun c => (c.1 - f + t, c.2))) = true := by
  induction l with
  | nil => rfl
  | cons p r ih =>
    rcases p with ⟨k, v⟩
    have hc := (mapWf_cons d k v r).mp h
    refine (mapWf_cons d _ v _).mpr ⟨hc.1, ?_, ih hc.2.2 (fun p hp => hf p (List.mem_cons_of_mem _ hp))⟩
    intro q hq
    obtain ⟨c, hcm, rfl⟩ := List.mem_map.mp hq
    have h1 := hc.2.1 c hcm
    have h2 := hf (k, v) List.mem_cons_self
    have h3 := hf c (List.mem_cons_of_mem _ hcm)
    simp only at *; omega

/-- Copying a range keeps the form. -/
theorem Memory.wf_copyRange (m : Mach) (f t n : Nat) (h : Memory.wf m.mem = true) : Memory.wf (m.copyRange f t n).mem = true := by
  have hin : ∀ c ∈ m.cellsIn f n, f ≤ c.1 ∧ c.1 < f + n := by
    intro c hc
    have := (List.mem_filter.mp hc).2
    simpa using this
  refine Memory.wf_splice m t n _ h (mapWf_shift _ _ _ _ (mapWf_filter _ _ _ h) (fun p hp => (hin p hp).1)) ?_
  intro c hc
  obtain ⟨b, hb, rfl⟩ := List.mem_map.mp hc
  have := hin b hb
  simp only; omega

end Sys2Proof.Machine
end

