-- ==== Sys2Proof/Laws/Touch.lean ====
section
/-!
SUPPORT. Which parts of the machine an operation may touch: the rules by which footprints compose.
-/
namespace Sys2Proof.Machine

theorem Part.same_refl (p : Part) (a : Mach) : p.same a a := by cases p <;> rfl

theorem Part.same_trans {p : Part} {a b c : Mach} (h : p.same a b) (h' : p.same b c) : p.same a c := by
  cases p <;> exact Eq.trans h' h

/-- What one lemma says of an operation: it touches no part but the listed ones, and it keeps memory canonical. -/
structure Frame (l : List Part) (a b : Mach) : Prop extends Touches l a b where
  canon : Memory.wf a.mem = true → Memory.wf b.mem = true

namespace Frame

theorem refl {l : List Part} {a : Mach} : Frame l a a := ⟨⟨fun p _ => p.same_refl a⟩, id⟩

theorem trans {l : List Part} {a b c : Mach} (h : Frame l a b) (h' : Frame l b c) : Frame l a c :=
  ⟨⟨fun p hp => Part.same_trans (h.same p hp) (h'.same p hp)⟩, fun hw => h'.canon (h.canon hw)⟩

theorem mono {k l : List Part} {a b : Mach} (h : k.all l.contains = true) (hk : Frame k a b) : Frame l a b :=
  ⟨⟨fun p hp => hk.same p (fun hm => hp (by simpa using List.all_eq_true.mp h p hm))⟩, hk.canon⟩

theorem ite {l : List Part} {c : Prop} [Decidable c] {a x y : Mach} (h : Frame l a x) (h' : Frame l a y) :
    Frame l a (if c then x else y) := by split <;> assumption

theorem when {l : List Part} {m : Mach} {c : Bool} {f : Mach → Mach} (h : ∀ m, Frame l m (f m)) : Frame l m (m.when c f) :=
  ite (h m) refl

theorem foldl {l : List Part} {α : Type} {f : Mach → α → Mach} (h : ∀ m x, Frame l m (f m x)) (xs : List α) {m : Mach} :
    Frame l m (xs.foldl f m) := by
  induction xs generalizing m with
  | nil => exact refl
  | cons x t ih => exact trans (h m x) ih

theorem foldlFst {l : List Part} {α β : Type} {f : Mach × β → α → Mach × β} (h : ∀ z x, Frame l z.1 (f z x).1) (xs : List α)
    {z : Mach × β} : Frame l z.1 (xs.foldl f z).1 := by
  induction xs generalizing z with
  | nil => exact refl
  | cons x t ih => exact trans (h z x) ih

theorem foldlSnd {l : List Part} {α β : Type} {f : β × Mach → α → β × Mach} (h : ∀ z x, Frame l z.2 (f z x).2) (xs : List α)
    {z : β × Mach} : Frame l z.2 (xs.foldl f z).2 := by
  induction xs generalizing z with
  | nil => exact refl
  | cons x t ih => exact trans (h z x) ih

/-- Fields replaced by values that are the old ones or belong to touched parts. -/
theorem upd {l : List Part} {a b : Mach} (h : Frame l a b) {cyc0 free0 status0 dev0 tap0 regs0 shadow0 mem0 commits0 eng0 sems0 time0 flt0 grp0 lane0 qmg0 dram0 emt0 grd0 saf0 axis0 port0 tdc0 pool0 rej0 cam0 pts0 hk0 thm0 probe0 fusJob0}
    (h_cyc : cyc0 = b.cyc ∨ l.contains .cyc = true)
    (h_free : free0 = b.free ∨ l.contains .free = true)
    (h_status : status0 = b.status ∨ l.contains .status = true)
    (h_dev : dev0 = b.dev ∨ l.contains .dev = true)
    (h_tap : tap0 = b.tap ∨ l.contains .tap = true)
    (h_regs : regs0 = b.regs ∨ l.contains .regs = true)
    (h_shadow : shadow0 = b.shadow ∨ l.contains .shadow = true)
    (h_mem : mem0 = b.mem ∨ l.contains .mem = true)
    (h_wf : Memory.wf b.mem = true → Memory.wf mem0 = true)
    (h_commits : commits0 = b.commits ∨ l.contains .commits = true)
    (h_eng : eng0 = b.eng ∨ l.contains .eng = true)
    (h_sems : sems0 = b.sems ∨ l.contains .sems = true)
    (h_time : time0 = b.time ∨ l.contains .time = true)
    (h_flt : flt0 = b.flt ∨ l.contains .flt = true)
    (h_grp : grp0 = b.grp ∨ l.contains .grp = true)
    (h_lane : lane0 = b.lane ∨ l.contains .lane = true)
    (h_qmg : qmg0 = b.qmg ∨ l.contains .qmg = true)
    (h_dram : dram0 = b.dram ∨ l.contains .dram = true)
    (h_emt : emt0 = b.emt ∨ l.contains .emt = true)
    (h_grd : grd0 = b.grd ∨ l.contains .grd = true)
    (h_saf : saf0 = b.saf ∨ l.contains .saf = true)
    (h_axis : axis0 = b.axis ∨ l.contains .axis = true)
    (h_port : port0 = b.port ∨ l.contains .port = true)
    (h_tdc : tdc0 = b.tdc ∨ l.contains .tdc = true)
    (h_pool : pool0 = b.pool ∨ l.contains .pool = true)
    (h_rej : rej0 = b.rej ∨ l.contains .rej = true)
    (h_cam : cam0 = b.cam ∨ l.contains .cam = true)
    (h_pts : pts0 = b.pts ∨ l.contains .pts = true)
    (h_hk : hk0 = b.hk ∨ l.contains .hk = true)
    (h_thm : thm0 = b.thm ∨ l.contains .thm = true)
    (h_probe : probe0 = b.probe ∨ l.contains .probe = true)
    (h_fusJob : fusJob0 = b.fusJob ∨ l.contains .fusJob = true)
    : Frame l a (Mach.mk cyc0 free0 status0 dev0 tap0 regs0 shadow0 mem0 commits0 eng0 sems0 time0 flt0 grp0 lane0 qmg0 dram0 emt0 grd0 saf0 axis0 port0 tdc0 pool0 rej0 cam0 pts0 hk0 thm0 probe0 fusJob0) := by
  refine trans h ⟨⟨fun p hp => ?_⟩, h_wf⟩
  have no : ∀ {q : Part}, q = p → l.contains q = true → False := by
    intro q hq hc; subst hq; exact hp (by simpa using hc)
  cases p
  · exact h_cyc.elim id (fun h => (no rfl h).elim)
  · exact h_free.elim id (fun h => (no rfl h).elim)
  · exact h_status.elim id (fun h => (no rfl h).elim)
  · exact h_dev.elim id (fun h => (no rfl h).elim)
  · exact h_tap.elim id (fun h => (no rfl h).elim)
  · exact h_regs.elim id (fun h => (no rfl h).elim)
  · exact h_shadow.elim id (fun h => (no rfl h).elim)
  · exact h_mem.elim id (fun h => (no rfl h).elim)
  · exact h_commits.elim id (fun h => (no rfl h).elim)
  · exact h_eng.elim id (fun h => (no rfl h).elim)
  · exact h_sems.elim id (fun h => (no rfl h).elim)
  · exact h_time.elim id (fun h => (no rfl h).elim)
  · exact h_flt.elim id (fun h => (no rfl h).elim)
  · exact h_grp.elim id (fun h => (no rfl h).elim)
  · exact h_lane.elim id (fun h => (no rfl h).elim)
  · exact h_qmg.elim id (fun h => (no rfl h).elim)
  · exact h_dram.elim id (fun h => (no rfl h).elim)
  · exact h_emt.elim id (fun h => (no rfl h).elim)
  · exact h_grd.elim id (fun h => (no rfl h).elim)
  · exact h_saf.elim id (fun h => (no rfl h).elim)
  · exact h_axis.elim id (fun h => (no rfl h).elim)
  · exact h_port.elim id (fun h => (no rfl h).elim)
  · exact h_tdc.elim id (fun h => (no rfl h).elim)
  · exact h_pool.elim id (fun h => (no rfl h).elim)
  · exact h_rej.elim id (fun h => (no rfl h).elim)
  · exact h_cam.elim id (fun h => (no rfl h).elim)
  · exact h_pts.elim id (fun h => (no rfl h).elim)
  · exact h_hk.elim id (fun h => (no rfl h).elim)
  · exact h_thm.elim id (fun h => (no rfl h).elim)
  · exact h_probe.elim id (fun h => (no rfl h).elim)
  · exact h_fusJob.elim id (fun h => (no rfl h).elim)

/-! ### One field replaced -/

theorem cyc {l : List Part} {a b : Mach} {x} (hb : Frame l a b) (h : l.contains .cyc = true := by rfl) : Frame l a { b with cyc := x } :=
  .upd hb (.inr h) (.inl rfl) (.inl rfl) (.inl rfl) (.inl rfl) (.inl rfl) (.inl rfl) (.inl rfl) id (.inl rfl) (.inl rfl)
    (.inl rfl) (.inl rfl) (.inl rfl) (.inl rfl) (.inl rfl) (.inl rfl) (.inl rfl) (.inl rfl) (.inl rfl) (.inl rfl) (.inl rfl)
    (.inl rfl) (.inl rfl) (.inl rfl) (.inl rfl) (.inl rfl) (.inl rfl) (.inl rfl) (.inl rfl) (.inl rfl) (.inl rfl)

theorem free {l : List Part} {a b : Mach} {x} (hb : Frame l a b) (h : l.contains .free = true := by rfl) : Frame l a { b with free := x } :=
  .upd hb (.inl rfl) (.inr h) (.inl rfl) (.inl rfl) (.inl rfl) (.inl rfl) (.inl rfl) (.inl rfl) id (.inl rfl) (.inl rfl)
    (.inl rfl) (.inl rfl) (.inl rfl) (.inl rfl) (.inl rfl) (.inl rfl) (.inl rfl) (.inl rfl) (.inl rfl) (.inl rfl) (.inl rfl)
    (.inl rfl) (.inl rfl) (.inl rfl) (.inl rfl) (.inl rfl) (.inl rfl) (.inl rfl) (.inl rfl) (.inl rfl) (.inl rfl)

theorem status {l : List Part} {a b : Mach} {x} (hb : Frame l a b) (h : l.contains .status = true := by rfl) : Frame l a { b with status := x } :=
  .upd hb (.inl rfl) (.inl rfl) (.inr h) (.inl rfl) (.inl rfl) (.inl rfl) (.inl rfl) (.inl rfl) id (.inl rfl) (.inl rfl)
    (.inl rfl) (.inl rfl) (.inl rfl) (.inl rfl) (.inl rfl) (.inl rfl) (.inl rfl) (.inl rfl) (.inl rfl) (.inl rfl) (.inl rfl)
    (.inl rfl) (.inl rfl) (.inl rfl) (.inl rfl) (.inl rfl) (.inl rfl) (.inl rfl) (.inl rfl) (.inl rfl) (.inl rfl)

theorem dev {l : List Part} {a b : Mach} {x} (hb : Frame l a b) (h : l.contains .dev = true := by rfl) : Frame l a { b with dev := x } :=
  .upd hb (.inl rfl) (.inl rfl) (.inl rfl) (.inr h) (.inl rfl) (.inl rfl) (.inl rfl) (.inl rfl) id (.inl rfl) (.inl rfl)
    (.inl rfl) (.inl rfl) (.inl rfl) (.inl rfl) (.inl rfl) (.inl rfl) (.inl rfl) (.inl rfl) (.inl rfl) (.inl rfl) (.inl rfl)
    (.inl rfl) (.inl rfl) (.inl rfl) (.inl rfl) (.inl rfl) (.inl rfl) (.inl rfl) (.inl rfl) (.inl rfl) (.inl rfl)

theorem tap {l : List Part} {a b : Mach} {x} (hb : Frame l a b) (h : l.contains .tap = true := by rfl) : Frame l a { b with tap := x } :=
  .upd hb (.inl rfl) (.inl rfl) (.inl rfl) (.inl rfl) (.inr h) (.inl rfl) (.inl rfl) (.inl rfl) id (.inl rfl) (.inl rfl)
    (.inl rfl) (.inl rfl) (.inl rfl) (.inl rfl) (.inl rfl) (.inl rfl) (.inl rfl) (.inl rfl) (.inl rfl) (.inl rfl) (.inl rfl)
    (.inl rfl) (.inl rfl) (.inl rfl) (.inl rfl) (.inl rfl) (.inl rfl) (.inl rfl) (.inl rfl) (.inl rfl) (.inl rfl)

theorem regs {l : List Part} {a b : Mach} {x} (hb : Frame l a b) (h : l.contains .regs = true := by rfl) : Frame l a { b with regs := x } :=
  .upd hb (.inl rfl) (.inl rfl) (.inl rfl) (.inl rfl) (.inl rfl) (.inr h) (.inl rfl) (.inl rfl) id (.inl rfl) (.inl rfl)
    (.inl rfl) (.inl rfl) (.inl rfl) (.inl rfl) (.inl rfl) (.inl rfl) (.inl rfl) (.inl rfl) (.inl rfl) (.inl rfl) (.inl rfl)
    (.inl rfl) (.inl rfl) (.inl rfl) (.inl rfl) (.inl rfl) (.inl rfl) (.inl rfl) (.inl rfl) (.inl rfl) (.inl rfl)

theorem shadow {l : List Part} {a b : Mach} {x} (hb : Frame l a b) (h : l.contains .shadow = true := by rfl) : Frame l a { b with shadow := x } :=
  .upd hb (.inl rfl) (.inl rfl) (.inl rfl) (.inl rfl) (.inl rfl) (.inl rfl) (.inr h) (.inl rfl) id (.inl rfl) (.inl rfl)
    (.inl rfl) (.inl rfl) (.inl rfl) (.inl rfl) (.inl rfl) (.inl rfl) (.inl rfl) (.inl rfl) (.inl rfl) (.inl rfl) (.inl rfl)
    (.inl rfl) (.inl rfl) (.inl rfl) (.inl rfl) (.inl rfl) (.inl rfl) (.inl rfl) (.inl rfl) (.inl rfl) (.inl rfl)

theorem commits {l : List Part} {a b : Mach} {x} (hb : Frame l a b) (h : l.contains .commits = true := by rfl) : Frame l a { b with commits := x } :=
  .upd hb (.inl rfl) (.inl rfl) (.inl rfl) (.inl rfl) (.inl rfl) (.inl rfl) (.inl rfl) (.inl rfl) id (.inr h) (.inl rfl)
    (.inl rfl) (.inl rfl) (.inl rfl) (.inl rfl) (.inl rfl) (.inl rfl) (.inl rfl) (.inl rfl) (.inl rfl) (.inl rfl) (.inl rfl)
    (.inl rfl) (.inl rfl) (.inl rfl) (.inl rfl) (.inl rfl) (.inl rfl) (.inl rfl) (.inl rfl) (.inl rfl) (.inl rfl)

theorem eng {l : List Part} {a b : Mach} {x} (hb : Frame l a b) (h : l.contains .eng = true := by rfl) : Frame l a { b with eng := x } :=
  .upd hb (.inl rfl) (.inl rfl) (.inl rfl) (.inl rfl) (.inl rfl) (.inl rfl) (.inl rfl) (.inl rfl) id (.inl rfl) (.inr h)
    (.inl rfl) (.inl rfl) (.inl rfl) (.inl rfl) (.inl rfl) (.inl rfl) (.inl rfl) (.inl rfl) (.inl rfl) (.inl rfl) (.inl rfl)
    (.inl rfl) (.inl rfl) (.inl rfl) (.inl rfl) (.inl rfl) (.inl rfl) (.inl rfl) (.inl rfl) (.inl rfl) (.inl rfl)

theorem sems {l : List Part} {a b : Mach} {x} (hb : Frame l a b) (h : l.contains .sems = true := by rfl) : Frame l a { b with sems := x } :=
  .upd hb (.inl rfl) (.inl rfl) (.inl rfl) (.inl rfl) (.inl rfl) (.inl rfl) (.inl rfl) (.inl rfl) id (.inl rfl) (.inl rfl)
    (.inr h) (.inl rfl) (.inl rfl) (.inl rfl) (.inl rfl) (.inl rfl) (.inl rfl) (.inl rfl) (.inl rfl) (.inl rfl) (.inl rfl)
    (.inl rfl) (.inl rfl) (.inl rfl) (.inl rfl) (.inl rfl) (.inl rfl) (.inl rfl) (.inl rfl) (.inl rfl) (.inl rfl)

theorem time {l : List Part} {a b : Mach} {x} (hb : Frame l a b) (h : l.contains .time = true := by rfl) : Frame l a { b with time := x } :=
  .upd hb (.inl rfl) (.inl rfl) (.inl rfl) (.inl rfl) (.inl rfl) (.inl rfl) (.inl rfl) (.inl rfl) id (.inl rfl) (.inl rfl)
    (.inl rfl) (.inr h) (.inl rfl) (.inl rfl) (.inl rfl) (.inl rfl) (.inl rfl) (.inl rfl) (.inl rfl) (.inl rfl) (.inl rfl)
    (.inl rfl) (.inl rfl) (.inl rfl) (.inl rfl) (.inl rfl) (.inl rfl) (.inl rfl) (.inl rfl) (.inl rfl) (.inl rfl)

theorem flt {l : List Part} {a b : Mach} {x} (hb : Frame l a b) (h : l.contains .flt = true := by rfl) : Frame l a { b with flt := x } :=
  .upd hb (.inl rfl) (.inl rfl) (.inl rfl) (.inl rfl) (.inl rfl) (.inl rfl) (.inl rfl) (.inl rfl) id (.inl rfl) (.inl rfl)
    (.inl rfl) (.inl rfl) (.inr h) (.inl rfl) (.inl rfl) (.inl rfl) (.inl rfl) (.inl rfl) (.inl rfl) (.inl rfl) (.inl rfl)
    (.inl rfl) (.inl rfl) (.inl rfl) (.inl rfl) (.inl rfl) (.inl rfl) (.inl rfl) (.inl rfl) (.inl rfl) (.inl rfl)

theorem grp {l : List Part} {a b : Mach} {x} (hb : Frame l a b) (h : l.contains .grp = true := by rfl) : Frame l a { b with grp := x } :=
  .upd hb (.inl rfl) (.inl rfl) (.inl rfl) (.inl rfl) (.inl rfl) (.inl rfl) (.inl rfl) (.inl rfl) id (.inl rfl) (.inl rfl)
    (.inl rfl) (.inl rfl) (.inl rfl) (.inr h) (.inl rfl) (.inl rfl) (.inl rfl) (.inl rfl) (.inl rfl) (.inl rfl) (.inl rfl)
    (.inl rfl) (.inl rfl) (.inl rfl) (.inl rfl) (.inl rfl) (.inl rfl) (.inl rfl) (.inl rfl) (.inl rfl) (.inl rfl)

theorem lane {l : List Part} {a b : Mach} {x} (hb : Frame l a b) (h : l.contains .lane = true := by rfl) : Frame l a { b with lane := x } :=
  .upd hb (.inl rfl) (.inl rfl) (.inl rfl) (.inl rfl) (.inl rfl) (.inl rfl) (.inl rfl) (.inl rfl) id (.inl rfl) (.inl rfl)
    (.inl rfl) (.inl rfl) (.inl rfl) (.inl rfl) (.inr h) (.inl rfl) (.inl rfl) (.inl rfl) (.inl rfl) (.inl rfl) (.inl rfl)
    (.inl rfl) (.inl rfl) (.inl rfl) (.inl rfl) (.inl rfl) (.inl rfl) (.inl rfl) (.inl rfl) (.inl rfl) (.inl rfl)

theorem qmg {l : List Part} {a b : Mach} {x} (hb : Frame l a b) (h : l.contains .qmg = true := by rfl) : Frame l a { b with qmg := x } :=
  .upd hb (.inl rfl) (.inl rfl) (.inl rfl) (.inl rfl) (.inl rfl) (.inl rfl) (.inl rfl) (.inl rfl) id (.inl rfl) (.inl rfl)
    (.inl rfl) (.inl rfl) (.inl rfl) (.inl rfl) (.inl rfl) (.inr h) (.inl rfl) (.inl rfl) (.inl rfl) (.inl rfl) (.inl rfl)
    (.inl rfl) (.inl rfl) (.inl rfl) (.inl rfl) (.inl rfl) (.inl rfl) (.inl rfl) (.inl rfl) (.inl rfl) (.inl rfl)

theorem dram {l : List Part} {a b : Mach} {x} (hb : Frame l a b) (h : l.contains .dram = true := by rfl) : Frame l a { b with dram := x } :=
  .upd hb (.inl rfl) (.inl rfl) (.inl rfl) (.inl rfl) (.inl rfl) (.inl rfl) (.inl rfl) (.inl rfl) id (.inl rfl) (.inl rfl)
    (.inl rfl) (.inl rfl) (.inl rfl) (.inl rfl) (.inl rfl) (.inl rfl) (.inr h) (.inl rfl) (.inl rfl) (.inl rfl) (.inl rfl)
    (.inl rfl) (.inl rfl) (.inl rfl) (.inl rfl) (.inl rfl) (.inl rfl) (.inl rfl) (.inl rfl) (.inl rfl) (.inl rfl)

theorem emt {l : List Part} {a b : Mach} {x} (hb : Frame l a b) (h : l.contains .emt = true := by rfl) : Frame l a { b with emt := x } :=
  .upd hb (.inl rfl) (.inl rfl) (.inl rfl) (.inl rfl) (.inl rfl) (.inl rfl) (.inl rfl) (.inl rfl) id (.inl rfl) (.inl rfl)
    (.inl rfl) (.inl rfl) (.inl rfl) (.inl rfl) (.inl rfl) (.inl rfl) (.inl rfl) (.inr h) (.inl rfl) (.inl rfl) (.inl rfl)
    (.inl rfl) (.inl rfl) (.inl rfl) (.inl rfl) (.inl rfl) (.inl rfl) (.inl rfl) (.inl rfl) (.inl rfl) (.inl rfl)

theorem grd {l : List Part} {a b : Mach} {x} (hb : Frame l a b) (h : l.contains .grd = true := by rfl) : Frame l a { b with grd := x } :=
  .upd hb (.inl rfl) (.inl rfl) (.inl rfl) (.inl rfl) (.inl rfl) (.inl rfl) (.inl rfl) (.inl rfl) id (.inl rfl) (.inl rfl)
    (.inl rfl) (.inl rfl) (.inl rfl) (.inl rfl) (.inl rfl) (.inl rfl) (.inl rfl) (.inl rfl) (.inr h) (.inl rfl) (.inl rfl)
    (.inl rfl) (.inl rfl) (.inl rfl) (.inl rfl) (.inl rfl) (.inl rfl) (.inl rfl) (.inl rfl) (.inl rfl) (.inl rfl)

theorem saf {l : List Part} {a b : Mach} {x} (hb : Frame l a b) (h : l.contains .saf = true := by rfl) : Frame l a { b with saf := x } :=
  .upd hb (.inl rfl) (.inl rfl) (.inl rfl) (.inl rfl) (.inl rfl) (.inl rfl) (.inl rfl) (.inl rfl) id (.inl rfl) (.inl rfl)
    (.inl rfl) (.inl rfl) (.inl rfl) (.inl rfl) (.inl rfl) (.inl rfl) (.inl rfl) (.inl rfl) (.inl rfl) (.inr h) (.inl rfl)
    (.inl rfl) (.inl rfl) (.inl rfl) (.inl rfl) (.inl rfl) (.inl rfl) (.inl rfl) (.inl rfl) (.inl rfl) (.inl rfl)

theorem axis {l : List Part} {a b : Mach} {x} (hb : Frame l a b) (h : l.contains .axis = true := by rfl) : Frame l a { b with axis := x } :=
  .upd hb (.inl rfl) (.inl rfl) (.inl rfl) (.inl rfl) (.inl rfl) (.inl rfl) (.inl rfl) (.inl rfl) id (.inl rfl) (.inl rfl)
    (.inl rfl) (.inl rfl) (.inl rfl) (.inl rfl) (.inl rfl) (.inl rfl) (.inl rfl) (.inl rfl) (.inl rfl) (.inl rfl) (.inr h)
    (.inl rfl) (.inl rfl) (.inl rfl) (.inl rfl) (.inl rfl) (.inl rfl) (.inl rfl) (.inl rfl) (.inl rfl) (.inl rfl)

theorem port {l : List Part} {a b : Mach} {x} (hb : Frame l a b) (h : l.contains .port = true := by rfl) : Frame l a { b with port := x } :=
  .upd hb (.inl rfl) (.inl rfl) (.inl rfl) (.inl rfl) (.inl rfl) (.inl rfl) (.inl rfl) (.inl rfl) id (.inl rfl) (.inl rfl)
    (.inl rfl) (.inl rfl) (.inl rfl) (.inl rfl) (.inl rfl) (.inl rfl) (.inl rfl) (.inl rfl) (.inl rfl) (.inl rfl) (.inl rfl)
    (.inr h) (.inl rfl) (.inl rfl) (.inl rfl) (.inl rfl) (.inl rfl) (.inl rfl) (.inl rfl) (.inl rfl) (.inl rfl)

theorem tdc {l : List Part} {a b : Mach} {x} (hb : Frame l a b) (h : l.contains .tdc = true := by rfl) : Frame l a { b with tdc := x } :=
  .upd hb (.inl rfl) (.inl rfl) (.inl rfl) (.inl rfl) (.inl rfl) (.inl rfl) (.inl rfl) (.inl rfl) id (.inl rfl) (.inl rfl)
    (.inl rfl) (.inl rfl) (.inl rfl) (.inl rfl) (.inl rfl) (.inl rfl) (.inl rfl) (.inl rfl) (.inl rfl) (.inl rfl) (.inl rfl)
    (.inl rfl) (.inr h) (.inl rfl) (.inl rfl) (.inl rfl) (.inl rfl) (.inl rfl) (.inl rfl) (.inl rfl) (.inl rfl)

theorem pool {l : List Part} {a b : Mach} {x} (hb : Frame l a b) (h : l.contains .pool = true := by rfl) : Frame l a { b with pool := x } :=
  .upd hb (.inl rfl) (.inl rfl) (.inl rfl) (.inl rfl) (.inl rfl) (.inl rfl) (.inl rfl) (.inl rfl) id (.inl rfl) (.inl rfl)
    (.inl rfl) (.inl rfl) (.inl rfl) (.inl rfl) (.inl rfl) (.inl rfl) (.inl rfl) (.inl rfl) (.inl rfl) (.inl rfl) (.inl rfl)
    (.inl rfl) (.inl rfl) (.inr h) (.inl rfl) (.inl rfl) (.inl rfl) (.inl rfl) (.inl rfl) (.inl rfl) (.inl rfl)

theorem rej {l : List Part} {a b : Mach} {x} (hb : Frame l a b) (h : l.contains .rej = true := by rfl) : Frame l a { b with rej := x } :=
  .upd hb (.inl rfl) (.inl rfl) (.inl rfl) (.inl rfl) (.inl rfl) (.inl rfl) (.inl rfl) (.inl rfl) id (.inl rfl) (.inl rfl)
    (.inl rfl) (.inl rfl) (.inl rfl) (.inl rfl) (.inl rfl) (.inl rfl) (.inl rfl) (.inl rfl) (.inl rfl) (.inl rfl) (.inl rfl)
    (.inl rfl) (.inl rfl) (.inl rfl) (.inr h) (.inl rfl) (.inl rfl) (.inl rfl) (.inl rfl) (.inl rfl) (.inl rfl)

theorem cam {l : List Part} {a b : Mach} {x} (hb : Frame l a b) (h : l.contains .cam = true := by rfl) : Frame l a { b with cam := x } :=
  .upd hb (.inl rfl) (.inl rfl) (.inl rfl) (.inl rfl) (.inl rfl) (.inl rfl) (.inl rfl) (.inl rfl) id (.inl rfl) (.inl rfl)
    (.inl rfl) (.inl rfl) (.inl rfl) (.inl rfl) (.inl rfl) (.inl rfl) (.inl rfl) (.inl rfl) (.inl rfl) (.inl rfl) (.inl rfl)
    (.inl rfl) (.inl rfl) (.inl rfl) (.inl rfl) (.inr h) (.inl rfl) (.inl rfl) (.inl rfl) (.inl rfl) (.inl rfl)

theorem pts {l : List Part} {a b : Mach} {x} (hb : Frame l a b) (h : l.contains .pts = true := by rfl) : Frame l a { b with pts := x } :=
  .upd hb (.inl rfl) (.inl rfl) (.inl rfl) (.inl rfl) (.inl rfl) (.inl rfl) (.inl rfl) (.inl rfl) id (.inl rfl) (.inl rfl)
    (.inl rfl) (.inl rfl) (.inl rfl) (.inl rfl) (.inl rfl) (.inl rfl) (.inl rfl) (.inl rfl) (.inl rfl) (.inl rfl) (.inl rfl)
    (.inl rfl) (.inl rfl) (.inl rfl) (.inl rfl) (.inl rfl) (.inr h) (.inl rfl) (.inl rfl) (.inl rfl) (.inl rfl)

theorem hk {l : List Part} {a b : Mach} {x} (hb : Frame l a b) (h : l.contains .hk = true := by rfl) : Frame l a { b with hk := x } :=
  .upd hb (.inl rfl) (.inl rfl) (.inl rfl) (.inl rfl) (.inl rfl) (.inl rfl) (.inl rfl) (.inl rfl) id (.inl rfl) (.inl rfl)
    (.inl rfl) (.inl rfl) (.inl rfl) (.inl rfl) (.inl rfl) (.inl rfl) (.inl rfl) (.inl rfl) (.inl rfl) (.inl rfl) (.inl rfl)
    (.inl rfl) (.inl rfl) (.inl rfl) (.inl rfl) (.inl rfl) (.inl rfl) (.inr h) (.inl rfl) (.inl rfl) (.inl rfl)

theorem thm {l : List Part} {a b : Mach} {x} (hb : Frame l a b) (h : l.contains .thm = true := by rfl) : Frame l a { b with thm := x } :=
  .upd hb (.inl rfl) (.inl rfl) (.inl rfl) (.inl rfl) (.inl rfl) (.inl rfl) (.inl rfl) (.inl rfl) id (.inl rfl) (.inl rfl)
    (.inl rfl) (.inl rfl) (.inl rfl) (.inl rfl) (.inl rfl) (.inl rfl) (.inl rfl) (.inl rfl) (.inl rfl) (.inl rfl) (.inl rfl)
    (.inl rfl) (.inl rfl) (.inl rfl) (.inl rfl) (.inl rfl) (.inl rfl) (.inl rfl) (.inr h) (.inl rfl) (.inl rfl)

theorem probe {l : List Part} {a b : Mach} {x} (hb : Frame l a b) (h : l.contains .probe = true := by rfl) : Frame l a { b with probe := x } :=
  .upd hb (.inl rfl) (.inl rfl) (.inl rfl) (.inl rfl) (.inl rfl) (.inl rfl) (.inl rfl) (.inl rfl) id (.inl rfl) (.inl rfl)
    (.inl rfl) (.inl rfl) (.inl rfl) (.inl rfl) (.inl rfl) (.inl rfl) (.inl rfl) (.inl rfl) (.inl rfl) (.inl rfl) (.inl rfl)
    (.inl rfl) (.inl rfl) (.inl rfl) (.inl rfl) (.inl rfl) (.inl rfl) (.inl rfl) (.inl rfl) (.inr h) (.inl rfl)

theorem fusJob {l : List Part} {a b : Mach} {x} (hb : Frame l a b) (h : l.contains .fusJob = true := by rfl) : Frame l a { b with fusJob := x } :=
  .upd hb (.inl rfl) (.inl rfl) (.inl rfl) (.inl rfl) (.inl rfl) (.inl rfl) (.inl rfl) (.inl rfl) id (.inl rfl) (.inl rfl)
    (.inl rfl) (.inl rfl) (.inl rfl) (.inl rfl) (.inl rfl) (.inl rfl) (.inl rfl) (.inl rfl) (.inl rfl) (.inl rfl) (.inl rfl)
    (.inl rfl) (.inl rfl) (.inl rfl) (.inl rfl) (.inl rfl) (.inl rfl) (.inl rfl) (.inl rfl) (.inl rfl) (.inr h)

/-- Nothing but memory changes, and its form is kept. -/
theorem memOnly {m : Mach} {x : List Host.Cell} (h : Memory.wf m.mem = true → Memory.wf x = true) : Frame [.mem] m { m with mem := x } := by
  refine .upd .refl (.inl rfl) (.inl rfl) (.inl rfl) (.inl rfl) (.inl rfl) (.inl rfl) (.inl rfl) (.inr rfl) h (.inl rfl) (.inl rfl)
    (.inl rfl) (.inl rfl) (.inl rfl) (.inl rfl) (.inl rfl) (.inl rfl) (.inl rfl) (.inl rfl) (.inl rfl) (.inl rfl) (.inl rfl) (.inl rfl)
    (.inl rfl) (.inl rfl) (.inl rfl) (.inl rfl) (.inl rfl) (.inl rfl) (.inl rfl) (.inl rfl) (.inl rfl)

/-- A part outside the list holds nothing memory is read from. -/
theorem of_all {a b : Mach} (h : Memory.wf b.mem = true) (hc : b.cyc = a.cyc) (hf : b.free = a.free) (ht : b.tap = a.tap) :
    Frame [.status, .dev, .regs, .shadow, .mem, .commits, .eng, .sems, .time, .flt, .grp, .lane, .qmg, .dram, .emt, .grd, .saf, .axis,
      .port, .tdc, .pool, .rej, .cam, .pts, .hk, .thm, .probe, .fusJob] a b := by
  refine ⟨⟨fun p hp => ?_⟩, fun _ => h⟩
  cases p <;> first | exact hc | exact hf | exact ht | exact absurd hp (by decide)

end Frame

theorem State.run_frame {l : List Part} {s t : State} {ok : Bool} {f : Otp → Mach → Mach} (hf : ∀ m, Frame l m (f s.otp m))
    (h : s.run ok f = .next t) : Frame l s.m t.m := by
  obtain ⟨-, rfl⟩ := State.run_next h
  exact hf s.m

end Sys2Proof.Machine
end

