-- ==== Sys2Proof/Laws/Frames.lean ====
section
/-!
SUPPORT. For every operation on the machine one lemma: which parts it may touch, and that it keeps memory canonical; then the same for
every command.
-/
namespace Sys2Proof.Machine
set_option Elab.async false

/-! ## Operations -/

theorem Mach.setReg_frame (m : Mach) (a : Nat) (w : Word) : Frame [.regs] m (Mach.setReg m a w) := by
  unfold Mach.setReg
  refine .regs ?_
  exact .refl

theorem Mach.setShadow_frame (m : Mach) (a : Nat) (w : Word) : Frame [.shadow] m (Mach.setShadow m a w) := by
  unfold Mach.setShadow
  refine .shadow ?_
  exact .refl

theorem Mach.setFld_frame (m : Mach) (a : Nat) (f : Fld) (v : Nat) : Frame [.regs] m (Mach.setFld m a f v) := by
  unfold Mach.setFld
  refine .trans ?_ (.mono rfl (Mach.setReg_frame ..))
  exact .refl

theorem Mach.satAdd_frame (m : Mach) (a : Nat) (f : Fld) (k : Nat) : Frame [.regs] m (Mach.satAdd m a f k) := by
  unfold Mach.satAdd
  refine .trans ?_ (.mono rfl (Mach.setFld_frame ..))
  exact .refl

theorem Mach.satInc_frame (m : Mach) (a : Nat) (f : Fld) : Frame [.regs] m (Mach.satInc m a f) := by
  unfold Mach.satInc
  refine .trans ?_ (.mono rfl (Mach.satAdd_frame ..))
  exact .refl

theorem Mach.wrapInc_frame (m : Mach) (a : Nat) (f : Fld) : Frame [.regs] m (Mach.wrapInc m a f) := by
  unfold Mach.wrapInc
  refine .trans ?_ (.mono rfl (Mach.setFld_frame ..))
  exact .refl

theorem Mach.setE_frame (m : Mach) (n : Nat) (x : Engine) : Frame [.eng] m (Mach.setE m n x) := by
  unfold Mach.setE
  refine .eng ?_
  exact .refl

theorem Mach.modE_frame (m : Mach) (n : Nat) (f : Engine → Engine) : Frame [.eng] m (Mach.modE m n f) := by
  unfold Mach.modE
  refine .trans ?_ (.mono rfl (Mach.setE_frame ..))
  exact .refl

theorem Mach.setSem_frame (m : Mach) (n : Nat) (x : Sem) : Frame [.sems] m (Mach.setSem m n x) := by
  unfold Mach.setSem
  refine .sems ?_
  exact .refl

theorem Mach.modG_frame (m : Mach) (g : Nat) (f : Group → Group) : Frame [.grp] m (Mach.modG m g f) := by
  unfold Mach.modG
  refine .grp ?_
  exact .refl

theorem Mach.modL_frame (m : Mach) (l : Nat) (f : Lane → Lane) : Frame [.lane] m (Mach.modL m l f) := by
  unfold Mach.modL
  refine .lane ?_
  exact .refl

theorem Mach.modQ_frame (m : Mach) (q : Nat) (f : QState → QState) : Frame [.qmg] m (Mach.modQ m q f) := by
  unfold Mach.modQ
  refine .qmg ?_
  exact .refl

theorem Mach.setTrig_frame (m : Mach) (t : Nat) (x : Trig) : Frame [.time] m (Mach.setTrig m t x) := by
  unfold Mach.setTrig
  refine .time ?_
  exact .refl

theorem Mach.takeFree_frame (m : Mach) : Frame [.free] m ((Mach.takeFree m).2) := by
  unfold Mach.takeFree
  dsimp only
  refine .free ?_
  exact .refl

theorem Mach.setByte_frame (m : Mach) (a : Nat) (b : Byte) : Frame [.mem] m (m.setByte a b) :=
  .memOnly (Memory.wf_setByte m a b)

theorem Mach.setBytes_frame (m : Mach) (a : Nat) (l : List Byte) : Frame [.mem] m (m.setBytes a l) := by
  induction l generalizing m a with
  | nil => exact .refl
  | cons b t ih => exact .trans (Mach.setByte_frame ..) (ih ..)

theorem Mach.setMnat_frame (m : Mach) (a n v : Nat) : Frame [.mem] m (Mach.setMnat m a n v) := by
  unfold Mach.setMnat
  refine .trans ?_ (.mono rfl (Mach.setBytes_frame ..))
  exact .refl

theorem Mach.setMword_frame (m : Mach) (a : Nat) (w : Word) : Frame [.mem] m (Mach.setMword m a w) := by
  unfold Mach.setMword
  refine .trans ?_ (.mono rfl (Mach.setMnat_frame ..))
  exact .refl

theorem Mach.splice_frame (m : Mach) (a n : Nat) : Frame [.mem] m (m.splice a n []) :=
  .memOnly (fun h => Memory.wf_splice m a n [] h rfl nofun)

theorem Mach.copyRange_frame (m : Mach) (f t n : Nat) : Frame [.mem] m (m.copyRange f t n) :=
  .memOnly (Memory.wf_copyRange m f t n)

theorem Mach.advance_frame (m : Mach) (n : Nat) : Frame [.cyc, .time] m (Mach.advance m n) := by
  unfold Mach.advance
  refine .upd ?_ (.inr rfl) (.inl rfl) (.inl rfl) (.inl rfl) (.inl rfl) (.inl rfl) (.inl rfl) (.inl rfl) id (.inl rfl) (.inl rfl) (.inl rfl) (.inr rfl) (.inl rfl) (.inl rfl) (.inl rfl) (.inl rfl) (.inl rfl) (.inl rfl) (.inl rfl) (.inl rfl) (.inl rfl) (.inl rfl) (.inl rfl) (.inl rfl) (.inl rfl) (.inl rfl) (.inl rfl) (.inl rfl) (.inl rfl) (.inl rfl) (.inl rfl)
  exact .refl

theorem Mach.advanceTo_frame (m : Mach) (c : Nat) : Frame [.cyc, .time] m (Mach.advanceTo m c) := by
  unfold Mach.advanceTo
  refine .trans ?_ (.mono rfl (Mach.advance_frame ..))
  exact .refl

theorem Mach.advanceToFine_frame (m : Mach) (t : Nat) : Frame [.cyc, .time] m (Mach.advanceToFine m t) := by
  unfold Mach.advanceToFine
  refine .trans ?_ (.mono rfl (Mach.advanceTo_frame ..))
  exact .refl

theorem Mach.respond_frame (m : Mach) (g : Nat) (p : Pkt) : Frame [.grp] m (Mach.respond m g p) := by
  unfold Mach.respond
  refine .trans ?_ (.mono rfl (Mach.modG_frame ..))
  exact .refl

theorem Mach.raise_frame (m : Mach) (c k : Nat) (payload : List Byte) : Frame [.regs, .grp] m (Mach.raise m c k payload) := by
  unfold Mach.raise
  refine .ite ?_ ?_
  · exact .refl
  · refine .ite ?_ ?_
    · refine .trans ?_ (.mono rfl (Mach.respond_frame ..))
      refine .trans ?_ (.mono rfl (Mach.setFld_frame ..))
      exact .refl
    · refine .trans ?_ (.mono rfl (Mach.setFld_frame ..))
      exact .refl

theorem Mach.raiseAll_frame (m : Mach) (k : Nat) (payload : List Byte) : Frame [.regs, .grp] m (Mach.raiseAll m k payload) := by
  unfold Mach.raiseAll
  refine .trans ?_ (.foldl (fun _ _ => ?_) _)
  · exact .refl
  · refine .trans ?_ (.mono rfl (Mach.raise_frame ..))
    exact .refl

theorem Mach.goto_frame (m : Mach) (s : DevState) : Frame [.dev, .regs, .grp] m (Mach.goto m s) := by
  unfold Mach.goto
  refine .trans ?_ (.mono rfl (Mach.raiseAll_frame ..))
  refine .trans ?_ (Frame.when (fun _ => ?_))
  · refine .dev ?_
    refine .trans ?_ (.mono rfl (Mach.wrapInc_frame ..))
    refine .trans ?_ (.mono rfl (Mach.setFld_frame ..))
    exact .refl
  · refine .trans ?_ (.mono rfl (Mach.setFld_frame ..))
    refine .trans ?_ (.mono rfl (Mach.setFld_frame ..))
    refine .trans ?_ (.mono rfl (Mach.setFld_frame ..))
    exact .refl

theorem Mach.setQWr_frame (m : Mach) (q v : Nat) : Frame [.regs] m (Mach.setQWr m q v) := by
  unfold Mach.setQWr
  refine .trans ?_ (.mono rfl (Mach.setFld_frame ..))
  refine .trans ?_ (.mono rfl (Mach.setFld_frame ..))
  exact .refl

theorem Mach.setQRd_frame (m : Mach) (q v : Nat) : Frame [.regs] m (Mach.setQRd m q v) := by
  unfold Mach.setQRd
  refine .trans ?_ (.mono rfl (Mach.setFld_frame ..))
  refine .trans ?_ (.mono rfl (Mach.setFld_frame ..))
  exact .refl

theorem Mach.qPut_frame (m : Mach) (q off : Nat) (l : List Byte) : Frame [.mem] m (m.qPut q off l) := by
  induction l generalizing m off with
  | nil => exact .refl
  | cons b t ih => exact .trans (Mach.setByte_frame ..) (ih ..)

theorem Mach.qLevel_frame (m : Mach) (q : Nat) : Frame [.regs] m (Mach.qLevel m q) := by
  unfold Mach.qLevel
  refine .trans ?_ (.mono rfl (Mach.setFld_frame ..))
  exact .refl

theorem Mach.qDrop_frame (m : Mach) (q n : Nat) : Frame [.regs, .qmg] m (Mach.qDrop m q n) := by
  unfold Mach.qDrop
  refine .trans ?_ (.mono rfl (Mach.modQ_frame ..))
  refine .trans ?_ (.mono rfl (Mach.satAdd_frame ..))
  exact .refl

theorem Mach.qPop_frame (m : Mach) (q : Nat) : Frame [.regs, .qmg] m (Mach.qPop m q) := by
  unfold Mach.qPop
  refine .trans ?_ (.mono rfl (Mach.qLevel_frame ..))
  refine .trans ?_ (.mono rfl (Mach.modQ_frame ..))
  refine .trans ?_ (.mono rfl (Mach.setQRd_frame ..))
  exact .refl

theorem Mach.qMark_frame (m : Mach) (q : Nat) : Frame [.qmg] m (Mach.qMark m q) := by
  unfold Mach.qMark
  refine .ite ?_ ?_
  · refine .trans ?_ (.mono rfl (Mach.modQ_frame ..))
    exact .refl
  · refine .trans ?_ (.mono rfl (Mach.modQ_frame ..))
    exact .refl

theorem Mach.qMarkAll_frame (m : Mach) : Frame [.qmg] m (Mach.qMarkAll m) := by
  unfold Mach.qMarkAll
  refine .trans ?_ (.foldl (fun _ _ => ?_) _)
  · exact .refl
  · refine .trans ?_ (.mono rfl (Mach.qMark_frame ..))
    exact .refl

theorem Mach.qAccept_frame (m : Mach) (q : Nat) (r : List Byte) : Frame [.regs, .mem, .grp, .qmg] m (Mach.qAccept m q r) := by
  unfold Mach.qAccept
  refine .ite ?_ ?_
  · refine .trans ?_ (.mono rfl (Mach.raise_frame ..))
    refine .trans ?_ (.mono rfl (Mach.qMark_frame ..))
    refine .trans ?_ (.mono rfl (Mach.qLevel_frame ..))
    refine .trans ?_ (.mono rfl (Mach.modQ_frame ..))
    refine .trans ?_ (.mono rfl (Mach.setFld_frame ..))
    refine .trans ?_ (.mono rfl (Mach.setQWr_frame ..))
    refine .trans ?_ (.mono rfl (Mach.qPut_frame ..))
    exact .refl
  · refine .trans ?_ (.mono rfl (Mach.qMark_frame ..))
    refine .trans ?_ (.mono rfl (Mach.qLevel_frame ..))
    refine .trans ?_ (.mono rfl (Mach.modQ_frame ..))
    refine .trans ?_ (.mono rfl (Mach.setFld_frame ..))
    refine .trans ?_ (.mono rfl (Mach.setQWr_frame ..))
    refine .trans ?_ (.mono rfl (Mach.qPut_frame ..))
    exact .refl

theorem Mach.qEvict_frame (m : Mach) (q n k : Nat) : Frame [.regs, .qmg] m (m.qEvict q n k) := by
  induction k generalizing m with
  | zero => exact .refl
  | succ k ih =>
    unfold Mach.qEvict
    refine .ite .refl ?_
    refine .trans ?_ (ih ..)
    refine .trans ?_ (.mono rfl (Mach.qDrop_frame ..))
    exact .mono rfl (Mach.qPop_frame ..)

theorem Mach.offer_frame (m : Mach) (q : Nat) (who : Offerer) (canWait : Bool) (r : List Byte) : Frame [.regs, .mem, .grp, .qmg] m
    ((Mach.offer m q who canWait r).1) := by
  unfold Mach.offer
  dsimp only
  split
  · dsimp only
    refine .trans ?_ (.mono rfl (Mach.qDrop_frame ..))
    exact .refl
  · split
    · split
      · dsimp only
        refine .trans ?_ (.mono rfl (Mach.modQ_frame ..))
        exact .refl
      · dsimp only
        refine .trans ?_ (.mono rfl (Mach.qAccept_frame ..))
        exact .refl
    · split
      · dsimp only
        refine .trans ?_ (.mono rfl (Mach.qAccept_frame ..))
        exact .refl
      · split
        · dsimp only
          refine .trans ?_ (.mono rfl (Mach.qAccept_frame ..))
          refine .trans ?_ (.mono rfl (Mach.qEvict_frame ..))
          exact .refl
        · dsimp only
          refine .trans ?_ (.mono rfl (Mach.qDrop_frame ..))
          exact .refl

theorem Mach.withdraw_frame (m : Mach) (q : Nat) (who : Offerer) : Frame [.qmg] m (Mach.withdraw m q who) := by
  unfold Mach.withdraw
  refine .trans ?_ (.mono rfl (Mach.modQ_frame ..))
  exact .refl

theorem Mach.writeHeader_frame (m : Mach) (q : Nat) : Frame [.mem, .qmg] m (Mach.writeHeader m q) := by
  unfold Mach.writeHeader
  refine .trans ?_ (.mono rfl (Mach.modQ_frame ..))
  refine .trans ?_ (.mono rfl (Mach.setBytes_frame ..))
  exact .refl

theorem Mach.frozen_frame (m : Mach) (q : Nat) : Frame [.regs, .mem, .grp, .qmg] m (Mach.frozen m q) := by
  unfold Mach.frozen
  refine .trans ?_ (.mono rfl (Mach.raise_frame ..))
  refine .trans ?_ (.mono rfl (Mach.writeHeader_frame ..))
  refine .trans ?_ (.mono rfl (Mach.setFld_frame ..))
  refine .trans ?_ (.mono rfl (Mach.setFld_frame ..))
  exact .refl

theorem Mach.freeze_frame (m : Mach) (q k : Nat) : Frame [.regs, .mem, .grp, .qmg] m (Mach.freeze m q k) := by
  unfold Mach.freeze
  refine .ite ?_ ?_
  · refine .ite ?_ ?_
    · refine .trans ?_ (.mono rfl (Mach.setFld_frame ..))
      exact .refl
    · exact .refl
  · refine .trans ?_ (Frame.when (fun _ => ?_))
    · refine .trans ?_ (.mono rfl (Mach.modQ_frame ..))
      refine .trans ?_ (.foldl (fun _ _ => ?_) _)
      · refine .trans ?_ (.mono rfl (Mach.setFld_frame ..))
        refine .trans ?_ (.mono rfl (Mach.setFld_frame ..))
        exact .refl
      · refine .trans ?_ (.mono rfl (Mach.setReg_frame ..))
        exact .refl
    · refine .trans ?_ (.mono rfl (Mach.frozen_frame ..))
      exact .refl

theorem Mach.freezeAll_frame (m : Mach) (on : Fld) (k : Nat) : Frame [.regs, .mem, .grp, .qmg] m (Mach.freezeAll m on k) := by
  unfold Mach.freezeAll
  refine .trans ?_ (.foldl (fun _ _ => ?_) _)
  · exact .refl
  · refine .ite ?_ ?_
    · refine .trans ?_ (.mono rfl (Mach.freeze_frame ..))
      exact .refl
    · exact .refl

theorem Mach.copyGroup_frame (m : Mach) (b : Blk) (page grp : Nat) : Frame [.regs, .commits] m (Mach.copyGroup m b page grp) := by
  unfold Mach.copyGroup
  refine .commits ?_
  refine .trans ?_ (.foldl (fun _ _ => ?_) _)
  · exact .refl
  · split
    refine .trans ?_ (.mono rfl (Mach.setReg_frame ..))
    exact .refl

theorem Mach.applied_frame (m : Mach) (page : Nat) : Frame [.regs] m (Mach.applied m page) := by
  unfold Mach.applied
  refine .trans ?_ (.mono rfl (Mach.setReg_frame ..))
  exact .refl

theorem Mach.applyGroups_frame (m : Mach) (b : Blk) (page : Nat) (grps : List Nat) : Frame [.regs, .commits] m (Mach.applyGroups m b page
    grps) := by
  unfold Mach.applyGroups
  refine .ite ?_ ?_
  · exact .refl
  · refine .trans ?_ (.mono rfl (Mach.applied_frame ..))
    refine .trans ?_ (.foldl (fun _ _ => ?_) _)
    · exact .refl
    · refine .trans ?_ (.mono rfl (Mach.copyGroup_frame ..))
      exact .refl

theorem Mach.modOssd_frame (m : Mach) (p : Nat) (f : Ossd → Ossd) : Frame [.saf] m (Mach.modOssd m p f) := by
  unfold Mach.modOssd
  refine .saf ?_
  exact .refl

theorem Mach.sendSafe_frame (m : Mach) (kind : Nat) : Frame [.grp, .saf] m (Mach.sendSafe m kind) := by
  unfold Mach.sendSafe
  refine .saf ?_
  refine .trans ?_ (.foldl (fun _ _ => ?_) _)
  · exact .refl
  · refine .ite ?_ ?_
    · refine .trans ?_ (.mono rfl (Mach.modG_frame ..))
      exact .refl
    · exact .refl

theorem Mach.safetyEvent_frame (m : Mach) : Frame [.regs, .mem, .grp, .qmg, .saf] m (Mach.safetyEvent m) := by
  unfold Mach.safetyEvent
  refine .trans ?_ (.mono rfl (Mach.sendSafe_frame ..))
  refine .trans ?_ (.mono rfl (Mach.freezeAll_frame ..))
  exact .refl

theorem Mach.ossdTo_frame (m : Mach) (p st cause : Nat) : Frame [.regs, .saf] m (Mach.ossdTo m p st cause) := by
  unfold Mach.ossdTo
  refine .trans ?_ (.mono rfl (Mach.setFld_frame ..))
  refine .trans ?_ (.mono rfl (Mach.modOssd_frame ..))
  refine .trans ?_ (Frame.when (fun _ => ?_))
  · refine .trans ?_ (Frame.when (fun _ => ?_))
    · refine .trans ?_ (.mono rfl (Mach.setFld_frame ..))
      refine .trans ?_ (.mono rfl (Mach.setFld_frame ..))
      refine .trans ?_ (.mono rfl (Mach.setFld_frame ..))
      exact .refl
    · refine .trans ?_ (.mono rfl (Mach.setFld_frame ..))
      exact .refl
  · refine .trans ?_ (.mono rfl (Mach.satInc_frame ..))
    exact .refl

theorem Mach.ossdOff_frame (m : Mach) (p cause : Nat) : Frame [.regs, .mem, .grp, .qmg, .saf] m (Mach.ossdOff m p cause) := by
  unfold Mach.ossdOff
  refine .ite ?_ ?_
  · refine .trans ?_ (Frame.when (fun _ => ?_))
    · refine .trans ?_ (.mono rfl (Mach.ossdTo_frame ..))
      exact .refl
    · refine .trans ?_ (.mono rfl (Mach.safetyEvent_frame ..))
      exact .refl
  · refine .trans ?_ (.mono rfl (Mach.setFld_frame ..))
    exact .refl

theorem Mach.ossdOffAll_frame (m : Mach) (cause : Nat) : Frame [.regs, .mem, .grp, .qmg, .saf] m (Mach.ossdOffAll m cause) := by
  unfold Mach.ossdOffAll
  refine .trans ?_ (.mono rfl (Mach.ossdOff_frame ..))
  refine .trans ?_ (.mono rfl (Mach.ossdOff_frame ..))
  exact .refl

theorem Mach.modP_frame (m : Mach) (n : Nat) (f : Port → Port) : Frame [.port] m (Mach.modP m n f) := by
  unfold Mach.modP
  refine .port ?_
  exact .refl

theorem Mach.modAx_frame (m : Mach) (a : Nat) (f : Axis → Axis) : Frame [.axis] m (Mach.modAx m a f) := by
  unfold Mach.modAx
  refine .axis ?_
  exact .refl

theorem Mach.modTile_frame (m : Mach) (t : Nat) (f : Tile → Tile) : Frame [.tdc] m (Mach.modTile m t f) := by
  unfold Mach.modTile
  refine .tdc ?_
  exact .refl

theorem Mach.setBankSt_frame (m : Mach) (b v : Nat) : Frame [.regs] m (Mach.setBankSt m b v) := by
  unfold Mach.setBankSt
  refine .trans ?_ (.mono rfl (Mach.setFld_frame ..))
  exact .refl

theorem Mach.clearBank_frame (m : Mach) (b : Nat) : Frame [.mem] m (m.clearBank b) :=
  .memOnly (mapWf_filter _ _ _)

theorem Mach.pstat_frame (m : Mach) (p : Nat) : Frame [.regs] m (Mach.pstat m p) := by
  unfold Mach.pstat
  refine .trans ?_ (.mono rfl (Mach.setFld_frame ..))
  refine .trans ?_ (.mono rfl (Mach.setFld_frame ..))
  refine .trans ?_ (.mono rfl (Mach.setFld_frame ..))
  refine .trans ?_ (.mono rfl (Mach.setFld_frame ..))
  exact .refl

theorem Mach.closeCell_frame (m : Mach) (p : Nat) : Frame [.regs, .port] m (Mach.closeCell m p) := by
  unfold Mach.closeCell
  split
  · exact .refl
  · refine .trans ?_ (.mono rfl (Mach.pstat_frame ..))
    refine .trans ?_ (.mono rfl (Mach.modP_frame ..))
    exact .refl

theorem Mach.closeOwned_frame (m : Mach) (n : Nat) : Frame [.regs, .port] m (Mach.closeOwned m n) := by
  unfold Mach.closeOwned
  refine .trans ?_ (.foldl (fun _ _ => ?_) _)
  · exact .refl
  · refine .trans ?_ (.mono rfl (Mach.closeCell_frame ..))
    exact .refl

theorem Mach.modPool_frame (m : Mach) (p : Nat) (f : Pool → Pool) : Frame [.regs, .pool] m (Mach.modPool m p f) := by
  unfold Mach.modPool
  refine .trans ?_ (.mono rfl (Mach.setFld_frame ..))
  refine .trans ?_ (.mono rfl (Mach.setFld_frame ..))
  refine .trans ?_ (.mono rfl (Mach.setFld_frame ..))
  refine .pool ?_
  exact .refl

theorem Mach.releaseBank_frame (m : Mach) (b gen : Nat) : Frame [.regs, .mem] m (Mach.releaseBank m b gen) := by
  unfold Mach.releaseBank
  refine .ite ?_ ?_
  · refine .trans ?_ (.mono rfl (Mach.satInc_frame ..))
    exact .refl
  · refine .trans ?_ (.mono rfl (Mach.pstat_frame ..))
    refine .trans ?_ (.mono rfl (Mach.setBankSt_frame ..))
    refine .trans ?_ (.mono rfl (Mach.clearBank_frame ..))
    exact .refl

theorem Mach.leaveQueues_frame (m : Mach) (e : Nat) : Frame [.regs, .sems, .qmg, .dram, .pool] m (Mach.leaveQueues m e) := by
  unfold Mach.leaveQueues
  split
  · refine .trans ?_ (.mono rfl (Mach.setSem_frame ..))
    exact .refl
  · refine .trans ?_ (.mono rfl (Mach.withdraw_frame ..))
    exact .refl
  · refine .dram ?_
    exact .refl
  · refine .trans ?_ (.mono rfl (Mach.modPool_frame ..))
    exact .refl
  · exact .refl

theorem Mach.haltEngine_frame (m : Mach) (e : Nat) (s : EngState) (cause : Nat) : Frame [.regs, .eng, .sems, .qmg, .dram, .pool] m
    (Mach.haltEngine m e s cause) := by
  unfold Mach.haltEngine
  refine .trans ?_ (.mono rfl (Mach.modE_frame ..))
  refine .trans ?_ (.mono rfl (Mach.leaveQueues_frame ..))
  exact .refl

theorem Mach.showWalks_frame (m : Mach) : Frame [.regs] m (Mach.showWalks m) := by
  unfold Mach.showWalks
  refine .trans ?_ (.foldl (fun _ _ => ?_) _)
  · exact .refl
  · refine .trans ?_ (.mono rfl (Mach.setFld_frame ..))
    exact .refl

theorem Mach.haltSeqAs_frame (m : Mach) (n : Nat) (s : EngState) (cause : Nat) : Frame [.regs, .eng, .sems, .qmg, .dram, .emt, .port,
    .pool] m (Mach.haltSeqAs m n s cause) := by
  unfold Mach.haltSeqAs
  refine .trans ?_ (.mono rfl (Mach.closeOwned_frame ..))
  refine .trans ?_ (.mono rfl (Mach.haltEngine_frame ..))
  refine .trans ?_ (.mono rfl (Mach.showWalks_frame ..))
  refine .emt ?_
  exact .refl

theorem Mach.haltSeq_frame (m : Mach) (n : Nat) : Frame [.regs, .eng, .sems, .qmg, .dram, .emt, .port, .pool] m (Mach.haltSeq m n) := by
  unfold Mach.haltSeq
  refine .ite ?_ ?_
  · refine .trans ?_ (.mono rfl (Mach.haltSeqAs_frame ..))
    exact .refl
  · exact .refl

theorem Mach.portsCancel_frame (m : Mach) : Frame [.port] m (Mach.portsCancel m) := by
  unfold Mach.portsCancel
  refine .port ?_
  exact .refl

theorem Mach.emtOff_frame (m : Mach) : Frame [.regs, .emt, .port] m (Mach.emtOff m) := by
  unfold Mach.emtOff
  refine .trans ?_ (.mono rfl (Mach.setFld_frame ..))
  refine .trans ?_ (.mono rfl (Mach.portsCancel_frame ..))
  refine .trans ?_ (.mono rfl (Mach.showWalks_frame ..))
  refine .emt ?_
  exact .refl

theorem Mach.enterOasis_frame (m : Mach) (c : OasisCause) : Frame [.dev, .regs, .mem, .eng, .sems, .grp, .qmg, .dram, .emt, .saf, .port,
    .pool] m (Mach.enterOasis m c) := by
  unfold Mach.enterOasis
  refine .ite ?_ ?_
  · exact .refl
  · refine .ite ?_ ?_
    · refine .dev ?_
      refine .trans ?_ (Frame.when (fun _ => ?_))
      · exact .refl
      · refine .trans ?_ (.mono rfl (Mach.setFld_frame ..))
        exact .refl
    · refine .trans ?_ (.mono rfl (Mach.goto_frame ..))
      refine .trans ?_ (.mono rfl (Mach.setFld_frame ..))
      refine .trans ?_ (.mono rfl (Mach.ossdOffAll_frame ..))
      refine .trans ?_ (.mono rfl (Mach.emtOff_frame ..))
      refine .trans ?_ (.foldl (fun _ _ => ?_) _)
      · refine .dev ?_
        refine .trans ?_ (Frame.when (fun _ => ?_))
        · exact .refl
        · refine .trans ?_ (.mono rfl (Mach.setFld_frame ..))
          exact .refl
      · refine .trans ?_ (.mono rfl (Mach.haltSeq_frame ..))
        exact .refl

theorem Mach.record_frame (m : Mach) (src root code action : Nat) (inj : Bool) : Frame [.regs, .flt] m (Mach.record m src root code action
    inj) := by
  unfold Mach.record
  refine .trans ?_ (.mono rfl (Mach.setFld_frame ..))
  refine .flt ?_
  exact .refl

theorem Mach.reportAs_frame (m : Mach) (src root code action : Nat) (inj : Bool) : Frame [.dev, .regs, .mem, .eng, .sems, .flt, .grp,
    .qmg, .dram, .emt, .saf, .port, .pool] m (Mach.reportAs m src root code action inj) := by
  unfold Mach.reportAs
  refine .trans ?_ (Frame.when (fun _ => ?_))
  · refine .trans ?_ (Frame.when (fun _ => ?_))
    · refine .trans ?_ (.mono rfl (Mach.record_frame ..))
      exact .refl
    · refine .trans ?_ (.mono rfl (Mach.freezeAll_frame ..))
      exact .refl
  · refine .trans ?_ (.mono rfl (Mach.enterOasis_frame ..))
    exact .refl

theorem Mach.report_frame (m : Mach) (src root code action : Nat) : Frame [.dev, .regs, .mem, .eng, .sems, .flt, .grp, .qmg, .dram, .emt,
    .saf, .port, .pool] m (Mach.report m src root code action) := by
  unfold Mach.report
  refine .trans ?_ (.mono rfl (Mach.reportAs_frame ..))
  exact .refl

theorem Mach.guardFails_frame (m : Mach) (c : OasisCause) (root : Nat) : Frame [.dev, .regs, .mem, .eng, .sems, .flt, .grp, .qmg, .dram,
    .emt, .grd, .saf, .port, .pool] m (Mach.guardFails m c root) := by
  unfold Mach.guardFails
  refine .trans ?_ (.mono rfl (Mach.enterOasis_frame ..))
  refine .trans ?_ (.mono rfl (Mach.report_frame ..))
  refine .grd ?_
  refine .trans ?_ (.mono rfl (Mach.setReg_frame ..))
  refine .trans ?_ (.mono rfl (Mach.setReg_frame ..))
  refine .trans ?_ (.mono rfl (Mach.setFld_frame ..))
  refine .trans ?_ (.mono rfl (Mach.setFld_frame ..))
  refine .trans ?_ (.mono rfl (Mach.setFld_frame ..))
  refine .trans ?_ (.mono rfl (Mach.setFld_frame ..))
  refine .trans ?_ (.mono rfl (Mach.setFld_frame ..))
  exact .refl

theorem Mach.safetyFault_frame (m : Mach) (k : Nat) : Frame [.dev, .regs, .mem, .eng, .sems, .flt, .grp, .qmg, .dram, .emt, .saf, .port,
    .pool] m (Mach.safetyFault m k) := by
  unfold Mach.safetyFault
  refine .trans ?_ (.mono rfl (Mach.enterOasis_frame ..))
  refine .trans ?_ (.mono rfl (Mach.report_frame ..))
  refine .trans ?_ (.mono rfl (Mach.safetyEvent_frame ..))
  refine .trans ?_ (.mono rfl (Mach.ossdTo_frame ..))
  refine .trans ?_ (.mono rfl (Mach.ossdTo_frame ..))
  refine .trans ?_ (.mono rfl (Mach.setFld_frame ..))
  refine .trans ?_ (Frame.when (fun _ => ?_))
  · exact .refl
  · refine .trans ?_ (.mono rfl (Mach.setFld_frame ..))
    exact .refl

theorem Mach.lostArming_frame (m : Mach) : Frame [.dev, .regs, .mem, .eng, .sems, .grp, .qmg, .dram, .emt, .saf, .port, .pool] m
    (Mach.lostArming m) := by
  unfold Mach.lostArming
  refine .trans ?_ (Frame.when (fun _ => ?_))
  · exact .refl
  · refine .trans ?_ (.mono rfl (Mach.enterOasis_frame ..))
    exact .refl

theorem Mach.supervisorDown_frame (m : Mach) (n : Nat) : Frame [.dev, .regs, .mem, .eng, .sems, .flt, .grp, .qmg, .dram, .emt, .saf,
    .port, .pool] m (Mach.supervisorDown m n) := by
  unfold Mach.supervisorDown
  refine .trans ?_ (Frame.when (fun _ => ?_))
  · exact .refl
  · refine .trans ?_ (.mono rfl (Mach.safetyFault_frame ..))
    exact .refl

theorem Mach.done_frame (m : Mach) (st : Nat) : Frame [.status] m (Mach.done m st) := by
  unfold Mach.done
  refine .status ?_
  exact .refl

theorem Mach.asWriter_frame {l : List Part} {m : Mach} {s : Src} {b : Blk} {inst off : Nat} {f : Mach → Mach} (hf : ∀ m, Frame l m (f m))
    (h : l.contains .status = true := by rfl) : Frame l m (m.asWriter s b inst off f) := by
  unfold Mach.asWriter
  split
  · exact hf m
  · exact .mono (by simpa using h) (Mach.done_frame ..)

theorem Mach.refuse_frame (m : Mach) : Frame [.status] m (Mach.refuse m) := by
  unfold Mach.refuse
  refine .trans ?_ (.mono rfl (Mach.done_frame ..))
  exact .refl

theorem Mach.setG_frame (m : Mach) (e : Nat) (r : BitVec 4) (v : Word) : Frame [.eng] m (Mach.setG m e r v) := by
  unfold Mach.setG
  refine .trans ?_ (.mono rfl (Mach.modE_frame ..))
  exact .refl

theorem Mach.retire_frame (m : Mach) (e : Nat) : Frame [.eng] m (Mach.retire m e) := by
  unfold Mach.retire
  refine .trans ?_ (.mono rfl (Mach.modE_frame ..))
  exact .refl

theorem Mach.result_frame (m : Mach) (e : Nat) (rd : BitVec 4) (v : Word) : Frame [.eng] m (Mach.result m e rd v) := by
  unfold Mach.result
  refine .trans ?_ (.mono rfl (Mach.retire_frame ..))
  refine .trans ?_ (.mono rfl (Mach.setG_frame ..))
  exact .refl

theorem Mach.resume_frame (m : Mach) (e : Nat) (v : Word) : Frame [.eng] m (Mach.resume m e v) := by
  unfold Mach.resume
  refine .trans ?_ (.mono rfl (Mach.result_frame ..))
  refine .trans ?_ (.mono rfl (Mach.modE_frame ..))
  exact .refl

theorem Mach.waits_frame (m : Mach) (e : Nat) (w : Wait) (rd : BitVec 4) (limit : Nat) : Frame [.eng] m (Mach.waits m e w rd limit) := by
  unfold Mach.waits
  refine .trans ?_ (.mono rfl (Mach.modE_frame ..))
  exact .refl

theorem Mach.sat_frame (m : Mach) (e : Nat) (b : Bool) : Frame [.eng] m (Mach.sat m e b) := by
  unfold Mach.sat
  refine .trans ?_ (.mono rfl (Mach.modE_frame ..))
  exact .refl

theorem Mach.sendOn_frame (m : Mach) (lanes : List Nat) (l : List Byte) : Frame [.lane] m (Mach.sendOn m lanes l) := by
  unfold Mach.sendOn
  refine .trans ?_ (.foldl (fun _ _ => ?_) _)
  · exact .refl
  · refine .trans ?_ (.mono rfl (Mach.modL_frame ..))
    exact .refl

theorem Mach.setLState_frame (m : Mach) (l v : Nat) : Frame [.regs] m (Mach.setLState m l v) := by
  unfold Mach.setLState
  refine .trans ?_ (.mono rfl (Mach.setFld_frame ..))
  exact .refl

theorem Mach.setGState_frame (m : Mach) (g v : Nat) : Frame [.regs, .grp, .qmg] m (Mach.setGState m g v) := by
  unfold Mach.setGState
  refine .trans ?_ (.mono rfl (Mach.qMarkAll_frame ..))
  refine .trans ?_ (.mono rfl (Mach.setFld_frame ..))
  refine .trans ?_ (Frame.when (fun _ => ?_))
  · exact .refl
  · refine .trans ?_ (.mono rfl (Mach.modG_frame ..))
    exact .refl

theorem Mach.outst_frame (m : Mach) (g : Nat) : Frame [.regs] m (Mach.outst m g) := by
  unfold Mach.outst
  refine .trans ?_ (.mono rfl (Mach.setFld_frame ..))
  refine .trans ?_ (.mono rfl (Mach.setFld_frame ..))
  exact .refl

theorem Mach.sendLink_frame (m : Mach) (g ty : Nat) (spec : List Byte) : Frame [.grp] m (Mach.sendLink m g ty spec) := by
  unfold Mach.sendLink
  refine .trans ?_ (.mono rfl (Mach.modG_frame ..))
  exact .refl

theorem Mach.sendAck_frame (m : Mach) (g : Nat) : Frame [.grp] m (Mach.sendAck m g) := by
  unfold Mach.sendAck
  refine .trans ?_ (.mono rfl (Mach.modG_frame ..))
  refine .trans ?_ (.mono rfl (Mach.sendLink_frame ..))
  exact .refl

theorem Mach.sendNak_frame (m : Mach) (g : Nat) : Frame [.regs, .grp] m (Mach.sendNak m g) := by
  unfold Mach.sendNak
  refine .ite ?_ ?_
  · exact .refl
  · refine .trans ?_ (.mono rfl (Mach.modG_frame ..))
    refine .trans ?_ (.mono rfl (Mach.satInc_frame ..))
    refine .trans ?_ (.mono rfl (Mach.sendLink_frame ..))
    exact .refl

theorem Mach.accept_frame (m : Mach) (g : Nat) : Frame [.grp] m (Mach.accept m g) := by
  unfold Mach.accept
  refine .trans ?_ (Frame.when (fun _ => ?_))
  · refine .trans ?_ (.mono rfl (Mach.modG_frame ..))
    exact .refl
  · refine .trans ?_ (.mono rfl (Mach.sendAck_frame ..))
    exact .refl

theorem Mach.arrives_frame {l : List Part} {m : Mach} {g : Nat} {f : Mach → Mach} (hf : ∀ m, Frame l m (f m)) (h : l.contains .grp = true
    := by rfl) : Frame l m (m.arrives g f) :=
  .ite (.trans (.mono (by simpa using h) (Mach.accept_frame ..)) (hf _)) .refl

theorem Mach.badPkt_frame (m : Mach) (c : Nat) : Frame [.regs] m (Mach.badPkt m c) := by
  unfold Mach.badPkt
  refine .trans ?_ (.mono rfl (Mach.satInc_frame ..))
  exact .refl

theorem Mach.tsrep_frame (m : Mach) (g : Nat) (k : Kept) : Frame [.grp] m (Mach.tsrep m g k) := by
  unfold Mach.tsrep
  split
  · exact .refl
  · refine .trans ?_ (.mono rfl (Mach.respond_frame ..))
    refine .trans ?_ (.mono rfl (Mach.modG_frame ..))
    exact .refl

theorem Mach.acked_frame (m : Mach) (g seq : Nat) : Frame [.regs, .grp] m (Mach.acked m g seq) := by
  unfold Mach.acked
  refine .ite ?_ ?_
  · exact .refl
  · refine .trans ?_ (.mono rfl (Mach.outst_frame ..))
    refine .trans ?_ (.foldl (fun _ _ => ?_) _)
    · refine .trans ?_ (.mono rfl (Mach.modG_frame ..))
      exact .refl
    · refine .trans ?_ (.mono rfl (Mach.tsrep_frame ..))
      exact .refl

theorem Mach.laneTrains_frame (m : Mach) (l : Nat) (st : Nat) : Frame [.regs, .lane] m (Mach.laneTrains m l st) := by
  unfold Mach.laneTrains
  refine .trans ?_ (.mono rfl (Mach.modL_frame ..))
  refine .trans ?_ (.mono rfl (Mach.setLState_frame ..))
  exact .refl

theorem Mach.trainAt_frame (m : Mach) (g r st : Nat) : Frame [.regs, .grp, .lane, .qmg] m (Mach.trainAt m g r st) := by
  unfold Mach.trainAt
  refine .trans ?_ (.foldl (fun _ _ => ?_) _)
  · refine .trans ?_ (.mono rfl (Mach.modG_frame ..))
    refine .trans ?_ (.mono rfl (Mach.setFld_frame ..))
    refine .trans ?_ (.mono rfl (Mach.setFld_frame ..))
    refine .trans ?_ (.mono rfl (Mach.setGState_frame ..))
    exact .refl
  · refine .trans ?_ (.mono rfl (Mach.laneTrains_frame ..))
    exact .refl

theorem Mach.retrain_frame (m : Mach) (g : Nat) : Frame [.regs, .grp, .lane, .qmg] m (Mach.retrain m g) := by
  unfold Mach.retrain
  refine .ite ?_ ?_
  · refine .trans ?_ (.mono rfl (Mach.trainAt_frame ..))
    refine .trans ?_ (.mono rfl (Mach.modG_frame ..))
    refine .trans ?_ (.mono rfl (Mach.satInc_frame ..))
    refine .trans ?_ (.mono rfl (Mach.satInc_frame ..))
    exact .refl
  · refine .trans ?_ (.mono rfl (Mach.trainAt_frame ..))
    refine .trans ?_ (.mono rfl (Mach.modG_frame ..))
    refine .trans ?_ (.mono rfl (Mach.satInc_frame ..))
    exact .refl

theorem Mach.groupDown_frame (m : Mach) (g : Nat) : Frame [.regs, .grp, .lane, .qmg] m (Mach.groupDown m g) := by
  unfold Mach.groupDown
  refine .trans ?_ (.mono rfl (Mach.trainAt_frame ..))
  refine .trans ?_ (.mono rfl (Mach.modG_frame ..))
  refine .trans ?_ (.mono rfl (Mach.satInc_frame ..))
  exact .refl

theorem Mach.retrainAll_frame (m : Mach) : Frame [.regs, .grp, .lane, .qmg] m (Mach.retrainAll m) := by
  unfold Mach.retrainAll
  refine .trans ?_ (.foldl (fun _ _ => ?_) _)
  · exact .refl
  · refine .trans ?_ (.mono rfl (Mach.trainAt_frame ..))
    refine .trans ?_ (.mono rfl (Mach.modG_frame ..))
    refine .trans ?_ (.mono rfl (Mach.satInc_frame ..))
    exact .refl

theorem Mach.linkShutdown_frame (m : Mach) : Frame [.regs, .grp, .lane, .qmg] m (Mach.linkShutdown m) := by
  unfold Mach.linkShutdown
  refine .trans ?_ (.mono rfl (Mach.retrainAll_frame ..))
  refine .trans ?_ (.mono rfl (Mach.modG_frame ..))
  refine .trans ?_ (.mono rfl (Mach.modG_frame ..))
  exact .refl

theorem Mach.startReplay_frame (m : Mach) (g : Nat) : Frame [.regs, .grp, .lane, .qmg] m (Mach.startReplay m g) := by
  unfold Mach.startReplay
  refine .ite ?_ ?_
  · exact .refl
  · refine .ite ?_ ?_
    · refine .trans ?_ (.mono rfl (Mach.retrain_frame ..))
      exact .refl
    · refine .trans ?_ (.mono rfl (Mach.modG_frame ..))
      exact .refl

theorem Mach.discarded_frame (m : Mach) (g : Nat) : Frame [.regs, .grp, .lane, .qmg] m (Mach.discarded m g) := by
  unfold Mach.discarded
  refine .ite ?_ ?_
  · refine .trans ?_ (.mono rfl (Mach.retrain_frame ..))
    refine .trans ?_ (.mono rfl (Mach.modG_frame ..))
    exact .refl
  · refine .trans ?_ (.mono rfl (Mach.sendNak_frame ..))
    refine .trans ?_ (.mono rfl (Mach.modG_frame ..))
    exact .refl

theorem Mach.firstBond_frame (m : Mach) : Frame [.dev, .regs, .mem, .eng, .sems, .grp, .qmg, .dram, .emt, .saf, .port, .pool] m
    (Mach.firstBond m) := by
  unfold Mach.firstBond
  refine .ite ?_ ?_
  · split
    · refine .trans ?_ (.mono rfl (Mach.goto_frame ..))
      exact .refl
    · refine .trans ?_ (.mono rfl (Mach.enterOasis_frame ..))
      exact .refl
    · exact .refl
  · exact .refl

theorem Mach.markLanes_frame (m : Mach) (g mask : Nat) : Frame [.regs, .lane] m (Mach.markLanes m g mask) := by
  unfold Mach.markLanes
  refine .trans ?_ (.foldl (fun _ _ => ?_) _)
  · exact .refl
  · refine .ite ?_ ?_
    · refine .trans ?_ (.mono rfl (Mach.setLState_frame ..))
      exact .refl
    · refine .ite ?_ ?_
      · refine .trans ?_ (.mono rfl (Mach.modL_frame ..))
        refine .trans ?_ (.mono rfl (Mach.setLState_frame ..))
        exact .refl
      · refine .trans ?_ (.mono rfl (Mach.setLState_frame ..))
        exact .refl

theorem Mach.bondGroup_frame (m : Mach) (g mask : Nat) : Frame [.dev, .regs, .mem, .eng, .sems, .grp, .lane, .qmg, .dram, .emt, .saf,
    .port, .pool] m (Mach.bondGroup m g mask) := by
  unfold Mach.bondGroup
  refine .trans ?_ (.mono rfl (Mach.firstBond_frame ..))
  refine .trans ?_ (.mono rfl (Mach.setGState_frame ..))
  refine .trans ?_ (.mono rfl (Mach.outst_frame ..))
  refine .trans ?_ (.mono rfl (Mach.modG_frame ..))
  refine .ite ?_ ?_
  · refine .trans ?_ (.mono rfl (Mach.modG_frame ..))
    refine .trans ?_ (.mono rfl (Mach.setFld_frame ..))
    refine .trans ?_ (.mono rfl (Mach.satAdd_frame ..))
    refine .trans ?_ (.mono rfl (Mach.markLanes_frame ..))
    refine .trans ?_ (.mono rfl (Mach.setFld_frame ..))
    exact .refl
  · refine .trans ?_ (.mono rfl (Mach.modG_frame ..))
    refine .ite ?_ ?_
    · refine .trans ?_ (.mono rfl (Mach.markLanes_frame ..))
      refine .trans ?_ (.mono rfl (Mach.setFld_frame ..))
      exact .refl
    · refine .trans ?_ (.mono rfl (Mach.acked_frame ..))
      refine .trans ?_ (.mono rfl (Mach.markLanes_frame ..))
      refine .trans ?_ (.mono rfl (Mach.setFld_frame ..))
      exact .refl

theorem Mach.bondAligned_frame (m : Mach) (g skewed : Nat) : Frame [.dev, .regs, .mem, .eng, .sems, .grp, .lane, .qmg, .dram, .emt, .saf,
    .port, .pool] m (Mach.bondAligned m g skewed) := by
  unfold Mach.bondAligned
  refine .ite ?_ ?_
  · refine .trans ?_ (.foldl (fun _ _ => ?_) _)
    · exact .refl
    · refine .trans ?_ (.mono rfl (Mach.setFld_frame ..))
      exact .refl
  · refine .trans ?_ (.mono rfl (Mach.bondGroup_frame ..))
    refine .trans ?_ (.foldl (fun _ _ => ?_) _)
    · exact .refl
    · refine .trans ?_ (.mono rfl (Mach.setFld_frame ..))
      exact .refl

theorem Mach.trainSeen_frame (m : Mach) (l : Nat) (t : TrainPkt) : Frame [.regs, .grp, .lane] m (Mach.trainSeen m l t) := by
  unfold Mach.trainSeen
  refine .ite ?_ ?_
  · refine .trans ?_ (.mono rfl (Mach.modL_frame ..))
    refine .trans ?_ (.mono rfl (Mach.setLState_frame ..))
    refine .trans ?_ (.mono rfl (Mach.modG_frame ..))
    refine .trans ?_ (.mono rfl (Mach.setFld_frame ..))
    refine .trans ?_ (.mono rfl (Mach.modL_frame ..))
    refine .trans ?_ (.mono rfl (Mach.setFld_frame ..))
    refine .trans ?_ (.mono rfl (Mach.setFld_frame ..))
    exact .refl
  · refine .ite ?_ ?_
    · refine .ite ?_ ?_
      · refine .trans ?_ (.mono rfl (Mach.modG_frame ..))
        refine .trans ?_ (.mono rfl (Mach.setLState_frame ..))
        refine .trans ?_ (.mono rfl (Mach.modL_frame ..))
        refine .trans ?_ (.mono rfl (Mach.modG_frame ..))
        refine .trans ?_ (.mono rfl (Mach.setFld_frame ..))
        refine .trans ?_ (.mono rfl (Mach.modL_frame ..))
        refine .trans ?_ (.mono rfl (Mach.setFld_frame ..))
        refine .trans ?_ (.mono rfl (Mach.setFld_frame ..))
        exact .refl
      · refine .trans ?_ (.mono rfl (Mach.modL_frame ..))
        refine .trans ?_ (.mono rfl (Mach.modG_frame ..))
        refine .trans ?_ (.mono rfl (Mach.setFld_frame ..))
        refine .trans ?_ (.mono rfl (Mach.modL_frame ..))
        refine .trans ?_ (.mono rfl (Mach.setFld_frame ..))
        refine .trans ?_ (.mono rfl (Mach.setFld_frame ..))
        exact .refl
    · refine .trans ?_ (.mono rfl (Mach.modG_frame ..))
      refine .trans ?_ (.mono rfl (Mach.setFld_frame ..))
      refine .trans ?_ (.mono rfl (Mach.modL_frame ..))
      refine .trans ?_ (.mono rfl (Mach.setFld_frame ..))
      refine .trans ?_ (.mono rfl (Mach.setFld_frame ..))
      exact .refl

theorem Mach.rateWrite_frame (m : Mach) (g : Nat) (v : Word) : Frame [.status, .regs, .grp, .qmg] m (Mach.rateWrite m g v) := by
  unfold Mach.rateWrite
  refine .ite ?_ ?_
  · refine .trans ?_ (.mono rfl (Mach.done_frame ..))
    exact .refl
  · refine .ite ?_ ?_
    · refine .trans ?_ (.mono rfl (Mach.refuse_frame ..))
      refine .trans ?_ (.mono rfl (Mach.setFld_frame ..))
      exact .refl
    · refine .trans ?_ (.mono rfl (Mach.setGState_frame ..))
      refine .trans ?_ (.mono rfl (Mach.modG_frame ..))
      refine .trans ?_ (.mono rfl (Mach.sendLink_frame ..))
      refine .trans ?_ (.mono rfl (Mach.sendAck_frame ..))
      refine .trans ?_ (.mono rfl (Mach.done_frame ..))
      refine .trans ?_ (.mono rfl (Mach.setFld_frame ..))
      exact .refl

theorem Mach.rateTrain_frame (m : Mach) (g t : Nat) : Frame [.regs, .grp, .lane, .qmg] m (Mach.rateTrain m g t) := by
  unfold Mach.rateTrain
  refine .trans ?_ (.mono rfl (Mach.trainAt_frame ..))
  refine .trans ?_ (.mono rfl (Mach.modG_frame ..))
  refine .trans ?_ (.mono rfl (Mach.satInc_frame ..))
  exact .refl

theorem Mach.rebondEnd_frame (m : Mach) (g mask : Nat) : Frame [.regs, .grp, .lane, .qmg] m (Mach.rebondEnd m g mask) := by
  unfold Mach.rebondEnd
  refine .ite ?_ ?_
  · refine .trans ?_ (.mono rfl (Mach.groupDown_frame ..))
    exact .refl
  · refine .trans ?_ (.mono rfl (Mach.startReplay_frame ..))
    refine .trans ?_ (.mono rfl (Mach.setGState_frame ..))
    refine .trans ?_ (.mono rfl (Mach.modG_frame ..))
    refine .trans ?_ (.mono rfl (Mach.markLanes_frame ..))
    refine .trans ?_ (.mono rfl (Mach.setFld_frame ..))
    refine .trans ?_ (.mono rfl (Mach.satInc_frame ..))
    exact .refl

theorem Mach.rebondStart_frame (m : Mach) (g mask : Nat) : Frame [.regs, .grp, .qmg] m (Mach.rebondStart m g mask) := by
  unfold Mach.rebondStart
  refine .trans ?_ (.mono rfl (Mach.sendLink_frame ..))
  refine .trans ?_ (.mono rfl (Mach.modG_frame ..))
  refine .trans ?_ (.mono rfl (Mach.setGState_frame ..))
  exact .refl

theorem Mach.laneLost_frame (m : Mach) (l : Nat) : Frame [.dev, .regs, .mem, .eng, .sems, .flt, .grp, .lane, .qmg, .dram, .emt, .saf,
    .port, .pool] m (Mach.laneLost m l) := by
  unfold Mach.laneLost
  refine .ite ?_ ?_
  · refine .trans ?_ (.mono rfl (Mach.groupDown_frame ..))
    refine .trans ?_ (.mono rfl (Mach.report_frame ..))
    refine .trans ?_ (.mono rfl (Mach.report_frame ..))
    refine .trans ?_ (.mono rfl (Mach.setLState_frame ..))
    exact .refl
  · refine .trans ?_ (.mono rfl (Mach.rebondStart_frame ..))
    refine .trans ?_ (.mono rfl (Mach.report_frame ..))
    refine .trans ?_ (.mono rfl (Mach.setLState_frame ..))
    exact .refl

theorem Mach.eqBand_frame (m : Mach) (band : Nat) : Frame [.lane] m (Mach.eqBand m band) := by
  unfold Mach.eqBand
  refine .trans ?_ (.foldl (fun _ _ => ?_) _)
  · exact .refl
  · refine .trans ?_ (.mono rfl (Mach.modL_frame ..))
    exact .refl

theorem Mach.launch_frame (m : Mach) (g phase : Nat) (p : Pkt) : Frame [.regs, .grp, .lane] m (Mach.launch m g phase p) := by
  unfold Mach.launch
  refine .trans ?_ (.mono rfl (Mach.outst_frame ..))
  refine .trans ?_ (.mono rfl (Mach.modG_frame ..))
  refine .trans ?_ (.mono rfl (Mach.sendOn_frame ..))
  exact .refl

theorem Mach.resend_frame (m : Mach) (g : Nat) : Frame [.regs, .grp, .lane] m (Mach.resend m g) := by
  unfold Mach.resend
  dsimp only
  split
  · refine .trans ?_ (.mono rfl (Mach.modG_frame ..))
    exact .refl
  · refine .trans ?_ (.mono rfl (Mach.modG_frame ..))
    refine .trans ?_ (.mono rfl (Mach.satInc_frame ..))
    refine .trans ?_ (.mono rfl (Mach.sendOn_frame ..))
    exact .refl

theorem Mach.qPopN_frame (m : Mach) (q n : Nat) : Frame [.regs, .qmg] m (m.qPopN q n) := by
  induction n generalizing m with
  | zero => exact .refl
  | succ n ih => exact .trans (Mach.qPop_frame ..) (ih ..)

theorem Mach.handOver_frame (m : Mach) (g phase q : Nat) : Frame [.regs, .grp, .lane, .qmg] m (Mach.handOver m g phase q) := by
  unfold Mach.handOver
  refine .trans ?_ (.mono rfl (Mach.launch_frame ..))
  refine .trans ?_ (.mono rfl (Mach.qMark_frame ..))
  refine .trans ?_ (.mono rfl (Mach.modG_frame ..))
  refine .trans ?_ (.mono rfl (Mach.modQ_frame ..))
  refine .trans ?_ (.mono rfl (Mach.wrapInc_frame ..))
  refine .trans ?_ (Frame.when (fun _ => ?_))
  · refine .trans ?_ (.mono rfl (Mach.qPopN_frame ..))
    exact .refl
  · refine .trans ?_ (.mono rfl (Mach.setFld_frame ..))
    exact .refl

theorem Mach.egressNew_frame (m : Mach) (g phase : Nat) : Frame [.regs, .grp, .lane, .qmg] m (Mach.egressNew m g phase) := by
  unfold Mach.egressNew
  split
  · refine .ite ?_ ?_
    · refine .trans ?_ (.mono rfl (Mach.launch_frame ..))
      refine .trans ?_ (.mono rfl (Mach.modG_frame ..))
      exact .refl
    · exact .refl
  · refine .ite ?_ ?_
    · refine .trans ?_ (.mono rfl (Mach.launch_frame ..))
      refine .trans ?_ (.mono rfl (Mach.modG_frame ..))
      exact .refl
    · exact .refl
  · split
    · exact .refl
    · refine .ite ?_ ?_
      · refine .trans ?_ (.mono rfl (Mach.handOver_frame ..))
        exact .refl
      · exact .refl

theorem Mach.reset'_frame (m : Mach) (r : ResetSource) : Frame [.status, .dev, .regs, .shadow, .mem, .commits, .eng, .sems, .time, .flt,
    .grp, .lane, .qmg, .dram, .emt, .grd, .saf, .axis, .port, .tdc, .pool, .rej, .cam, .pts, .hk, .thm, .probe, .fusJob] m (m.reset' r) :=
    by
  unfold Mach.reset'
  dsimp only
  refine .trans (.trans (.trans (.trans (.trans (.trans ?_ (.mono rfl (Mach.setReg_frame ..))) (.mono rfl (Mach.setFld_frame ..))) (.mono rfl (Mach.setFld_frame ..))) (.mono rfl (Mach.setFld_frame ..))) (.mono rfl (Mach.setFld_frame ..))) (.when fun _ => .mono rfl (Mach.setReg_frame ..))
  refine ⟨⟨fun p hp => ?_⟩, fun h => ?_⟩
  · cases p <;> first | rfl | exact absurd hp (by decide)
  · change Memory.wf (if _ then _ else _) = true
    repeat' split
    all_goals first | exact mapWf_filter _ _ _ h | rfl

theorem Mach.powerOff_frame (m : Mach) : Frame [.status, .dev, .tap, .regs, .shadow, .mem, .commits, .eng, .sems, .time, .flt, .grp,
    .lane, .qmg, .dram, .emt, .grd, .saf, .axis, .port, .tdc, .pool, .rej, .cam, .pts, .hk, .thm, .probe, .fusJob] m m.powerOff := by
  refine ⟨⟨fun p hp => ?_⟩, fun _ => rfl⟩
  cases p <;> first | rfl | exact absurd hp (by decide)

theorem Mach.markLoad_frame (m : Mach) : Frame [.eng] m (Mach.markLoad m) := by
  unfold Mach.markLoad
  refine .trans ?_ (.foldl (fun _ _ => ?_) _)
  · exact .refl
  · refine .ite ?_ ?_
    · exact .refl
    · refine .trans ?_ (.mono rfl (Mach.modE_frame ..))
      exact .refl

theorem Mach.stopSeq_frame (m : Mach) (n cause : Nat) : Frame [.regs, .eng, .sems, .qmg, .dram, .emt, .port, .pool] m (Mach.stopSeq m n
    cause) := by
  unfold Mach.stopSeq
  refine .ite ?_ ?_
  · refine .ite ?_ ?_
    · refine .trans ?_ (.mono rfl (Mach.haltSeqAs_frame ..))
      exact .refl
    · refine .trans ?_ (.mono rfl (Mach.modE_frame ..))
      exact .refl
  · exact .refl

theorem Mach.showHold_frame (m : Mach) (e : Nat) : Frame [.regs] m (Mach.showHold m e) := by
  unfold Mach.showHold
  refine .ite ?_ ?_
  · exact .refl
  · dsimp only
    split
    · refine .trans ?_ (.mono rfl (Mach.setFld_frame ..))
      split
      · refine .trans ?_ (.mono rfl (Mach.setFld_frame ..))
        refine .trans ?_ (.mono rfl (Mach.setFld_frame ..))
        exact .refl
      · refine .trans ?_ (.mono rfl (Mach.setFld_frame ..))
        exact .refl
    · split
      · refine .trans ?_ (.mono rfl (Mach.setFld_frame ..))
        refine .trans ?_ (.mono rfl (Mach.setFld_frame ..))
        exact .refl
      · refine .trans ?_ (.mono rfl (Mach.setFld_frame ..))
        exact .refl

theorem Mach.loseHandle_frame (m : Mach) (e : Nat) : Frame [.dev, .regs, .mem, .eng, .sems, .flt, .grp, .qmg, .dram, .emt, .saf, .port,
    .pool] m (Mach.loseHandle m e) := by
  unfold Mach.loseHandle
  dsimp only
  split
  · refine .trans ?_ (.mono rfl (Mach.showHold_frame ..))
    refine .trans ?_ (.mono rfl (Mach.modE_frame ..))
    exact .refl
  · refine .ite ?_ ?_
    · refine .trans ?_ (.mono rfl (Mach.report_frame ..))
      refine .trans ?_ (.mono rfl (Mach.satInc_frame ..))
      refine .trans ?_ (.mono rfl (Mach.modPool_frame ..))
      refine .trans ?_ (.mono rfl (Mach.showHold_frame ..))
      refine .trans ?_ (.mono rfl (Mach.satInc_frame ..))
      refine .trans ?_ (.mono rfl (Mach.setBankSt_frame ..))
      refine .trans ?_ (.mono rfl (Mach.modE_frame ..))
      refine .trans ?_ (.mono rfl (Mach.modE_frame ..))
      exact .refl
    · refine .trans ?_ (.mono rfl (Mach.satInc_frame ..))
      refine .trans ?_ (.mono rfl (Mach.modPool_frame ..))
      refine .trans ?_ (.mono rfl (Mach.showHold_frame ..))
      refine .trans ?_ (.mono rfl (Mach.satInc_frame ..))
      refine .trans ?_ (.mono rfl (Mach.setBankSt_frame ..))
      refine .trans ?_ (.mono rfl (Mach.modE_frame ..))
      refine .trans ?_ (.mono rfl (Mach.modE_frame ..))
      exact .refl

theorem Mach.leaveOasis_frame (m : Mach) : Frame [.regs] m (Mach.leaveOasis m) := by
  unfold Mach.leaveOasis
  refine .trans ?_ (.mono rfl (Mach.setFld_frame ..))
  exact .refl

theorem Mach.rest_frame (m : Mach) (e : Nat) : Frame [.dev, .regs, .mem, .eng, .sems, .flt, .grp, .qmg, .dram, .emt, .saf, .port,
    .pool] m (Mach.rest m e) := by
  unfold Mach.rest
  refine .ite ?_ ?_
  · split
    · refine .trans ?_ (.mono rfl (Mach.haltSeqAs_frame ..))
      exact .refl
    · refine .trans ?_ (.mono rfl (Mach.loseHandle_frame ..))
      refine .trans ?_ (.mono rfl (Mach.haltEngine_frame ..))
      exact .refl
    · refine .trans ?_ (.mono rfl (Mach.haltEngine_frame ..))
      exact .refl
  · refine .trans ?_ (.mono rfl (Mach.modE_frame ..))
    exact .refl

theorem Mach.enterLinked_frame (m : Mach) : Frame [.dev, .regs, .mem, .eng, .sems, .flt, .grp, .qmg, .dram, .emt, .saf, .port,
    .pool] m (Mach.enterLinked m) := by
  unfold Mach.enterLinked
  refine .trans ?_ (.foldl (fun _ _ => ?_) _)
  · refine .trans ?_ (.mono rfl (Mach.goto_frame ..))
    refine .trans ?_ (.foldl (fun _ _ => ?_) _)
    · exact .refl
    · exact Mach.rest_frame ..
  · refine .trans ?_ (Frame.when (fun _ => ?_))
    · exact .refl
    · exact Mach.supervisorDown_frame ..

theorem Mach.reqErr_frame (m : Mach) (v : Nat) : Frame [.regs] m (Mach.reqErr m v) := by
  unfold Mach.reqErr
  refine .trans ?_ (.mono rfl (Mach.setFld_frame ..))
  exact .refl

theorem Mach.doRequest_frame (m : Mach) (t : DevState) : Frame [.dev, .regs, .mem, .eng, .sems, .flt, .grp, .qmg, .dram, .emt, .saf, .port,
    .pool] m (Mach.doRequest m t) := by
  unfold Mach.doRequest
  refine .ite ?_ ?_
  · refine .trans ?_ (.mono rfl (Mach.reqErr_frame ..))
    exact .refl
  · split
    · refine .ite ?_ ?_
      · refine .trans ?_ (.mono rfl (Mach.goto_frame ..))
        refine .trans ?_ (.foldl (fun _ _ => ?_) _)
        · refine .trans ?_ (.mono rfl (Mach.reqErr_frame ..))
          refine .ite ?_ ?_
          · refine .trans ?_ (.mono rfl (Mach.ossdOffAll_frame ..))
            exact .refl
          · exact .refl
        · refine .trans ?_ (.mono rfl (Mach.stopSeq_frame ..))
          exact .refl
      · refine .ite ?_ ?_
        · refine .trans ?_ (.mono rfl (Mach.goto_frame ..))
          refine .trans ?_ (Frame.when (fun _ => ?_))
          · refine .trans ?_ (.mono rfl (Mach.reqErr_frame ..))
            exact .refl
          · refine .trans ?_ (.mono rfl (Mach.leaveOasis_frame ..))
            exact .refl
        · refine .trans ?_ (.mono rfl (Mach.reqErr_frame ..))
          refine .trans ?_ (.mono rfl (Mach.markLoad_frame ..))
          exact .refl
    · refine .ite ?_ ?_
      · refine .trans ?_ (.mono rfl (Mach.goto_frame ..))
        refine .trans ?_ (.mono rfl (Mach.ossdOffAll_frame ..))
        refine .trans ?_ (.mono rfl (Mach.reqErr_frame ..))
        exact .refl
      · refine .ite ?_ ?_
        · refine .trans ?_ (.mono rfl (Mach.goto_frame ..))
          refine .trans ?_ (.mono rfl (Mach.reqErr_frame ..))
          exact .refl
        · refine .trans ?_ (.mono rfl (Mach.reqErr_frame ..))
          exact .refl
    · refine .trans ?_ (.mono rfl (Mach.enterOasis_frame ..))
      refine .trans ?_ (.mono rfl (Mach.reqErr_frame ..))
      exact .refl
    · refine .trans ?_ (.mono rfl (Mach.enterLinked_frame ..))
      refine .trans ?_ (Frame.when (fun _ => ?_))
      · refine .trans ?_ (.mono rfl (Mach.reqErr_frame ..))
        exact .refl
      · refine .trans ?_ (.mono rfl (Mach.leaveOasis_frame ..))
        exact .refl
    · refine .trans ?_ (.mono rfl (Mach.goto_frame ..))
      refine .trans ?_ (.mono rfl (Mach.reqErr_frame ..))
      exact .refl

theorem Mach.stateReq_frame (m : Mach) (c key target : Nat) : Frame [.status, .dev, .regs, .mem, .eng, .sems, .flt, .grp, .qmg, .dram, .emt,
    .saf, .port, .pool] m (Mach.stateReq m c key target) := by
  unfold Mach.stateReq
  refine .ite ?_ ?_
  · refine .trans ?_ (.mono rfl (Mach.done_frame ..))
    exact .refl
  · refine .ite ?_ ?_
    · refine .trans ?_ (.mono rfl (Mach.done_frame ..))
      exact .refl
    · refine .ite ?_ ?_
      · refine .trans ?_ (.mono rfl (Mach.reqErr_frame ..))
        refine .trans ?_ (.mono rfl (Mach.done_frame ..))
        exact .refl
      · refine .ite ?_ ?_
        · refine .trans ?_ (.mono rfl (Mach.reqErr_frame ..))
          refine .trans ?_ (.mono rfl (Mach.done_frame ..))
          exact .refl
        · split
          · refine .trans ?_ (.mono rfl (Mach.reqErr_frame ..))
            refine .trans ?_ (.mono rfl (Mach.done_frame ..))
            exact .refl
          · refine .ite ?_ ?_
            · refine .trans ?_ (.mono rfl (Mach.reqErr_frame ..))
              refine .trans ?_ (.mono rfl (Mach.done_frame ..))
              exact .refl
            · refine .ite ?_ ?_
              · refine .trans ?_ (.mono rfl (Mach.doRequest_frame ..))
                refine .trans ?_ (.mono rfl (Mach.done_frame ..))
                exact .refl
              · refine .trans ?_ (.mono rfl (Mach.reqErr_frame ..))
                refine .trans ?_ (.mono rfl (Mach.done_frame ..))
                exact .refl

theorem Mach.resetReq_frame (m : Mach) (c : Nat) (v : Word) : Frame [.status, .dev] m (Mach.resetReq m c v) := by
  unfold Mach.resetReq
  refine .ite ?_ ?_
  · refine .trans ?_ (.mono rfl (Mach.done_frame ..))
    exact .refl
  · refine .ite ?_ ?_
    · refine .trans ?_ (.mono rfl (Mach.done_frame ..))
      exact .refl
    · refine .ite ?_ ?_
      · refine .trans ?_ (.mono rfl (Mach.done_frame ..))
        exact .refl
      · refine .ite ?_ ?_
        · refine .dev ?_
          refine .trans ?_ (.mono rfl (Mach.done_frame ..))
          exact .refl
        · refine .trans ?_ (.mono rfl (Mach.done_frame ..))
          exact .refl

theorem Mach.withdrawShots_frame (m : Mach) (n : Nat) : Frame [.emt] m (Mach.withdrawShots m n) := by
  unfold Mach.withdrawShots
  refine .emt ?_
  exact .refl

theorem Mach.insnAt_frame (m : Mach) (e : Nat) : Frame [.free] m ((Mach.insnAt m e).2) := by
  unfold Mach.insnAt
  dsimp only
  split
  · dsimp only
    exact .refl
  · refine .trans ?_ (.mono rfl (Mach.takeFree_frame ..))
    exact .refl

theorem Mach.faultRecord_frame (m : Mach) (e code : Nat) : Frame [.free, .regs] m (Mach.faultRecord m e code) := by
  unfold Mach.faultRecord
  refine .ite ?_ ?_
  · exact .refl
  · split
    refine .trans ?_ (.mono rfl (Mach.setReg_frame ..))
    refine .trans ?_ (.mono rfl (Mach.setFld_frame ..))
    refine .trans ?_ (.mono rfl (Mach.setFld_frame ..))
    refine .trans ?_ (.mono rfl (Mach.setFld_frame ..))
    (rename_i hpair; obtain rfl := congrArg Prod.snd hpair)
    refine .trans ?_ (.mono rfl (Mach.insnAt_frame ..))
    exact .refl

theorem Mach.engFault_frame (m : Mach) (e code : Nat) : Frame [.free, .dev, .regs, .mem, .eng, .sems, .flt, .grp, .qmg, .dram, .emt, .saf,
    .port, .pool] m (Mach.engFault m e code) := by
  unfold Mach.engFault
  refine .ite ?_ ?_
  · refine .trans ?_ (.mono rfl (Mach.report_frame ..))
    refine .trans ?_ (.mono rfl (Mach.modE_frame ..))
    refine .trans ?_ (.mono rfl (Mach.satInc_frame ..))
    exact .refl
  · dsimp only
    split
    · refine .trans ?_ (.mono rfl (Mach.loseHandle_frame ..))
      refine .trans ?_ (.mono rfl (Mach.report_frame ..))
      refine .trans ?_ (.mono rfl (Mach.haltEngine_frame ..))
      refine .trans ?_ (.mono rfl (Mach.faultRecord_frame ..))
      refine .trans ?_ (.mono rfl (Mach.satInc_frame ..))
      exact .refl
    · refine .trans ?_ (.mono rfl (Mach.closeOwned_frame ..))
      refine .trans ?_ (.mono rfl (Mach.showWalks_frame ..))
      refine .trans ?_ (.mono rfl (Mach.withdrawShots_frame ..))
      refine .trans ?_ (.mono rfl (Mach.report_frame ..))
      refine .trans ?_ (.mono rfl (Mach.haltEngine_frame ..))
      refine .trans ?_ (.mono rfl (Mach.faultRecord_frame ..))
      refine .trans ?_ (.mono rfl (Mach.satInc_frame ..))
      exact .refl
    · refine .trans ?_ (.mono rfl (Mach.report_frame ..))
      refine .trans ?_ (.mono rfl (Mach.haltEngine_frame ..))
      refine .trans ?_ (.mono rfl (Mach.faultRecord_frame ..))
      refine .trans ?_ (.mono rfl (Mach.satInc_frame ..))
      exact .refl
    · refine .trans ?_ (.mono rfl (Mach.supervisorDown_frame ..))
      refine .trans ?_ (.mono rfl (Mach.report_frame ..))
      refine .trans ?_ (.mono rfl (Mach.haltEngine_frame ..))
      refine .trans ?_ (.mono rfl (Mach.faultRecord_frame ..))
      refine .trans ?_ (.mono rfl (Mach.satInc_frame ..))
      exact .refl

theorem Mach.fetch_frame (m : Mach) (e : Nat) : Frame [.eng] m (Mach.fetch m e) := by
  unfold Mach.fetch
  refine .ite ?_ ?_
  · refine .trans ?_ (.mono rfl (Mach.modE_frame ..))
    exact .refl
  · exact .refl

theorem Mach.issue_frame {l : List Part} {m : Mach} {e : Nat} {prof : Option EngClass} {legal : Bool} {f : Mach → Mach} (hf : ∀ m, Frame l
    m (f m)) (h : (List.all [.free, .dev, .regs, .mem, .eng, .sems, .flt, .grp, .qmg, .dram, .emt, .saf, .port, .pool] l.contains) = true
    := by rfl) : Frame l m (m.issue e prof legal f) := by
  have he : ∀ n c, Frame l n (n.engFault e c) := fun n c => .mono h (Mach.engFault_frame ..)
  have hft : Frame l m (m.fetch e) := .mono (by simp only [List.all_eq_true] at h ⊢; exact fun p hp => h p (by revert p; decide)) (Mach.fetch_frame ..)
  unfold Mach.issue
  refine .ite .refl (.ite (he ..) (.ite (.trans hft (he ..)) (.ite (.trans hft (he ..)) (.trans hft (hf _)))))

theorem Mach.showSeq_frame (m : Mach) (n set_ : Nat) : Frame [.regs] m (Mach.showSeq m n set_) := by
  unfold Mach.showSeq
  refine .trans ?_ (.mono rfl (Mach.setFld_frame ..))
  refine .trans ?_ (.mono rfl (Mach.setFld_frame ..))
  refine .trans ?_ (.mono rfl (Mach.setFld_frame ..))
  refine .trans ?_ (.mono rfl (Mach.setFld_frame ..))
  refine .trans ?_ (.mono rfl (Mach.setFld_frame ..))
  refine .trans ?_ (.mono rfl (Mach.setFld_frame ..))
  refine .trans ?_ (.mono rfl (Mach.setFld_frame ..))
  refine .trans ?_ (.mono rfl (Mach.setFld_frame ..))
  exact .refl

theorem Mach.aluA_frame (m : Mach) (e : Nat) (i : FA) (op : Word → Word → Alu) : Frame [.eng] m (Mach.aluA m e i op) := by
  unfold Mach.aluA
  refine .trans ?_ (.mono rfl (Mach.retire_frame ..))
  refine .trans ?_ (.mono rfl (Mach.modE_frame ..))
  exact .refl

theorem Mach.aluI_frame (m : Mach) (e : Nat) (i : FI) (imm : Word) (op : Word → Word → Alu) : Frame [.eng] m (Mach.aluI m e i imm op) := by
  unfold Mach.aluI
  refine .trans ?_ (.mono rfl (Mach.retire_frame ..))
  refine .trans ?_ (.mono rfl (Mach.modE_frame ..))
  exact .refl

theorem Mach.stopEngine_frame (m : Mach) (e cause : Nat) : Frame [.dev, .regs, .mem, .eng, .sems, .flt, .grp, .qmg, .dram, .emt, .saf,
    .port, .pool] m (Mach.stopEngine m e cause) := by
  unfold Mach.stopEngine
  refine .ite ?_ ?_
  · exact .refl
  · split
    · refine .trans ?_ (.mono rfl (Mach.stopSeq_frame ..))
      exact .refl
    · refine .trans ?_ (.mono rfl (Mach.loseHandle_frame ..))
      refine .trans ?_ (.mono rfl (Mach.haltEngine_frame ..))
      exact .refl
    · refine .trans ?_ (.mono rfl (Mach.haltEngine_frame ..))
      exact .refl
    · refine .trans ?_ (.mono rfl (Mach.supervisorDown_frame ..))
      refine .trans ?_ (.mono rfl (Mach.haltEngine_frame ..))
      exact .refl

theorem Mach.startEngine_frame (m : Mach) (e : Nat) : Frame [.regs, .eng] m (Mach.startEngine m e) := by
  unfold Mach.startEngine
  dsimp only
  split
  · refine .trans ?_ (.mono rfl (Mach.showSeq_frame ..))
    refine .trans ?_ (.mono rfl (Mach.setFld_frame ..))
    refine .trans ?_ (.mono rfl (Mach.modE_frame ..))
    exact .refl
  · refine .trans ?_ (.mono rfl (Mach.showHold_frame ..))
    refine .trans ?_ (.mono rfl (Mach.modE_frame ..))
    exact .refl
  · refine .trans ?_ (.mono rfl (Mach.modE_frame ..))
    exact .refl

theorem Mach.verifyReq_frame (m : Mach) (e : Nat) : Frame [.eng] m (Mach.verifyReq m e) := by
  unfold Mach.verifyReq
  refine .ite ?_ ?_
  · refine .trans ?_ (.mono rfl (Mach.modE_frame ..))
    exact .refl
  · refine .trans ?_ (.mono rfl (Mach.modE_frame ..))
    exact .refl

theorem Mach.ctrlWrite_frame (m : Mach) (e : Nat) (v : Word) : Frame [.status, .dev, .regs, .mem, .eng, .sems, .flt, .grp, .qmg, .dram,
    .emt, .saf, .port, .pool] m (Mach.ctrlWrite m e v) := by
  unfold Mach.ctrlWrite
  refine .ite ?_ ?_
  · refine .trans ?_ (.mono rfl (Mach.modE_frame ..))
    refine .trans ?_ (.mono rfl (Mach.stopEngine_frame ..))
    refine .trans ?_ (Frame.when (fun _ => ?_))
    · refine .trans ?_ (Frame.when (fun _ => ?_))
      · refine .trans ?_ (.mono rfl (Mach.setFld_frame ..))
        refine .trans ?_ (.mono rfl (Mach.done_frame ..))
        exact .refl
      · refine .trans ?_ (.mono rfl (Mach.modE_frame ..))
        exact .refl
    · refine .trans ?_ (.mono rfl (Mach.verifyReq_frame ..))
      exact .refl
  · refine .ite ?_ ?_
    · split
      · refine .trans ?_ (.mono rfl (Mach.startEngine_frame ..))
        refine .trans ?_ (Frame.when (fun _ => ?_))
        · refine .trans ?_ (Frame.when (fun _ => ?_))
          · refine .trans ?_ (.mono rfl (Mach.setFld_frame ..))
            refine .trans ?_ (.mono rfl (Mach.done_frame ..))
            exact .refl
          · refine .trans ?_ (.mono rfl (Mach.modE_frame ..))
            exact .refl
        · refine .trans ?_ (.mono rfl (Mach.verifyReq_frame ..))
          exact .refl
      · refine .trans ?_ (.mono rfl (Mach.modE_frame ..))
        refine .trans ?_ (Frame.when (fun _ => ?_))
        · refine .trans ?_ (Frame.when (fun _ => ?_))
          · refine .trans ?_ (.mono rfl (Mach.setFld_frame ..))
            refine .trans ?_ (.mono rfl (Mach.done_frame ..))
            exact .refl
          · refine .trans ?_ (.mono rfl (Mach.modE_frame ..))
            exact .refl
        · refine .trans ?_ (.mono rfl (Mach.verifyReq_frame ..))
          exact .refl
    · refine .trans ?_ (Frame.when (fun _ => ?_))
      · refine .trans ?_ (Frame.when (fun _ => ?_))
        · refine .trans ?_ (.mono rfl (Mach.setFld_frame ..))
          refine .trans ?_ (.mono rfl (Mach.done_frame ..))
          exact .refl
        · refine .trans ?_ (.mono rfl (Mach.modE_frame ..))
          exact .refl
      · refine .trans ?_ (.mono rfl (Mach.verifyReq_frame ..))
        exact .refl

theorem Mach.ctrlBy_frame (m : Mach) (src : Src) (e : Nat) (v : Word) : Frame [.status, .dev, .regs, .mem, .eng, .sems, .flt, .grp, .qmg,
    .dram, .emt, .saf, .port, .pool] m (Mach.ctrlBy m src e v) := by
  unfold Mach.ctrlBy
  refine .trans ?_ (Mach.asWriter_frame (fun _ => ?_))
  · exact .refl
  · refine .trans ?_ (.mono rfl (Mach.ctrlWrite_frame ..))
    exact .refl

theorem Mach.mboxTake_frame (m : Mach) (e pd : Nat) : Frame [.eng] m (Mach.mboxTake m e pd) := by
  unfold Mach.mboxTake
  split
  · exact .refl
  · refine .trans ?_ (.mono rfl (Mach.resume_frame ..))
    refine .trans ?_ (.mono rfl (Mach.modE_frame ..))
    exact .refl

theorem Mach.mboxPut_frame (m : Mach) (e : Nat) (w : Word) (from_ : Nat) : Frame [.eng] m (Mach.mboxPut m e w from_) := by
  unfold Mach.mboxPut
  dsimp only
  split
  · refine .trans ?_ (.mono rfl (Mach.mboxTake_frame ..))
    refine .trans ?_ (.mono rfl (Mach.modE_frame ..))
    exact .refl
  · refine .trans ?_ (.mono rfl (Mach.modE_frame ..))
    exact .refl

theorem Mach.mboxRefuse_frame (m : Mach) (e : Nat) : Frame [.regs] m (Mach.mboxRefuse m e) := by
  unfold Mach.mboxRefuse
  refine .trans ?_ (.mono rfl (Mach.satInc_frame ..))
  exact .refl

theorem Mach.mboxHost_frame (m : Mach) (e : Nat) (w : Word) : Frame [.status, .regs, .eng] m (Mach.mboxHost m e w) := by
  unfold Mach.mboxHost
  refine .ite ?_ ?_
  · refine .trans ?_ (.mono rfl (Mach.refuse_frame ..))
    refine .trans ?_ (.mono rfl (Mach.mboxRefuse_frame ..))
    exact .refl
  · refine .trans ?_ (.mono rfl (Mach.mboxPut_frame ..))
    refine .trans ?_ (.mono rfl (Mach.done_frame ..))
    exact .refl

theorem Mach.programWrite_frame (m : Mach) (src : Src) (e a : Nat) (w : Word) : Frame [.status, .mem, .eng] m (Mach.programWrite m src e a
    w) := by
  unfold Mach.programWrite
  refine .ite ?_ ?_
  · refine .trans ?_ (.mono rfl (Mach.done_frame ..))
    exact .refl
  · refine .ite ?_ ?_
    · refine .trans ?_ (.mono rfl (Mach.refuse_frame ..))
      exact .refl
    · refine .trans ?_ (.foldl (fun _ _ => ?_) _)
      · refine .trans ?_ (.mono rfl (Mach.setMword_frame ..))
        refine .trans ?_ (.mono rfl (Mach.done_frame ..))
        exact .refl
      · refine .trans ?_ (.mono rfl (Mach.modE_frame ..))
        exact .refl

theorem Mach.dataWrite_frame (m : Mach) (src : Src) (e off : Nat) (w : Word) : Frame [.status, .mem, .eng] m (Mach.dataWrite m src e off
    w) := by
  unfold Mach.dataWrite
  refine .ite ?_ ?_
  · refine .trans ?_ (.mono rfl (Mach.done_frame ..))
    exact .refl
  · refine .ite ?_ ?_
    · refine .trans ?_ (.mono rfl (Mach.done_frame ..))
      exact .refl
    · refine .ite ?_ ?_
      · refine .trans ?_ (.mono rfl (Mach.programWrite_frame ..))
        exact .refl
      · refine .trans ?_ (.mono rfl (Mach.setMword_frame ..))
        refine .trans ?_ (.mono rfl (Mach.done_frame ..))
        exact .refl

theorem Mach.semPass_frame (m : Mach) (n k : Nat) : Frame [.eng, .sems] m (m.semPass n k) := by
  induction k generalizing m with
  | zero => exact .refl
  | succ k ih =>
    unfold Mach.semPass
    dsimp only
    split
    · exact .refl
    · refine .ite .refl ?_
      refine .trans ?_ (ih ..)
      refine .trans ?_ (.mono rfl (Mach.resume_frame ..))
      exact .mono rfl (Mach.setSem_frame ..)

theorem Mach.semServe_frame (m : Mach) (n : Nat) : Frame [.eng, .sems] m (Mach.semServe m n) := by
  unfold Mach.semServe
  refine .trans ?_ (.mono rfl (Mach.semPass_frame ..))
  exact .refl

theorem Mach.semWrite_frame (m : Mach) (n : Nat) (v : Word) : Frame [.status, .eng, .sems] m (Mach.semWrite m n v) := by
  unfold Mach.semWrite
  refine .trans ?_ (.mono rfl (Mach.semServe_frame ..))
  refine .trans ?_ (.mono rfl (Mach.setSem_frame ..))
  refine .trans ?_ (.mono rfl (Mach.done_frame ..))
  exact .refl

theorem Mach.resumeKeep_frame (m : Mach) (e : Nat) : Frame [.eng] m (Mach.resumeKeep m e) := by
  unfold Mach.resumeKeep
  refine .trans ?_ (.mono rfl (Mach.retire_frame ..))
  refine .trans ?_ (.mono rfl (Mach.modE_frame ..))
  exact .refl

theorem Mach.ptsNote_frame (m : Mach) (a : Nat) : Frame [.pts] m (Mach.ptsNote m a) := by
  unfold Mach.ptsNote
  refine .ite ?_ ?_
  · refine .pts ?_
    exact .refl
  · exact .refl

theorem Mach.axSafe_frame (m : Mach) (a : Nat) : Frame [.axis] m (Mach.axSafe m a) := by
  unfold Mach.axSafe
  refine .trans ?_ (.mono rfl (Mach.modAx_frame ..))
  exact .refl

theorem Mach.axReport_frame (m : Mach) (a code action : Nat) : Frame [.dev, .regs, .mem, .eng, .sems, .flt, .grp, .qmg, .dram, .emt, .saf,
    .port, .pool] m (Mach.axReport m a code action) := by
  unfold Mach.axReport
  refine .trans ?_ (.mono rfl (Mach.report_frame ..))
  exact .refl

theorem Mach.fadeStart_frame (m : Mach) (a b len src : Nat) : Frame [.regs, .axis] m (Mach.fadeStart m a b len src) := by
  unfold Mach.fadeStart
  refine .trans ?_ (.mono rfl (Mach.modAx_frame ..))
  refine .trans ?_ (.mono rfl (Mach.setFld_frame ..))
  refine .trans ?_ (.mono rfl (Mach.setFld_frame ..))
  refine .trans ?_ (.mono rfl (Mach.setFld_frame ..))
  refine .trans ?_ (.mono rfl (Mach.setFld_frame ..))
  refine .trans ?_ (.mono rfl (Mach.setFld_frame ..))
  exact .refl

theorem Mach.snapshot_frame (m : Mach) (a : Nat) : Frame [.regs] m (Mach.snapshot m a) := by
  unfold Mach.snapshot
  refine .trans ?_ (.foldl (fun _ _ => ?_) _)
  · exact .refl
  · refine .trans ?_ (.mono rfl (Mach.setReg_frame ..))
    refine .trans ?_ (.mono rfl (Mach.setReg_frame ..))
    exact .refl

theorem Mach.fadeTo_frame (m : Mach) (a b len : Nat) : Frame [.regs, .axis] m ((Mach.fadeTo m a b len).1) := by
  unfold Mach.fadeTo
  dsimp only
  split
  · dsimp only
    refine .trans ?_ (.mono rfl (Mach.fadeStart_frame ..))
    refine .trans ?_ (.mono rfl (Mach.snapshot_frame ..))
    exact .refl
  · split
    · dsimp only
      exact .refl
    · dsimp only
      refine .trans ?_ (.mono rfl (Mach.fadeStart_frame ..))
      exact .refl

theorem Mach.fadeStep_frame (m : Mach) (a : Nat) : Frame [.regs, .axis] m (Mach.fadeStep m a) := by
  unfold Mach.fadeStep
  refine .ite ?_ ?_
  · exact .refl
  · refine .trans ?_ (Frame.when (fun _ => ?_))
    · refine .trans ?_ (.mono rfl (Mach.setFld_frame ..))
      refine .trans ?_ (.mono rfl (Mach.modAx_frame ..))
      exact .refl
    · refine .trans ?_ (.mono rfl (Mach.setFld_frame ..))
      exact .refl

theorem Mach.ccLatch_frame (m : Mach) (a : Nat) : Frame [.free, .axis] m (Mach.ccLatch m a) := by
  unfold Mach.ccLatch
  dsimp only
  refine .trans ?_ (.mono rfl (Mach.modAx_frame ..))
  split
  · dsimp only
    exact .refl
  · dsimp only
    refine .trans ?_ (.mono rfl (Mach.takeFree_frame ..))
    exact .refl

theorem Mach.ccError_frame (m : Mach) (a : Nat) : Frame [.dev, .regs, .mem, .eng, .sems, .flt, .grp, .qmg, .dram, .emt, .saf, .axis,
    .port, .pool] m (Mach.ccError m a) := by
  unfold Mach.ccError
  refine .ite ?_ ?_
  · refine .trans ?_ (.mono rfl (Mach.setFld_frame ..))
    exact .refl
  · refine .ite ?_ ?_
    · refine .trans ?_ (.mono rfl (Mach.axReport_frame ..))
      refine .trans ?_ (.mono rfl (Mach.modAx_frame ..))
      refine .trans ?_ (.mono rfl (Mach.axSafe_frame ..))
      refine .trans ?_ (.mono rfl (Mach.setFld_frame ..))
      refine .trans ?_ (.mono rfl (Mach.setFld_frame ..))
      exact .refl
    · refine .trans ?_ (.mono rfl (Mach.setFld_frame ..))
      exact .refl

theorem Mach.ccCompare_frame (m : Mach) (a : Nat) : Frame [.dev, .regs, .mem, .eng, .sems, .flt, .grp, .qmg, .dram, .emt, .saf, .axis,
    .port, .pool] m (Mach.ccCompare m a) := by
  unfold Mach.ccCompare
  refine .trans ?_ (.mono rfl (Mach.modAx_frame ..))
  refine .trans ?_ (Frame.when (fun _ => ?_))
  · refine .trans ?_ (Frame.when (fun _ => ?_))
    · refine .trans ?_ (.mono rfl (Mach.modAx_frame ..))
      exact .refl
    · refine .trans ?_ (.mono rfl (Mach.setFld_frame ..))
      exact .refl
  · refine .trans ?_ (.mono rfl (Mach.axReport_frame ..))
    refine .trans ?_ (.mono rfl (Mach.setFld_frame ..))
    exact .refl

theorem Mach.ccTakeover_frame (m : Mach) (a : Nat) : Frame [.dev, .regs, .mem, .eng, .sems, .flt, .grp, .qmg, .dram, .emt, .saf, .axis,
    .port, .pool] m (Mach.ccTakeover m a) := by
  unfold Mach.ccTakeover
  refine .ite ?_ ?_
  · exact .refl
  · refine .ite ?_ ?_
    · refine .trans ?_ (.mono rfl (Mach.axReport_frame ..))
      refine .trans ?_ (.mono rfl (Mach.modAx_frame ..))
      refine .trans ?_ (.mono rfl (Mach.setFld_frame ..))
      exact .refl
    · refine .trans ?_ (.mono rfl (Mach.axReport_frame ..))
      refine .trans ?_ (.mono rfl (Mach.axSafe_frame ..))
      refine .trans ?_ (.mono rfl (Mach.setFld_frame ..))
      exact .refl

theorem Mach.axCommitted_frame (m : Mach) (a : Nat) (was : Bool) : Frame [.regs, .axis] m (Mach.axCommitted m a was) := by
  unfold Mach.axCommitted
  refine .trans ?_ (.foldl (fun _ _ => ?_) _)
  · refine .trans ?_ (Frame.when (fun _ => ?_))
    · refine .trans ?_ (Frame.when (fun _ => ?_))
      · exact .refl
      · refine .trans ?_ (.mono rfl (Mach.axSafe_frame ..))
        refine .trans ?_ (.mono rfl (Mach.modAx_frame ..))
        refine .trans ?_ (.mono rfl (Mach.setFld_frame ..))
        refine .trans ?_ (.mono rfl (Mach.setFld_frame ..))
        refine .trans ?_ (.mono rfl (Mach.setFld_frame ..))
        exact .refl
    · refine .trans ?_ (.mono rfl (Mach.setFld_frame ..))
      exact .refl
  · refine .trans ?_ (.mono rfl (Mach.setFld_frame ..))
    exact .refl

theorem Mach.ccCommit_frame (m : Mach) (a : Nat) : Frame [.regs, .commits, .axis] m (Mach.ccCommit m a) := by
  unfold Mach.ccCommit
  refine .trans ?_ (.mono rfl (Mach.axCommitted_frame ..))
  refine .trans ?_ (.mono rfl (Mach.applyGroups_frame ..))
  exact .refl

theorem Mach.ccStart_frame (m : Mach) (a : Nat) : Frame [.free, .dev, .regs, .mem, .commits, .eng, .sems, .flt, .grp, .qmg, .dram, .emt,
    .saf, .axis, .port, .pool] m (Mach.ccStart m a) := by
  unfold Mach.ccStart
  refine .trans ?_ (.mono rfl (Mach.modAx_frame ..))
  refine .trans ?_ (.mono rfl (Mach.fadeStep_frame ..))
  refine .trans ?_ (.mono rfl (Mach.ccCommit_frame ..))
  refine .trans ?_ (.mono rfl (Mach.ccTakeover_frame ..))
  refine .trans ?_ (Frame.when (fun _ => ?_))
  · refine .trans ?_ (.mono rfl (Mach.ccLatch_frame ..))
    exact .refl
  · refine .trans ?_ (.mono rfl (Mach.ccCompare_frame ..))
    refine .trans ?_ (.mono rfl (Mach.ccError_frame ..))
    exact .refl

theorem Mach.ccFire_frame (m : Mach) (a : Nat) : Frame [.free, .dev, .regs, .mem, .commits, .eng, .sems, .flt, .grp, .qmg, .dram, .emt,
    .saf, .axis, .port, .pool] m (Mach.ccFire m a) := by
  unfold Mach.ccFire
  refine .ite ?_ ?_
  · exact .refl
  · refine .ite ?_ ?_
    · refine .trans ?_ (.mono rfl (Mach.modAx_frame ..))
      refine .trans ?_ (.mono rfl (Mach.satInc_frame ..))
      exact .refl
    · refine .trans ?_ (.mono rfl (Mach.ccStart_frame ..))
      exact .refl

theorem Mach.ccTrigger_frame (m : Mach) (t : Nat) : Frame [.free, .dev, .regs, .mem, .commits, .eng, .sems, .flt, .grp, .qmg, .dram, .emt,
    .saf, .axis, .port, .pool] m (Mach.ccTrigger m t) := by
  unfold Mach.ccTrigger
  refine .trans ?_ (.foldl (fun _ _ => ?_) _)
  · exact .refl
  · refine .ite ?_ ?_
    · refine .trans ?_ (.mono rfl (Mach.ccFire_frame ..))
      exact .refl
    · exact .refl

theorem Mach.axNote_frame (m : Mach) (e : Nat) (f : AxEng → AxEng) : Frame [.axis] m (Mach.axNote m e f) := by
  unfold Mach.axNote
  refine .trans ?_ (.mono rfl (Mach.modAx_frame ..))
  exact .refl

theorem Mach.adcrRead_frame (m : Mach) (e src : Nat) : Frame [.free, .axis] m ((Mach.adcrRead m e src).2.2) := by
  unfold Mach.adcrRead
  dsimp only
  split
  · split
    · dsimp only
      refine .trans ?_ (.mono rfl (Mach.takeFree_frame ..))
      exact .refl
    · dsimp only
      refine .trans ?_ (.mono rfl (Mach.modAx_frame ..))
      exact .refl
  · dsimp only
    exact .refl
  · dsimp only
    refine .trans ?_ (.mono rfl (Mach.modAx_frame ..))
    exact .refl
  · split
    · dsimp only
      exact .refl
    · dsimp only
      refine .trans ?_ (.mono rfl (Mach.takeFree_frame ..))
      exact .refl

theorem Mach.adcrEnd_frame {l : List Part} {m : Mach} {e xi : Nat} {fin : Mach → Word → Mach} (hf : ∀ m v, Frame l m (fin m v)) (h :
    (List.all [.free, .eng, .axis] l.contains) = true := by rfl) : Frame l m (m.adcrEnd e xi fin) :=
  .trans (.trans (.mono (by simp_all) (Mach.adcrRead_frame m e (xi % 4))) (.when (fun _ => .mono (by simp_all) (Mach.modE_frame ..)))) (hf _ _)

theorem Mach.coefWrite_frame (m : Mach) (a b k : Nat) (second : Bool) (v : Word) : Frame [.status, .regs] m (Mach.coefWrite m a b k second
    v) := by
  unfold Mach.coefWrite
  refine .ite ?_ ?_
  · refine .trans ?_ (.mono rfl (Mach.refuse_frame ..))
    refine .trans ?_ (.mono rfl (Mach.satInc_frame ..))
    exact .refl
  · refine .ite ?_ ?_
    · refine .trans ?_ (.mono rfl (Mach.setReg_frame ..))
      refine .trans ?_ (.mono rfl (Mach.done_frame ..))
      exact .refl
    · refine .trans ?_ (.mono rfl (Mach.setReg_frame ..))
      refine .trans ?_ (.mono rfl (Mach.done_frame ..))
      exact .refl

theorem Mach.pubLatch_frame (m : Mach) (a : Nat) : Frame [.regs] m (Mach.pubLatch m a) := by
  unfold Mach.pubLatch
  refine .trans ?_ (.mono rfl (Mach.setReg_frame ..))
  refine .trans ?_ (.mono rfl (Mach.setReg_frame ..))
  exact .refl

theorem Mach.feClear_frame (m : Mach) (a : Nat) : Frame [.status, .regs, .axis] m (Mach.feClear m a) := by
  unfold Mach.feClear
  refine .ite ?_ ?_
  · refine .trans ?_ (.mono rfl (Mach.done_frame ..))
    exact .refl
  · refine .trans ?_ (.mono rfl (Mach.axSafe_frame ..))
    refine .trans ?_ (.mono rfl (Mach.setFld_frame ..))
    refine .trans ?_ (.mono rfl (Mach.setFld_frame ..))
    refine .trans ?_ (.mono rfl (Mach.done_frame ..))
    exact .refl

theorem Mach.trigCommitted_frame (m : Mach) (n : Nat) : Frame [.regs, .time] m (Mach.trigCommitted m n) := by
  unfold Mach.trigCommitted
  refine .ite ?_ ?_
  · refine .trans ?_ (.mono rfl (Mach.setFld_frame ..))
    exact .refl
  · refine .trans ?_ (.mono rfl (Mach.setTrig_frame ..))
    refine .trans ?_ (.mono rfl (Mach.setFld_frame ..))
    refine .trans ?_ (.mono rfl (Mach.setFld_frame ..))
    exact .refl

theorem Mach.trigStepped_frame (m : Mach) (was : DTime) (n : Nat) : Frame [.time] m (Mach.trigStepped m was n) := by
  unfold Mach.trigStepped
  refine .ite ?_ ?_
  · exact .refl
  · refine .ite ?_ ?_
    · refine .trans ?_ (.mono rfl (Mach.setTrig_frame ..))
      exact .refl
    · refine .ite ?_ ?_
      · refine .trans ?_ (.mono rfl (Mach.setTrig_frame ..))
        exact .refl
      · exact .refl

theorem Mach.stepApply_frame (m : Mach) : Frame [.regs, .time] m (Mach.stepApply m) := by
  unfold Mach.stepApply
  refine .ite ?_ ?_
  · refine .trans ?_ (.mono rfl (Mach.setFld_frame ..))
    exact .refl
  · refine .trans ?_ (.foldl (fun _ _ => ?_) _)
    · refine .trans ?_ (.mono rfl (Mach.wrapInc_frame ..))
      refine .time ?_
      exact .refl
    · refine .trans ?_ (.mono rfl (Mach.trigStepped_frame ..))
      exact .refl

theorem Mach.stepBoundary_frame (m : Mach) : Frame [.regs, .commits, .time] m (Mach.stepBoundary m) := by
  unfold Mach.stepBoundary
  refine .ite ?_ ?_
  · refine .trans ?_ (.mono rfl (Mach.stepApply_frame ..))
    refine .trans ?_ (.mono rfl (Mach.applyGroups_frame ..))
    exact .refl
  · exact .refl

theorem Mach.rateCommitted_frame (m : Mach) : Frame [.regs] m (Mach.rateCommitted m) := by
  unfold Mach.rateCommitted
  refine .ite ?_ ?_
  · exact .refl
  · refine .trans ?_ (.mono rfl (Mach.setFld_frame ..))
    refine .trans ?_ (.mono rfl (Mach.setFld_frame ..))
    refine .trans ?_ (.mono rfl (Mach.setFld_frame ..))
    exact .refl

theorem Mach.modCam_frame (m : Mach) (f : Cam → Cam) : Frame [.cam] m (Mach.modCam m f) := by
  unfold Mach.modCam
  refine .cam ?_
  exact .refl

theorem Mach.modFrame_frame (m : Mach) (f : CamFrame → CamFrame) : Frame [.cam] m (Mach.modFrame m f) := by
  unfold Mach.modFrame
  refine .trans ?_ (.mono rfl (Mach.modCam_frame ..))
  exact .refl

theorem Mach.camCheck_frame (m : Mach) : Frame [.regs, .cam] m (Mach.camCheck m) := by
  unfold Mach.camCheck
  refine .trans ?_ (Frame.when (fun _ => ?_))
  · refine .trans ?_ (.mono rfl (Mach.modCam_frame ..))
    exact .refl
  · refine .trans ?_ (.mono rfl (Mach.setFld_frame ..))
    exact .refl

theorem Mach.camSend_frame (m : Mach) (q : Nat) (r : List Byte) : Frame [.regs, .mem, .grp, .qmg] m ((Mach.camSend m q r).1) := by
  unfold Mach.camSend
  split
  · dsimp only
    (rename_i hpair; obtain rfl := congrArg Prod.fst hpair)
    refine .trans ?_ (.mono rfl (Mach.offer_frame ..))
    exact .refl
  · dsimp only
    refine .trans ?_ (.mono rfl (Mach.satInc_frame ..))
    (rename_i hpair; obtain rfl := congrArg Prod.fst hpair)
    refine .trans ?_ (.mono rfl (Mach.offer_frame ..))
    exact .refl

theorem Mach.camStart_frame (m : Mach) (f : CamFrame) (k : Nat) : Frame [.regs, .mem, .grp, .qmg] m (Mach.camStart m f k) := by
  unfold Mach.camStart
  refine .trans ?_ (.mono rfl (Mach.camSend_frame ..))
  exact .refl

theorem Mach.camStreamLine_frame (m : Mach) (rows : List (List (Nat × Nat × Nat))) (y k : Nat) : Frame [.regs, .mem, .grp, .qmg, .cam] m
    (Mach.camStreamLine m rows y k) := by
  unfold Mach.camStreamLine
  refine .ite ?_ ?_
  · exact .refl
  · dsimp only
    refine .trans ?_ (Frame.when (fun _ => ?_))
    · refine .trans ?_ (.mono rfl (Mach.camSend_frame ..))
      exact .refl
    · refine .trans ?_ (.mono rfl (Mach.modFrame_frame ..))
      exact .refl

theorem Mach.camStoreLine_frame (m : Mach) (rows : List (List (Nat × Nat × Nat))) (y : Nat) : Frame [.mem] m (Mach.camStoreLine m rows y)
    := by
  unfold Mach.camStoreLine
  refine .ite ?_ ?_
  · exact .refl
  · refine .trans ?_ (.mono rfl (Mach.setBytes_frame ..))
    exact .refl

theorem Mach.camOut_frame (m : Mach) (y : Nat) (row : List (Nat × Nat × Nat)) : Frame [.regs, .mem, .grp, .qmg, .cam] m (Mach.camOut m y
    row) := by
  unfold Mach.camOut
  split
  · exact .refl
  · refine .trans ?_ (.foldl (fun _ _ => ?_) _)
    · refine .trans ?_ (.mono rfl (Mach.camStoreLine_frame ..))
      refine .trans ?_ (.mono rfl (Mach.modFrame_frame ..))
      exact .refl
    · refine .trans ?_ (.mono rfl (Mach.camStreamLine_frame ..))
      exact .refl

theorem Mach.camImageLine_frame (m : Mach) (y : Nat) (exps : List (List Nat)) : Frame [.regs, .mem, .grp, .qmg, .cam] m (Mach.camImageLine
    m y exps) := by
  unfold Mach.camImageLine
  split
  · exact .refl
  · split
    refine .trans ?_ (Frame.when (fun _ => ?_))
    · refine .trans ?_ (Frame.when (fun _ => ?_))
      · refine .trans ?_ (.mono rfl (Mach.modFrame_frame ..))
        refine .trans ?_ (Frame.when (fun _ => ?_))
        · exact .refl
        · refine .trans ?_ (.mono rfl (Mach.setFld_frame ..))
          exact .refl
      · refine .trans ?_ (.mono rfl (Mach.camOut_frame ..))
        exact .refl
    · refine .trans ?_ (.mono rfl (Mach.camOut_frame ..))
      exact .refl

theorem Mach.camComplete_frame (m : Mach) (f : CamFrame) : Frame [.cam] m (Mach.camComplete m f) := by
  unfold Mach.camComplete
  refine .ite ?_ ?_
  · exact .refl
  · refine .trans ?_ (.mono rfl (Mach.modCam_frame ..))
    exact .refl

theorem Mach.camClose_frame (m : Mach) : Frame [.regs, .mem, .grp, .qmg, .cam] m (Mach.camClose m) := by
  unfold Mach.camClose
  split
  · exact .refl
  · refine .trans ?_ (.mono rfl (Mach.modCam_frame ..))
    refine .trans ?_ (Frame.when (fun _ => ?_))
    · refine .trans ?_ (.mono rfl (Mach.modCam_frame ..))
      refine .trans ?_ (Frame.when (fun _ => ?_))
      · refine .trans ?_ (.foldl (fun _ _ => ?_) _)
        · refine .trans ?_ (.mono rfl (Mach.setFld_frame ..))
          refine .trans ?_ (.mono rfl (Mach.setFld_frame ..))
          refine .trans ?_ (.mono rfl (Mach.setFld_frame ..))
          refine .trans ?_ (Frame.when (fun _ => ?_))
          · refine .trans ?_ (Frame.when (fun _ => ?_))
            · exact .refl
            · refine .trans ?_ (.mono rfl (Mach.satInc_frame ..))
              exact .refl
          · refine .trans ?_ (.mono rfl (Mach.satInc_frame ..))
            exact .refl
        · refine .trans ?_ (.mono rfl (Mach.camSend_frame ..))
          exact .refl
      · refine .trans ?_ (.mono rfl (Mach.camSend_frame ..))
        exact .refl
    · refine .trans ?_ (.mono rfl (Mach.modCam_frame ..))
      exact .refl

theorem Mach.i2cStart_frame (m : Mach) : Frame [.regs, .cam] m (Mach.i2cStart m) := by
  unfold Mach.i2cStart
  refine .trans ?_ (.mono rfl (Mach.setFld_frame ..))
  refine .trans ?_ (.mono rfl (Mach.modCam_frame ..))
  exact .refl

theorem Mach.camOpen_frame (m : Mach) (t : DTime) : Frame [.regs, .mem, .grp, .qmg, .cam] m (Mach.camOpen m t) := by
  unfold Mach.camOpen
  refine .trans ?_ (.foldl (fun _ _ => ?_) _)
  · refine .trans ?_ (.mono rfl (Mach.setFld_frame ..))
    refine .trans ?_ (.mono rfl (Mach.modCam_frame ..))
    exact .refl
  · refine .trans ?_ (.mono rfl (Mach.camStart_frame ..))
    exact .refl

theorem Mach.camApply_frame (m : Mach) : Frame [.regs, .commits, .cam] m (Mach.camApply m) := by
  unfold Mach.camApply
  refine .trans ?_ (Frame.when (fun _ => ?_))
  · refine .trans ?_ (Frame.when (fun _ => ?_))
    · refine .trans ?_ (.mono rfl (Mach.applyGroups_frame ..))
      exact .refl
    · refine .trans ?_ (.mono rfl (Mach.camCheck_frame ..))
      exact .refl
  · refine .trans ?_ (.mono rfl (Mach.i2cStart_frame ..))
    exact .refl

theorem Mach.camTrigger_frame (m : Mach) (t : Nat) : Frame [.cam] m (Mach.camTrigger m t) := by
  unfold Mach.camTrigger
  refine .ite ?_ ?_
  · refine .trans ?_ (.mono rfl (Mach.modCam_frame ..))
    exact .refl
  · exact .refl

theorem Mach.colCommitted_frame (m : Mach) (was : Bool) : Frame [.cam] m (Mach.colCommitted m was) := by
  unfold Mach.colCommitted
  refine .ite ?_ ?_
  · refine .trans ?_ (.mono rfl (Mach.modCam_frame ..))
    exact .refl
  · exact .refl

theorem Mach.mapFails_frame (m : Mach) (ch root : Nat) : Frame [.dev, .regs, .mem, .eng, .sems, .flt, .grp, .qmg, .dram, .emt, .saf,
    .port, .pool] m (Mach.mapFails m ch root) := by
  unfold Mach.mapFails
  refine .trans ?_ (Frame.when (fun _ => ?_))
  · exact .refl
  · refine .trans ?_ (.mono rfl (Mach.report_frame ..))
    refine .trans ?_ (.mono rfl (Mach.setFld_frame ..))
    exact .refl

theorem Mach.dramFail_frame (m : Mach) (ch code root : Nat) : Frame [.dev, .regs, .mem, .eng, .sems, .flt, .grp, .qmg, .dram, .emt, .saf,
    .port, .pool] m (Mach.dramFail m ch code root) := by
  unfold Mach.dramFail
  refine .ite ?_ ?_
  · exact .refl
  · refine .trans ?_ (.mono rfl (Mach.mapFails_frame ..))
    refine .trans ?_ (.foldl (fun _ _ => ?_) _)
    · refine .trans ?_ (.foldl (fun _ _ => ?_) _)
      · refine .trans ?_ (.mono rfl (Mach.report_frame ..))
        refine .trans ?_ (.mono rfl (Mach.setFld_frame ..))
        exact .refl
      · refine .ite ?_ ?_
        · refine .trans ?_ (.mono rfl (Mach.freeze_frame ..))
          refine .trans ?_ (.mono rfl (Mach.setFld_frame ..))
          exact .refl
        · refine .trans ?_ (.mono rfl (Mach.setFld_frame ..))
          exact .refl
    · refine .trans ?_ (.mono rfl (Mach.report_frame ..))
      exact .refl

theorem Mach.trainFail_frame (m : Mach) (failing : Nat) : Frame [.dev, .regs, .mem, .eng, .sems, .flt, .grp, .qmg, .dram, .emt, .saf,
    .port, .pool] m (Mach.trainFail m failing) := by
  unfold Mach.trainFail
  refine .trans ?_ (.foldl (fun _ _ => ?_) _)
  · refine .trans ?_ (.mono rfl (Mach.setFld_frame ..))
    exact .refl
  · refine .trans ?_ (.mono rfl (Mach.dramFail_frame ..))
    exact .refl

theorem Mach.dramUe_frame (m : Mach) (ch : Nat) : Frame [.dev, .regs, .mem, .eng, .sems, .flt, .grp, .qmg, .dram, .emt, .saf, .port,
    .pool] m (Mach.dramUe m ch) := by
  unfold Mach.dramUe
  refine .trans ?_ (Frame.when (fun _ => ?_))
  · refine .dram ?_
    refine .trans ?_ (.mono rfl (Mach.report_frame ..))
    refine .trans ?_ (.mono rfl (Mach.satInc_frame ..))
    exact .refl
  · refine .trans ?_ (.mono rfl (Mach.dramFail_frame ..))
    exact .refl

theorem Mach.starved_frame (m : Mach) : Frame [.regs, .grp] m (Mach.starved m) := by
  unfold Mach.starved
  refine .trans ?_ (.mono rfl (Mach.raiseAll_frame ..))
  exact .refl

theorem Mach.memInit_frame (m : Mach) : Frame [.status, .dram] m (Mach.memInit m) := by
  unfold Mach.memInit
  refine .ite ?_ ?_
  · refine .trans ?_ (.mono rfl (Mach.done_frame ..))
    exact .refl
  · refine .dram ?_
    refine .trans ?_ (.mono rfl (Mach.done_frame ..))
    exact .refl

theorem Mach.planCommitted_frame (m : Mach) (was : Word) : Frame [.regs] m (Mach.planCommitted m was) := by
  unfold Mach.planCommitted
  refine .trans ?_ (.mono rfl (Mach.wrapInc_frame ..))
  refine .trans ?_ (Frame.when (fun _ => ?_))
  · refine .ite ?_ ?_
    · refine .trans ?_ (.foldl (fun _ _ => ?_) _)
      · exact .refl
      · refine .trans ?_ (.mono rfl (Mach.setFld_frame ..))
        exact .refl
    · refine .trans ?_ (.foldl (fun _ _ => ?_) _)
      · refine .trans ?_ (.foldl (fun _ _ => ?_) _)
        · exact .refl
        · refine .trans ?_ (.mono rfl (Mach.setFld_frame ..))
          exact .refl
      · refine .trans ?_ (.mono rfl (Mach.setFld_frame ..))
        exact .refl
  · refine .trans ?_ (.mono rfl (Mach.setFld_frame ..))
    exact .refl

theorem Mach.setLines_frame (m : Mach) (p : Nat) (l : List MapLine) : Frame [.rej] m (Mach.setLines m p l) := by
  unfold Mach.setLines
  refine .rej ?_
  exact .refl

theorem Mach.writeBack_frame (m : Mach) (p : Nat) (l : MapLine) : Frame [.mem] m (Mach.writeBack m p l) := by
  unfold Mach.writeBack
  refine .ite ?_ ?_
  · refine .trans ?_ (.mono rfl (Mach.setBytes_frame ..))
    exact .refl
  · exact .refl

theorem Mach.wantLine_frame (m : Mach) (p row line : Nat) : Frame [.dram, .rej] m (Mach.wantLine m p row line) := by
  unfold Mach.wantLine
  refine .ite ?_ ?_
  · exact .refl
  · refine .upd ?_ (.inl rfl) (.inl rfl) (.inl rfl) (.inl rfl) (.inl rfl) (.inl rfl) (.inl rfl) (.inl rfl) id (.inl rfl) (.inl rfl) (.inl rfl) (.inl rfl) (.inl rfl) (.inl rfl) (.inl rfl) (.inl rfl) (.inr rfl) (.inl rfl) (.inl rfl) (.inl rfl) (.inl rfl) (.inl rfl) (.inl rfl) (.inl rfl) (.inr rfl) (.inl rfl) (.inl rfl) (.inl rfl) (.inl rfl) (.inl rfl) (.inl rfl)
    exact .refl

theorem Mach.prefetch_frame (m : Mach) (p row line : Nat) : Frame [.dram, .rej] m (Mach.prefetch m p row line) := by
  unfold Mach.prefetch
  split
  · exact .refl
  · refine .ite ?_ ?_
    · exact .refl
    · refine .trans ?_ (.mono rfl (Mach.wantLine_frame ..))
      exact .refl

theorem Mach.mapLookup_frame (m : Mach) (p row bin : Nat) : Frame [.regs, .dram, .rej] m ((Mach.mapLookup m p row bin).2) := by
  unfold Mach.mapLookup
  dsimp only
  split
  · dsimp only
    refine .trans ?_ (.mono rfl (Mach.wantLine_frame ..))
    refine .trans ?_ (.mono rfl (Mach.satInc_frame ..))
    exact .refl
  · dsimp only
    refine .trans ?_ (.mono rfl (Mach.prefetch_frame ..))
    refine .trans ?_ (.mono rfl (Mach.setLines_frame ..))
    exact .refl

theorem Mach.mapFlush_frame (m : Mach) : Frame [.mem, .dram, .rej] m (Mach.mapFlush m) := by
  unfold Mach.mapFlush
  refine .upd ?_ (.inl rfl) (.inl rfl) (.inl rfl) (.inl rfl) (.inl rfl) (.inl rfl) (.inl rfl) (.inl rfl) id (.inl rfl) (.inl rfl) (.inl rfl) (.inl rfl) (.inl rfl) (.inl rfl) (.inl rfl) (.inl rfl) (.inr rfl) (.inl rfl) (.inl rfl) (.inl rfl) (.inl rfl) (.inl rfl) (.inl rfl) (.inl rfl) (.inr rfl) (.inl rfl) (.inl rfl) (.inl rfl) (.inl rfl) (.inl rfl) (.inl rfl)
  refine .trans ?_ (Frame.when (fun _ => ?_))
  · exact .refl
  · refine .trans ?_ (.foldl (fun _ _ => ?_) _)
    · exact .refl
    · split
      refine .trans ?_ (.foldl (fun _ _ => ?_) _)
      · exact .refl
      · refine .trans ?_ (.mono rfl (Mach.writeBack_frame ..))
        exact .refl

theorem Mach.setAdj_frame (m : Mach) (p : Nat) (v : Int) : Frame [.regs] m (Mach.setAdj m p v) := by
  unfold Mach.setAdj
  refine .trans ?_ (.mono rfl (Mach.setFld_frame ..))
  exact .refl

theorem Mach.rejDecide_frame (m : Mach) (p gain : Nat) : Frame [.regs, .dram, .port, .rej] m ((Mach.rejDecide m p gain).2) := by
  unfold Mach.rejDecide
  dsimp only
  split
  · split
    · split
      · dsimp only
        refine .trans ?_ (.mono rfl (Mach.setFld_frame ..))
        refine .trans ?_ (.mono rfl (Mach.setAdj_frame ..))
        refine .trans ?_ (.mono rfl (Mach.modP_frame ..))
        exact .refl
      · dsimp only
        refine .trans ?_ (.mono rfl (Mach.mapLookup_frame ..))
        refine .trans ?_ (.mono rfl (Mach.setFld_frame ..))
        refine .trans ?_ (.mono rfl (Mach.setAdj_frame ..))
        refine .trans ?_ (.mono rfl (Mach.modP_frame ..))
        exact .refl
    · split
      · dsimp only
        refine .trans ?_ (.mono rfl (Mach.setFld_frame ..))
        refine .trans ?_ (.mono rfl (Mach.setAdj_frame ..))
        refine .trans ?_ (.mono rfl (Mach.modP_frame ..))
        exact .refl
      · dsimp only
        refine .trans ?_ (.mono rfl (Mach.mapLookup_frame ..))
        refine .trans ?_ (.mono rfl (Mach.setFld_frame ..))
        refine .trans ?_ (.mono rfl (Mach.setAdj_frame ..))
        refine .trans ?_ (.mono rfl (Mach.modP_frame ..))
        exact .refl
  · split
    · dsimp only
      refine .trans ?_ (.mono rfl (Mach.setFld_frame ..))
      refine .trans ?_ (.mono rfl (Mach.setAdj_frame ..))
      refine .trans ?_ (.mono rfl (Mach.modP_frame ..))
      exact .refl
    · dsimp only
      refine .trans ?_ (.mono rfl (Mach.mapLookup_frame ..))
      refine .trans ?_ (.mono rfl (Mach.setFld_frame ..))
      refine .trans ?_ (.mono rfl (Mach.setAdj_frame ..))
      refine .trans ?_ (.mono rfl (Mach.modP_frame ..))
      exact .refl

theorem Mach.mapLearn_frame (m : Mach) (p : Nat) (x : PShot) : Frame [.rej] m (Mach.mapLearn m p x) := by
  unfold Mach.mapLearn
  split
  · exact .refl
  · refine .ite ?_ ?_
    · exact .refl
    · refine .trans ?_ (.mono rfl (Mach.setLines_frame ..))
      exact .refl

theorem Mach.background_frame (m : Mach) (p : Nat) (x : PShot) (r : Nat) : Frame [.regs, .rej] m (Mach.background m p x r) := by
  unfold Mach.background
  refine .trans ?_ (.mono rfl (Mach.mapLearn_frame ..))
  refine .trans ?_ (.mono rfl (Mach.setAdj_frame ..))
  refine .trans ?_ (.mono rfl (Mach.setFld_frame ..))
  exact .refl

theorem Mach.hbJudge_frame (m : Mach) : Frame [.regs] m (Mach.hbJudge m) := by
  unfold Mach.hbJudge
  refine .ite ?_ ?_
  · refine .trans ?_ (.mono rfl (Mach.setFld_frame ..))
    exact .refl
  · refine .trans ?_ (.mono rfl (Mach.wrapInc_frame ..))
    refine .trans ?_ (.mono rfl (Mach.setFld_frame ..))
    refine .trans ?_ (.mono rfl (Mach.setFld_frame ..))
    exact .refl

theorem Mach.hbTrack_frame (m : Mach) : Frame [.regs, .rej] m (Mach.hbTrack m) := by
  unfold Mach.hbTrack
  refine .trans ?_ (.mono rfl (Mach.hbJudge_frame ..))
  refine .trans ?_ (.foldl (fun _ _ => ?_) _)
  · exact .refl
  · refine .rej ?_
    exact .refl

theorem Mach.hbGroup_frame (m : Mach) (g : Posted) : Frame [.regs, .rej] m (Mach.hbGroup m g) := by
  unfold Mach.hbGroup
  refine .ite ?_ ?_
  · exact .refl
  · refine .trans ?_ (.mono rfl (Mach.hbTrack_frame ..))
    refine .trans ?_ (.mono rfl (Mach.setFld_frame ..))
    exact .refl

theorem Mach.mirGroup_frame (m : Mach) (g : Posted) : Frame [.regs, .rej] m (Mach.mirGroup m g) := by
  unfold Mach.mirGroup
  refine .ite ?_ ?_
  · exact .refl
  · refine .trans ?_ (.foldl (fun _ _ => ?_) _)
    · exact .refl
    · refine .ite ?_ ?_
      · refine .trans ?_ (.mono rfl (Mach.satInc_frame ..))
        exact .refl
      · refine .ite ?_ ?_
        · refine .trans ?_ (.mono rfl (Mach.satInc_frame ..))
          exact .refl
        · split
          refine .rej ?_
          exact .refl

theorem Mach.mirStore_frame (m : Mach) (i : Nat) (o : MirObs) (count amax : Nat) : Frame [.mem] m (Mach.mirStore m i o count amax) := by
  unfold Mach.mirStore
  refine .trans ?_ (.mono rfl (Mach.setBytes_frame ..))
  exact .refl

theorem Mach.mirNote_frame (m : Mach) (i : Nat) : Frame [.regs, .mem, .grp, .qmg, .rej] m (Mach.mirNote m i) := by
  unfold Mach.mirNote
  refine .ite ?_ ?_
  · refine .trans ?_ (.mono rfl (Mach.satInc_frame ..))
    exact .refl
  · dsimp only
    split
    · (rename_i hpair; obtain rfl := congrArg Prod.fst hpair)
      refine .trans ?_ (.mono rfl (Mach.offer_frame ..))
      refine .rej ?_
      exact .refl
    · refine .trans ?_ (.mono rfl (Mach.satInc_frame ..))
      (rename_i hpair; obtain rfl := congrArg Prod.fst hpair)
      refine .trans ?_ (.mono rfl (Mach.offer_frame ..))
      refine .rej ?_
      exact .refl

theorem Mach.mirCount_frame (m : Mach) (k : Int) : Frame [.regs] m (Mach.mirCount m k) := by
  unfold Mach.mirCount
  refine .trans ?_ (.mono rfl (Mach.setFld_frame ..))
  exact .refl

theorem Mach.mirNew_frame (m : Mach) (o : MirObs) : Frame [.regs, .mem, .grp, .qmg, .rej] m (Mach.mirNew m o) := by
  unfold Mach.mirNew
  split
  · refine .trans ?_ (.mono rfl (Mach.mirNote_frame ..))
    refine .trans ?_ (.mono rfl (Mach.satInc_frame ..))
    refine .trans ?_ (.mono rfl (Mach.mirCount_frame ..))
    refine .trans ?_ (.mono rfl (Mach.mirStore_frame ..))
    exact .refl
  · refine .trans ?_ (.mono rfl (Mach.mirNote_frame ..))
    refine .trans ?_ (.mono rfl (Mach.satInc_frame ..))
    refine .trans ?_ (.mono rfl (Mach.satInc_frame ..))
    refine .trans ?_ (.mono rfl (Mach.mirStore_frame ..))
    exact .refl

theorem Mach.mirFree_frame (m : Mach) (i : Nat) : Frame [.regs, .mem] m (Mach.mirFree m i) := by
  unfold Mach.mirFree
  refine .ite ?_ ?_
  · refine .trans ?_ (.mono rfl (Mach.mirCount_frame ..))
    refine .trans ?_ (.mono rfl (Mach.setMnat_frame ..))
    exact .refl
  · exact .refl

theorem Mach.mirClear_frame (m : Mach) : Frame [.status, .regs, .mem] m (Mach.mirClear m) := by
  unfold Mach.mirClear
  refine .trans ?_ (.foldl (fun _ _ => ?_) _)
  · refine .trans ?_ (.mono rfl (Mach.done_frame ..))
    exact .refl
  · refine .trans ?_ (.mono rfl (Mach.mirFree_frame ..))
    exact .refl

theorem Mach.portArmed_frame (m : Mach) (p id : Nat) : Frame [.regs, .commits, .port] m (Mach.portArmed m p id) := by
  unfold Mach.portArmed
  refine .trans ?_ (Frame.when (fun _ => ?_))
  · refine .trans ?_ (.mono rfl (Mach.applyGroups_frame ..))
    exact .refl
  · refine .trans ?_ (.mono rfl (Mach.modP_frame ..))
    exact .refl

theorem Mach.cellFor_frame (m : Mach) (p : Nat) (x : Shot) : Frame [.regs, .port] m ((Mach.cellFor m p x).2) := by
  unfold Mach.cellFor
  split
  · dsimp only
    exact .refl
  · split
    · dsimp only
      refine .trans ?_ (.mono rfl (Mach.satInc_frame ..))
      exact .refl
    · dsimp only
      refine .trans ?_ (.mono rfl (Mach.modP_frame ..))
      refine .trans ?_ (.mono rfl (Mach.setBankSt_frame ..))
      exact .refl

theorem Mach.countOn_frame (m : Mach) (x : Shot) (granted : Bool) (p : Nat) : Frame [.regs, .dram, .port, .rej] m (Mach.countOn m x
    granted p) := by
  unfold Mach.countOn
  split
  · (rename_i hpair; obtain rfl := congrArg Prod.snd hpair)
    refine .trans ?_ (.mono rfl (Mach.cellFor_frame ..))
    exact .refl
  · dsimp only
    refine .trans ?_ (.mono rfl (Mach.pstat_frame ..))
    refine .trans ?_ (.mono rfl (Mach.modP_frame ..))
    refine .trans ?_ (.mono rfl (Mach.rejDecide_frame ..))
    refine .trans ?_ (Frame.when (fun _ => ?_))
    · (rename_i hpair; obtain rfl := congrArg Prod.snd hpair)
      refine .trans ?_ (.mono rfl (Mach.cellFor_frame ..))
      exact .refl
    · refine .trans ?_ (.mono rfl (Mach.satInc_frame ..))
      exact .refl

theorem Mach.countShot_frame (m : Mach) (x : Shot) (granted : Bool) : Frame [.regs, .dram, .port, .rej] m (Mach.countShot m x granted) := by
  unfold Mach.countShot
  refine .trans ?_ (.foldl (fun _ _ => ?_) _)
  · exact .refl
  · refine .trans ?_ (.mono rfl (Mach.countOn_frame ..))
    exact .refl

theorem Mach.zoomAt_frame (m : Mach) (p w start : Nat) : Frame [.mem, .port] m (Mach.zoomAt m p w start) := by
  unfold Mach.zoomAt
  split
  · exact .refl
  · refine .trans ?_ (.mono rfl (Mach.modP_frame ..))
    refine .trans ?_ (.mono rfl (Mach.splice_frame ..))
    exact .refl

theorem Mach.zoomOffAt_frame (m : Mach) (p w : Nat) : Frame [.port] m (Mach.zoomOffAt m p w) := by
  unfold Mach.zoomOffAt
  split
  · exact .refl
  · refine .trans ?_ (.mono rfl (Mach.modP_frame ..))
    exact .refl

theorem Mach.add16_frame (m : Mach) (a w : Nat) : Frame [.mem] m ((Mach.add16 m a w).1) := by
  unfold Mach.add16
  dsimp only
  refine .trans ?_ (.mono rfl (Mach.setMnat_frame ..))
  exact .refl

theorem Mach.winEvent_frame (m : Mach) (c : Cell) (id : Nat) (e : Ev) (binOk : Bool) (k : Nat) (x : Window) : Frame [.mem] m
    ((Mach.winEvent m c id e binOk k x).1) := by
  unfold Mach.winEvent
  split
  · dsimp only
    exact .refl
  · dsimp only
    split
    · refine .trans ?_ (.mono rfl (Mach.add16_frame ..))
      exact .refl
    · dsimp only
      exact .refl

theorem Mach.winsEvent_frame (m : Mach) (c : Cell) (id : Nat) (e : Ev) (binOk : Bool) : Frame [.mem] m ((Mach.winsEvent m c id e binOk).1)
    := by
  unfold Mach.winsEvent
  refine .trans ?_ (.foldlFst (fun ⟨_, _⟩ _ => ?_) _)
  · dsimp only
    exact .refl
  · dsimp only
    refine .trans ?_ (.mono rfl (Mach.winEvent_frame ..))
    exact .refl

theorem Mach.cellEvent_frame (m : Mach) (c : Cell) (id : Nat) (sub : Option Nat) (e : Ev) : Frame [.mem] m ((Mach.cellEvent m c id sub
    e).1) := by
  unfold Mach.cellEvent
  dsimp only
  refine .trans ?_ (.mono rfl (Mach.winsEvent_frame ..))
  split
  · split
    · dsimp only
      refine .trans ?_ (.mono rfl (Mach.add16_frame ..))
      exact .refl
    · dsimp only
      exact .refl
  · split
    · split
      · split
        · dsimp only
          refine .trans ?_ (.mono rfl (Mach.add16_frame ..))
          exact .refl
        · dsimp only
          exact .refl
      · dsimp only
        exact .refl
    · dsimp only
      exact .refl

theorem Mach.cellSample_frame (m : Mach) (c : Cell) (id : Nat) (added : Bool) (t0 : Int) (s : Sample) : Frame [.mem] m ((Mach.cellSample m
    c id added t0 s).1) := by
  unfold Mach.cellSample
  dsimp only
  split
  · dsimp only
    exact .refl
  · split
    · dsimp only
      refine .trans ?_ (.mono rfl (Mach.setMnat_frame ..))
      exact .refl
    · split
      · dsimp only
        exact .refl
      · dsimp only
        refine .trans ?_ (.mono rfl (Mach.setMnat_frame ..))
        exact .refl

theorem Mach.shotEntry_frame (m : Mach) (b i : Nat) (ws : List Nat) : Frame [.mem] m (Mach.shotEntry m b i ws) := by
  unfold Mach.shotEntry
  refine .trans ?_ (.mono rfl (Mach.setBytes_frame ..))
  exact .refl

theorem Mach.accumulate_frame (m : Mach) (p : Nat) (x : PShot) (v : Interval) (c : Cell) : Frame [.regs, .mem, .port, .rej] m
    ((Mach.accumulate m p x v c).1) := by
  unfold Mach.accumulate
  split
  split
  dsimp only
  refine .trans ?_ (Frame.when (fun _ => ?_))
  · refine .trans ?_ (.mono rfl (Mach.shotEntry_frame ..))
    refine .trans ?_ (.foldlFst (fun ⟨_, _⟩ _ => ?_) _)
    · dsimp only
      refine .trans ?_ (.foldlFst (fun ⟨_, _⟩ _ => ?_) _)
      · dsimp only
        split
        · split
          · dsimp only
            refine .trans ?_ (.mono rfl (Mach.satInc_frame ..))
            refine .trans ?_ (Frame.when (fun _ => ?_))
            · refine .trans ?_ (.mono rfl (Mach.satAdd_frame ..))
              refine .trans ?_ (.mono rfl (Mach.modP_frame ..))
              refine .trans ?_ (.mono rfl (Mach.satAdd_frame ..))
              refine .trans ?_ (.mono rfl (Mach.satAdd_frame ..))
              exact .refl
            · refine .trans ?_ (.mono rfl (Mach.wrapInc_frame ..))
              exact .refl
          · dsimp only
            refine .trans ?_ (Frame.when (fun _ => ?_))
            · refine .trans ?_ (.mono rfl (Mach.satAdd_frame ..))
              refine .trans ?_ (.mono rfl (Mach.modP_frame ..))
              refine .trans ?_ (.mono rfl (Mach.satAdd_frame ..))
              refine .trans ?_ (.mono rfl (Mach.satAdd_frame ..))
              exact .refl
            · refine .trans ?_ (.mono rfl (Mach.wrapInc_frame ..))
              exact .refl
        · split
          · dsimp only
            refine .trans ?_ (.mono rfl (Mach.satInc_frame ..))
            refine .trans ?_ (Frame.when (fun _ => ?_))
            · refine .trans ?_ (.mono rfl (Mach.satAdd_frame ..))
              refine .trans ?_ (.mono rfl (Mach.modP_frame ..))
              refine .trans ?_ (.mono rfl (Mach.satAdd_frame ..))
              refine .trans ?_ (.mono rfl (Mach.satAdd_frame ..))
              exact .refl
            · refine .trans ?_ (.mono rfl (Mach.wrapInc_frame ..))
              exact .refl
          · dsimp only
            refine .trans ?_ (Frame.when (fun _ => ?_))
            · refine .trans ?_ (.mono rfl (Mach.satAdd_frame ..))
              refine .trans ?_ (.mono rfl (Mach.modP_frame ..))
              refine .trans ?_ (.mono rfl (Mach.satAdd_frame ..))
              refine .trans ?_ (.mono rfl (Mach.satAdd_frame ..))
              exact .refl
            · refine .trans ?_ (.mono rfl (Mach.wrapInc_frame ..))
              exact .refl
      · dsimp only
        refine .trans ?_ (.mono rfl (Mach.cellEvent_frame ..))
        exact .refl
    · dsimp only
      refine .trans ?_ (.mono rfl (Mach.cellSample_frame ..))
      exact .refl
  · refine .trans ?_ (.mono rfl (Mach.background_frame ..))
    exact .refl

theorem Mach.bankWrite_frame (m : Mach) (b : Nat) (v : Word) : Frame [.status, .regs] m (Mach.bankWrite m b v) := by
  unfold Mach.bankWrite
  refine .ite ?_ ?_
  · refine .trans ?_ (.mono rfl (Mach.done_frame ..))
    exact .refl
  · refine .ite ?_ ?_
    · refine .trans ?_ (.mono rfl (Mach.done_frame ..))
      exact .refl
    · refine .ite ?_ ?_
      · refine .trans ?_ (.mono rfl (Mach.satInc_frame ..))
        refine .trans ?_ (.mono rfl (Mach.done_frame ..))
        exact .refl
      · refine .trans ?_ (.mono rfl (Mach.pstat_frame ..))
        refine .trans ?_ (.mono rfl (Mach.pstat_frame ..))
        refine .trans ?_ (.mono rfl (Mach.setBankSt_frame ..))
        refine .trans ?_ (.mono rfl (Mach.setFld_frame ..))
        refine .trans ?_ (.mono rfl (Mach.setFld_frame ..))
        refine .trans ?_ (.mono rfl (Mach.done_frame ..))
        exact .refl

theorem Mach.flush_frame (m : Mach) : Frame [.status, .regs, .mem, .pool] m (Mach.flush m) := by
  unfold Mach.flush
  refine .ite ?_ ?_
  · refine .trans ?_ (.foldl (fun _ _ => ?_) _)
    · refine .trans ?_ (.foldl (fun _ _ => ?_) _)
      · refine .trans ?_ (.mono rfl (Mach.done_frame ..))
        exact .refl
      · refine .trans ?_ (.mono rfl (Mach.satInc_frame ..))
        refine .trans ?_ (.mono rfl (Mach.releaseBank_frame ..))
        exact .refl
    · refine .trans ?_ (.mono rfl (Mach.modPool_frame ..))
      exact .refl
  · refine .trans ?_ (.mono rfl (Mach.done_frame ..))
    exact .refl

theorem Mach.ergWrite_frame (m : Mach) (s : Src) (b off : Nat) (w : Word) : Frame [.status, .mem] m (Mach.ergWrite m s b off w) := by
  unfold Mach.ergWrite
  split
  · refine .ite ?_ ?_
    · refine .trans ?_ (.mono rfl (Mach.done_frame ..))
      exact .refl
    · refine .ite ?_ ?_
      · refine .trans ?_ (.mono rfl (Mach.done_frame ..))
        exact .refl
      · refine .ite ?_ ?_
        · refine .trans ?_ (.mono rfl (Mach.done_frame ..))
          exact .refl
        · refine .ite ?_ ?_
          · refine .trans ?_ (.mono rfl (Mach.done_frame ..))
            exact .refl
          · refine .ite ?_ ?_
            · refine .trans ?_ (.mono rfl (Mach.done_frame ..))
              exact .refl
            · refine .trans ?_ (.mono rfl (Mach.setMword_frame ..))
              refine .trans ?_ (.mono rfl (Mach.done_frame ..))
              exact .refl
  · refine .ite ?_ ?_
    · refine .trans ?_ (.mono rfl (Mach.done_frame ..))
      exact .refl
    · refine .ite ?_ ?_
      · refine .trans ?_ (.mono rfl (Mach.done_frame ..))
        exact .refl
      · refine .trans ?_ (.mono rfl (Mach.setMword_frame ..))
        refine .trans ?_ (.mono rfl (Mach.done_frame ..))
        exact .refl

theorem Mach.refusePending_frame (m : Mach) (page : Nat) : Frame [.status, .regs] m (Mach.refusePending m page) := by
  unfold Mach.refusePending
  refine .trans ?_ (.mono rfl (Mach.refuse_frame ..))
  refine .trans ?_ (.mono rfl (Mach.satInc_frame ..))
  exact .refl

theorem Mach.dropCommit_frame (m : Mach) (page grp : Nat) : Frame [.commits] m (Mach.dropCommit m page grp) := by
  unfold Mach.dropCommit
  refine .commits ?_
  exact .refl

theorem Mach.modSafIn_frame (m : Mach) (ev i : Nat) (f : SafIn → SafIn) : Frame [.saf] m (Mach.modSafIn m ev i f) := by
  unfold Mach.modSafIn
  refine .saf ?_
  exact .refl

theorem Mach.ossdJudge1_frame (m : Mach) (p : Nat) : Frame [.regs, .mem, .grp, .qmg, .saf] m (Mach.ossdJudge1 m p) := by
  unfold Mach.ossdJudge1
  refine .ite ?_ ?_
  · exact .refl
  · refine .ite ?_ ?_
    · refine .trans ?_ (Frame.when (fun _ => ?_))
      · exact .refl
      · refine .trans ?_ (.mono rfl (Mach.setFld_frame ..))
        refine .trans ?_ (.mono rfl (Mach.ossdOff_frame ..))
        exact .refl
    · refine .trans ?_ (.mono rfl (Mach.ossdOff_frame ..))
      exact .refl

theorem Mach.ossdJudge_frame (m : Mach) : Frame [.regs, .mem, .grp, .qmg, .saf] m (Mach.ossdJudge m) := by
  unfold Mach.ossdJudge
  refine .trans ?_ (.mono rfl (Mach.ossdJudge1_frame ..))
  refine .trans ?_ (.mono rfl (Mach.ossdJudge1_frame ..))
  exact .refl

theorem Mach.needRestart_frame (m : Mach) (p : Nat) : Frame [.regs, .saf] m (Mach.needRestart m p) := by
  unfold Mach.needRestart
  refine .trans ?_ (.mono rfl (Mach.setFld_frame ..))
  refine .trans ?_ (.mono rfl (Mach.modOssd_frame ..))
  exact .refl

theorem Mach.codeChanged_frame (m : Mach) : Frame [.regs, .saf] m (Mach.codeChanged m) := by
  unfold Mach.codeChanged
  refine .ite ?_ ?_
  · exact .refl
  · refine .ite ?_ ?_
    · exact .refl
    · refine .saf ?_
      refine .trans ?_ (.mono rfl (Mach.setFld_frame ..))
      refine .trans ?_ (.mono rfl (Mach.setFld_frame ..))
      refine .trans ?_ (.mono rfl (Mach.setFld_frame ..))
      exact .refl

theorem Mach.selSettle_frame (m : Mach) : Frame [.regs, .saf] m (Mach.selSettle m) := by
  unfold Mach.selSettle
  refine .ite ?_ ?_
  · exact .refl
  · refine .ite ?_ ?_
    · refine .trans ?_ (.mono rfl (Mach.setFld_frame ..))
      refine .saf ?_
      exact .refl
    · refine .trans ?_ (.mono rfl (Mach.setFld_frame ..))
      refine .trans ?_ (.mono rfl (Mach.setFld_frame ..))
      refine .trans ?_ (.mono rfl (Mach.setFld_frame ..))
      refine .saf ?_
      exact .refl

theorem Mach.applySet_frame (m : Mach) : Frame [.regs, .saf] m (Mach.applySet m) := by
  unfold Mach.applySet
  refine .ite ?_ ?_
  · refine .saf ?_
    refine .trans ?_ (.mono rfl (Mach.satInc_frame ..))
    refine .trans ?_ (.mono rfl (Mach.setFld_frame ..))
    refine .trans ?_ (.mono rfl (Mach.setFld_frame ..))
    exact .refl
  · exact .refl

theorem Mach.safCmd_frame {l : List Part} {m : Mach} {f : Mach → Mach} (hf : ∀ m, Frame l m (f m)) (h : (List.all [.regs, .mem, .grp,
    .qmg, .saf] l.contains) = true := by rfl) : Frame l m (m.safCmd f) :=
  .trans (.trans (.mono (by simp_all) (Mach.selSettle_frame m)) (hf _)) (.mono h (Mach.ossdJudge_frame _))

theorem Mach.inGoes_frame (m : Mach) (ev i st : Nat) : Frame [.regs, .saf] m (Mach.inGoes m ev i st) := by
  unfold Mach.inGoes
  refine .ite ?_ ?_
  · exact .refl
  · refine .trans ?_ (Frame.when (fun _ => ?_))
    · refine .trans ?_ (Frame.when (fun _ => ?_))
      · refine .trans ?_ (.mono rfl (Mach.setFld_frame ..))
        exact .refl
      · refine .trans ?_ (.mono rfl (Mach.satInc_frame ..))
        exact .refl
    · refine .trans ?_ (.foldl (fun _ _ => ?_) _)
      · exact .refl
      · refine .trans ?_ (Frame.when (fun _ => ?_))
        · exact .refl
        · refine .trans ?_ (.mono rfl (Mach.needRestart_frame ..))
          exact .refl

theorem Mach.inDiffer_frame (m : Mach) (i : Nat) : Frame [.saf] m (Mach.inDiffer m i) := by
  unfold Mach.inDiffer
  refine .ite ?_ ?_
  · refine .saf ?_
    exact .refl
  · refine .ite ?_ ?_
    · exact .refl
    · refine .saf ?_
      exact .refl

theorem Mach.evalSingle_frame (m : Mach) (ev i : Nat) : Frame [.regs, .saf] m (Mach.evalSingle m ev i) := by
  unfold Mach.evalSingle
  dsimp only
  refine .trans ?_ (.mono rfl (Mach.inGoes_frame ..))
  refine .trans ?_ (.mono rfl (Mach.modSafIn_frame ..))
  exact .refl

theorem Mach.evalTwo_frame (m : Mach) (ev k : Nat) : Frame [.regs, .saf] m (Mach.evalTwo m ev k) := by
  unfold Mach.evalTwo
  dsimp only
  refine .trans ?_ (.mono rfl (Mach.inGoes_frame ..))
  refine .trans ?_ (.mono rfl (Mach.inGoes_frame ..))
  refine .trans ?_ (.mono rfl (Mach.modSafIn_frame ..))
  refine .trans ?_ (.foldl (fun _ _ => ?_) _)
  · exact .refl
  · refine .trans ?_ (.mono rfl (Mach.modSafIn_frame ..))
    exact .refl

theorem Mach.evalInput_frame (m : Mach) (ev i : Nat) : Frame [.regs, .saf] m (Mach.evalInput m ev i) := by
  unfold Mach.evalInput
  refine .ite ?_ ?_
  · exact .refl
  · split
    · refine .trans ?_ (.mono rfl (Mach.evalSingle_frame ..))
      exact .refl
    · refine .trans ?_ (.mono rfl (Mach.evalSingle_frame ..))
      exact .refl
    · refine .trans ?_ (.mono rfl (Mach.evalSingle_frame ..))
      exact .refl
    · refine .trans ?_ (.mono rfl (Mach.evalTwo_frame ..))
      exact .refl
    · refine .trans ?_ (.mono rfl (Mach.setFld_frame ..))
      exact .refl
    · refine .trans ?_ (.mono rfl (Mach.setFld_frame ..))
      exact .refl

theorem Mach.inFault_frame (m : Mach) (ev i : Nat) : Frame [.regs, .saf] m (Mach.inFault m ev i) := by
  unfold Mach.inFault
  split
  · refine .trans ?_ (.mono rfl (Mach.inGoes_frame ..))
    refine .trans ?_ (.mono rfl (Mach.modSafIn_frame ..))
    exact .refl
  · refine .trans ?_ (.mono rfl (Mach.inGoes_frame ..))
    refine .trans ?_ (.mono rfl (Mach.modSafIn_frame ..))
    exact .refl
  · refine .trans ?_ (.mono rfl (Mach.inGoes_frame ..))
    refine .trans ?_ (.mono rfl (Mach.modSafIn_frame ..))
    exact .refl
  · refine .trans ?_ (.mono rfl (Mach.inGoes_frame ..))
    refine .trans ?_ (.mono rfl (Mach.inGoes_frame ..))
    exact .refl
  · exact .refl

theorem Mach.tpJudge_frame (m : Mach) (n : Nat) (bad : Bool) : Frame [.regs, .saf] m (Mach.tpJudge m n bad) := by
  unfold Mach.tpJudge
  refine .ite ?_ ?_
  · refine .saf ?_
    exact .refl
  · refine .trans ?_ (.mono rfl (Mach.inDiffer_frame ..))
    refine .trans ?_ (.mono rfl (Mach.inDiffer_frame ..))
    refine .trans ?_ (.mono rfl (Mach.inFault_frame ..))
    refine .trans ?_ (.mono rfl (Mach.inFault_frame ..))
    refine .trans ?_ (.mono rfl (Mach.setFld_frame ..))
    refine .saf ?_
    exact .refl

theorem Mach.safDigest_frame (m : Mach) (l : List Nat) : Frame [.dev, .regs, .mem, .eng, .sems, .flt, .grp, .qmg, .dram, .emt, .saf,
    .port, .pool] m (Mach.safDigest m l) := by
  unfold Mach.safDigest
  refine .ite ?_ ?_
  · refine .trans ?_ (.mono rfl (Mach.safetyFault_frame ..))
    refine .trans ?_ (.mono rfl (Mach.setFld_frame ..))
    exact .refl
  · refine .trans ?_ (.mono rfl (Mach.setFld_frame ..))
    refine .trans ?_ (.mono rfl (Mach.setBytes_frame ..))
    exact .refl

theorem Mach.safGroup_frame (m : Mach) (g : Posted) : Frame [.dev, .regs, .mem, .eng, .sems, .flt, .grp, .qmg, .dram, .emt, .saf, .port,
    .pool] m (Mach.safGroup m g) := by
  unfold Mach.safGroup
  refine .ite ?_ ?_
  · exact .refl
  · refine .trans ?_ (.mono rfl (Mach.ossdJudge_frame ..))
    refine .trans ?_ (.mono rfl (Mach.safDigest_frame ..))
    split
    · exact .refl
    · refine .ite ?_ ?_
      · exact .refl
      · dsimp only
        split
        · refine .saf ?_
          exact .refl
        · refine .trans ?_ (.foldl (fun _ _ => ?_) _)
          · refine .saf ?_
            exact .refl
          · refine .ite ?_ ?_
            · refine .saf ?_
              exact .refl
            · exact .refl

theorem Mach.pairEnd_frame (m : Mach) (p : Nat) : Frame [.regs, .saf] m (Mach.pairEnd m p) := by
  unfold Mach.pairEnd
  dsimp only
  split
  · refine .trans ?_ (.mono rfl (Mach.setFld_frame ..))
    refine .trans ?_ (.mono rfl (Mach.setFld_frame ..))
    refine .trans ?_ (.mono rfl (Mach.setFld_frame ..))
    refine .trans ?_ (.mono rfl (Mach.modOssd_frame ..))
    exact .refl
  · refine .trans ?_ (.mono rfl (Mach.setFld_frame ..))
    refine .trans ?_ (.mono rfl (Mach.setFld_frame ..))
    refine .trans ?_ (.mono rfl (Mach.setFld_frame ..))
    refine .trans ?_ (.mono rfl (Mach.setFld_frame ..))
    refine .trans ?_ (.mono rfl (Mach.setFld_frame ..))
    refine .trans ?_ (.mono rfl (Mach.setFld_frame ..))
    refine .trans ?_ (.mono rfl (Mach.setFld_frame ..))
    refine .trans ?_ (.mono rfl (Mach.modOssd_frame ..))
    exact .refl

theorem Mach.bresSet_frame (m : Mach) (p : Nat) (v : Word) : Frame [.status, .regs, .mem, .grp, .qmg, .saf] m (Mach.bresSet m p v) := by
  unfold Mach.bresSet
  dsimp only
  split
  · refine .trans ?_ (.mono rfl (Mach.setReg_frame ..))
    refine .trans ?_ (.mono rfl (Mach.done_frame ..))
    exact .refl
  · refine .ite ?_ ?_
    · refine .trans ?_ (.mono rfl (Mach.setReg_frame ..))
      refine .trans ?_ (.mono rfl (Mach.done_frame ..))
      exact .refl
    · refine .trans ?_ (.mono rfl (Mach.ossdJudge_frame ..))
      refine .trans ?_ (.mono rfl (Mach.modOssd_frame ..))
      refine .trans ?_ (Frame.when (fun _ => ?_))
      · refine .trans ?_ (.mono rfl (Mach.setReg_frame ..))
        refine .trans ?_ (.mono rfl (Mach.done_frame ..))
        exact .refl
      · refine .trans ?_ (.mono rfl (Mach.setFld_frame ..))
        exact .refl

theorem Mach.bconfSet_frame (m : Mach) (v : Word) : Frame [.status, .regs, .saf] m (Mach.bconfSet m v) := by
  unfold Mach.bconfSet
  refine .ite ?_ ?_
  · refine .trans ?_ (.mono rfl (Mach.setFld_frame ..))
    refine .trans ?_ (.mono rfl (Mach.setFld_frame ..))
    refine .saf ?_
    refine .trans ?_ (.mono rfl (Mach.setReg_frame ..))
    refine .trans ?_ (.mono rfl (Mach.done_frame ..))
    exact .refl
  · refine .trans ?_ (.mono rfl (Mach.setReg_frame ..))
    refine .trans ?_ (.mono rfl (Mach.done_frame ..))
    exact .refl

theorem Mach.safRecordsClear_frame (m : Mach) : Frame [.regs, .saf] m (Mach.safRecordsClear m) := by
  unfold Mach.safRecordsClear
  refine .trans ?_ (.mono rfl (Mach.setFld_frame ..))
  refine .trans ?_ (.mono rfl (Mach.setFld_frame ..))
  refine .saf ?_
  exact .refl

theorem Mach.safVerify_frame (m : Mach) : Frame [.regs, .saf] m (Mach.safVerify m) := by
  unfold Mach.safVerify
  refine .trans ?_ (.mono rfl (Mach.setFld_frame ..))
  refine .saf ?_
  exact .refl

theorem Mach.safCancel_frame (m : Mach) : Frame [.regs, .saf] m (Mach.safCancel m) := by
  unfold Mach.safCancel
  refine .trans ?_ (.mono rfl (Mach.setFld_frame ..))
  refine .trans ?_ (.mono rfl (Mach.safRecordsClear_frame ..))
  refine .saf ?_
  exact .refl

theorem Mach.safActivate_frame (m : Mach) (seqno : Nat) : Frame [.regs, .mem, .saf] m (Mach.safActivate m seqno) := by
  unfold Mach.safActivate
  refine .trans ?_ (.mono rfl (Mach.codeChanged_frame ..))
  refine .trans ?_ (.foldl (fun _ _ => ?_) _)
  · refine .trans ?_ (.foldl (fun _ _ => ?_) _)
    · refine .trans ?_ (.foldl (fun _ _ => ?_) _)
      · refine .trans ?_ (.mono rfl (Mach.setFld_frame ..))
        refine .trans ?_ (.mono rfl (Mach.setFld_frame ..))
        refine .trans ?_ (.mono rfl (Mach.setFld_frame ..))
        refine .trans ?_ (.mono rfl (Mach.setFld_frame ..))
        refine .trans ?_ (.mono rfl (Mach.setFld_frame ..))
        refine .trans ?_ (.foldl (fun _ _ => ?_) _)
        · refine .saf ?_
          refine .trans ?_ (.mono rfl (Mach.setFld_frame ..))
          refine .trans ?_ (.mono rfl (Mach.setFld_frame ..))
          refine .trans ?_ (.mono rfl (Mach.setReg_frame ..))
          refine .trans ?_ (.mono rfl (Mach.setReg_frame ..))
          refine .trans ?_ (.mono rfl (Mach.copyRange_frame ..))
          refine .trans ?_ (.mono rfl (Mach.copyRange_frame ..))
          refine .trans ?_ (.mono rfl (Mach.setFld_frame ..))
          refine .trans ?_ (.mono rfl (Mach.setFld_frame ..))
          exact .refl
        · refine .trans ?_ (.mono rfl (Mach.setReg_frame ..))
          exact .refl
      · refine .trans ?_ (.foldl (fun _ _ => ?_) _)
        · exact .refl
        · refine .trans ?_ (.mono rfl (Mach.setFld_frame ..))
          refine .trans ?_ (.mono rfl (Mach.modSafIn_frame ..))
          exact .refl
    · refine .trans ?_ (.mono rfl (Mach.evalInput_frame ..))
      refine .trans ?_ (.mono rfl (Mach.evalInput_frame ..))
      exact .refl
  · refine .trans ?_ (.mono rfl (Mach.inDiffer_frame ..))
    exact .refl

theorem Mach.safStageWrite_frame (m : Mach) (off : Nat) (w : Word) : Frame [.status, .regs, .mem] m (Mach.safStageWrite m off w) := by
  unfold Mach.safStageWrite
  refine .ite ?_ ?_
  · refine .trans ?_ (.mono rfl (Mach.refusePending_frame ..))
    exact .refl
  · refine .trans ?_ (.mono rfl (Mach.setMword_frame ..))
    refine .trans ?_ (.mono rfl (Mach.done_frame ..))
    exact .refl

theorem Mach.safRecordWrite_frame (m : Mach) (c g r off : Nat) (w : Word) : Frame [.status, .regs, .mem, .saf] m (Mach.safRecordWrite m c
    g r off w) := by
  unfold Mach.safRecordWrite
  refine .ite ?_ ?_
  · refine .trans ?_ (.mono rfl (Mach.done_frame ..))
    exact .refl
  · refine .ite ?_ ?_
    · refine .trans ?_ (.mono rfl (Mach.done_frame ..))
      exact .refl
    · refine .ite ?_ ?_
      · refine .trans ?_ (.mono rfl (Mach.done_frame ..))
        exact .refl
      · refine .ite ?_ ?_
        · refine .trans ?_ (.mono rfl (Mach.refusePending_frame ..))
          exact .refl
        · refine .ite ?_ ?_
          · refine .trans ?_ (.mono rfl (Mach.setFld_frame ..))
            refine .saf ?_
            refine .trans ?_ (.mono rfl (Mach.setMword_frame ..))
            refine .trans ?_ (.mono rfl (Mach.done_frame ..))
            exact .refl
          · refine .trans ?_ (.mono rfl (Mach.setFld_frame ..))
            refine .saf ?_
            refine .trans ?_ (.mono rfl (Mach.setMword_frame ..))
            refine .trans ?_ (.mono rfl (Mach.done_frame ..))
            exact .refl

theorem Mach.fbFails_frame (m : Mach) (p code : Nat) : Frame [.dev, .regs, .mem, .eng, .sems, .flt, .grp, .qmg, .dram, .emt, .saf, .port,
    .pool] m (Mach.fbFails m p code) := by
  unfold Mach.fbFails
  refine .trans ?_ (.mono rfl (Mach.safetyFault_frame ..))
  refine .trans ?_ (.mono rfl (Mach.setFld_frame ..))
  exact .refl

theorem Mach.fbSeen_frame (m : Mach) (p : Nat) (fb : Bool) : Frame [.regs, .saf] m (Mach.fbSeen m p fb) := by
  unfold Mach.fbSeen
  refine .ite ?_ ?_
  · refine .trans ?_ (.mono rfl (Mach.setFld_frame ..))
    refine .trans ?_ (.mono rfl (Mach.modOssd_frame ..))
    refine .trans ?_ (.mono rfl (Mach.setFld_frame ..))
    exact .refl
  · refine .trans ?_ (.mono rfl (Mach.setFld_frame ..))
    exact .refl

theorem Mach.beat_frame (m : Mach) : Frame [.regs, .saf] m (Mach.beat m) := by
  unfold Mach.beat
  refine .trans ?_ (.mono rfl (Mach.setFld_frame ..))
  refine .saf ?_
  exact .refl

theorem Mach.safMatched_frame (m : Mach) (x : SafMsg) : Frame [.regs, .saf] m (Mach.safMatched m x) := by
  unfold Mach.safMatched
  refine .ite ?_ ?_
  · refine .trans ?_ (.mono rfl (Mach.satInc_frame ..))
    exact .refl
  · refine .saf ?_
    refine .trans ?_ (.mono rfl (Mach.beat_frame ..))
    refine .trans ?_ (.mono rfl (Mach.setFld_frame ..))
    exact .refl

theorem Mach.safCopy_frame (m : Mach) (g : Nat) (payload : List Byte) : Frame [.regs, .saf] m (Mach.safCopy m g payload) := by
  unfold Mach.safCopy
  refine .ite ?_ ?_
  · refine .trans ?_ (.mono rfl (Mach.satInc_frame ..))
    exact .refl
  · split
    · refine .ite ?_ ?_
      · refine .trans ?_ (.mono rfl (Mach.satInc_frame ..))
        exact .refl
      · refine .ite ?_ ?_
        · refine .trans ?_ (.mono rfl (Mach.safMatched_frame ..))
          refine .saf ?_
          exact .refl
        · refine .trans ?_ (.mono rfl (Mach.satAdd_frame ..))
          refine .saf ?_
          exact .refl
    · refine .ite ?_ ?_
      · refine .trans ?_ (.mono rfl (Mach.satInc_frame ..))
        exact .refl
      · refine .saf ?_
        exact .refl

theorem Mach.safExec_frame {l : List Part} {m : Mach} {kind : Nat} {f : SafMsg → Mach → Mach} (hf : ∀ x m, Frame l m (f x m)) (h :
    (List.all [.regs, .mem, .grp, .qmg, .saf] l.contains) = true := by rfl) : Frame l m (m.safExec kind f) := by
  unfold Mach.safExec
  split
  · exact .refl
  · refine Mach.safCmd_frame (fun m => .trans ?_ (hf _ _)) h
    refine .upd .refl (.inl rfl) (.inl rfl) (.inl rfl) (.inl rfl) (.inl rfl) (.inl rfl) (.inl rfl) (.inl rfl) id (.inl rfl) (.inl rfl) (.inl rfl) (.inl rfl) (.inl rfl) (.inl rfl) (.inl rfl) (.inl rfl) (.inl rfl) (.inl rfl) (.inl rfl) (.inr (by simp_all)) (.inl rfl) (.inl rfl) (.inl rfl) (.inl rfl) (.inl rfl) (.inl rfl) (.inl rfl) (.inl rfl) (.inl rfl) (.inl rfl) (.inl rfl)

theorem Mach.checked_frame {l : List Part} {m : Mach} {e : Nat} {codes : List Nat} {f : Mach → Mach} (hf : ∀ m, Frame l m (f m)) (h :
    (List.all [.free, .dev, .regs, .mem, .eng, .sems, .flt, .grp, .qmg, .dram, .emt, .saf, .port, .pool] l.contains) = true := by rfl) :
    Frame l m (m.checked e codes f) := by
  unfold Mach.checked
  split
  · exact hf m
  · exact .mono h (Mach.engFault_frame ..)

theorem Mach.freeOut_frame (m : Mach) (e a n : Nat) : Frame [.free, .mem] m (m.freeOut e a n) := by
  induction n generalizing m a with
  | zero => exact .refl
  | succ n ih =>
    unfold Mach.freeOut
    refine .trans ?_ (ih ..)
    refine .trans ?_ (.mono rfl (Mach.setMword_frame ..))
    exact .mono rfl (Mach.takeFree_frame m)

theorem Mach.staleOut_frame (m : Mach) (e : Nat) (rd : BitVec 4) (a words : Nat) : Frame [.free, .regs, .mem, .eng] m (Mach.staleOut m e
    rd a words) := by
  unfold Mach.staleOut
  refine .trans ?_ (.mono rfl (Mach.result_frame ..))
  refine .trans ?_ (.mono rfl (Mach.satInc_frame ..))
  refine .trans ?_ (.mono rfl (Mach.freeOut_frame ..))
  exact .refl

theorem Mach.setDwords_frame (m : Mach) (e a : Nat) (ws : List Word) : Frame [.mem] m (Mach.setDwords m e a ws) := by
  unfold Mach.setDwords
  refine .trans ?_ (.mono rfl (Mach.setBytes_frame ..))
  exact .refl

theorem Mach.holdHandle_frame (m : Mach) (e : Nat) (h : Handle) : Frame [.regs, .eng] m (Mach.holdHandle m e h) := by
  unfold Mach.holdHandle
  refine .trans ?_ (.mono rfl (Mach.showHold_frame ..))
  refine .trans ?_ (.mono rfl (Mach.setBankSt_frame ..))
  refine .trans ?_ (.mono rfl (Mach.modE_frame ..))
  exact .refl

theorem Mach.moveLook_frame (m : Mach) (n : Nat) : Frame [.eng] m (Mach.moveLook m n) := by
  unfold Mach.moveLook
  refine .trans ?_ (.mono rfl (Mach.modE_frame ..))
  exact .refl

theorem Mach.poolSet_frame (m : Mach) (n : Nat) (v : Word) : Frame [.status, .regs, .eng] m (Mach.poolSet m n v) := by
  unfold Mach.poolSet
  refine .ite ?_ ?_
  · refine .trans ?_ (.mono rfl (Mach.refuse_frame ..))
    exact .refl
  · refine .ite ?_ ?_
    · refine .trans ?_ (.mono rfl (Mach.done_frame ..))
      exact .refl
    · refine .trans ?_ (.mono rfl (Mach.moveLook_frame ..))
      refine .trans ?_ (.mono rfl (Mach.modE_frame ..))
      refine .trans ?_ (.mono rfl (Mach.setFld_frame ..))
      refine .trans ?_ (.mono rfl (Mach.done_frame ..))
      exact .refl

theorem Mach.portPoolSet_frame (m : Mach) (k : Nat) (v : Word) : Frame [.status, .regs, .eng] m (Mach.portPoolSet m k v) := by
  unfold Mach.portPoolSet
  refine .trans ?_ (.foldl (fun _ _ => ?_) _)
  · refine .trans ?_ (.mono rfl (Mach.setReg_frame ..))
    refine .trans ?_ (.mono rfl (Mach.done_frame ..))
    exact .refl
  · refine .trans ?_ (.mono rfl (Mach.moveLook_frame ..))
    exact .refl

theorem Mach.modPts_frame (m : Mach) (f : Pts → Pts) : Frame [.pts] m (Mach.modPts m f) := by
  unfold Mach.modPts
  refine .pts ?_
  exact .refl

theorem Mach.modStrm_frame (m : Mach) (s : Nat) (f : PtsStream → PtsStream) : Frame [.pts] m (Mach.modStrm m s f) := by
  unfold Mach.modStrm
  refine .trans ?_ (.mono rfl (Mach.modPts_frame ..))
  exact .refl

theorem Mach.header_frame (m : Mach) (s : Nat) (r : List Byte) : Frame [.regs, .mem, .grp, .qmg] m ((Mach.header m s r).1) := by
  unfold Mach.header
  dsimp only
  split
  · dsimp only
    refine .trans ?_ (.mono rfl (Mach.satInc_frame ..))
    refine .trans ?_ (.mono rfl (Mach.qDrop_frame ..))
    exact .refl
  · split
    · dsimp only
      (rename_i hpair; obtain rfl := congrArg Prod.fst hpair)
      refine .trans ?_ (.mono rfl (Mach.offer_frame ..))
      exact .refl
    · dsimp only
      refine .trans ?_ (.mono rfl (Mach.satInc_frame ..))
      (rename_i hpair; obtain rfl := congrArg Prod.fst hpair)
      refine .trans ?_ (.mono rfl (Mach.offer_frame ..))
      exact .refl

theorem Mach.frameNow_frame (m : Mach) (cause : Nat) : Frame [.regs, .mem, .commits, .time, .grp, .qmg, .cam, .pts] m (Mach.frameNow m
    cause) := by
  unfold Mach.frameNow
  refine .trans ?_ (.mono rfl (Mach.modPts_frame ..))
  refine .trans ?_ (.foldl (fun _ _ => ?_) _)
  · refine .trans ?_ (.foldl (fun _ _ => ?_) _)
    · refine .trans ?_ (.mono rfl (Mach.wrapInc_frame ..))
      refine .trans ?_ (.mono rfl (Mach.modPts_frame ..))
      refine .trans ?_ (.mono rfl (Mach.colCommitted_frame ..))
      refine .trans ?_ (.mono rfl (Mach.applyGroups_frame ..))
      refine .trans ?_ (.mono rfl (Mach.applyGroups_frame ..))
      refine .trans ?_ (.mono rfl (Mach.stepBoundary_frame ..))
      exact .refl
    · split
      refine .trans ?_ (.mono rfl (Mach.modStrm_frame ..))
      (rename_i hpair; obtain rfl := congrArg Prod.fst hpair)
      refine .trans ?_ (.mono rfl (Mach.header_frame ..))
      exact .refl
  · refine .trans ?_ (.mono rfl (Mach.modStrm_frame ..))
    exact .refl

theorem Mach.streamsCommitted_frame (m : Mach) (wasOn : Bool) : Frame [.regs, .mem, .commits, .time, .grp, .qmg, .cam, .pts] m
    (Mach.streamsCommitted m wasOn) := by
  unfold Mach.streamsCommitted
  refine .trans ?_ (Frame.when (fun _ => ?_))
  · refine .ite ?_ ?_
    · refine .trans ?_ (.mono rfl (Mach.modPts_frame ..))
      exact .refl
    · exact .refl
  · refine .trans ?_ (.mono rfl (Mach.frameNow_frame ..))
    exact .refl

theorem Mach.frameRequest_frame (m : Mach) (v : Word) : Frame [.status, .pts] m (Mach.frameRequest m v) := by
  unfold Mach.frameRequest
  refine .trans ?_ (Frame.when (fun _ => ?_))
  · refine .trans ?_ (.mono rfl (Mach.done_frame ..))
    exact .refl
  · refine .trans ?_ (.mono rfl (Mach.modPts_frame ..))
    exact .refl

theorem Mach.frameTrigger_frame (m : Mach) (t : Nat) : Frame [.pts] m (Mach.frameTrigger m t) := by
  unfold Mach.frameTrigger
  refine .trans ?_ (Frame.when (fun _ => ?_))
  · exact .refl
  · refine .trans ?_ (.mono rfl (Mach.modPts_frame ..))
    exact .refl

theorem Mach.blockDrop_frame (m : Mach) (s : Nat) : Frame [.regs, .pts] m (Mach.blockDrop m s) := by
  unfold Mach.blockDrop
  refine .trans ?_ (.mono rfl (Mach.modStrm_frame ..))
  refine .trans ?_ (.mono rfl (Mach.satInc_frame ..))
  exact .refl

theorem Mach.block_frame (m : Mach) (g : Posted) (c : PointCtx) (s : Nat) : Frame [.regs, .mem, .grp, .qmg, .pts] m (Mach.block m g c s)
    := by
  unfold Mach.block
  refine .ite ?_ ?_
  · exact .refl
  · refine .ite ?_ ?_
    · refine .trans ?_ (.mono rfl (Mach.blockDrop_frame ..))
      exact .refl
    · dsimp only
      split
      · refine .trans ?_ (Frame.when (fun _ => ?_))
        · refine .trans ?_ (.mono rfl (Mach.modStrm_frame ..))
          (rename_i hpair; obtain rfl := congrArg Prod.fst hpair)
          refine .trans ?_ (.mono rfl (Mach.offer_frame ..))
          exact .refl
        · refine .trans ?_ (.mono rfl (Mach.satAdd_frame ..))
          exact .refl
      · refine .trans ?_ (.mono rfl (Mach.blockDrop_frame ..))
        (rename_i hpair; obtain rfl := congrArg Prod.fst hpair)
        refine .trans ?_ (.mono rfl (Mach.offer_frame ..))
        exact .refl
      · refine .trans ?_ (.mono rfl (Mach.modPts_frame ..))
        refine .trans ?_ (Frame.when (fun _ => ?_))
        · refine .trans ?_ (.mono rfl (Mach.modStrm_frame ..))
          (rename_i hpair; obtain rfl := congrArg Prod.fst hpair)
          refine .trans ?_ (.mono rfl (Mach.offer_frame ..))
          exact .refl
        · refine .trans ?_ (.mono rfl (Mach.satAdd_frame ..))
          exact .refl

theorem Mach.acceptGroup_frame (m : Mach) (g : Posted) : Frame [.dev, .regs, .mem, .eng, .sems, .flt, .grp, .qmg, .dram, .emt, .saf,
    .port, .pool, .rej, .pts] m (Mach.acceptGroup m g) := by
  unfold Mach.acceptGroup
  refine .trans ?_ (.mono rfl (Mach.safGroup_frame ..))
  refine .trans ?_ (.mono rfl (Mach.mirGroup_frame ..))
  refine .trans ?_ (.mono rfl (Mach.hbGroup_frame ..))
  refine .ite ?_ ?_
  · refine .trans ?_ (.mono rfl (Mach.modPts_frame ..))
    refine .trans ?_ (.mono rfl (Mach.wrapInc_frame ..))
    exact .refl
  · refine .trans ?_ (.foldl (fun _ _ => ?_) _)
    · refine .trans ?_ (.mono rfl (Mach.modPts_frame ..))
      refine .trans ?_ (.mono rfl (Mach.wrapInc_frame ..))
      exact .refl
    · refine .trans ?_ (.mono rfl (Mach.block_frame ..))
      exact .refl

theorem Mach.releaseNow_frame (m : Mach) (b : Nat) : Frame [.regs, .mem] m (Mach.releaseNow m b) := by
  unfold Mach.releaseNow
  refine .trans ?_ (.mono rfl (Mach.releaseBank_frame ..))
  exact .refl

theorem Mach.latchStart_frame (m : Mach) (s : Nat) : Frame [.tdc] m (Mach.latchStart m s) := by
  unfold Mach.latchStart
  refine .tdc ?_
  exact .refl

theorem Mach.calRecord_frame (m : Mach) (i result : Nat) : Frame [.mem] m (Mach.calRecord m i result) := by
  unfold Mach.calRecord
  refine .trans ?_ (.mono rfl (Mach.setBytes_frame ..))
  exact .refl

theorem Mach.calAbandoned_frame (m : Mach) (i : Nat) : Frame [.mem] m (Mach.calAbandoned m i) := by
  unfold Mach.calAbandoned
  refine .trans ?_ (.mono rfl (Mach.setMnat_frame ..))
  exact .refl

theorem Mach.setDllLock_frame (m : Mach) (k d : Nat) (b : Bool) : Frame [.regs, .tdc] m (Mach.setDllLock m k d b) := by
  unfold Mach.setDllLock
  refine .ite ?_ ?_
  · refine .tdc ?_
    exact .refl
  · refine .trans ?_ (.mono rfl (Mach.setFld_frame ..))
    exact .refl

theorem Mach.setDllSel_frame (m : Mach) (k d : Nat) : Frame [.regs, .tdc] m (Mach.setDllSel m k d) := by
  unfold Mach.setDllSel
  refine .ite ?_ ?_
  · refine .tdc ?_
    exact .refl
  · refine .trans ?_ (.mono rfl (Mach.setFld_frame ..))
    exact .refl

theorem Mach.setDllDue_frame (m : Mach) (k : Nat) (b : Bool) : Frame [.tdc] m (Mach.setDllDue m k b) := by
  unfold Mach.setDllDue
  refine .ite ?_ ?_
  · refine .tdc ?_
    exact .refl
  · refine .trans ?_ (.mono rfl (Mach.modTile_frame ..))
    exact .refl

theorem Mach.showDll_frame (m : Mach) : Frame [.regs] m (Mach.showDll m) := by
  unfold Mach.showDll
  refine .trans ?_ (.mono rfl (Mach.setFld_frame ..))
  refine .trans ?_ (.mono rfl (Mach.setFld_frame ..))
  refine .trans ?_ (.mono rfl (Mach.setFld_frame ..))
  exact .refl

theorem Mach.dllSwap_frame (m : Mach) (k : Nat) : Frame [.regs, .tdc] m (Mach.dllSwap m k) := by
  unfold Mach.dllSwap
  refine .ite ?_ ?_
  · refine .trans ?_ (.mono rfl (Mach.showDll_frame ..))
    refine .trans ?_ (.mono rfl (Mach.setDllDue_frame ..))
    refine .trans ?_ (.mono rfl (Mach.setDllSel_frame ..))
    exact .refl
  · exact .refl

theorem Mach.dllRequest_frame (m : Mach) : Frame [.status, .tdc] m (Mach.dllRequest m) := by
  unfold Mach.dllRequest
  refine .trans ?_ (.mono rfl (Mach.done_frame ..))
  refine .tdc ?_
  exact .refl

theorem Mach.tileDllErr_frame (m : Mach) (t : Nat) : Frame [.regs, .port] m (Mach.tileDllErr m t) := by
  unfold Mach.tileDllErr
  refine .trans ?_ (.foldl (fun _ _ => ?_) _)
  · refine .trans ?_ (.mono rfl (Mach.setFld_frame ..))
    exact .refl
  · refine .trans ?_ (.mono rfl (Mach.modP_frame ..))
    refine .trans ?_ (.mono rfl (Mach.setFld_frame ..))
    exact .refl

theorem Mach.dllLoses_frame (m : Mach) (pair d : Nat) : Frame [.dev, .regs, .mem, .eng, .sems, .flt, .grp, .qmg, .dram, .emt, .saf, .port,
    .tdc, .pool] m (Mach.dllLoses m pair d) := by
  unfold Mach.dllLoses
  refine .ite ?_ ?_
  · exact .refl
  · refine .ite ?_ ?_
    · refine .trans ?_ (.mono rfl (Mach.setDllLock_frame ..))
      exact .refl
    · refine .trans ?_ (Frame.when (fun _ => ?_))
      · refine .trans ?_ (.mono rfl (Mach.showDll_frame ..))
        refine .trans ?_ (Frame.when (fun _ => ?_))
        · refine .trans ?_ (.mono rfl (Mach.report_frame ..))
          refine .trans ?_ (Frame.when (fun _ => ?_))
          · refine .trans ?_ (.mono rfl (Mach.setDllDue_frame ..))
            refine .trans ?_ (.mono rfl (Mach.setDllLock_frame ..))
            exact .refl
          · refine .trans ?_ (.mono rfl (Mach.tileDllErr_frame ..))
            exact .refl
        · refine .trans ?_ (.mono rfl (Mach.dllSwap_frame ..))
          exact .refl
      · refine .trans ?_ (.mono rfl (Mach.lostArming_frame ..))
        exact .refl

theorem Mach.slotLost_frame (m : Mach) (t k : Nat) : Frame [.regs] m (Mach.slotLost m t k) := by
  unfold Mach.slotLost
  refine .trans ?_ (.mono rfl (Mach.setFld_frame ..))
  exact .refl

theorem Mach.takeover_frame (m : Mach) (t : Nat) : Frame [.regs, .tdc] m (Mach.takeover m t) := by
  unfold Mach.takeover
  refine .trans ?_ (.foldl (fun _ _ => ?_) _)
  · refine .trans ?_ (.mono rfl (Mach.modTile_frame ..))
    exact .refl
  · refine .ite ?_ ?_
    · refine .trans ?_ (.mono rfl (Mach.setFld_frame ..))
      refine .trans ?_ (.mono rfl (Mach.setFld_frame ..))
      exact .refl
    · refine .trans ?_ (.mono rfl (Mach.slotLost_frame ..))
      exact .refl

theorem Mach.physFails_frame (m : Mach) (t k : Nat) : Frame [.dev, .regs, .mem, .eng, .sems, .flt, .grp, .qmg, .dram, .emt, .saf, .port,
    .tdc, .pool] m (Mach.physFails m t k) := by
  unfold Mach.physFails
  refine .ite ?_ ?_
  · exact .refl
  · refine .ite ?_ ?_
    · refine .ite ?_ ?_
      · refine .trans ?_ (.mono rfl (Mach.slotLost_frame ..))
        refine .trans ?_ (.mono rfl (Mach.report_frame ..))
        refine .trans ?_ (.mono rfl (Mach.setFld_frame ..))
        refine .trans ?_ (.mono rfl (Mach.setFld_frame ..))
        exact .refl
      · refine .trans ?_ (.mono rfl (Mach.report_frame ..))
        refine .trans ?_ (.mono rfl (Mach.setFld_frame ..))
        refine .trans ?_ (.mono rfl (Mach.setFld_frame ..))
        exact .refl
    · refine .ite ?_ ?_
      · refine .trans ?_ (.mono rfl (Mach.report_frame ..))
        refine .trans ?_ (.mono rfl (Mach.setFld_frame ..))
        refine .trans ?_ (.mono rfl (Mach.setFld_frame ..))
        exact .refl
      · refine .ite ?_ ?_
        · refine .trans ?_ (Frame.when (fun _ => ?_))
          · refine .trans ?_ (.mono rfl (Mach.modTile_frame ..))
            refine .trans ?_ (.mono rfl (Mach.report_frame ..))
            refine .trans ?_ (.mono rfl (Mach.setFld_frame ..))
            refine .trans ?_ (.mono rfl (Mach.setFld_frame ..))
            exact .refl
          · refine .trans ?_ (.mono rfl (Mach.takeover_frame ..))
            exact .refl
        · refine .trans ?_ (.mono rfl (Mach.slotLost_frame ..))
          refine .trans ?_ (.mono rfl (Mach.report_frame ..))
          refine .trans ?_ (.mono rfl (Mach.setFld_frame ..))
          refine .trans ?_ (.mono rfl (Mach.setFld_frame ..))
          exact .refl

theorem Mach.startFails_frame (m : Mach) (s : Nat) : Frame [.dev, .regs, .mem, .eng, .sems, .flt, .grp, .qmg, .dram, .emt, .saf, .port,
    .pool] m (Mach.startFails m s) := by
  unfold Mach.startFails
  refine .ite ?_ ?_
  · exact .refl
  · refine .trans ?_ (.mono rfl (Mach.report_frame ..))
    refine .trans ?_ (.mono rfl (Mach.setFld_frame ..))
    exact .refl

theorem Mach.sliceTake_frame (m : Mach) (n phase : Nat) : Frame [.regs] m (Mach.sliceTake m n phase) := by
  unfold Mach.sliceTake
  refine .ite ?_ ?_
  · refine .trans ?_ (.mono rfl (Mach.setFld_frame ..))
    exact .refl
  · refine .trans ?_ (.mono rfl (Mach.setFld_frame ..))
    refine .trans ?_ (.mono rfl (Mach.setFld_frame ..))
    exact .refl

theorem Mach.slicesDue_frame (m : Mach) (n : Nat) : Frame [.regs, .port] m (Mach.slicesDue m n) := by
  unfold Mach.slicesDue
  refine .trans ?_ (.foldl (fun _ _ => ?_) _)
  · refine .trans ?_ (.mono rfl (Mach.modP_frame ..))
    exact .refl
  · refine .trans ?_ (.mono rfl (Mach.sliceTake_frame ..))
    exact .refl

theorem Mach.sliceFails_frame (m : Mach) (n s : Nat) : Frame [.dev, .regs, .mem, .eng, .sems, .flt, .grp, .qmg, .dram, .emt, .saf, .port,
    .pool] m (Mach.sliceFails m n s) := by
  unfold Mach.sliceFails
  refine .ite ?_ ?_
  · exact .refl
  · refine .ite ?_ ?_
    · refine .trans ?_ (.mono rfl (Mach.setFld_frame ..))
      refine .trans ?_ (.mono rfl (Mach.report_frame ..))
      refine .trans ?_ (.mono rfl (Mach.setFld_frame ..))
      refine .trans ?_ (.mono rfl (Mach.setFld_frame ..))
      exact .refl
    · refine .trans ?_ (Frame.when (fun _ => ?_))
      · refine .trans ?_ (.mono rfl (Mach.modP_frame ..))
        refine .trans ?_ (.mono rfl (Mach.report_frame ..))
        refine .trans ?_ (.mono rfl (Mach.setFld_frame ..))
        refine .trans ?_ (.mono rfl (Mach.setFld_frame ..))
        exact .refl
      · refine .trans ?_ (.mono rfl (Mach.slicesDue_frame ..))
        exact .refl

theorem Mach.rotCalibrated_frame (m : Mach) (t k : Nat) : Frame [.tdc] m (Mach.rotCalibrated m t k) := by
  unfold Mach.rotCalibrated
  refine .ite ?_ ?_
  · refine .trans ?_ (.mono rfl (Mach.modTile_frame ..))
    exact .refl
  · refine .ite ?_ ?_
    · refine .trans ?_ (.mono rfl (Mach.modTile_frame ..))
      exact .refl
    · exact .refl

theorem Mach.handover_frame (m : Mach) (t diff : Nat) : Frame [.dev, .regs, .mem, .eng, .sems, .flt, .grp, .qmg, .dram, .emt, .saf, .port,
    .tdc, .pool] m (Mach.handover m t diff) := by
  unfold Mach.handover
  refine .ite ?_ ?_
  · exact .refl
  · refine .ite ?_ ?_
    · refine .trans ?_ (Frame.when (fun _ => ?_))
      · refine .trans ?_ (.mono rfl (Mach.modTile_frame ..))
        refine .trans ?_ (.mono rfl (Mach.calAbandoned_frame ..))
        refine .trans ?_ (.mono rfl (Mach.setFld_frame ..))
        exact .refl
      · refine .trans ?_ (.mono rfl (Mach.physFails_frame ..))
        exact .refl
    · refine .ite ?_ ?_
      · refine .trans ?_ (.mono rfl (Mach.modTile_frame ..))
        refine .trans ?_ (.mono rfl (Mach.setFld_frame ..))
        refine .trans ?_ (.mono rfl (Mach.setFld_frame ..))
        exact .refl
      · refine .trans ?_ (.mono rfl (Mach.modTile_frame ..))
        refine .trans ?_ (.mono rfl (Mach.setFld_frame ..))
        exact .refl

theorem Mach.sliceHandover_frame (m : Mach) (n diff : Nat) : Frame [.regs, .mem] m (Mach.sliceHandover m n diff) := by
  unfold Mach.sliceHandover
  refine .ite ?_ ?_
  · exact .refl
  · refine .ite ?_ ?_
    · refine .trans ?_ (.mono rfl (Mach.calAbandoned_frame ..))
      refine .trans ?_ (.mono rfl (Mach.setFld_frame ..))
      exact .refl
    · refine .trans ?_ (.mono rfl (Mach.setFld_frame ..))
      refine .trans ?_ (.mono rfl (Mach.setFld_frame ..))
      exact .refl

theorem Mach.rotationRestart_frame (m : Mach) : Frame [.regs, .tdc] m (Mach.rotationRestart m) := by
  unfold Mach.rotationRestart
  refine .trans ?_ (.foldl (fun _ _ => ?_) _)
  · exact .refl
  · refine .ite ?_ ?_
    · refine .trans ?_ (.mono rfl (Mach.modTile_frame ..))
      refine .trans ?_ (.mono rfl (Mach.setFld_frame ..))
      exact .refl
    · exact .refl

theorem Mach.closeInterval_frame (m : Mach) (p at_ : Nat) : Frame [.port, .tdc] m (Mach.closeInterval m p at_) := by
  unfold Mach.closeInterval
  refine .trans ?_ (Frame.when (fun _ => ?_))
  · refine .trans ?_ (.mono rfl (Mach.modP_frame ..))
    exact .refl
  · refine .trans ?_ (.mono rfl (Mach.modTile_frame ..))
    exact .refl

theorem Mach.portStart_frame (m : Mach) (id s t p : Nat) : Frame [.regs, .port] m (Mach.portStart m id s t p) := by
  unfold Mach.portStart
  dsimp only
  split
  · exact .refl
  · refine .trans ?_ (.mono rfl (Mach.setFld_frame ..))
    refine .trans ?_ (.mono rfl (Mach.setFld_frame ..))
    refine .trans ?_ (.mono rfl (Mach.setFld_frame ..))
    refine .trans ?_ (.mono rfl (Mach.setFld_frame ..))
    refine .trans ?_ (.mono rfl (Mach.modP_frame ..))
    exact .refl

theorem Mach.portNoStart_frame (m : Mach) (id p : Nat) : Frame [.regs, .port] m (Mach.portNoStart m id p) := by
  unfold Mach.portNoStart
  refine .ite ?_ ?_
  · refine .trans ?_ (.mono rfl (Mach.satInc_frame ..))
    refine .trans ?_ (.mono rfl (Mach.modP_frame ..))
    exact .refl
  · exact .refl

theorem Mach.portBlocked_frame (m : Mach) (id p : Nat) : Frame [.port] m (Mach.portBlocked m id p) := by
  unfold Mach.portBlocked
  refine .trans ?_ (.mono rfl (Mach.modP_frame ..))
  exact .refl

theorem Mach.modHead_frame (m : Mach) (h : Nat) (f : HeadSense → HeadSense) : Frame [.grd] m (Mach.modHead m h f) := by
  unfold Mach.modHead
  refine .grd ?_
  exact .refl

theorem Mach.grdShow_frame (m : Mach) : Frame [.regs, .grd] m (Mach.grdShow m) := by
  unfold Mach.grdShow
  refine .trans ?_ (.mono rfl (Mach.setFld_frame ..))
  refine .trans ?_ (.foldl (fun _ _ => ?_) _)
  · refine .trans ?_ (.mono rfl (Mach.setFld_frame ..))
    refine .trans ?_ (.mono rfl (Mach.setFld_frame ..))
    refine .trans ?_ (Frame.when (fun _ => ?_))
    · exact .refl
    · refine .trans ?_ (.mono rfl (Mach.modHead_frame ..))
      refine .trans ?_ (.mono rfl (Mach.modHead_frame ..))
      exact .refl
  · refine .trans ?_ (.mono rfl (Mach.setFld_frame ..))
    refine .trans ?_ (.mono rfl (Mach.setFld_frame ..))
    refine .trans ?_ (.mono rfl (Mach.setFld_frame ..))
    exact .refl

theorem Mach.stallNow_frame (m : Mach) (h : Nat) : Frame [.dev, .regs, .mem, .eng, .sems, .flt, .grp, .qmg, .dram, .emt, .grd, .saf,
    .port, .pool] m (Mach.stallNow m h) := by
  unfold Mach.stallNow
  refine .trans ?_ (.mono rfl (Mach.report_frame ..))
  refine .trans ?_ (.mono rfl (Mach.grdShow_frame ..))
  refine .trans ?_ (.mono rfl (Mach.setFld_frame ..))
  refine .trans ?_ (.mono rfl (Mach.modHead_frame ..))
  exact .refl

theorem Mach.azLost_frame (m : Mach) (h : Nat) : Frame [.regs, .grd] m (Mach.azLost m h) := by
  unfold Mach.azLost
  refine .trans ?_ (.mono rfl (Mach.setFld_frame ..))
  refine .trans ?_ (.mono rfl (Mach.modHead_frame ..))
  exact .refl

theorem Mach.headEdge_frame (m : Mach) (h : Nat) (step : Int) : Frame [.regs, .grd] m (Mach.headEdge m h step) := by
  unfold Mach.headEdge
  refine .trans ?_ (Frame.when (fun _ => ?_))
  · refine .trans ?_ (.mono rfl (Mach.modHead_frame ..))
    exact .refl
  · refine .trans ?_ (.mono rfl (Mach.azLost_frame ..))
    exact .refl

theorem Mach.headIndex_frame (m : Mach) (h : Nat) : Frame [.regs, .grd] m (Mach.headIndex m h) := by
  unfold Mach.headIndex
  refine .trans ?_ (.mono rfl (Mach.modHead_frame ..))
  refine .ite ?_ ?_
  · refine .trans ?_ (Frame.when (fun _ => ?_))
    · exact .refl
    · refine .trans ?_ (.mono rfl (Mach.azLost_frame ..))
      exact .refl
  · refine .trans ?_ (.mono rfl (Mach.modHead_frame ..))
    exact .refl

theorem Mach.setLevel_frame (m : Mach) (s w v : Nat) : Frame [.mem] m (Mach.setLevel m s w v) := by
  unfold Mach.setLevel
  refine .trans ?_ (.mono rfl (Mach.setMnat_frame ..))
  exact .refl

theorem Mach.decay_frame (m : Mach) (s : Nat) : Frame [.mem, .grd] m (Mach.decay m s) := by
  unfold Mach.decay
  refine .grd ?_
  refine .trans ?_ (.foldl (fun _ _ => ?_) _)
  · exact .refl
  · refine .trans ?_ (.mono rfl (Mach.setLevel_frame ..))
    exact .refl

theorem denseFrom_length (a n : Nat) (l : List Host.Cell) : (denseFrom a n l).length = n := by
  fun_induction denseFrom <;> simp_all

theorem Mach.halve_mem (a : Nat) (l : List Byte) (c : Host.Cell) (h : c ∈ Mach.startLevels.halve a l) :
    a ≤ c.1 ∧ c.1 < a + l.length := by
  fun_induction Mach.startLevels.halve a l with
  | case1 a b0 b1 b2 b3 t bs ih =>
    rcases List.mem_append.mp h with h | h
    · obtain ⟨⟨i, b⟩, hi, hb⟩ := List.mem_filterMap.mp h
      have := List.mem_range.mp (List.of_mem_zip hi).1
      dsimp only at hb
      split at hb
      · cases hb
      · cases hb; simp only [List.length_cons]; omega
    · have := ih h; simp only [List.length_cons]; omega
  | case2 => cases h

theorem Mach.halve_wf (a : Nat) (l : List Byte) : Memory.wf (Mach.startLevels.halve a l) = true := by
  fun_induction Mach.startLevels.halve a l with
  | case1 a b0 b1 b2 b3 t bs ih =>
    refine mapWf_append _ _ _ ?_ ih ?_
    · obtain ⟨w, x, y, z, hbs⟩ : ∃ w x y z, bs = [w, x, y, z] := ⟨_, _, _, _, rfl⟩
      rw [hbs]
      by_cases hw : w = 0#8 <;> by_cases hx : x = 0#8 <;> by_cases hy : y = 0#8 <;> by_cases hz : z = 0#8 <;>
        simp [List.range, List.range.loop, mapWf, hw, hx, hy, hz]
    · intro p hp q hq
      obtain ⟨⟨i, b⟩, hi, hb⟩ := List.mem_filterMap.mp hp
      have := List.mem_range.mp (List.of_mem_zip hi).1
      have := (Mach.halve_mem _ _ q hq).1
      dsimp only at hb
      split at hb
      · cases hb
      · cases hb; simp only; omega
  | case2 => rfl

theorem Mach.startLevels_frame (m : Mach) : Frame [.mem, .grd] m m.startLevels := by
  have hs : Frame [.mem] m (m.splice grdLevels 0x30000 (Mach.startLevels.halve grdLevels
      (if (m.gw 0x10).testBit 1 then m.image (grdImg + 0x1200) 0x30000 else []))) := by
    refine .memOnly (fun h => Memory.wf_splice m _ _ _ h (Mach.halve_wf _ _) (fun c hc => ?_))
    have hl : (if (m.gw 0x10).testBit 1 then m.image (grdImg + 0x1200) 0x30000 else []).length ≤ 0x30000 := by
      split
      · exact Nat.le_of_eq (denseFrom_length _ _ _)
      · exact Nat.zero_le _
    have := Mach.halve_mem _ _ c hc
    exact ⟨this.1, Nat.lt_of_lt_of_le this.2 (Nat.add_le_add_left hl _)⟩
  exact .trans (.mono rfl hs) (.upd .refl (.inl rfl) (.inl rfl) (.inl rfl) (.inl rfl) (.inl rfl) (.inl rfl) (.inl rfl) (.inl rfl) id (.inl rfl) (.inl rfl) (.inl rfl) (.inl rfl) (.inl rfl) (.inl rfl) (.inl rfl) (.inl rfl) (.inl rfl) (.inl rfl) (.inr rfl) (.inl rfl) (.inl rfl) (.inl rfl) (.inl rfl) (.inl rfl) (.inl rfl) (.inl rfl) (.inl rfl) (.inl rfl) (.inl rfl) (.inl rfl) (.inl rfl))

theorem Mach.guardJudge_frame (m : Mach) (x : Shot) : Frame [.mem, .grd] m ((Mach.guardJudge m x).2) := by
  unfold Mach.guardJudge
  dsimp only
  split
  · dsimp only
    exact .refl
  · split
    · dsimp only
      exact .refl
    · split
      · dsimp only
        exact .refl
      · split
        · dsimp only
          exact .refl
        · split
          · dsimp only
            exact .refl
          · split
            · dsimp only
              refine .trans ?_ (.foldl (fun _ _ => ?_) _)
              · exact .refl
              · refine .trans ?_ (.mono rfl (Mach.decay_frame ..))
                exact .refl
            · split
              · dsimp only
                refine .trans ?_ (.foldl (fun _ _ => ?_) _)
                · exact .refl
                · refine .trans ?_ (.mono rfl (Mach.decay_frame ..))
                  exact .refl
              · split
                · dsimp only
                  refine .trans ?_ (.foldl (fun _ _ => ?_) _)
                  · exact .refl
                  · refine .trans ?_ (.mono rfl (Mach.decay_frame ..))
                    exact .refl
                · dsimp only
                  refine .trans ?_ (.foldl (fun _ _ => ?_) _)
                  · exact .refl
                  · refine .trans ?_ (.mono rfl (Mach.decay_frame ..))
                    exact .refl
                · dsimp only
                  refine .trans ?_ (.foldl (fun _ _ => ?_) _)
                  · exact .refl
                  · refine .trans ?_ (.mono rfl (Mach.decay_frame ..))
                    exact .refl
                · dsimp only
                  refine .trans ?_ (.foldl (fun _ _ => ?_) _)
                  · exact .refl
                  · refine .trans ?_ (.mono rfl (Mach.decay_frame ..))
                    exact .refl

theorem Mach.guardDeny_frame (m : Mach) (x : Shot) (reason sector : Nat) : Frame [.regs, .mem] m (Mach.guardDeny m x reason sector) := by
  unfold Mach.guardDeny
  refine .trans ?_ (.mono rfl (Mach.setByte_frame ..))
  refine .trans ?_ (.mono rfl (Mach.setFld_frame ..))
  refine .trans ?_ (.mono rfl (Mach.setFld_frame ..))
  refine .trans ?_ (.mono rfl (Mach.setFld_frame ..))
  refine .trans ?_ (.mono rfl (Mach.setFld_frame ..))
  refine .trans ?_ (.mono rfl (Mach.satInc_frame ..))
  exact .refl

theorem Mach.guardDecide_frame (m : Mach) (x : Shot) (late : Bool) : Frame [.regs, .mem, .grd] m ((Mach.guardDecide m x late).2) := by
  unfold Mach.guardDecide
  split
  split
  · dsimp only
    refine .trans ?_ (.foldl (fun _ _ => ?_) _)
    · (rename_i hpair _; obtain rfl := congrArg Prod.snd hpair)
      split
      · dsimp only
        exact .refl
      · refine .trans ?_ (.mono rfl (Mach.guardJudge_frame ..))
        exact .refl
    · refine .trans ?_ (.foldl (fun _ _ => ?_) _)
      · exact .refl
      · refine .trans ?_ (.mono rfl (Mach.setLevel_frame ..))
        exact .refl
  · dsimp only
    refine .trans ?_ (.mono rfl (Mach.guardDeny_frame ..))
    (rename_i hpair _; obtain rfl := congrArg Prod.snd hpair)
    split
    · dsimp only
      exact .refl
    · refine .trans ?_ (.mono rfl (Mach.guardJudge_frame ..))
      exact .refl

theorem Mach.grdRecordsClear_frame (m : Mach) : Frame [.regs, .grd] m (Mach.grdRecordsClear m) := by
  unfold Mach.grdRecordsClear
  refine .trans ?_ (.mono rfl (Mach.setFld_frame ..))
  refine .trans ?_ (.mono rfl (Mach.setFld_frame ..))
  refine .grd ?_
  exact .refl

theorem Mach.grdVerify_frame (m : Mach) : Frame [.regs, .grd] m (Mach.grdVerify m) := by
  unfold Mach.grdVerify
  refine .trans ?_ (.mono rfl (Mach.setFld_frame ..))
  refine .grd ?_
  exact .refl

theorem Mach.grdCancel_frame (m : Mach) : Frame [.regs, .grd] m (Mach.grdCancel m) := by
  unfold Mach.grdCancel
  refine .trans ?_ (.mono rfl (Mach.setFld_frame ..))
  refine .trans ?_ (.mono rfl (Mach.grdRecordsClear_frame ..))
  refine .grd ?_
  exact .refl

theorem Mach.grdActivate_frame (m : Mach) (seqno : Nat) : Frame [.regs, .mem, .grd] m (Mach.grdActivate m seqno) := by
  unfold Mach.grdActivate
  refine .trans ?_ (.mono rfl (Mach.grdShow_frame ..))
  refine .trans ?_ (.mono rfl (Mach.setFld_frame ..))
  refine .trans ?_ (.mono rfl (Mach.setFld_frame ..))
  refine .trans ?_ (.mono rfl (Mach.setFld_frame ..))
  refine .grd ?_
  refine .trans ?_ (Frame.when (fun _ => ?_))
  · refine .trans ?_ (Frame.when (fun _ => ?_))
    · refine .trans ?_ (Frame.when (fun _ => ?_))
      · refine .trans ?_ (.mono rfl (Mach.copyRange_frame ..))
        exact .refl
      · refine .trans ?_ (.mono rfl (Mach.modHead_frame ..))
        exact .refl
    · refine .trans ?_ (.mono rfl (Mach.modHead_frame ..))
      exact .refl
  · refine .trans ?_ (.mono rfl (Mach.startLevels_frame ..))
    exact .refl

theorem Mach.grdStageWrite_frame (m : Mach) (off : Nat) (w : Word) : Frame [.status, .regs, .mem] m (Mach.grdStageWrite m off w) := by
  unfold Mach.grdStageWrite
  refine .ite ?_ ?_
  · refine .trans ?_ (.mono rfl (Mach.refusePending_frame ..))
    exact .refl
  · refine .trans ?_ (.mono rfl (Mach.setMword_frame ..))
    refine .trans ?_ (.mono rfl (Mach.done_frame ..))
    exact .refl

theorem Mach.grdRecordWrite_frame (m : Mach) (c g r off : Nat) (w : Word) : Frame [.status, .regs, .mem, .grd] m (Mach.grdRecordWrite m c
    g r off w) := by
  unfold Mach.grdRecordWrite
  refine .ite ?_ ?_
  · refine .trans ?_ (.mono rfl (Mach.done_frame ..))
    exact .refl
  · refine .ite ?_ ?_
    · refine .trans ?_ (.mono rfl (Mach.done_frame ..))
      exact .refl
    · refine .ite ?_ ?_
      · refine .trans ?_ (.mono rfl (Mach.done_frame ..))
        exact .refl
      · refine .ite ?_ ?_
        · refine .trans ?_ (.mono rfl (Mach.refusePending_frame ..))
          exact .refl
        · refine .ite ?_ ?_
          · refine .trans ?_ (.mono rfl (Mach.setFld_frame ..))
            refine .grd ?_
            refine .trans ?_ (.mono rfl (Mach.setMword_frame ..))
            refine .trans ?_ (.mono rfl (Mach.done_frame ..))
            exact .refl
          · refine .trans ?_ (.mono rfl (Mach.setFld_frame ..))
            refine .grd ?_
            refine .trans ?_ (.mono rfl (Mach.setMword_frame ..))
            refine .trans ?_ (.mono rfl (Mach.done_frame ..))
            exact .refl

theorem Mach.modHk_frame (m : Mach) (f : Hk → Hk) : Frame [.hk] m (Mach.modHk m f) := by
  unfold Mach.modHk
  refine .hk ?_
  exact .refl

theorem Mach.modEnt_frame (m : Mach) (e : Nat) (f : HkEnt → HkEnt) : Frame [.hk] m (Mach.modEnt m e f) := by
  unfold Mach.modEnt
  refine .trans ?_ (.mono rfl (Mach.modHk_frame ..))
  exact .refl

theorem Mach.hkRef_frame (m : Mach) (on : Bool) : Frame [.dev, .regs, .mem, .eng, .sems, .grp, .qmg, .dram, .emt, .saf, .port, .pool, .hk]
    m (Mach.hkRef m on) := by
  unfold Mach.hkRef
  refine .ite ?_ ?_
  · refine .trans ?_ (.mono rfl (Mach.setFld_frame ..))
    exact .refl
  · refine .ite ?_ ?_
    · refine .trans ?_ (.mono rfl (Mach.modHk_frame ..))
      refine .trans ?_ (.mono rfl (Mach.setFld_frame ..))
      exact .refl
    · refine .trans ?_ (.mono rfl (Mach.lostArming_frame ..))
      refine .trans ?_ (.mono rfl (Mach.modHk_frame ..))
      refine .trans ?_ (.mono rfl (Mach.setFld_frame ..))
      refine .trans ?_ (.mono rfl (Mach.setFld_frame ..))
      refine .trans ?_ (.mono rfl (Mach.setFld_frame ..))
      exact .refl

theorem Mach.hkGoReq_frame (m : Mach) : Frame [.hk] m (Mach.hkGoReq m) := by
  unfold Mach.hkGoReq
  refine .ite ?_ ?_
  · refine .trans ?_ (.mono rfl (Mach.modHk_frame ..))
    exact .refl
  · exact .refl

theorem Mach.hkCtrl_frame (m : Mach) (v : Word) : Frame [.status, .dev, .regs, .mem, .eng, .sems, .grp, .qmg, .dram, .emt, .saf, .port,
    .pool, .hk] m (Mach.hkCtrl m v) := by
  unfold Mach.hkCtrl
  refine .trans ?_ (Frame.when (fun _ => ?_))
  · refine .trans ?_ (Frame.when (fun _ => ?_))
    · refine .trans ?_ (.mono rfl (Mach.hkRef_frame ..))
      refine .trans ?_ (.mono rfl (Mach.done_frame ..))
      exact .refl
    · refine .trans ?_ (.mono rfl (Mach.modHk_frame ..))
      exact .refl
  · refine .trans ?_ (.mono rfl (Mach.hkGoReq_frame ..))
    exact .refl

theorem Mach.hkTrigger_frame (m : Mach) (t : Nat) : Frame [.regs, .hk] m (Mach.hkTrigger m t) := by
  unfold Mach.hkTrigger
  refine .ite ?_ ?_
  · exact .refl
  · refine .ite ?_ ?_
    · refine .trans ?_ (.mono rfl (Mach.satInc_frame ..))
      exact .refl
    · refine .ite ?_ ?_
      · exact .refl
      · refine .trans ?_ (.mono rfl (Mach.modHk_frame ..))
        exact .refl

theorem Mach.hkFilter_frame (m : Mach) (e c : Nat) (r : Int × Bool × Bool) : Frame [.hk] m (Mach.hkFilter m e c r) := by
  unfold Mach.hkFilter
  refine .ite ?_ ?_
  · refine .trans ?_ (.mono rfl (Mach.modEnt_frame ..))
    exact .refl
  · refine .ite ?_ ?_
    · refine .trans ?_ (.mono rfl (Mach.modEnt_frame ..))
      exact .refl
    · refine .trans ?_ (.mono rfl (Mach.modHk_frame ..))
      refine .trans ?_ (.mono rfl (Mach.modEnt_frame ..))
      exact .refl

theorem Mach.hkStatus_frame (m : Mach) (e : Nat) (r : Int × Bool × Bool) : Frame [.dev, .regs, .mem, .eng, .sems, .flt, .grp, .qmg, .dram,
    .emt, .saf, .port, .pool] m (Mach.hkStatus m e r) := by
  unfold Mach.hkStatus
  refine .trans ?_ (Frame.when (fun _ => ?_))
  · refine .trans ?_ (Frame.when (fun _ => ?_))
    · refine .trans ?_ (Frame.when (fun _ => ?_))
      · refine .trans ?_ (.mono rfl (Mach.setFld_frame ..))
        refine .trans ?_ (.mono rfl (Mach.setFld_frame ..))
        exact .refl
      · refine .trans ?_ (.mono rfl (Mach.setFld_frame ..))
        exact .refl
    · refine .trans ?_ (.mono rfl (Mach.setFld_frame ..))
      exact .refl
  · refine .trans ?_ (.mono rfl (Mach.report_frame ..))
    exact .refl

theorem Mach.hkPassEnd_frame (m : Mach) : Frame [.regs, .commits, .hk] m (Mach.hkPassEnd m) := by
  unfold Mach.hkPassEnd
  refine .trans ?_ (.mono rfl (Mach.modHk_frame ..))
  refine .trans ?_ (.mono rfl (Mach.applyGroups_frame ..))
  refine .trans ?_ (.mono rfl (Mach.wrapInc_frame ..))
  refine .trans ?_ (.mono rfl (Mach.setFld_frame ..))
  exact .refl

theorem Mach.dieJudge_frame (m : Mach) (med2 : Int) (t : Nat) (v : Int) : Frame [.dev, .regs, .mem, .eng, .sems, .flt, .grp, .qmg, .dram,
    .emt, .saf, .port, .pool, .thm] m (Mach.dieJudge m med2 t v) := by
  unfold Mach.dieJudge
  refine .ite ?_ ?_
  · refine .thm ?_
    exact .refl
  · refine .trans ?_ (.mono rfl (Mach.report_frame ..))
    refine .trans ?_ (.mono rfl (Mach.setFld_frame ..))
    refine .trans ?_ (.mono rfl (Mach.setFld_frame ..))
    refine .thm ?_
    exact .refl

theorem Mach.heatShow_frame (m : Mach) : Frame [.regs] m (Mach.heatShow m) := by
  unfold Mach.heatShow
  refine .trans ?_ (.mono rfl (Mach.setFld_frame ..))
  exact .refl

theorem Mach.bandTo_frame (m : Mach) (b : Nat) : Frame [.cyc, .regs, .time, .lane, .tdc] m (Mach.bandTo m b) := by
  unfold Mach.bandTo
  refine .ite ?_ ?_
  · exact .refl
  · refine .trans ?_ (.mono rfl (Mach.eqBand_frame ..))
    refine .trans ?_ (.mono rfl (Mach.rotationRestart_frame ..))
    refine .trans ?_ (.mono rfl (Mach.satInc_frame ..))
    refine .trans ?_ (.mono rfl (Mach.setFld_frame ..))
    refine .trans ?_ (.mono rfl (Mach.advance_frame ..))
    exact .refl

theorem Mach.warnings_frame (m : Mach) (jmax jmin : Int) (th tl : Nat) : Frame [.dev, .regs, .mem, .eng, .sems, .flt, .grp, .qmg, .dram,
    .emt, .saf, .port, .pool, .thm] m (Mach.warnings m jmax jmin th tl) := by
  unfold Mach.warnings
  refine .ite ?_ ?_
  · refine .trans ?_ (.mono rfl (Mach.report_frame ..))
    refine .trans ?_ (.mono rfl (Mach.setFld_frame ..))
    refine .thm ?_
    refine .ite ?_ ?_
    · refine .trans ?_ (.mono rfl (Mach.report_frame ..))
      refine .trans ?_ (.mono rfl (Mach.setFld_frame ..))
      refine .thm ?_
      exact .refl
    · refine .ite ?_ ?_
      · refine .thm ?_
        exact .refl
      · exact .refl
  · refine .ite ?_ ?_
    · refine .thm ?_
      refine .ite ?_ ?_
      · refine .trans ?_ (.mono rfl (Mach.report_frame ..))
        refine .trans ?_ (.mono rfl (Mach.setFld_frame ..))
        refine .thm ?_
        exact .refl
      · refine .ite ?_ ?_
        · refine .thm ?_
          exact .refl
        · exact .refl
    · refine .ite ?_ ?_
      · refine .trans ?_ (.mono rfl (Mach.report_frame ..))
        refine .trans ?_ (.mono rfl (Mach.setFld_frame ..))
        refine .thm ?_
        exact .refl
      · refine .ite ?_ ?_
        · refine .thm ?_
          exact .refl
        · exact .refl

theorem Mach.coldTo_frame (m : Mach) (jmin : Int) : Frame [.regs, .mem, .grp, .qmg, .grd, .saf] m (Mach.coldTo m jmin) := by
  unfold Mach.coldTo
  refine .ite ?_ ?_
  · exact .refl
  · refine .trans ?_ (.mono rfl (Mach.ossdJudge_frame ..))
    refine .trans ?_ (.mono rfl (Mach.grdShow_frame ..))
    refine .trans ?_ (.mono rfl (Mach.setFld_frame ..))
    refine .trans ?_ (.mono rfl (Mach.setFld_frame ..))
    exact .refl

theorem Mach.enterShutdown_frame (m : Mach) : Frame [.dev, .regs, .mem, .eng, .sems, .flt, .grp, .lane, .qmg, .dram, .emt, .saf, .port,
    .pool] m (Mach.enterShutdown m) := by
  unfold Mach.enterShutdown
  refine .ite ?_ ?_
  · exact .refl
  · refine .trans ?_ (.mono rfl (Mach.heatShow_frame ..))
    refine .trans ?_ (.mono rfl (Mach.linkShutdown_frame ..))
    refine .dev ?_
    refine .trans ?_ (.mono rfl (Mach.goto_frame ..))
    refine .trans ?_ (.mono rfl (Mach.ossdOffAll_frame ..))
    refine .trans ?_ (.mono rfl (Mach.emtOff_frame ..))
    refine .trans ?_ (.foldl (fun _ _ => ?_) _)
    · exact .refl
    · refine .ite ?_ ?_
      · exact .refl
      · split
        · refine .trans ?_ (.mono rfl (Mach.haltSeqAs_frame ..))
          exact .refl
        · refine .trans ?_ (.mono rfl (Mach.loseHandle_frame ..))
          refine .trans ?_ (.mono rfl (Mach.haltEngine_frame ..))
          exact .refl
        · refine .trans ?_ (.mono rfl (Mach.haltEngine_frame ..))
          exact .refl

theorem Mach.calEval_frame (m : Mach) (q : Nat) : Frame [.regs] m (Mach.calEval m q) := by
  unfold Mach.calEval
  refine .ite ?_ ?_
  · refine .trans ?_ (.mono rfl (Mach.setFld_frame ..))
    exact .refl
  · split
    · refine .ite ?_ ?_
      · refine .trans ?_ (.mono rfl (Mach.setFld_frame ..))
        refine .trans ?_ (Frame.when (fun _ => ?_))
        · refine .trans ?_ (.mono rfl (Mach.setFld_frame ..))
          exact .refl
        · refine .trans ?_ (.mono rfl (Mach.satInc_frame ..))
          exact .refl
      · refine .trans ?_ (.mono rfl (Mach.setFld_frame ..))
        refine .trans ?_ (Frame.when (fun _ => ?_))
        · refine .trans ?_ (.mono rfl (Mach.setFld_frame ..))
          exact .refl
        · refine .trans ?_ (.mono rfl (Mach.satInc_frame ..))
          exact .refl
    · refine .trans ?_ (.mono rfl (Mach.setFld_frame ..))
      exact .refl

theorem Mach.modSeq_frame (m : Mach) (n : Nat) (f : SeqProfile → SeqProfile) : Frame [.regs, .eng] m (Mach.modSeq m n f) := by
  unfold Mach.modSeq
  refine .trans ?_ (.mono rfl (Mach.showSeq_frame ..))
  refine .trans ?_ (.mono rfl (Mach.modE_frame ..))
  exact .refl

theorem Mach.resumeAt_frame (m : Mach) (e c : Nat) (v : Nat) : Frame [.eng] m (Mach.resumeAt m e c v) := by
  unfold Mach.resumeAt
  refine .trans ?_ (.mono rfl (Mach.result_frame ..))
  refine .trans ?_ (.mono rfl (Mach.modE_frame ..))
  exact .refl

theorem Mach.closeArmed_frame (m : Mach) (n : Nat) : Frame [.regs, .port] m (Mach.closeArmed m n) := by
  unfold Mach.closeArmed
  refine .trans ?_ (.foldl (fun _ _ => ?_) _)
  · exact .refl
  · refine .trans ?_ (.mono rfl (Mach.closeCell_frame ..))
    exact .refl

theorem Mach.seqIssue_frame {l : List Part} {m : Mach} {e : Nat} {legal : Bool} {f : Mach → Mach} (hf : ∀ m, Frame l m (f m)) (h :
    (List.all [.free, .dev, .regs, .mem, .eng, .sems, .flt, .grp, .qmg, .dram, .emt, .saf, .port, .pool] l.contains) = true := by rfl) :
    Frame l m (m.seqIssue e legal f) :=
  Mach.issue_frame hf h

theorem Mach.ask_frame (m : Mach) (n : Nat) (x : Shot) : Frame [.emt] m (Mach.ask m n x) := by
  unfold Mach.ask
  refine .emt ?_
  exact .refl

theorem Mach.fireNow_frame (m : Mach) (n : Nat) (i : FX) : Frame [.regs, .commits, .eng, .emt, .port] m (Mach.fireNow m n i) := by
  unfold Mach.fireNow
  refine .ite ?_ ?_
  · refine .trans ?_ (.mono rfl (Mach.waits_frame ..))
    refine .trans ?_ (.mono rfl (Mach.modSeq_frame ..))
    refine .trans ?_ (.mono rfl (Mach.applyGroups_frame ..))
    exact .refl
  · refine .trans ?_ (.foldl (fun _ _ => ?_) _)
    · refine .trans ?_ (.mono rfl (Mach.waits_frame ..))
      refine .trans ?_ (.mono rfl (Mach.ask_frame ..))
      refine .trans ?_ (.mono rfl (Mach.modSeq_frame ..))
      refine .trans ?_ (.mono rfl (Mach.applyGroups_frame ..))
      exact .refl
    · refine .trans ?_ (.mono rfl (Mach.portArmed_frame ..))
      exact .refl

theorem Mach.modWalk_frame (m : Mach) (s : Nat) (f : Walk → Walk) : Frame [.emt] m (Mach.modWalk m s f) := by
  unfold Mach.modWalk
  refine .emt ?_
  exact .refl

theorem Mach.walkEnd_frame (m : Mach) (w : Walk) (rd t : Nat) : Frame [.regs, .eng, .emt] m (Mach.walkEnd m w rd t) := by
  unfold Mach.walkEnd
  dsimp only
  split
  · refine .trans ?_ (.mono rfl (Mach.resumeAt_frame ..))
    refine .trans ?_ (.mono rfl (Mach.showWalks_frame ..))
    refine .emt ?_
    exact .refl
  · refine .trans ?_ (.mono rfl (Mach.showWalks_frame ..))
    refine .emt ?_
    exact .refl

theorem Mach.walkDead_frame (m : Mach) (w : Walk) (t : Nat) : Frame [.regs, .eng, .emt] m (Mach.walkDead m w t) := by
  unfold Mach.walkDead
  refine .trans ?_ (.mono rfl (Mach.walkEnd_frame ..))
  refine .trans ?_ (.mono rfl (Mach.setFld_frame ..))
  refine .trans ?_ (.mono rfl (Mach.setFld_frame ..))
  exact .refl

theorem Mach.walkOutcome_frame (m : Mach) (x : Shot) (res : Nat) : Frame [.regs, .eng, .emt] m (Mach.walkOutcome m x res) := by
  unfold Mach.walkOutcome
  dsimp only
  split
  · refine .trans ?_ (Frame.when (fun _ => ?_))
    · refine .ite ?_ ?_
      · refine .trans ?_ (.mono rfl (Mach.modWalk_frame ..))
        exact .refl
      · exact .refl
    · refine .trans ?_ (.mono rfl (Mach.setFld_frame ..))
      exact .refl
  · refine .ite ?_ ?_
    · refine .ite ?_ ?_
      · refine .trans ?_ (.mono rfl (Mach.walkEnd_frame ..))
        refine .trans ?_ (.mono rfl (Mach.setFld_frame ..))
        refine .trans ?_ (Frame.when (fun _ => ?_))
        · refine .ite ?_ ?_
          · refine .trans ?_ (.mono rfl (Mach.modWalk_frame ..))
            exact .refl
          · exact .refl
        · refine .trans ?_ (.mono rfl (Mach.setFld_frame ..))
          exact .refl
      · refine .trans ?_ (.mono rfl (Mach.walkEnd_frame ..))
        refine .trans ?_ (Frame.when (fun _ => ?_))
        · refine .ite ?_ ?_
          · refine .trans ?_ (.mono rfl (Mach.modWalk_frame ..))
            exact .refl
          · exact .refl
        · refine .trans ?_ (.mono rfl (Mach.setFld_frame ..))
          exact .refl
    · refine .ite ?_ ?_
      · refine .trans ?_ (.mono rfl (Mach.walkDead_frame ..))
        refine .trans ?_ (Frame.when (fun _ => ?_))
        · refine .ite ?_ ?_
          · refine .trans ?_ (.mono rfl (Mach.modWalk_frame ..))
            exact .refl
          · exact .refl
        · refine .trans ?_ (.mono rfl (Mach.setFld_frame ..))
          exact .refl
      · refine .trans ?_ (Frame.when (fun _ => ?_))
        · refine .ite ?_ ?_
          · refine .trans ?_ (.mono rfl (Mach.modWalk_frame ..))
            exact .refl
          · exact .refl
        · refine .trans ?_ (.mono rfl (Mach.setFld_frame ..))
          exact .refl

theorem Mach.walkDenied_frame (m : Mach) (x : Shot) (st : Nat) : Frame [.regs, .eng, .emt] m (Mach.walkDenied m x st) := by
  unfold Mach.walkDenied
  split
  · exact .refl
  · refine .ite ?_ ?_
    · refine .trans ?_ (.mono rfl (Mach.modWalk_frame ..))
      exact .refl
    · refine .trans ?_ (.mono rfl (Mach.walkEnd_frame ..))
      exact .refl

theorem Mach.ties_frame (m : Mach) (l : List Shot) : Frame [.emt] m ((Mach.ties m l).2) := by
  unfold Mach.ties
  refine .trans ?_ (.foldlSnd (fun ⟨_, _⟩ _ => ?_) _)
  · dsimp only
    exact .refl
  · dsimp only
    split
    · refine .emt ?_
      exact .refl
    · exact .refl

theorem Mach.busyCount_frame (m : Mach) (n : Nat) : Frame [.dev, .regs, .mem, .eng, .sems, .flt, .grp, .qmg, .dram, .emt, .saf, .port,
    .pool] m (Mach.busyCount m n) := by
  unfold Mach.busyCount
  refine .ite ?_ ?_
  · refine .trans ?_ (.mono rfl (Mach.report_frame ..))
    refine .trans ?_ (.mono rfl (Mach.setFld_frame ..))
    refine .emt ?_
    exact .refl
  · refine .emt ?_
    exact .refl

theorem Mach.putShot_frame (m : Mach) (x : Shot) : Frame [.emt] m (Mach.putShot m x) := by
  unfold Mach.putShot
  refine .emt ?_
  exact .refl

theorem Mach.dropShot_frame (m : Mach) (x : Shot) : Frame [.emt] m (Mach.dropShot m x) := by
  unfold Mach.dropShot
  refine .emt ?_
  exact .refl

theorem Mach.judge_frame (m : Mach) (lost : List Nat) (x : Shot) (perm : Bool) : Frame [.dev, .regs, .mem, .eng, .sems, .flt, .grp, .qmg,
    .dram, .emt, .saf, .port, .pool, .rej] m (Mach.judge m lost x perm) := by
  unfold Mach.judge
  dsimp only
  split
  · refine .emt ?_
    refine .trans ?_ (.mono rfl (Mach.putShot_frame ..))
    exact .refl
  · refine .trans ?_ (.mono rfl (Mach.countShot_frame ..))
    refine .ite ?_ ?_
    · refine .trans ?_ (.mono rfl (Mach.busyCount_frame ..))
      refine .trans ?_ (.mono rfl (Mach.satInc_frame ..))
      refine .trans ?_ (.mono rfl (Mach.putShot_frame ..))
      exact .refl
    · refine .ite ?_ ?_
      · refine .trans ?_ (.mono rfl (Mach.satInc_frame ..))
        refine .trans ?_ (.mono rfl (Mach.satInc_frame ..))
        refine .trans ?_ (.mono rfl (Mach.putShot_frame ..))
        exact .refl
      · refine .trans ?_ (.mono rfl (Mach.satInc_frame ..))
        refine .trans ?_ (.mono rfl (Mach.putShot_frame ..))
        exact .refl

theorem Mach.seqSettled_frame (m : Mach) (n : Nat) : Frame [.regs, .eng, .sems, .qmg, .dram, .emt, .port, .pool] m (Mach.seqSettled m n)
    := by
  unfold Mach.seqSettled
  split
  · refine .ite ?_ ?_
    · refine .trans ?_ (.mono rfl (Mach.stopSeq_frame ..))
      exact .refl
    · exact .refl
  · exact .refl

theorem Mach.shotDenied_frame (m : Mach) (x : Shot) (st : Nat) : Frame [.regs, .eng, .emt] m (Mach.shotDenied m x st) := by
  unfold Mach.shotDenied
  refine .ite ?_ ?_
  · refine .trans ?_ (.mono rfl (Mach.walkDenied_frame ..))
    refine .trans ?_ (.mono rfl (Mach.dropShot_frame ..))
    exact .refl
  · split
    · refine .trans ?_ (.mono rfl (Mach.resume_frame ..))
      refine .trans ?_ (.mono rfl (Mach.dropShot_frame ..))
      exact .refl
    · refine .trans ?_ (.mono rfl (Mach.resume_frame ..))
      refine .trans ?_ (.mono rfl (Mach.dropShot_frame ..))
      exact .refl
    · refine .trans ?_ (.mono rfl (Mach.dropShot_frame ..))
      exact .refl

theorem Mach.shotGranted_frame (m : Mach) (x : Shot) : Frame [.regs, .eng, .dram, .emt, .port, .rej] m (Mach.shotGranted m x) := by
  unfold Mach.shotGranted
  dsimp only
  split
  · refine .trans ?_ (.mono rfl (Mach.resume_frame ..))
    refine .trans ?_ (.mono rfl (Mach.countShot_frame ..))
    refine .trans ?_ (.mono rfl (Mach.wrapInc_frame ..))
    refine .trans ?_ (.mono rfl (Mach.wrapInc_frame ..))
    refine .emt ?_
    refine .trans ?_ (.mono rfl (Mach.putShot_frame ..))
    exact .refl
  · refine .trans ?_ (.mono rfl (Mach.countShot_frame ..))
    refine .trans ?_ (.mono rfl (Mach.wrapInc_frame ..))
    refine .trans ?_ (.mono rfl (Mach.wrapInc_frame ..))
    refine .emt ?_
    refine .trans ?_ (.mono rfl (Mach.putShot_frame ..))
    exact .refl

theorem Mach.shadowEnd_frame (m : Mach) (n : Nat) : Frame [.cyc, .eng, .time] m (Mach.shadowEnd m n) := by
  unfold Mach.shadowEnd
  dsimp only
  split
  · refine .ite ?_ ?_
    · exact .refl
    · refine .trans ?_ (.mono rfl (Mach.resume_frame ..))
      refine .trans ?_ (.mono rfl (Mach.advanceTo_frame ..))
      exact .refl
  · refine .trans ?_ (.mono rfl (Mach.resumeAt_frame ..))
    exact .refl
  · refine .trans ?_ (.mono rfl (Mach.resumeAt_frame ..))
    exact .refl
  · exact .refl

theorem Mach.sendFrame_frame (m : Mach) (x : Shot) : Frame [.emt] m (Mach.sendFrame m x) := by
  unfold Mach.sendFrame
  refine .emt ?_
  refine .trans ?_ (.mono rfl (Mach.putShot_frame ..))
  exact .refl

theorem Mach.proofDone_frame (m : Mach) (x : Shot) (rd : Nat) : Frame [.eng] m (Mach.proofDone m x rd) := by
  unfold Mach.proofDone
  split
  · refine .trans ?_ (.mono rfl (Mach.resumeAt_frame ..))
    exact .refl
  · exact .refl

theorem Mach.unstall_frame (m : Mach) (n : Nat) : Frame [.regs, .commits, .eng, .emt, .port] m (Mach.unstall m n) := by
  unfold Mach.unstall
  dsimp only
  split
  · refine .ite ?_ ?_
    · refine .trans ?_ (.mono rfl (Mach.fireNow_frame ..))
      exact .refl
    · exact .refl
  · exact .refl

theorem Mach.started_frame (m : Mach) (x : Shot) (t : Nat) : Frame [.cyc, .regs, .eng, .time, .emt, .port] m (Mach.started m x t) := by
  unfold Mach.started
  refine .ite ?_ ?_
  · refine .trans ?_ (.mono rfl (Mach.walkOutcome_frame ..))
    refine .trans ?_ (.foldl (fun _ _ => ?_) _)
    · refine .trans ?_ (.mono rfl (Mach.advanceToFine_frame ..))
      refine .trans ?_ (.mono rfl (Mach.dropShot_frame ..))
      refine .emt ?_
      refine .trans ?_ (Frame.when (fun _ => ?_))
      · refine .trans ?_ (.mono rfl (Mach.setFld_frame ..))
        exact .refl
      · refine .trans ?_ (.mono rfl (Mach.satInc_frame ..))
        exact .refl
    · refine .trans ?_ (.mono rfl (Mach.portStart_frame ..))
      exact .refl
  · refine .ite ?_ ?_
    · refine .trans ?_ (.mono rfl (Mach.proofDone_frame ..))
      refine .trans ?_ (.foldl (fun _ _ => ?_) _)
      · refine .trans ?_ (.mono rfl (Mach.advanceToFine_frame ..))
        refine .trans ?_ (.mono rfl (Mach.dropShot_frame ..))
        refine .emt ?_
        refine .trans ?_ (Frame.when (fun _ => ?_))
        · refine .trans ?_ (.mono rfl (Mach.setFld_frame ..))
          exact .refl
        · refine .trans ?_ (.mono rfl (Mach.satInc_frame ..))
          exact .refl
      · refine .trans ?_ (.mono rfl (Mach.portStart_frame ..))
        exact .refl
    · refine .trans ?_ (.foldl (fun _ _ => ?_) _)
      · refine .trans ?_ (.mono rfl (Mach.advanceToFine_frame ..))
        refine .trans ?_ (.mono rfl (Mach.dropShot_frame ..))
        refine .emt ?_
        refine .trans ?_ (Frame.when (fun _ => ?_))
        · refine .trans ?_ (.mono rfl (Mach.setFld_frame ..))
          exact .refl
        · refine .trans ?_ (.mono rfl (Mach.satInc_frame ..))
          exact .refl
      · refine .trans ?_ (.mono rfl (Mach.portStart_frame ..))
        exact .refl

theorem Mach.notStarted_frame (m : Mach) (x : Shot) : Frame [.dev, .regs, .mem, .eng, .sems, .flt, .grp, .qmg, .dram, .emt, .saf, .port,
    .pool] m (Mach.notStarted m x) := by
  unfold Mach.notStarted
  refine .ite ?_ ?_
  · refine .trans ?_ (.mono rfl (Mach.walkOutcome_frame ..))
    refine .trans ?_ (.foldl (fun _ _ => ?_) _)
    · refine .trans ?_ (.mono rfl (Mach.dropShot_frame ..))
      refine .trans ?_ (Frame.when (fun _ => ?_))
      · refine .emt ?_
        refine .trans ?_ (.mono rfl (Mach.satInc_frame ..))
        exact .refl
      · refine .trans ?_ (.mono rfl (Mach.report_frame ..))
        refine .trans ?_ (.mono rfl (Mach.setFld_frame ..))
        exact .refl
    · refine .trans ?_ (.mono rfl (Mach.portNoStart_frame ..))
      exact .refl
  · refine .ite ?_ ?_
    · refine .trans ?_ (.mono rfl (Mach.proofDone_frame ..))
      refine .trans ?_ (.foldl (fun _ _ => ?_) _)
      · refine .trans ?_ (.mono rfl (Mach.dropShot_frame ..))
        refine .trans ?_ (Frame.when (fun _ => ?_))
        · refine .emt ?_
          refine .trans ?_ (.mono rfl (Mach.satInc_frame ..))
          exact .refl
        · refine .trans ?_ (.mono rfl (Mach.report_frame ..))
          refine .trans ?_ (.mono rfl (Mach.setFld_frame ..))
          exact .refl
      · refine .trans ?_ (.mono rfl (Mach.portNoStart_frame ..))
        exact .refl
    · refine .trans ?_ (.foldl (fun _ _ => ?_) _)
      · refine .trans ?_ (.mono rfl (Mach.dropShot_frame ..))
        refine .trans ?_ (Frame.when (fun _ => ?_))
        · refine .emt ?_
          refine .trans ?_ (.mono rfl (Mach.satInc_frame ..))
          exact .refl
        · refine .trans ?_ (.mono rfl (Mach.report_frame ..))
          refine .trans ?_ (.mono rfl (Mach.setFld_frame ..))
          exact .refl
      · refine .trans ?_ (.mono rfl (Mach.portNoStart_frame ..))
        exact .refl

theorem Mach.setBoth_frame (m : Mach) (a : Nat) (w : Word) : Frame [.regs, .shadow] m (Mach.setBoth m a w) := by
  unfold Mach.setBoth
  refine .trans ?_ (.mono rfl (Mach.setShadow_frame ..))
  refine .trans ?_ (.mono rfl (Mach.setReg_frame ..))
  exact .refl

theorem Mach.modProbe_frame (m : Mach) (f : Probe → Probe) : Frame [.probe] m (Mach.modProbe m f) := by
  unfold Mach.modProbe
  refine .probe ?_
  exact .refl

theorem Mach.prbGo_frame (m : Mach) : Frame [.regs, .probe] m (Mach.prbGo m) := by
  unfold Mach.prbGo
  refine .trans ?_ (.mono rfl (Mach.setFld_frame ..))
  refine .trans ?_ (.mono rfl (Mach.setFld_frame ..))
  refine .trans ?_ (.mono rfl (Mach.setFld_frame ..))
  refine .trans ?_ (.mono rfl (Mach.setReg_frame ..))
  refine .probe ?_
  exact .refl

theorem Mach.prbStop_frame (m : Mach) : Frame [.regs] m (Mach.prbStop m) := by
  unfold Mach.prbStop
  refine .ite ?_ ?_
  · exact .refl
  · refine .trans ?_ (.mono rfl (Mach.setFld_frame ..))
    refine .trans ?_ (Frame.when (fun _ => ?_))
    · exact .refl
    · refine .trans ?_ (.mono rfl (Mach.setFld_frame ..))
      exact .refl

theorem Mach.prbCtrlSet_frame (m : Mach) (v : Word) : Frame [.status, .regs, .shadow, .probe] m (Mach.prbCtrlSet m v) := by
  unfold Mach.prbCtrlSet
  refine .ite ?_ ?_
  · refine .ite ?_ ?_
    · refine .trans ?_ (.mono rfl (Mach.prbStop_frame ..))
      refine .trans ?_ (.mono rfl (Mach.done_frame ..))
      exact .refl
    · refine .trans ?_ (.mono rfl (Mach.refuse_frame ..))
      exact .refl
  · refine .ite ?_ ?_
    · refine .trans ?_ (.mono rfl (Mach.refusePending_frame ..))
      exact .refl
    · refine .trans ?_ (Frame.when (fun _ => ?_))
      · refine .trans ?_ (.mono rfl (Mach.setShadow_frame ..))
        refine .trans ?_ (.mono rfl (Mach.done_frame ..))
        exact .refl
      · refine .trans ?_ (.mono rfl (Mach.prbGo_frame ..))
        exact .refl

theorem Mach.prbStore_frame (m : Mach) (ws : List Nat) (lost : Bool) : Frame [.regs, .mem, .probe] m (Mach.prbStore m ws lost) := by
  unfold Mach.prbStore
  refine .ite ?_ ?_
  · refine .trans ?_ (.mono rfl (Mach.satInc_frame ..))
    exact .refl
  · refine .trans ?_ (.mono rfl (Mach.modProbe_frame ..))
    refine .trans ?_ (.mono rfl (Mach.setBytes_frame ..))
    exact .refl

theorem Mach.prbTrigger_frame (m : Mach) (fired : List Nat) (idx kept : Nat) : Frame [.regs, .probe] m (Mach.prbTrigger m fired idx kept)
    := by
  unfold Mach.prbTrigger
  refine .trans ?_ (.mono rfl (Mach.setFld_frame ..))
  refine .trans ?_ (.mono rfl (Mach.modProbe_frame ..))
  refine .trans ?_ (.foldl (fun _ _ => ?_) _)
  · refine .trans ?_ (.mono rfl (Mach.setFld_frame ..))
    refine .trans ?_ (.mono rfl (Mach.setReg_frame ..))
    refine .trans ?_ (.mono rfl (Mach.setReg_frame ..))
    exact .refl
  · refine .trans ?_ (.mono rfl (Mach.setReg_frame ..))
    exact .refl

theorem Mach.preCommit_frame (m : Mach) (b : Blk) (now : List Nat) : Frame [.regs, .mem, .dram, .port, .rej] m (Mach.preCommit m b now) :=
    by
  unfold Mach.preCommit
  split
  · refine .trans ?_ (Frame.when (fun _ => ?_))
    · exact .refl
    · refine .trans ?_ (.mono rfl (Mach.mapFlush_frame ..))
      exact .refl
  · refine .trans ?_ (Frame.when (fun _ => ?_))
    · exact .refl
    · refine .trans ?_ (.foldl (fun _ _ => ?_) _)
      · exact .refl
      · refine .trans ?_ (.mono rfl (Mach.closeCell_frame ..))
        exact .refl
  · exact .refl

theorem Mach.timeCommitted_frame (m : Mach) (now : List Nat) : Frame [.regs, .time] m (Mach.timeCommitted m now) := by
  unfold Mach.timeCommitted
  refine .trans ?_ (Frame.when (fun _ => ?_))
  · refine .trans ?_ (.foldl (fun _ _ => ?_) _)
    · refine .trans ?_ (Frame.when (fun _ => ?_))
      · refine .trans ?_ (Frame.when (fun _ => ?_))
        · exact .refl
        · refine .trans ?_ (.mono rfl (Mach.rateCommitted_frame ..))
          exact .refl
      · refine .trans ?_ (.mono rfl (Mach.stepApply_frame ..))
        exact .refl
    · refine .trans ?_ (Frame.when (fun _ => ?_))
      · exact .refl
      · refine .trans ?_ (.mono rfl (Mach.trigCommitted_frame ..))
        exact .refl
  · refine .time ?_
    exact .refl

theorem Mach.strCommitted_frame (m was : Mach) (s : Nat) : Frame [.emt] m (Mach.strCommitted m was s) := by
  unfold Mach.strCommitted
  refine .ite ?_ ?_
  · refine .emt ?_
    exact .refl
  · refine .ite ?_ ?_
    · refine .emt ?_
      exact .refl
    · exact .refl

theorem Mach.lnkCommitted_frame (m was : Mach) (g : Nat) : Frame [.regs, .grp, .lane, .qmg] m (Mach.lnkCommitted m was g) := by
  unfold Mach.lnkCommitted
  refine .ite ?_ ?_
  · refine .trans ?_ (.mono rfl (Mach.trainAt_frame ..))
    exact .refl
  · refine .ite ?_ ?_
    · refine .trans ?_ (.mono rfl (Mach.trainAt_frame ..))
      exact .refl
    · exact .refl

theorem Mach.committed_frame (m was : Mach) (b : Blk) (i : Nat) (now : List Nat) : Frame [.dev, .regs, .mem, .commits, .eng, .sems, .time,
    .flt, .grp, .lane, .qmg, .dram, .emt, .saf, .axis, .port, .pool, .rej, .cam, .pts, .hk] m (Mach.committed m was b i now) := by
  unfold Mach.committed
  split
  · refine .trans ?_ (.mono rfl (Mach.timeCommitted_frame ..))
    exact .refl
  · refine .trans ?_ (.foldl (fun _ _ => ?_) _)
    · exact .refl
    · refine .trans ?_ (Frame.when (fun _ => ?_))
      · exact .refl
      · refine .trans ?_ (.mono rfl (Mach.strCommitted_frame ..))
        exact .refl
  · refine .trans ?_ (.mono rfl (Mach.axCommitted_frame ..))
    exact .refl
  · refine .trans ?_ (Frame.when (fun _ => ?_))
    · exact .refl
    · refine .trans ?_ (.mono rfl (Mach.modP_frame ..))
      exact .refl
  · refine .trans ?_ (Frame.when (fun _ => ?_))
    · refine .trans ?_ (Frame.when (fun _ => ?_))
      · refine .trans ?_ (Frame.when (fun _ => ?_))
        · exact .refl
        · refine .trans ?_ (.foldl (fun _ _ => ?_) _)
          · refine .trans ?_ (.mono rfl (Mach.setFld_frame ..))
            exact .refl
          · refine .trans ?_ (.mono rfl (Mach.mapFails_frame ..))
            exact .refl
      · refine .trans ?_ (.mono rfl (Mach.planCommitted_frame ..))
        exact .refl
    · refine .trans ?_ (.mono rfl (Mach.hbTrack_frame ..))
      exact .refl
  · refine .trans ?_ (.mono rfl (Mach.streamsCommitted_frame ..))
    exact .refl
  · refine .trans ?_ (Frame.when (fun _ => ?_))
    · refine .trans ?_ (Frame.when (fun _ => ?_))
      · refine .trans ?_ (Frame.when (fun _ => ?_))
        · exact .refl
        · refine .trans ?_ (.mono rfl (Mach.camCheck_frame ..))
          exact .refl
      · refine .trans ?_ (.mono rfl (Mach.i2cStart_frame ..))
        exact .refl
    · refine .trans ?_ (.mono rfl (Mach.colCommitted_frame ..))
      exact .refl
  · refine .trans ?_ (Frame.when (fun _ => ?_))
    · exact .refl
    · refine .trans ?_ (.mono rfl (Mach.modHk_frame ..))
      exact .refl
  · refine .trans ?_ (.mono rfl (Mach.heatShow_frame ..))
    exact .refl
  · refine .trans ?_ (.foldl (fun _ _ => ?_) _)
    · exact .refl
    · refine .trans ?_ (Frame.when (fun _ => ?_))
      · exact .refl
      · refine .trans ?_ (.mono rfl (Mach.lnkCommitted_frame ..))
        exact .refl
  · exact .refl

theorem Mach.gatedVerify_frame (m : Mach) (b : Blk) : Frame [.regs, .grd, .saf] m (Mach.gatedVerify m b) := by
  unfold Mach.gatedVerify
  split
  · refine .trans ?_ (Frame.when (fun _ => ?_))
    · exact .refl
    · refine .trans ?_ (.mono rfl (Mach.grdVerify_frame ..))
      exact .refl
  · refine .trans ?_ (Frame.when (fun _ => ?_))
    · exact .refl
    · refine .trans ?_ (.mono rfl (Mach.safVerify_frame ..))
      exact .refl
  · exact .refl

theorem Mach.applyIdle_frame (m : Mach) (b : Blk) (i : Nat) : Frame [.dev, .regs, .mem, .commits, .eng, .sems, .time, .flt, .grp, .lane,
    .qmg, .dram, .emt, .grd, .saf, .axis, .port, .pool, .rej, .cam, .pts, .hk] m (Mach.applyIdle m b i) := by
  unfold Mach.applyIdle
  refine .ite ?_ ?_
  · refine .trans ?_ (.mono rfl (Mach.gatedVerify_frame ..))
    exact .refl
  · refine .trans ?_ (.mono rfl (Mach.committed_frame ..))
    refine .trans ?_ (.mono rfl (Mach.applyGroups_frame ..))
    refine .trans ?_ (.mono rfl (Mach.preCommit_frame ..))
    exact .refl

theorem Mach.requestOne_frame (m : Mach) (page g : Nat) : Frame [.commits] m (Mach.requestOne m page g) := by
  unfold Mach.requestOne
  refine .ite ?_ ?_
  · exact .refl
  · refine .commits ?_
    exact .refl

theorem Mach.commitSet_frame (m : Mach) (b : Blk) (i : Nat) (groups : Word) : Frame [.status, .regs, .commits, .grd, .saf] m
    (Mach.commitSet m b i groups) := by
  unfold Mach.commitSet
  refine .trans ?_ (.mono rfl (Mach.gatedVerify_frame ..))
  refine .trans ?_ (.foldl (fun _ _ => ?_) _)
  · refine .trans ?_ (.mono rfl (Mach.done_frame ..))
    exact .refl
  · refine .trans ?_ (.mono rfl (Mach.requestOne_frame ..))
    exact .refl

theorem Mach.cancelSet_frame (m : Mach) (b : Blk) (i : Nat) (groups : Word) : Frame [.status, .regs, .commits, .grd, .saf] m
    (Mach.cancelSet m b i groups) := by
  unfold Mach.cancelSet
  refine .trans ?_ (.foldl (fun _ _ => ?_) _)
  · refine .trans ?_ (.mono rfl (Mach.done_frame ..))
    exact .refl
  · refine .ite ?_ ?_
    · exact .refl
    · dsimp only
      split
      · refine .trans ?_ (.mono rfl (Mach.grdCancel_frame ..))
        refine .trans ?_ (.mono rfl (Mach.dropCommit_frame ..))
        exact .refl
      · refine .trans ?_ (.mono rfl (Mach.safCancel_frame ..))
        refine .trans ?_ (.mono rfl (Mach.dropCommit_frame ..))
        exact .refl
      · refine .trans ?_ (.mono rfl (Mach.dropCommit_frame ..))
        exact .refl

theorem Mach.releaseCommits_frame (m : Mach) (t : Nat) : Frame [.dev, .regs, .mem, .commits, .eng, .sems, .time, .flt, .grp, .lane, .qmg,
    .dram, .emt, .grd, .saf, .axis, .port, .pool, .rej, .cam, .pts, .hk] m (Mach.releaseCommits m t) := by
  unfold Mach.releaseCommits
  refine .trans ?_ (.foldl (fun _ _ => ?_) _)
  · refine .commits ?_
    exact .refl
  · split
    · refine .trans ?_ (.mono rfl (Mach.applyIdle_frame ..))
      exact .refl
    · exact .refl

theorem Mach.jump_frame (m : Mach) (e t : Nat) : Frame [.eng] m (Mach.jump m e t) := by
  unfold Mach.jump
  refine .trans ?_ (.mono rfl (Mach.modE_frame ..))
  exact .refl

theorem Mach.leave_frame (m : Mach) (e t : Nat) : Frame [.eng] m (Mach.leave m e t) := by
  unfold Mach.leave
  refine .trans ?_ (.mono rfl (Mach.jump_frame ..))
  refine .trans ?_ (.mono rfl (Mach.modE_frame ..))
  exact .refl

theorem Mach.trigFired_frame (m : Mach) (n : Nat) : Frame [.regs, .time] m (Mach.trigFired m n) := by
  unfold Mach.trigFired
  refine .ite ?_ ?_
  · refine .trans ?_ (.mono rfl (Mach.setTrig_frame ..))
    refine .trans ?_ (.mono rfl (Mach.setFld_frame ..))
    refine .trans ?_ (Frame.when (fun _ => ?_))
    · refine .trans ?_ (.mono rfl (Mach.wrapInc_frame ..))
      exact .refl
    · refine .trans ?_ (.mono rfl (Mach.setFld_frame ..))
      exact .refl
  · refine .trans ?_ (.mono rfl (Mach.setTrig_frame ..))
    refine .trans ?_ (.mono rfl (Mach.satAdd_frame ..))
    refine .trans ?_ (Frame.when (fun _ => ?_))
    · refine .trans ?_ (.mono rfl (Mach.wrapInc_frame ..))
      exact .refl
    · refine .trans ?_ (.mono rfl (Mach.setFld_frame ..))
      exact .refl

theorem Mach.engTrigger_frame (m : Mach) (t e : Nat) : Frame [.eng] m (Mach.engTrigger m t e) := by
  unfold Mach.engTrigger
  refine .ite ?_ ?_
  · exact .refl
  · split
    · refine .ite ?_ ?_
      · refine .trans ?_ (.mono rfl (Mach.resume_frame ..))
        exact .refl
      · exact .refl
    · refine .ite ?_ ?_
      · refine .trans ?_ (.mono rfl (Mach.modE_frame ..))
        exact .refl
      · exact .refl
    · exact .refl

theorem Mach.ppsStart_frame (m : Mach) (src : Nat) : Frame [.time] m (Mach.ppsStart m src) := by
  unfold Mach.ppsStart
  refine .ite ?_ ?_
  · refine .time ?_
    exact .refl
  · exact .refl

theorem Mach.realign_frame (m : Mach) (t : DTime) (n : Nat) : Frame [.time] m (Mach.realign m t n) := by
  unfold Mach.realign
  refine .ite ?_ ?_
  · exact .refl
  · refine .trans ?_ (.mono rfl (Mach.setTrig_frame ..))
    exact .refl

theorem Mach.capRead_frame (m : Mach) (n : Nat) : Frame [.regs] m (Mach.capRead m n) := by
  unfold Mach.capRead
  refine .trans ?_ (.mono rfl (Mach.setFld_frame ..))
  exact .refl

theorem Mach.showNow_frame (m : Mach) : Frame [.regs] m (Mach.showNow m) := by
  unfold Mach.showNow
  refine .trans ?_ (.mono rfl (Mach.setFld_frame ..))
  exact .refl

theorem Mach.latchNow_frame (m : Mach) : Frame [.regs] m (Mach.latchNow m) := by
  unfold Mach.latchNow
  refine .trans ?_ (.mono rfl (Mach.setFld_frame ..))
  refine .trans ?_ (.mono rfl (Mach.setFld_frame ..))
  refine .trans ?_ (.mono rfl (Mach.setFld_frame ..))
  refine .trans ?_ (.mono rfl (Mach.showNow_frame ..))
  exact .refl

theorem Mach.logRecord_frame (m : Mach) (r : FaultRec) : Frame [.regs, .mem, .flt, .grp] m (Mach.logRecord m r) := by
  unfold Mach.logRecord
  refine .trans ?_ (.mono rfl (Mach.raiseAll_frame ..))
  refine .trans ?_ (.mono rfl (Mach.setFld_frame ..))
  refine .flt ?_
  refine .trans ?_ (.mono rfl (Mach.setBytes_frame ..))
  refine .trans ?_ (Frame.when (fun _ => ?_))
  · exact .refl
  · refine .trans ?_ (.mono rfl (Mach.satInc_frame ..))
    exact .refl

theorem Mach.failoverOf_frame (m : Mach) (src code : Nat) : Frame [.dev, .regs, .mem, .eng, .sems, .flt, .grp, .lane, .qmg, .dram, .emt,
    .saf, .axis, .port, .tdc, .pool] m (Mach.failoverOf m src code) := by
  unfold Mach.failoverOf
  dsimp only
  split
  · refine .ite ?_ ?_
    · refine .trans ?_ (.mono rfl (Mach.report_frame ..))
      exact .refl
    · exact .refl
  · refine .ite ?_ ?_
    · refine .ite ?_ ?_
      · exact .refl
      · refine .ite ?_ ?_
        · refine .trans ?_ (.mono rfl (Mach.report_frame ..))
          refine .trans ?_ (.mono rfl (Mach.modAx_frame ..))
          refine .trans ?_ (.mono rfl (Mach.setFld_frame ..))
          exact .refl
        · refine .trans ?_ (.mono rfl (Mach.report_frame ..))
          refine .trans ?_ (.mono rfl (Mach.axSafe_frame ..))
          refine .trans ?_ (.mono rfl (Mach.setFld_frame ..))
          exact .refl
    · refine .ite ?_ ?_
      · refine .ite ?_ ?_
        · exact .refl
        · refine .ite ?_ ?_
          · refine .trans ?_ (.mono rfl (Mach.report_frame ..))
            refine .trans ?_ (.mono rfl (Mach.modAx_frame ..))
            refine .trans ?_ (.mono rfl (Mach.setFld_frame ..))
            exact .refl
          · refine .trans ?_ (.mono rfl (Mach.report_frame ..))
            refine .trans ?_ (.mono rfl (Mach.axSafe_frame ..))
            refine .trans ?_ (.mono rfl (Mach.setFld_frame ..))
            exact .refl
      · exact .refl
  · refine .ite ?_ ?_
    · refine .trans ?_ (.mono rfl (Mach.physFails_frame ..))
      exact .refl
    · refine .ite ?_ ?_
      · refine .trans ?_ (.mono rfl (Mach.startFails_frame ..))
        exact .refl
      · refine .ite ?_ ?_
        · refine .trans ?_ (.mono rfl (Mach.dllLoses_frame ..))
          exact .refl
        · exact .refl
  · refine .ite ?_ ?_
    · refine .trans ?_ (.mono rfl (Mach.sliceFails_frame ..))
      exact .refl
    · exact .refl
  · refine .ite ?_ ?_
    · refine .trans ?_ (.mono rfl (Mach.loseHandle_frame ..))
      refine .trans ?_ (.mono rfl (Mach.report_frame ..))
      exact .refl
    · exact .refl
  · refine .ite ?_ ?_
    · refine .trans ?_ (.mono rfl (Mach.dramFail_frame ..))
      exact .refl
    · exact .refl
  · refine .ite ?_ ?_
    · refine .trans ?_ (.mono rfl (Mach.laneLost_frame ..))
      exact .refl
    · exact .refl
  · exact .refl

theorem Mach.inject_frame (m : Mach) (src code : Nat) : Frame [.dev, .regs, .mem, .eng, .sems, .flt, .grp, .lane, .qmg, .dram, .emt, .saf,
    .axis, .port, .tdc, .pool] m (Mach.inject m src code) := by
  unfold Mach.inject
  refine .ite ?_ ?_
  · refine .trans ?_ (.mono rfl (Mach.reportAs_frame ..))
    exact .refl
  · refine .flt ?_
    refine .trans ?_ (.mono rfl (Mach.failoverOf_frame ..))
    exact .refl

theorem Mach.injectSet_frame (m : Mach) (v : Word) : Frame [.status, .dev, .regs, .mem, .eng, .sems, .flt, .grp, .lane, .qmg, .dram, .emt,
    .saf, .axis, .port, .tdc, .pool] m (Mach.injectSet m v) := by
  unfold Mach.injectSet
  refine .ite ?_ ?_
  · refine .trans ?_ (.mono rfl (Mach.done_frame ..))
    exact .refl
  · refine .ite ?_ ?_
    · refine .trans ?_ (.mono rfl (Mach.refuse_frame ..))
      exact .refl
    · refine .trans ?_ (.mono rfl (Mach.inject_frame ..))
      refine .trans ?_ (.mono rfl (Mach.done_frame ..))
      exact .refl

theorem Mach.rolesSet_frame (m : Mach) (v : Word) : Frame [.status, .regs] m (Mach.rolesSet m v) := by
  unfold Mach.rolesSet
  refine .ite ?_ ?_
  · refine .trans ?_ (.mono rfl (Mach.refuse_frame ..))
    exact .refl
  · refine .trans ?_ (.mono rfl (Mach.setFld_frame ..))
    refine .trans ?_ (.mono rfl (Mach.setFld_frame ..))
    refine .trans ?_ (.mono rfl (Mach.done_frame ..))
    exact .refl

theorem Mach.rolesBy_frame (m : Mach) (src : Src) (v : Word) : Frame [.status, .regs] m (Mach.rolesBy m src v) := by
  unfold Mach.rolesBy
  split
  · refine .trans ?_ (.mono rfl (Mach.rolesSet_frame ..))
    exact .refl
  · refine .trans ?_ (.mono rfl (Mach.refuse_frame ..))
    exact .refl

theorem Mach.qctxSet_frame (m : Mach) (c : Nat) (v : Word) : Frame [.status, .regs] m (Mach.qctxSet m c v) := by
  unfold Mach.qctxSet
  refine .ite ?_ ?_
  · refine .trans ?_ (.mono rfl (Mach.refuse_frame ..))
    exact .refl
  · refine .trans ?_ (.mono rfl (Mach.setFld_frame ..))
    refine .trans ?_ (.mono rfl (Mach.setFld_frame ..))
    refine .trans ?_ (.mono rfl (Mach.setFld_frame ..))
    refine .trans ?_ (.mono rfl (Mach.done_frame ..))
    exact .refl

theorem Mach.offerDone_frame (m : Mach) (o : Offer) (ok : Bool) (code : Nat) : Frame [.regs, .eng, .pts] m (Mach.offerDone m o ok code) :=
    by
  unfold Mach.offerDone
  split
  · refine .trans ?_ (.mono rfl (Mach.resume_frame ..))
    exact .refl
  · refine .ite ?_ ?_
    · refine .pts ?_
      exact .refl
    · refine .trans ?_ (.mono rfl (Mach.blockDrop_frame ..))
      refine .pts ?_
      exact .refl
  · exact .refl
  · exact .refl
  · exact .refl

theorem Mach.qNext_frame (m : Mach) (q : Nat) : Frame [.qmg] m (Mach.qNext m q) := by
  unfold Mach.qNext
  refine .trans ?_ (.mono rfl (Mach.modQ_frame ..))
  exact .refl

theorem Mach.refuseWaiters_frame (m : Mach) (q code : Nat) : Frame [.regs, .eng, .qmg, .pts] m (Mach.refuseWaiters m q code) := by
  unfold Mach.refuseWaiters
  refine .trans ?_ (.mono rfl (Mach.modQ_frame ..))
  refine .trans ?_ (.foldl (fun _ _ => ?_) _)
  · exact .refl
  · refine .trans ?_ (.mono rfl (Mach.offerDone_frame ..))
    refine .trans ?_ (.mono rfl (Mach.qDrop_frame ..))
    exact .refl

theorem Mach.qOpen_frame (m : Mach) (q : Nat) : Frame [.regs, .qmg] m (Mach.qOpen m q) := by
  unfold Mach.qOpen
  refine .trans ?_ (.mono rfl (Mach.qLevel_frame ..))
  refine .trans ?_ (.mono rfl (Mach.setFld_frame ..))
  refine .trans ?_ (.mono rfl (Mach.setFld_frame ..))
  refine .trans ?_ (.mono rfl (Mach.modQ_frame ..))
  refine .trans ?_ (.mono rfl (Mach.setQRd_frame ..))
  refine .trans ?_ (.mono rfl (Mach.setQWr_frame ..))
  exact .refl

theorem Mach.qClose_frame (m : Mach) (q : Nat) : Frame [.regs, .eng, .qmg, .pts] m (Mach.qClose m q) := by
  unfold Mach.qClose
  refine .trans ?_ (.mono rfl (Mach.refuseWaiters_frame ..))
  refine .trans ?_ (.mono rfl (Mach.qLevel_frame ..))
  refine .trans ?_ (.mono rfl (Mach.modQ_frame ..))
  refine .trans ?_ (.mono rfl (Mach.setQRd_frame ..))
  refine .trans ?_ (Frame.when (fun _ => ?_))
  · exact .refl
  · refine .trans ?_ (.mono rfl (Mach.qDrop_frame ..))
    exact .refl

theorem Mach.qWrite0_frame (m : Mach) (q : Nat) (v : Word) : Frame [.status, .regs, .eng, .qmg, .pts] m (Mach.qWrite0 m q v) := by
  unfold Mach.qWrite0
  refine .ite ?_ ?_
  · refine .trans ?_ (.mono rfl (Mach.refuse_frame ..))
    exact .refl
  · refine .ite ?_ ?_
    · refine .ite ?_ ?_
      · refine .trans ?_ (.mono rfl (Mach.refuse_frame ..))
        exact .refl
      · refine .trans ?_ (.mono rfl (Mach.qOpen_frame ..))
        refine .trans ?_ (.mono rfl (Mach.setReg_frame ..))
        refine .trans ?_ (.mono rfl (Mach.done_frame ..))
        exact .refl
    · refine .ite ?_ ?_
      · refine .trans ?_ (.mono rfl (Mach.qClose_frame ..))
        refine .trans ?_ (.mono rfl (Mach.setReg_frame ..))
        refine .trans ?_ (.mono rfl (Mach.done_frame ..))
        exact .refl
      · refine .trans ?_ (.mono rfl (Mach.qMark_frame ..))
        refine .trans ?_ (.mono rfl (Mach.setReg_frame ..))
        refine .trans ?_ (.mono rfl (Mach.done_frame ..))
        exact .refl

theorem Mach.qResume_frame (m : Mach) (q : Nat) : Frame [.regs, .mem, .qmg] m (Mach.qResume m q) := by
  unfold Mach.qResume
  refine .trans ?_ (Frame.when (fun _ => ?_))
  · exact .refl
  · refine .trans ?_ (.mono rfl (Mach.writeHeader_frame ..))
    refine .trans ?_ (.mono rfl (Mach.setFld_frame ..))
    exact .refl

theorem Mach.qWrite_frame (m : Mach) (full : Bool) (q k : Nat) (v : Word) : Frame [.status, .regs, .mem, .eng, .qmg, .pts] m (Mach.qWrite
    m full q k v) := by
  unfold Mach.qWrite
  dsimp only
  split
  · refine .trans ?_ (.mono rfl (Mach.qWrite0_frame ..))
    exact .refl
  · refine .ite ?_ ?_
    · refine .trans ?_ (.mono rfl (Mach.refuse_frame ..))
      exact .refl
    · refine .trans ?_ (.mono rfl (Mach.setReg_frame ..))
      refine .trans ?_ (.mono rfl (Mach.done_frame ..))
      exact .refl
  · refine .ite ?_ ?_
    · refine .trans ?_ (.mono rfl (Mach.refuse_frame ..))
      exact .refl
    · refine .trans ?_ (.mono rfl (Mach.setReg_frame ..))
      refine .trans ?_ (.mono rfl (Mach.done_frame ..))
      exact .refl
  · refine .ite ?_ ?_
    · refine .trans ?_ (.mono rfl (Mach.refuse_frame ..))
      exact .refl
    · refine .trans ?_ (.mono rfl (Mach.setReg_frame ..))
      refine .trans ?_ (.mono rfl (Mach.done_frame ..))
      exact .refl
  · refine .trans ?_ (.mono rfl (Mach.qMark_frame ..))
    refine .trans ?_ (.mono rfl (Mach.setReg_frame ..))
    refine .trans ?_ (.mono rfl (Mach.done_frame ..))
    exact .refl
  · refine .ite ?_ ?_
    · refine .trans ?_ (.mono rfl (Mach.qResume_frame ..))
      refine .trans ?_ (Frame.when (fun _ => ?_))
      · refine .trans ?_ (.mono rfl (Mach.done_frame ..))
        exact .refl
      · refine .trans ?_ (.mono rfl (Mach.setReg_frame ..))
        exact .refl
    · refine .trans ?_ (Frame.when (fun _ => ?_))
      · refine .trans ?_ (.mono rfl (Mach.done_frame ..))
        exact .refl
      · refine .trans ?_ (.mono rfl (Mach.setReg_frame ..))
        exact .refl
  · refine .trans ?_ (.mono rfl (Mach.setReg_frame ..))
    refine .trans ?_ (.mono rfl (Mach.done_frame ..))
    exact .refl
  · refine .trans ?_ (.mono rfl (Mach.done_frame ..))
    exact .refl

theorem Mach.qfreezeSet_frame (m : Mach) (v : Word) : Frame [.status, .regs, .mem, .grp, .qmg] m (Mach.qfreezeSet m v) := by
  unfold Mach.qfreezeSet
  refine .ite ?_ ?_
  · refine .trans ?_ (.mono rfl (Mach.refuse_frame ..))
    exact .refl
  · refine .trans ?_ (Frame.when (fun _ => ?_))
    · refine .trans ?_ (.mono rfl (Mach.done_frame ..))
      exact .refl
    · refine .trans ?_ (.mono rfl (Mach.freezeAll_frame ..))
      exact .refl

theorem Mach.creditOne_frame (m : Mach) (ctx q add : Nat) (set_ : Bool) : Frame [.regs, .qmg] m (Mach.creditOne m ctx q add set_) := by
  unfold Mach.creditOne
  refine .ite ?_ ?_
  · refine .trans ?_ (.mono rfl (Mach.badPkt_frame ..))
    exact .refl
  · refine .trans ?_ (.mono rfl (Mach.qMark_frame ..))
    refine .trans ?_ (.mono rfl (Mach.setFld_frame ..))
    exact .refl

theorem Mach.packetIn_frame {l : List Part} {m : Mach} {g ctx : Nat} {f : Mach → Mach} (hf : ∀ m, Frame l m (f m)) (h : (List.all [.regs,
    .grp] l.contains) = true := by rfl) : Frame l m (m.packetIn g ctx f) :=
  Mach.arrives_frame (fun _ => .ite .refl (.ite (.mono (by simp_all) (Mach.badPkt_frame ..)) (hf _))) (by simp_all)

theorem Mach.compl_frame (m : Mach) (g ctx seq st bad : Nat) (data : List Word) : Frame [.grp] m (Mach.compl m g ctx seq st bad data) := by
  unfold Mach.compl
  refine .trans ?_ (.mono rfl (Mach.respond_frame ..))
  exact .refl

theorem Mach.fusProg_frame (m : Mach) (o : Otp) (v : Word) : Frame [.status, .fusJob] m (Mach.fusProg m o v) := by
  unfold Mach.fusProg
  refine .ite ?_ ?_
  · refine .trans ?_ (.mono rfl (Mach.refuse_frame ..))
    exact .refl
  · refine .ite ?_ ?_
    · refine .trans ?_ (.mono rfl (Mach.done_frame ..))
      exact .refl
    · split
      · refine .trans ?_ (.mono rfl (Mach.refuse_frame ..))
        exact .refl
      · refine .fusJob ?_
        refine .trans ?_ (.mono rfl (Mach.done_frame ..))
        exact .refl

theorem Mach.tapSelect_frame (m : Mach) (ir : Nat) (hold : Bool) : Frame [.status, .dev, .tap, .regs, .shadow, .mem, .commits, .eng,
    .sems, .time, .flt, .grp, .lane, .qmg, .dram, .emt, .grd, .saf, .axis, .port, .tdc, .pool, .rej, .cam, .pts, .hk, .thm, .probe,
    .fusJob] m (Mach.tapSelect m ir hold) := by
  unfold Mach.tapSelect
  refine .ite ?_ ?_
  · refine .trans ?_ (.mono rfl (Mach.reset'_frame ..))
    refine .tap ?_
    exact .refl
  · refine .tap ?_
    exact .refl

theorem Mach.readFx_frame (m : Mach) (b : Blk) (inst off : Nat) : Frame [.regs] m (Mach.readFx m b inst off) := by
  unfold Mach.readFx
  refine .trans ?_ (.mono rfl (Mach.setReg_frame ..))
  split
  · refine .ite ?_ ?_
    · refine .trans ?_ (.mono rfl (Mach.latchNow_frame ..))
      exact .refl
    · refine .ite ?_ ?_
      · refine .trans ?_ (.mono rfl (Mach.capRead_frame ..))
        exact .refl
      · exact .refl
  · refine .ite ?_ ?_
    · refine .trans ?_ (.mono rfl (Mach.pubLatch_frame ..))
      exact .refl
    · exact .refl
  · exact .refl

theorem Mach.ergRead_frame (m : Mach) (src : Src) (bank a : Nat) : Frame [.status] m ((Mach.ergRead m src bank a).2) := by
  unfold Mach.ergRead
  dsimp only
  split
  · split
    · dsimp only
      refine .trans ?_ (.mono rfl (Mach.done_frame ..))
      exact .refl
    · dsimp only
      refine .trans ?_ (.mono rfl (Mach.done_frame ..))
      exact .refl
  · split
    · dsimp only
      refine .trans ?_ (.mono rfl (Mach.done_frame ..))
      exact .refl
    · dsimp only
      refine .trans ?_ (.mono rfl (Mach.done_frame ..))
      exact .refl

theorem Mach.ibufWord_frame (m : Mach) (e off : Nat) : Frame [.free] m ((Mach.ibufWord m e off).2) := by
  unfold Mach.ibufWord
  split
  · refine .trans ?_ (.mono rfl (Mach.takeFree_frame ..))
    exact .refl
  · dsimp only
    exact .refl

theorem Mach.engMemRead_frame {m m' : Mach} {e off : Nat} {w : Word} (h : m.engMemRead e off = some (w, m')) : Frame [.free] m m' := by
  unfold Mach.engMemRead at h
  dsimp only at h
  split at h <;> repeat' split at h
  all_goals first | cases h; done | (obtain rfl := congrArg Prod.snd (Option.some.inj h); first | exact .refl | exact Mach.ibufWord_frame ..)

theorem Mach.tableRead_frame (m : Mach) (o : Otp) (b : Blk) (inst off : Nat) : Frame [.free, .status, .regs] m (m.tableRead o b inst
    off).2 := by
  unfold Mach.tableRead
  dsimp only
  split
  · exact .mono rfl (Mach.done_frame ..)
  · split
    · exact .mono rfl (Mach.done_frame ..)
    · split
      · rename_i hx
        obtain ⟨e, -, he⟩ := Option.bind_eq_some_iff.1 hx
        exact .trans (.mono rfl (Mach.engMemRead_frame he)) (.mono rfl (Mach.done_frame ..))
      · split
        · exact .mono rfl (Mach.done_frame ..)
        · split
          · exact .trans (.mono rfl (Mach.done_frame ..)) (.mono rfl (Mach.readFx_frame ..))
          · exact .mono rfl (Mach.done_frame ..)

theorem Mach.blkRead_frame (m : Mach) (o : Otp) (src : Src) (b : Blk) (inst off : Nat) : Frame [.free, .status, .regs, .saf] m
    ((Mach.blkRead m o src b inst off).2) := by
  unfold Mach.blkRead
  dsimp only
  split
  · dsimp only
    refine .trans ?_ (.mono rfl (Mach.done_frame ..))
    exact .refl
  · split
    · dsimp only
      refine .trans ?_ (.mono rfl (Mach.done_frame ..))
      exact .refl
    · split
      · refine .trans ?_ (.mono rfl (Mach.ergRead_frame ..))
        exact .refl
      · split
        · split
          · dsimp only
            refine .trans ?_ (.mono rfl (Mach.done_frame ..))
            exact .refl
          · dsimp only
            refine .trans ?_ (.mono rfl (Mach.done_frame ..))
            exact .refl
        · split
          · split
            · dsimp only
              refine .trans ?_ (.mono rfl (Mach.readFx_frame ..))
              refine .trans ?_ (.mono rfl (Mach.done_frame ..))
              refine .trans ?_ (Frame.when (fun _ => ?_))
              · exact .refl
              · refine .trans ?_ (.mono rfl (Mach.selSettle_frame ..))
                exact .refl
            · dsimp only
              refine .trans ?_ (.mono rfl (Mach.done_frame ..))
              refine .trans ?_ (Frame.when (fun _ => ?_))
              · exact .refl
              · refine .trans ?_ (.mono rfl (Mach.selSettle_frame ..))
                exact .refl
          · refine .trans ?_ (.mono rfl (Mach.tableRead_frame ..))
            exact .refl

theorem Mach.readAt_frame (m : Mach) (o : Otp) (src : Src) (a : Nat) : Frame [.free, .status, .regs, .saf] m ((Mach.readAt m o src a).2)
    := by
  unfold Mach.readAt
  split
  · dsimp only
    refine .trans ?_ (.mono rfl (Mach.done_frame ..))
    exact .refl
  · split
    split
    · refine .trans ?_ (.mono rfl (Mach.blkRead_frame ..))
      exact .refl
    · dsimp only
      refine .trans ?_ (.mono rfl (Mach.done_frame ..))
      exact .refl

theorem Mach.plainWrite_frame (m : Mach) (page a : Nat) (r : RegDef) (ix : List Nat) (v : Word) : Frame [.status, .regs, .shadow] m
    (Mach.plainWrite m page a r ix v) := by
  unfold Mach.plainWrite
  split
  · refine .trans ?_ (.mono rfl (Mach.setReg_frame ..))
    refine .trans ?_ (.mono rfl (Mach.done_frame ..))
    exact .refl
  · refine .ite ?_ ?_
    · refine .trans ?_ (.mono rfl (Mach.refusePending_frame ..))
      exact .refl
    · refine .trans ?_ (.mono rfl (Mach.setReg_frame ..))
      refine .trans ?_ (.mono rfl (Mach.setShadow_frame ..))
      refine .trans ?_ (.mono rfl (Mach.done_frame ..))
      exact .refl

theorem Mach.plainAt_frame (m : Mach) (page a : Nat) (v : Word) : Frame [.status, .regs, .shadow] m (Mach.plainAt m page a v) := by
  unfold Mach.plainAt
  split
  · refine .trans ?_ (.mono rfl (Mach.plainWrite_frame ..))
    exact .refl
  · refine .trans ?_ (.mono rfl (Mach.done_frame ..))
    exact .refl

theorem Mach.engRegWrite_frame (m : Mach) (e off : Nat) (v : Word) : Frame [.status, .dev, .regs, .mem, .eng, .sems, .flt, .grp, .qmg,
    .dram, .emt, .saf, .port, .pool] m ((Mach.engRegWrite m e off v).getD m) := by
  unfold Mach.engRegWrite
  split
  · simp only [Option.getD_some]
    refine .trans ?_ (.mono rfl (Mach.ctrlWrite_frame ..))
    exact .refl
  · simp only [Option.getD_some]
    refine .trans ?_ (.mono rfl (Mach.setFld_frame ..))
    refine .trans ?_ (.mono rfl (Mach.done_frame ..))
    exact .refl
  · simp only [Option.getD_some]
    refine .trans ?_ (.mono rfl (Mach.mboxHost_frame ..))
    exact .refl
  · simp only [Option.getD_none]
    exact .refl

theorem Mach.engRegWrite_frame_some ⦃m : Mach⦄ ⦃e off : Nat⦄ ⦃v : Word⦄ ⦃m' : Mach⦄ (h : Mach.engRegWrite m e off v = some m') : Frame
    [.status, .dev, .regs, .mem, .eng, .sems, .flt, .grp, .qmg, .dram, .emt, .saf, .port, .pool] m m' := by
  have := Mach.engRegWrite_frame m e off v
  rw [h] at this
  exact this

theorem Mach.astatWrite_frame (m : Mach) (a : Nat) (v : Word) : Frame [.status, .regs, .axis] m (Mach.astatWrite m a v) := by
  unfold Mach.astatWrite
  refine .trans ?_ (.mono rfl (Mach.setReg_frame ..))
  refine .ite ?_ ?_
  · refine .trans ?_ (.mono rfl (Mach.feClear_frame ..))
    exact .refl
  · refine .trans ?_ (.mono rfl (Mach.done_frame ..))
    exact .refl

theorem Mach.hostRegWrite_frame (m : Mach) (src : Src) (b : Blk) (off : Nat) (v : Word) : Frame [.status, .dev, .regs, .shadow, .mem,
    .eng, .sems, .flt, .grp, .qmg, .dram, .emt, .saf, .port, .pool] m ((Mach.hostRegWrite m src b off v).getD m) := by
  unfold Mach.hostRegWrite
  split
  · split
    · simp only [Option.getD_some]
      refine .trans ?_ (.mono rfl (Mach.stateReq_frame ..))
      exact .refl
    · simp only [Option.getD_none]
      exact .refl
  · split
    · simp only [Option.getD_some]
      refine .trans ?_ (.mono rfl (Mach.resetReq_frame ..))
      exact .refl
    · simp only [Option.getD_none]
      exact .refl
  · split
    · simp only [Option.getD_some]
      refine .trans ?_ (.mono rfl (Mach.rateWrite_frame ..))
      exact .refl
    · split
      · simp only [Option.getD_some]
        refine .trans ?_ (.mono rfl (Mach.rateWrite_frame ..))
        exact .refl
      · simp only [Option.getD_none]
        exact .refl
  · split
    · simp only [Option.getD_some]
      refine .trans ?_ (.mono rfl (Mach.rolesBy_frame ..))
      exact .refl
    · split
      · simp only [Option.getD_some]
        refine .trans ?_ (.mono rfl (Mach.qctxSet_frame ..))
        exact .refl
      · split
        · simp only [Option.getD_some]
          refine .trans ?_ (.mono rfl (Mach.qfreezeSet_frame ..))
          exact .refl
        · split
          · simp only [Option.getD_some]
            refine .trans ?_ (.mono rfl (Mach.qMarkAll_frame ..))
            refine .trans ?_ (.mono rfl (Mach.plainAt_frame ..))
            exact .refl
          · simp only [Option.getD_none]
            exact .refl
  · split
    · split
      · simp only [Option.getD_some]
        refine .trans ?_ (.mono rfl (Mach.refuse_frame ..))
        exact .refl
      · simp only [Option.getD_none]
        exact .refl
    · split
      · simp only [Option.getD_some]
        refine .ite ?_ ?_
        · refine .trans ?_ (.mono rfl (Mach.memInit_frame ..))
          exact .refl
        · refine .trans ?_ (.mono rfl (Mach.done_frame ..))
          exact .refl
      · simp only [Option.getD_none]
        exact .refl
  · simp only [Option.getD_none]
    exact .refl

theorem Mach.hostRegWrite_frame_some ⦃m : Mach⦄ ⦃src : Src⦄ ⦃b : Blk⦄ ⦃off : Nat⦄ ⦃v : Word⦄ ⦃m' : Mach⦄ (h : Mach.hostRegWrite m src b
    off v = some m') : Frame [.status, .dev, .regs, .shadow, .mem, .eng, .sems, .flt, .grp, .qmg, .dram, .emt, .saf, .port, .pool] m m' :=
    by
  have := Mach.hostRegWrite_frame m src b off v
  rw [h] at this
  exact this

theorem Mach.unitRegWrite_frame (m : Mach) (o : Otp) (b : Blk) (inst off : Nat) (v : Word) : Frame [.status, .dev, .regs, .shadow, .mem,
    .eng, .sems, .flt, .grp, .lane, .qmg, .dram, .emt, .grd, .saf, .axis, .port, .tdc, .pool, .pts, .hk, .probe, .fusJob] m
    ((Mach.unitRegWrite m o b inst off v).getD m) := by
  unfold Mach.unitRegWrite
  split
  · split
    · simp only [Option.getD_some]
      refine .ite ?_ ?_
      · refine .trans ?_ (.mono rfl (Mach.dllRequest_frame ..))
        exact .refl
      · refine .trans ?_ (.mono rfl (Mach.done_frame ..))
        exact .refl
    · simp only [Option.getD_none]
      exact .refl
  · split
    · simp only [Option.getD_some]
      refine .ite ?_ ?_
      · refine .trans ?_ (.mono rfl (Mach.flush_frame ..))
        exact .refl
      · refine .trans ?_ (.mono rfl (Mach.done_frame ..))
        exact .refl
    · split
      · simp only [Option.getD_some]
        refine .trans ?_ (.mono rfl (Mach.bankWrite_frame ..))
        exact .refl
      · simp only [Option.getD_none]
        exact .refl
  · split
    · simp only [Option.getD_some]
      refine .trans ?_ (.mono rfl (Mach.poolSet_frame ..))
      exact .refl
    · simp only [Option.getD_none]
      exact .refl
  · split
    · simp only [Option.getD_some]
      refine .trans ?_ (.mono rfl (Mach.astatWrite_frame ..))
      exact .refl
    · simp only [Option.getD_none]
      exact .refl
  · split
    · simp only [Option.getD_some]
      refine .ite ?_ ?_
      · refine .trans ?_ (.mono rfl (Mach.mirClear_frame ..))
        exact .refl
      · refine .trans ?_ (.mono rfl (Mach.done_frame ..))
        exact .refl
    · simp only [Option.getD_none]
      exact .refl
  · split
    · simp only [Option.getD_some]
      refine .trans ?_ (.mono rfl (Mach.frameRequest_frame ..))
      exact .refl
    · simp only [Option.getD_none]
      exact .refl
  · split
    · simp only [Option.getD_some]
      refine .trans ?_ (.mono rfl (Mach.hkCtrl_frame ..))
      exact .refl
    · simp only [Option.getD_none]
      exact .refl
  · split
    · simp only [Option.getD_some]
      refine .trans ?_ (.mono rfl (Mach.prbCtrlSet_frame ..))
      exact .refl
    · split
      · simp only [Option.getD_some]
        refine .trans ?_ (.mono rfl (Mach.injectSet_frame ..))
        exact .refl
      · split
        · simp only [Option.getD_some]
          refine .trans ?_ (.mono rfl (Mach.fusProg_frame ..))
          exact .refl
        · simp only [Option.getD_none]
          exact .refl
  · split
    · simp only [Option.getD_some]
      refine .trans ?_ (.mono rfl (Mach.grdShow_frame ..))
      refine .trans ?_ (.mono rfl (Mach.plainAt_frame ..))
      exact .refl
    · simp only [Option.getD_none]
      exact .refl
  · split
    · simp only [Option.getD_some]
      refine .trans ?_ (.mono rfl (Mach.bconfSet_frame ..))
      exact .refl
    · split
      · simp only [Option.getD_some]
        refine .trans ?_ (.mono rfl (Mach.bresSet_frame ..))
        refine .trans ?_ (.mono rfl (Mach.selSettle_frame ..))
        exact .refl
      · simp only [Option.getD_none]
        exact .refl
  · simp only [Option.getD_none]
    exact .refl

theorem Mach.unitRegWrite_frame_some ⦃m : Mach⦄ ⦃o : Otp⦄ ⦃b : Blk⦄ ⦃inst off : Nat⦄ ⦃v : Word⦄ ⦃m' : Mach⦄ (h : Mach.unitRegWrite m o b
    inst off v = some m') : Frame [.status, .dev, .regs, .shadow, .mem, .eng, .sems, .flt, .grp, .lane, .qmg, .dram, .emt, .grd, .saf,
    .axis, .port, .tdc, .pool, .pts, .hk, .probe, .fusJob] m m' := by
  have := Mach.unitRegWrite_frame m o b inst off v
  rw [h] at this
  exact this

theorem Mach.pageWrite_frame (m : Mach) (o : Otp) (src : Src) (b : Blk) (inst off : Nat) (v : Word) : Frame [.status, .dev, .regs,
    .shadow, .mem, .commits, .eng, .sems, .flt, .grp, .lane, .qmg, .dram, .emt, .grd, .saf, .axis, .port, .tdc, .pool, .pts, .hk, .probe,
    .fusJob] m (m.pageWrite o src b inst off v) := by
  unfold Mach.pageWrite
  refine .ite (.mono rfl (Mach.cancelSet_frame ..)) (.ite (.mono rfl (Mach.commitSet_frame ..)) (.ite ?_ (.ite (.mono rfl (Mach.done_frame ..)) ?_)))
  · exact .trans (.mono rfl (Mach.done_frame ..)) (.mono rfl (Mach.setReg_frame ..))
  · split
    · rename_i hx
      obtain ⟨e, -, he⟩ := Option.bind_eq_some_iff.1 hx
      exact .mono rfl (Mach.engRegWrite_frame_some he)
    · split
      · exact .mono rfl (Mach.hostRegWrite_frame_some ‹_›)
      · cases hu : m.unitRegWrite o b inst off v with
        | none => exact .mono rfl (Mach.plainAt_frame ..)
        | some m' => exact .mono rfl (Mach.unitRegWrite_frame_some hu)

theorem Mach.recordWrite_frame (m : Mach) (src : Src) (b : Blk) (off : Nat) (v : Word) : Frame [.status, .regs, .mem, .grd, .saf] m
    (Mach.recordWrite m src b off v) := by
  unfold Mach.recordWrite
  split
  · refine .trans ?_ (.mono rfl (Mach.done_frame ..))
    exact .refl
  · refine .ite ?_ ?_
    · refine .trans ?_ (.mono rfl (Mach.grdRecordWrite_frame ..))
      exact .refl
    · refine .trans ?_ (.mono rfl (Mach.safRecordWrite_frame ..))
      exact .refl

theorem Mach.engMemWrite_frame {m m' : Mach} {src : Src} {e off : Nat} {v : Word} (h : m.engMemWrite src e off v = some m') : Frame
    [.status, .mem, .eng] m m' := by
  unfold Mach.engMemWrite at h
  split at h <;> repeat' split at h
  all_goals first | cases h | skip
  all_goals first | exact .mono rfl (Mach.done_frame ..) | exact .mono rfl (Mach.dataWrite_frame ..) | exact .mono rfl (Mach.programWrite_frame ..) | skip
  obtain ⟨a, -, rfl⟩ := Option.map_eq_some_iff.1 h
  exact Mach.programWrite_frame ..

theorem Mach.areaWrite_frame (m : Mach) (b : Blk) (x : Area) (off : Nat) (v : Word) : Frame [.status, .regs, .mem] m (Mach.areaWrite m b x
    off v) := by
  unfold Mach.areaWrite
  refine .ite ?_ ?_
  · refine .trans ?_ (.mono rfl (Mach.done_frame ..))
    exact .refl
  · refine .ite ?_ ?_
    · refine .trans ?_ (.mono rfl (Mach.grdStageWrite_frame ..))
      exact .refl
    · refine .ite ?_ ?_
      · refine .trans ?_ (.mono rfl (Mach.safStageWrite_frame ..))
        exact .refl
      · refine .trans ?_ (.mono rfl (Mach.setMword_frame ..))
        refine .trans ?_ (.mono rfl (Mach.done_frame ..))
        exact .refl

theorem Mach.tableRegWrite_frame (m : Mach) (b : Blk) (inst off : Nat) (v : Word) : Frame [.status, .regs, .shadow, .eng] m
    (Mach.tableRegWrite m b inst off v) := by
  unfold Mach.tableRegWrite
  refine .ite ?_ ?_
  · refine .trans ?_ (.mono rfl (Mach.coefWrite_frame ..))
    exact .refl
  · refine .ite ?_ ?_
    · refine .trans ?_ (.mono rfl (Mach.portPoolSet_frame ..))
      exact .refl
    · refine .trans ?_ (.mono rfl (Mach.plainAt_frame ..))
      exact .refl

theorem Mach.tableWrite_frame (m : Mach) (src : Src) (b : Blk) (inst off : Nat) (v : Word) : Frame [.status, .regs, .shadow, .mem, .eng,
    .sems] m (m.tableWrite src b inst off v) := by
  unfold Mach.tableWrite
  split
  · exact .mono rfl (Mach.semWrite_frame ..)
  · split
    · exact .mono rfl (Mach.done_frame ..)
    · split
      · rename_i hx
        obtain ⟨e, -, he⟩ := Option.bind_eq_some_iff.1 hx
        exact .mono rfl (Mach.engMemWrite_frame he)
      · split
        · exact .mono rfl (Mach.areaWrite_frame ..)
        · exact .ite (.mono rfl (Mach.tableRegWrite_frame ..)) (.mono rfl (Mach.done_frame ..))

theorem Mach.blkWrite_frame (m : Mach) (o : Otp) (src : Src) (b : Blk) (inst off : Nat) (v : Word) : Frame [.status, .dev, .regs, .shadow,
    .mem, .commits, .eng, .sems, .flt, .grp, .lane, .qmg, .dram, .emt, .grd, .saf, .axis, .port, .tdc, .pool, .pts, .hk, .probe, .fusJob]
    m (Mach.blkWrite m o src b inst off v) := by
  unfold Mach.blkWrite
  refine .ite ?_ ?_
  · refine .trans ?_ (.mono rfl (Mach.done_frame ..))
    exact .refl
  · refine .ite ?_ ?_
    · refine .trans ?_ (.mono rfl (Mach.ergWrite_frame ..))
      exact .refl
    · refine .ite ?_ ?_
      · refine .trans ?_ (Mach.asWriter_frame (fun _ => ?_))
        · exact .refl
        · refine .trans ?_ (.mono rfl (Mach.qWrite_frame ..))
          exact .refl
      · refine .ite ?_ ?_
        · split
          · refine .trans ?_ (.mono rfl (Mach.setMword_frame ..))
            refine .trans ?_ (.mono rfl (Mach.done_frame ..))
            exact .refl
          · refine .trans ?_ (.mono rfl (Mach.done_frame ..))
            exact .refl
        · refine .ite ?_ ?_
          · refine .trans ?_ (.mono rfl (Mach.recordWrite_frame ..))
            exact .refl
          · refine .ite ?_ ?_
            · split
              · refine .trans ?_ (.mono rfl (Mach.commitSet_frame ..))
                exact .refl
              · refine .trans ?_ (.mono rfl (Mach.done_frame ..))
                exact .refl
            · refine .trans ?_ (Mach.asWriter_frame (fun _ => ?_))
              · exact .refl
              · refine .ite ?_ ?_
                · refine .trans ?_ (.mono rfl (Mach.pageWrite_frame ..))
                  exact .refl
                · refine .ite ?_ ?_
                  · refine .trans ?_ (.mono rfl (Mach.done_frame ..))
                    exact .refl
                  · refine .trans ?_ (.mono rfl (Mach.tableWrite_frame ..))
                    exact .refl

theorem Mach.writeAt_frame (m : Mach) (o : Otp) (src : Src) (a : Nat) (v : Word) : Frame [.status, .dev, .regs, .shadow, .mem, .commits,
    .eng, .sems, .flt, .grp, .lane, .qmg, .dram, .emt, .grd, .saf, .axis, .port, .tdc, .pool, .pts, .hk, .probe, .fusJob] m (Mach.writeAt
    m o src a v) := by
  unfold Mach.writeAt
  split
  · refine .trans ?_ (.mono rfl (Mach.done_frame ..))
    exact .refl
  · refine .trans ?_ (.mono rfl (Mach.blkWrite_frame ..))
    refine .trans ?_ (.mono rfl (Mach.done_frame ..))
    exact .refl

theorem Mach.load_frame (m : Mach) (e : Nat) (i : FM) (n : Nat) (ext : Nat → Word) : Frame [.free, .dev, .regs, .mem, .eng, .sems, .flt,
    .grp, .qmg, .dram, .emt, .saf, .port, .pool] m (Mach.load m e i n ext) := by
  unfold Mach.load
  refine .ite ?_ ?_
  · refine .trans ?_ (.mono rfl (Mach.engFault_frame ..))
    exact .refl
  · split
    · refine .trans ?_ (.mono rfl (Mach.result_frame ..))
      exact .refl
    · refine .trans ?_ (.mono rfl (Mach.engFault_frame ..))
      exact .refl

theorem Mach.unverify_frame (m : Mach) (e a : Nat) : Frame [.eng] m (Mach.unverify m e a) := by
  unfold Mach.unverify
  refine .trans ?_ (Frame.when (fun _ => ?_))
  · exact .refl
  · refine .trans ?_ (.mono rfl (Mach.modE_frame ..))
    exact .refl

theorem Mach.store_frame (m : Mach) (e : Nat) (i : FM) (n : Nat) : Frame [.free, .dev, .regs, .mem, .eng, .sems, .flt, .grp, .qmg, .dram,
    .emt, .saf, .port, .pool] m (Mach.store m e i n) := by
  unfold Mach.store
  refine .ite ?_ ?_
  · refine .trans ?_ (.mono rfl (Mach.engFault_frame ..))
    exact .refl
  · split
    · refine .trans ?_ (.mono rfl (Mach.retire_frame ..))
      refine .trans ?_ (.mono rfl (Mach.unverify_frame ..))
      refine .trans ?_ (.mono rfl (Mach.setMnat_frame ..))
      exact .refl
    · refine .trans ?_ (.mono rfl (Mach.retire_frame ..))
      refine .trans ?_ (Frame.when (fun _ => ?_))
      · exact .refl
      · refine .trans ?_ (.mono rfl (Mach.setMnat_frame ..))
        exact .refl
    · refine .trans ?_ (.mono rfl (Mach.engFault_frame ..))
      exact .refl

theorem Mach.dramErr_frame (m : Mach) (a : Nat) (e : Option Bool) : Frame [.status, .dev, .regs, .mem, .eng, .sems, .flt, .grp, .qmg,
    .dram, .emt, .saf, .port, .pool] m (Mach.dramErr m a e) := by
  unfold Mach.dramErr
  refine .ite ?_ ?_
  · exact .refl
  · split
    · exact .refl
    · refine .trans ?_ (.mono rfl (Mach.satInc_frame ..))
      exact .refl
    · refine .trans ?_ (.mono rfl (Mach.done_frame ..))
      refine .trans ?_ (.mono rfl (Mach.dramUe_frame ..))
      exact .refl

theorem Mach.linkRead_frame (m : Mach) (o : Otp) (c g a : Nat) (e : Option Bool) : Frame [.free, .status, .dev, .regs, .mem, .eng, .sems,
    .flt, .grp, .qmg, .dram, .emt, .saf, .port, .pool] m ((Mach.linkRead m o c g a e).2) := by
  unfold Mach.linkRead
  split
  · refine .trans ?_ (.mono rfl (Mach.readAt_frame ..))
    exact .refl
  · split
    · dsimp only
      refine .trans ?_ (.mono rfl (Mach.done_frame ..))
      exact .refl
    · split
      · split
        · dsimp only
          refine .trans ?_ (.mono rfl (Mach.dramErr_frame ..))
          refine .trans ?_ (.mono rfl (Mach.done_frame ..))
          exact .refl
        · dsimp only
          refine .trans ?_ (.mono rfl (Mach.done_frame ..))
          exact .refl
      · dsimp only
        refine .trans ?_ (.mono rfl (Mach.done_frame ..))
        exact .refl

theorem Mach.linkWrite_frame (m : Mach) (o : Otp) (c g a : Nat) (v : Word) : Frame [.status, .dev, .regs, .shadow, .mem, .commits, .eng,
    .sems, .flt, .grp, .lane, .qmg, .dram, .emt, .grd, .saf, .axis, .port, .tdc, .pool, .pts, .hk, .probe, .fusJob] m (Mach.linkWrite m o
    c g a v) := by
  unfold Mach.linkWrite
  refine .ite ?_ ?_
  · refine .trans ?_ (.mono rfl (Mach.writeAt_frame ..))
    exact .refl
  · refine .ite ?_ ?_
    · refine .trans ?_ (.mono rfl (Mach.done_frame ..))
      exact .refl
    · split
      · refine .ite ?_ ?_
        · refine .trans ?_ (.mono rfl (Mach.setMword_frame ..))
          refine .trans ?_ (.mono rfl (Mach.done_frame ..))
          exact .refl
        · refine .trans ?_ (.mono rfl (Mach.done_frame ..))
          exact .refl
      · refine .trans ?_ (.mono rfl (Mach.done_frame ..))
        exact .refl

theorem Mach.readWords_frame (m : Mach) (o : Otp) (c g a : Nat) (ecc : List (Nat × Bool)) (n : Nat) : Frame [.free, .status, .dev, .regs,
    .mem, .eng, .sems, .flt, .grp, .qmg, .dram, .emt, .saf, .port, .pool] m ((Mach.readWords m o c g a ecc n).2) := by
  unfold Mach.readWords
  refine .trans ?_ (.foldlSnd (fun ⟨_, _⟩ _ => ?_) _)
  · dsimp only
    exact .refl
  · dsimp only
    refine .trans ?_ (.mono rfl (Mach.linkRead_frame ..))
    exact .refl

theorem Mach.writeOne_frame (m : Mach) (o : Otp) (c g a i : Nat) (w : Word) (x : ReqAcc) : Frame [.status, .dev, .regs, .shadow, .mem,
    .commits, .eng, .sems, .flt, .grp, .lane, .qmg, .dram, .emt, .grd, .saf, .axis, .port, .tdc, .pool, .pts, .hk, .probe, .fusJob] m
    ((Mach.writeOne m o c g a i w x).2) := by
  unfold Mach.writeOne
  dsimp only
  split
  · split
    · exact .trans (.mono rfl (Mach.refuse_frame ..)) (.mono rfl (Mach.setFld_frame ..))
    · exact .mono rfl (Mach.refuse_frame ..)
  · split
    · exact .trans (.mono rfl (Mach.linkWrite_frame ..)) (.mono rfl (Mach.setFld_frame ..))
    · exact .mono rfl (Mach.linkWrite_frame ..)

theorem Mach.writeWords_frame (m : Mach) (o : Otp) (c g a i : Nat) (ws : List Word) (x : ReqAcc) : Frame [.status, .dev, .regs, .shadow,
    .mem, .commits, .eng, .sems, .flt, .grp, .lane, .qmg, .dram, .emt, .grd, .saf, .axis, .port, .tdc, .pool, .pts, .hk, .probe, .fusJob]
    m (m.writeWords o c g a i ws x).2 := by
  induction ws generalizing m i x with
  | nil => exact .refl
  | cons w t ih => exact .trans (.mono rfl (Mach.writeOne_frame ..)) (ih ..)

theorem Mach.newOwner_frame (m : Mach) (k : Option Nat) : Frame [.regs] m (Mach.newOwner m k) := by
  unfold Mach.newOwner
  split
  · refine .trans ?_ (.mono rfl (Mach.setFld_frame ..))
    exact .refl
  · exact .refl

theorem Mach.ctlIssue_frame (m : Mach) (o : Otp) (e : Nat) (i : FM) (v : Option Word) : Frame [.free, .dev, .regs, .mem, .eng, .sems,
    .flt, .grp, .qmg, .dram, .emt, .saf, .port, .pool] m (Mach.ctlIssue m o e i v) := by
  unfold Mach.ctlIssue
  refine .ite ?_ ?_
  · refine .trans ?_ (.mono rfl (Mach.engFault_frame ..))
    exact .refl
  · refine .ite ?_ ?_
    · refine .trans ?_ (.mono rfl (Mach.engFault_frame ..))
      exact .refl
    · refine .ite ?_ ?_
      · refine .trans ?_ (.mono rfl (Mach.engFault_frame ..))
        exact .refl
      · refine .trans ?_ (.mono rfl (Mach.waits_frame ..))
        exact .refl

theorem Mach.ctlEnd_frame (m : Mach) (e : Nat) (w : Word) : Frame [.free, .dev, .regs, .mem, .eng, .sems, .flt, .grp, .qmg, .dram, .emt,
    .saf, .port, .pool] m (Mach.ctlEnd m e w) := by
  unfold Mach.ctlEnd
  split
  · refine .ite ?_ ?_
    · refine .trans ?_ (.mono rfl (Mach.engFault_frame ..))
      refine .trans ?_ (.mono rfl (Mach.modE_frame ..))
      exact .refl
    · refine .trans ?_ (.mono rfl (Mach.resume_frame ..))
      exact .refl
  · exact .refl

theorem Mach.transfer_frame (m : Mach) (e : Nat) (i : FM) (store : Bool) : Frame [.free, .dev, .regs, .mem, .eng, .sems, .flt, .grp, .qmg,
    .dram, .emt, .saf, .port, .pool] m (Mach.transfer m e i store) := by
  unfold Mach.transfer
  refine .ite ?_ ?_
  · refine .trans ?_ (.mono rfl (Mach.engFault_frame ..))
    exact .refl
  · refine .ite ?_ ?_
    · refine .trans ?_ (.mono rfl (Mach.engFault_frame ..))
      exact .refl
    · refine .ite ?_ ?_
      · refine .trans ?_ (.mono rfl (Mach.engFault_frame ..))
        exact .refl
      · refine .ite ?_ ?_
        · refine .trans ?_ (.mono rfl (Mach.engFault_frame ..))
          exact .refl
        · refine .ite ?_ ?_
          · refine .trans ?_ (.mono rfl (Mach.result_frame ..))
            exact .refl
          · refine .trans ?_ (.mono rfl (Mach.waits_frame ..))
            refine .dram ?_
            exact .refl

theorem Mach.copy_frame (m : Mach) (from_ to_ n : Nat) : Frame [.mem] m (Mach.copy m from_ to_ n) := by
  unfold Mach.copy
  refine .trans ?_ (.mono rfl (Mach.setBytes_frame ..))
  exact .refl

/-! ## Commands -/

theorem execRegisterWrite_frame (src : Src) (a : Nat) (v : Word) (st st' : State) (h : execRegisterWrite src a v st = .next st') : Frame
    [.status, .dev, .regs, .shadow, .mem, .commits, .eng, .sems, .flt, .grp, .lane, .qmg, .dram, .emt, .grd, .saf, .axis, .port, .tdc,
    .pool, .pts, .hk, .probe, .fusJob] st.m st'.m := by
  refine State.run_frame (fun _ => ?_) h
  refine .trans ?_ (.mono rfl (Mach.writeAt_frame ..))
  exact .refl

theorem execCommitRequest_frame (src : Src) (page : Page) (groups : Word) (st st' : State) (h : execCommitRequest src page groups st =
    .next st') : Frame [.status, .regs, .commits, .grd, .saf] st.m st'.m := by
  refine State.run_frame (fun _ => ?_) h
  split
  · refine .trans ?_ (.mono rfl (Mach.commitSet_frame ..))
    exact .refl
  · refine .trans ?_ (.mono rfl (Mach.done_frame ..))
    exact .refl

theorem execCommitCancel_frame (src : Src) (page : Page) (groups : Word) (st st' : State) (h : execCommitCancel src page groups st = .next
    st') : Frame [.status, .regs, .commits, .grd, .saf] st.m st'.m := by
  refine State.run_frame (fun _ => ?_) h
  refine .trans ?_ (Mach.asWriter_frame (fun _ => ?_))
  · exact .refl
  · refine .trans ?_ (.mono rfl (Mach.cancelSet_frame ..))
    exact .refl

theorem execIdleCommitApply_frame (page : Page) (st st' : State) (h : execIdleCommitApply page st = .next st') : Frame [.dev, .regs, .mem,
    .commits, .eng, .sems, .time, .flt, .grp, .lane, .qmg, .dram, .emt, .grd, .saf, .axis, .port, .pool, .rej, .cam, .pts, .hk] st.m st'.m
    := by
  refine State.run_frame (fun _ => ?_) h
  refine .trans ?_ (.mono rfl (Mach.applyIdle_frame ..))
  exact .refl

theorem execSupplyRise_frame  (st st' : State) (h : execSupplyRise  st = .next st') : Frame [.status, .dev, .regs, .shadow, .mem,
    .commits, .eng, .sems, .time, .flt, .grp, .lane, .qmg, .dram, .emt, .grd, .saf, .axis, .port, .tdc, .pool, .rej, .cam, .pts, .hk,
    .thm, .probe, .fusJob] st.m st'.m := by
  refine State.run_frame (fun _ => ?_) h
  refine .ite ?_ ?_
  · refine .trans ?_ (.mono rfl (Mach.reset'_frame ..))
    exact .refl
  · exact .refl

theorem execSupplyRemove_frame  (st st' : State) (h : execSupplyRemove  st = .next st') : Frame [.status, .dev, .tap, .regs, .shadow,
    .mem, .commits, .eng, .sems, .time, .flt, .grp, .lane, .qmg, .dram, .emt, .grd, .saf, .axis, .port, .tdc, .pool, .rej, .cam, .pts,
    .hk, .thm, .probe, .fusJob] st.m st'.m := by
  refine State.run_frame (fun _ => ?_) h
  refine .trans ?_ (.mono rfl (Mach.powerOff_frame ..))
  exact .refl

theorem execPorstAssert_frame  (st st' : State) (h : execPorstAssert  st = .next st') : Frame [.status, .dev, .regs, .shadow, .mem,
    .commits, .eng, .sems, .time, .flt, .grp, .lane, .qmg, .dram, .emt, .grd, .saf, .axis, .port, .tdc, .pool, .rej, .cam, .pts, .hk,
    .thm, .probe, .fusJob] st.m st'.m := by
  refine State.run_frame (fun _ => ?_) h
  refine .ite ?_ ?_
  · refine .dev ?_
    exact .refl
  · refine .trans ?_ (.mono rfl (Mach.reset'_frame ..))
    refine .dev ?_
    exact .refl

theorem execPorstRelease_frame  (st st' : State) (h : execPorstRelease  st = .next st') : Frame [.dev] st.m st'.m := by
  refine State.run_frame (fun _ => ?_) h
  refine .dev ?_
  exact .refl

theorem execRootPllLock_frame  (st st' : State) (h : execRootPllLock  st = .next st') : Frame [.dev, .regs] st.m st'.m := by
  refine State.run_frame (fun _ => ?_) h
  refine .ite ?_ ?_
  · refine .trans ?_ (.mono rfl (Mach.setFld_frame ..))
    refine .dev ?_
    exact .refl
  · exact .refl

theorem execPllLockRetry_frame  (st st' : State) (h : execPllLockRetry  st = .next st') : Frame [.cyc, .dev, .time] st.m st'.m := by
  refine State.run_frame (fun _ => ?_) h
  refine .ite ?_ ?_
  · refine .dev ?_
    refine .trans ?_ (.mono rfl (Mach.advanceTo_frame ..))
    exact .refl
  · exact .refl

theorem execOtpLoadDone_frame  (st st' : State) (h : execOtpLoadDone  st = .next st') : Frame [.dev, .regs, .time] st.m st'.m := by
  refine State.run_frame (fun _ => ?_) h
  refine .ite ?_ ?_
  · refine .trans ?_ (.mono rfl (Mach.setFld_frame ..))
    refine .trans ?_ (.mono rfl (Mach.setFld_frame ..))
    refine .trans ?_ (.mono rfl (Mach.setFld_frame ..))
    refine .upd ?_ (.inl rfl) (.inl rfl) (.inl rfl) (.inr rfl) (.inl rfl) (.inl rfl) (.inl rfl) (.inl rfl) id (.inl rfl) (.inl rfl) (.inl rfl) (.inr rfl) (.inl rfl) (.inl rfl) (.inl rfl) (.inl rfl) (.inl rfl) (.inl rfl) (.inl rfl) (.inl rfl) (.inl rfl) (.inl rfl) (.inl rfl) (.inl rfl) (.inl rfl) (.inl rfl) (.inl rfl) (.inl rfl) (.inl rfl) (.inl rfl) (.inl rfl)
    exact .refl
  · exact .refl

theorem execBistDone_frame (pass : Bool) (st st' : State) (h : execBistDone pass st = .next st') : Frame [.dev, .regs, .grp, .lane, .qmg]
    st.m st'.m := by
  refine State.run_frame (fun _ => ?_) h
  refine .ite ?_ ?_
  · refine .trans ?_ (.foldl (fun _ _ => ?_) _)
    · refine .dev ?_
      exact .refl
    · refine .trans ?_ (.mono rfl (Mach.trainAt_frame ..))
      exact .refl
  · exact .refl

theorem execDramRestore_frame (failing : Nat) (st st' : State) (h : execDramRestore failing st = .next st') : Frame [.dev, .regs, .mem,
    .eng, .sems, .flt, .grp, .qmg, .dram, .emt, .saf, .port, .pool] st.m st'.m := by
  refine State.run_frame (fun _ => ?_) h
  refine .ite ?_ ?_
  · refine .trans ?_ (.mono rfl (Mach.trainFail_frame ..))
    refine .trans ?_ (.mono rfl (Mach.setFld_frame ..))
    refine .trans ?_ (.mono rfl (Mach.setFld_frame ..))
    refine .dev ?_
    exact .refl
  · exact .refl

theorem execSupplyMonitorTrip_frame (which : Nat) (st st' : State) (h : execSupplyMonitorTrip which st = .next st') : Frame [.status,
    .dev, .regs, .shadow, .mem, .commits, .eng, .sems, .time, .flt, .grp, .lane, .qmg, .dram, .emt, .grd, .saf, .axis, .port, .tdc, .pool,
    .rej, .cam, .pts, .hk, .thm, .probe, .fusJob] st.m st'.m := by
  refine State.run_frame (fun _ => ?_) h
  refine .ite ?_ ?_
  · exact .refl
  · refine .ite ?_ ?_
    · refine .trans ?_ (.mono rfl (Mach.setFld_frame ..))
      refine .trans ?_ (.mono rfl (Mach.setFld_frame ..))
      refine .dev ?_
      exact .refl
    · refine .ite ?_ ?_
      · refine .trans ?_ (.mono rfl (Mach.reset'_frame ..))
        refine .trans ?_ (.mono rfl (Mach.setFld_frame ..))
        refine .trans ?_ (.mono rfl (Mach.setFld_frame ..))
        refine .dev ?_
        exact .refl
      · dsimp only
        split
        · refine .ite ?_ ?_
          · refine .trans ?_ (.foldl (fun _ _ => ?_) _)
            · refine .trans ?_ (.mono rfl (Mach.setFld_frame ..))
              refine .trans ?_ (.mono rfl (Mach.setFld_frame ..))
              refine .dev ?_
              exact .refl
            · refine .trans ?_ (.mono rfl (Mach.dramFail_frame ..))
              exact .refl
          · refine .trans ?_ (.mono rfl (Mach.setFld_frame ..))
            refine .trans ?_ (.mono rfl (Mach.setFld_frame ..))
            refine .dev ?_
            exact .refl
        · refine .ite ?_ ?_
          · refine .trans ?_ (Frame.when (fun _ => ?_))
            · refine .trans ?_ (.mono rfl (Mach.setFld_frame ..))
              refine .trans ?_ (.mono rfl (Mach.setFld_frame ..))
              refine .dev ?_
              exact .refl
            · refine .trans ?_ (.mono rfl (Mach.guardFails_frame ..))
              exact .refl
          · refine .trans ?_ (.mono rfl (Mach.enterOasis_frame ..))
            refine .trans ?_ (.mono rfl (Mach.report_frame ..))
            refine .trans ?_ (Frame.when (fun _ => ?_))
            · refine .trans ?_ (.mono rfl (Mach.setFld_frame ..))
              refine .trans ?_ (.mono rfl (Mach.setFld_frame ..))
              refine .dev ?_
              exact .refl
            · refine .trans ?_ (.mono rfl (Mach.guardFails_frame ..))
              exact .refl

theorem execSupplyMonitorRelease_frame (i : Nat) (st st' : State) (h : execSupplyMonitorRelease i st = .next st') : Frame [.dev, .regs,
    .grp, .lane, .qmg] st.m st'.m := by
  refine State.run_frame (fun _ => ?_) h
  refine .ite ?_ ?_
  · refine .trans ?_ (Frame.when (fun _ => ?_))
    · refine .trans ?_ (.mono rfl (Mach.setFld_frame ..))
      refine .dev ?_
      exact .refl
    · refine .trans ?_ (.mono rfl (Mach.retrainAll_frame ..))
      exact .refl
  · exact .refl

theorem execClockMonitorWindow_frame (count : Nat) (oscRunning : Bool) (st st' : State) (h : execClockMonitorWindow count oscRunning st =
    .next st') : Frame [.status, .dev, .regs, .shadow, .mem, .commits, .eng, .sems, .time, .flt, .grp, .lane, .qmg, .dram, .emt, .grd,
    .saf, .axis, .port, .tdc, .pool, .rej, .cam, .pts, .hk, .thm, .probe, .fusJob] st.m st'.m := by
  refine State.run_frame (fun _ => ?_) h
  refine .ite ?_ ?_
  · exact .refl
  · refine .ite ?_ ?_
    · refine .trans ?_ (.mono rfl (Mach.setFld_frame ..))
      refine .trans ?_ (.mono rfl (Mach.setFld_frame ..))
      exact .refl
    · refine .ite ?_ ?_
      · refine .trans ?_ (.mono rfl (Mach.reset'_frame ..))
        refine .trans ?_ (.mono rfl (Mach.setFld_frame ..))
        refine .trans ?_ (.mono rfl (Mach.setFld_frame ..))
        exact .refl
      · refine .trans ?_ (.mono rfl (Mach.guardFails_frame ..))
        refine .trans ?_ (.mono rfl (Mach.setFld_frame ..))
        refine .trans ?_ (.mono rfl (Mach.setFld_frame ..))
        refine .trans ?_ (.mono rfl (Mach.setFld_frame ..))
        exact .refl

theorem execRootPllUnlock_frame  (st st' : State) (h : execRootPllUnlock  st = .next st') : Frame [.status, .dev, .regs, .shadow, .mem,
    .commits, .eng, .sems, .time, .flt, .grp, .lane, .qmg, .dram, .emt, .grd, .saf, .axis, .port, .tdc, .pool, .rej, .cam, .pts, .hk,
    .thm, .probe, .fusJob] st.m st'.m := by
  refine State.run_frame (fun _ => ?_) h
  refine .ite ?_ ?_
  · exact .refl
  · refine .trans ?_ (.mono rfl (Mach.reset'_frame ..))
    refine .trans ?_ (.mono rfl (Mach.setFld_frame ..))
    exact .refl

theorem execRequestLinked_frame (ctx key : Nat) (st st' : State) (h : execRequestLinked ctx key st = .next st') : Frame [.status, .dev,
    .regs, .mem, .eng, .sems, .flt, .grp, .qmg, .dram, .emt, .saf, .port, .pool] st.m st'.m := by
  refine State.run_frame (fun _ => ?_) h
  refine .trans ?_ (.mono rfl (Mach.stateReq_frame ..))
  exact .refl

theorem execRequestLoaded_frame (ctx key : Nat) (st st' : State) (h : execRequestLoaded ctx key st = .next st') : Frame [.status, .dev,
    .regs, .mem, .eng, .sems, .flt, .grp, .qmg, .dram, .emt, .saf, .port, .pool] st.m st'.m := by
  refine State.run_frame (fun _ => ?_) h
  refine .trans ?_ (.mono rfl (Mach.stateReq_frame ..))
  exact .refl

theorem execRequestArmed_frame (ctx key : Nat) (st st' : State) (h : execRequestArmed ctx key st = .next st') : Frame [.status, .dev,
    .regs, .mem, .eng, .sems, .flt, .grp, .qmg, .dram, .emt, .saf, .port, .pool] st.m st'.m := by
  refine State.run_frame (fun _ => ?_) h
  refine .trans ?_ (.mono rfl (Mach.stateReq_frame ..))
  exact .refl

theorem execRequestRunning_frame (ctx key : Nat) (st st' : State) (h : execRequestRunning ctx key st = .next st') : Frame [.status, .dev,
    .regs, .mem, .eng, .sems, .flt, .grp, .qmg, .dram, .emt, .saf, .port, .pool] st.m st'.m := by
  refine State.run_frame (fun _ => ?_) h
  refine .trans ?_ (.mono rfl (Mach.stateReq_frame ..))
  exact .refl

theorem execRequestOasis_frame (ctx key : Nat) (st st' : State) (h : execRequestOasis ctx key st = .next st') : Frame [.status, .dev,
    .regs, .mem, .eng, .sems, .flt, .grp, .qmg, .dram, .emt, .saf, .port, .pool] st.m st'.m := by
  refine State.run_frame (fun _ => ?_) h
  refine .trans ?_ (.mono rfl (Mach.stateReq_frame ..))
  exact .refl

theorem execHkrefOkSet_frame  (st st' : State) (h : execHkrefOkSet  st = .next st') : Frame [.cyc, .regs, .time, .hk] st.m st'.m := by
  refine State.run_frame (fun _ => ?_) h
  split
  · exact .refl
  · refine .trans ?_ (.mono rfl (Mach.modHk_frame ..))
    refine .trans ?_ (.mono rfl (Mach.setFld_frame ..))
    refine .trans ?_ (.mono rfl (Mach.setFld_frame ..))
    refine .trans ?_ (.mono rfl (Mach.advanceTo_frame ..))
    exact .refl

theorem execHostReset_frame (ctx : Nat) (v : Word) (st st' : State) (h : execHostReset ctx v st = .next st') : Frame [.status, .dev] st.m
    st'.m := by
  refine State.run_frame (fun _ => ?_) h
  refine .trans ?_ (.mono rfl (Mach.resetReq_frame ..))
  exact .refl

theorem execHostResetStart_frame  (st st' : State) (h : execHostResetStart  st = .next st') : Frame [.cyc, .status, .dev, .regs, .shadow,
    .mem, .commits, .eng, .sems, .time, .flt, .grp, .lane, .qmg, .dram, .emt, .grd, .saf, .axis, .port, .tdc, .pool, .rej, .cam, .pts,
    .hk, .thm, .probe, .fusJob] st.m st'.m := by
  refine State.run_frame (fun _ => ?_) h
  split
  · exact .refl
  · refine .ite ?_ ?_
    · exact .refl
    · refine .trans ?_ (.mono rfl (Mach.reset'_frame ..))
      refine .trans ?_ (.mono rfl (Mach.advanceTo_frame ..))
      exact .refl

theorem execStart_frame (src : Src) (e : Nat) (v : Word) (st st' : State) (h : execStart src e v st = .next st') : Frame [.status, .dev,
    .regs, .mem, .eng, .sems, .flt, .grp, .qmg, .dram, .emt, .saf, .port, .pool] st.m st'.m := by
  refine State.run_frame (fun _ => ?_) h
  refine .trans ?_ (.mono rfl (Mach.ctrlBy_frame ..))
  exact .refl

theorem execStop_frame (src : Src) (e : Nat) (v : Word) (st st' : State) (h : execStop src e v st = .next st') : Frame [.status, .dev,
    .regs, .mem, .eng, .sems, .flt, .grp, .qmg, .dram, .emt, .saf, .port, .pool] st.m st'.m := by
  refine State.run_frame (fun _ => ?_) h
  refine .trans ?_ (.mono rfl (Mach.ctrlBy_frame ..))
  exact .refl

theorem execVerify_frame (src : Src) (e : Nat) (v : Word) (st st' : State) (h : execVerify src e v st = .next st') : Frame [.status, .dev,
    .regs, .mem, .eng, .sems, .flt, .grp, .qmg, .dram, .emt, .saf, .port, .pool] st.m st'.m := by
  refine State.run_frame (fun _ => ?_) h
  refine .trans ?_ (.mono rfl (Mach.ctrlBy_frame ..))
  exact .refl

theorem execVerifyDone_frame (e : Nat) (st st' : State) (h : execVerifyDone e st = .next st') : Frame [.cyc, .eng, .time] st.m st'.m := by
  refine State.run_frame (fun _ => ?_) h
  split
  · exact .refl
  · refine .trans ?_ (.foldl (fun _ _ => ?_) _)
    · refine .trans ?_ (.mono rfl (Mach.modE_frame ..))
      refine .trans ?_ (.mono rfl (Mach.advanceTo_frame ..))
      exact .refl
    · refine .trans ?_ (.mono rfl (Mach.modE_frame ..))
      exact .refl

theorem execMbclr_frame (src : Src) (e : Nat) (v : Word) (st st' : State) (h : execMbclr src e v st = .next st') : Frame [.status, .dev,
    .regs, .mem, .eng, .sems, .flt, .grp, .qmg, .dram, .emt, .saf, .port, .pool] st.m st'.m := by
  refine State.run_frame (fun _ => ?_) h
  refine .trans ?_ (.mono rfl (Mach.ctrlBy_frame ..))
  exact .refl

theorem execMboxIn_frame (src : Src) (e : Nat) (w : Word) (st st' : State) (h : execMboxIn src e w st = .next st') : Frame [.status,
    .regs, .eng] st.m st'.m := by
  refine State.run_frame (fun _ => ?_) h
  refine .trans ?_ (Mach.asWriter_frame (fun _ => ?_))
  · exact .refl
  · refine .trans ?_ (.mono rfl (Mach.mboxHost_frame ..))
    exact .refl

theorem execProgramMemoryWrite_frame (src : Src) (e off : Nat) (w : Word) (st st' : State) (h : execProgramMemoryWrite src e off w st =
    .next st') : Frame [.status, .mem, .eng] st.m st'.m := by
  refine State.run_frame (fun _ => ?_) h
  split
  · refine .trans ?_ (.mono rfl (Mach.done_frame ..))
    exact .refl
  · refine .ite ?_ ?_
    · refine .trans ?_ (.mono rfl (Mach.dataWrite_frame ..))
      exact .refl
    · refine .trans ?_ (.mono rfl (Mach.programWrite_frame ..))
      exact .refl

theorem execDataMemoryWrite_frame (src : Src) (e off : Nat) (w : Word) (st st' : State) (h : execDataMemoryWrite src e off w st = .next
    st') : Frame [.status, .mem, .eng] st.m st'.m := by
  refine State.run_frame (fun _ => ?_) h
  refine .trans ?_ (.mono rfl (Mach.dataWrite_frame ..))
  exact .refl

theorem execSemaphoreWrite_frame (src : Src) (n : Nat) (v : Word) (st st' : State) (h : execSemaphoreWrite src n v st = .next st') : Frame
    [.status, .eng, .sems] st.m st'.m := by
  refine State.run_frame (fun _ => ?_) h
  refine .trans ?_ (Mach.asWriter_frame (fun _ => ?_))
  · exact .refl
  · refine .trans ?_ (.mono rfl (Mach.semWrite_frame ..))
    exact .refl

theorem execAdd_frame (e : Nat) (i : FA) (st st' : State) (h : execAdd e i st = .next st') : Frame [.free, .dev, .regs, .mem, .eng, .sems,
    .flt, .grp, .qmg, .dram, .emt, .saf, .port, .pool] st.m st'.m := by
  refine State.run_frame (fun _ => ?_) h
  refine .trans ?_ (Mach.issue_frame (fun _ => ?_))
  · exact .refl
  · refine .trans ?_ (.mono rfl (Mach.aluA_frame ..))
    exact .refl

theorem execSub_frame (e : Nat) (i : FA) (st st' : State) (h : execSub e i st = .next st') : Frame [.free, .dev, .regs, .mem, .eng, .sems,
    .flt, .grp, .qmg, .dram, .emt, .saf, .port, .pool] st.m st'.m := by
  refine State.run_frame (fun _ => ?_) h
  refine .trans ?_ (Mach.issue_frame (fun _ => ?_))
  · exact .refl
  · refine .trans ?_ (.mono rfl (Mach.aluA_frame ..))
    exact .refl

theorem execAnd_frame (e : Nat) (i : FA) (st st' : State) (h : execAnd e i st = .next st') : Frame [.free, .dev, .regs, .mem, .eng, .sems,
    .flt, .grp, .qmg, .dram, .emt, .saf, .port, .pool] st.m st'.m := by
  refine State.run_frame (fun _ => ?_) h
  refine .trans ?_ (Mach.issue_frame (fun _ => ?_))
  · exact .refl
  · refine .trans ?_ (.mono rfl (Mach.aluA_frame ..))
    exact .refl

theorem execOr_frame (e : Nat) (i : FA) (st st' : State) (h : execOr e i st = .next st') : Frame [.free, .dev, .regs, .mem, .eng, .sems,
    .flt, .grp, .qmg, .dram, .emt, .saf, .port, .pool] st.m st'.m := by
  refine State.run_frame (fun _ => ?_) h
  refine .trans ?_ (Mach.issue_frame (fun _ => ?_))
  · exact .refl
  · refine .trans ?_ (.mono rfl (Mach.aluA_frame ..))
    exact .refl

theorem execXor_frame (e : Nat) (i : FA) (st st' : State) (h : execXor e i st = .next st') : Frame [.free, .dev, .regs, .mem, .eng, .sems,
    .flt, .grp, .qmg, .dram, .emt, .saf, .port, .pool] st.m st'.m := by
  refine State.run_frame (fun _ => ?_) h
  refine .trans ?_ (Mach.issue_frame (fun _ => ?_))
  · exact .refl
  · refine .trans ?_ (.mono rfl (Mach.aluA_frame ..))
    exact .refl

theorem execShl_frame (e : Nat) (i : FA) (st st' : State) (h : execShl e i st = .next st') : Frame [.free, .dev, .regs, .mem, .eng, .sems,
    .flt, .grp, .qmg, .dram, .emt, .saf, .port, .pool] st.m st'.m := by
  refine State.run_frame (fun _ => ?_) h
  refine .trans ?_ (Mach.issue_frame (fun _ => ?_))
  · exact .refl
  · refine .trans ?_ (.mono rfl (Mach.aluA_frame ..))
    exact .refl

theorem execShr_frame (e : Nat) (i : FA) (st st' : State) (h : execShr e i st = .next st') : Frame [.free, .dev, .regs, .mem, .eng, .sems,
    .flt, .grp, .qmg, .dram, .emt, .saf, .port, .pool] st.m st'.m := by
  refine State.run_frame (fun _ => ?_) h
  refine .trans ?_ (Mach.issue_frame (fun _ => ?_))
  · exact .refl
  · refine .trans ?_ (.mono rfl (Mach.aluA_frame ..))
    exact .refl

theorem execSra_frame (e : Nat) (i : FA) (st st' : State) (h : execSra e i st = .next st') : Frame [.free, .dev, .regs, .mem, .eng, .sems,
    .flt, .grp, .qmg, .dram, .emt, .saf, .port, .pool] st.m st'.m := by
  refine State.run_frame (fun _ => ?_) h
  refine .trans ?_ (Mach.issue_frame (fun _ => ?_))
  · exact .refl
  · refine .trans ?_ (.mono rfl (Mach.aluA_frame ..))
    exact .refl

theorem execMul_frame (e : Nat) (i : FA) (st st' : State) (h : execMul e i st = .next st') : Frame [.free, .dev, .regs, .mem, .eng, .sems,
    .flt, .grp, .qmg, .dram, .emt, .saf, .port, .pool] st.m st'.m := by
  refine State.run_frame (fun _ => ?_) h
  refine .trans ?_ (Mach.issue_frame (fun _ => ?_))
  · exact .refl
  · refine .trans ?_ (.mono rfl (Mach.aluA_frame ..))
    exact .refl

theorem execMulh_frame (e : Nat) (i : FA) (st st' : State) (h : execMulh e i st = .next st') : Frame [.free, .dev, .regs, .mem, .eng,
    .sems, .flt, .grp, .qmg, .dram, .emt, .saf, .port, .pool] st.m st'.m := by
  refine State.run_frame (fun _ => ?_) h
  refine .trans ?_ (Mach.issue_frame (fun _ => ?_))
  · exact .refl
  · refine .trans ?_ (.mono rfl (Mach.aluA_frame ..))
    exact .refl

theorem execAdds_frame (e : Nat) (i : FA) (st st' : State) (h : execAdds e i st = .next st') : Frame [.free, .dev, .regs, .mem, .eng,
    .sems, .flt, .grp, .qmg, .dram, .emt, .saf, .port, .pool] st.m st'.m := by
  refine State.run_frame (fun _ => ?_) h
  refine .trans ?_ (Mach.issue_frame (fun _ => ?_))
  · exact .refl
  · refine .trans ?_ (.mono rfl (Mach.aluA_frame ..))
    exact .refl

theorem execSubs_frame (e : Nat) (i : FA) (st st' : State) (h : execSubs e i st = .next st') : Frame [.free, .dev, .regs, .mem, .eng,
    .sems, .flt, .grp, .qmg, .dram, .emt, .saf, .port, .pool] st.m st'.m := by
  refine State.run_frame (fun _ => ?_) h
  refine .trans ?_ (Mach.issue_frame (fun _ => ?_))
  · exact .refl
  · refine .trans ?_ (.mono rfl (Mach.aluA_frame ..))
    exact .refl

theorem execMin_frame (e : Nat) (i : FA) (st st' : State) (h : execMin e i st = .next st') : Frame [.free, .dev, .regs, .mem, .eng, .sems,
    .flt, .grp, .qmg, .dram, .emt, .saf, .port, .pool] st.m st'.m := by
  refine State.run_frame (fun _ => ?_) h
  refine .trans ?_ (Mach.issue_frame (fun _ => ?_))
  · exact .refl
  · refine .trans ?_ (.mono rfl (Mach.aluA_frame ..))
    exact .refl

theorem execMax_frame (e : Nat) (i : FA) (st st' : State) (h : execMax e i st = .next st') : Frame [.free, .dev, .regs, .mem, .eng, .sems,
    .flt, .grp, .qmg, .dram, .emt, .saf, .port, .pool] st.m st'.m := by
  refine State.run_frame (fun _ => ?_) h
  refine .trans ?_ (Mach.issue_frame (fun _ => ?_))
  · exact .refl
  · refine .trans ?_ (.mono rfl (Mach.aluA_frame ..))
    exact .refl

theorem execAbs_frame (e : Nat) (i : FA) (st st' : State) (h : execAbs e i st = .next st') : Frame [.free, .dev, .regs, .mem, .eng, .sems,
    .flt, .grp, .qmg, .dram, .emt, .saf, .port, .pool] st.m st'.m := by
  refine State.run_frame (fun _ => ?_) h
  refine .trans ?_ (Mach.issue_frame (fun _ => ?_))
  · exact .refl
  · refine .trans ?_ (.mono rfl (Mach.aluA_frame ..))
    exact .refl

theorem execAddImm_frame (e : Nat) (i : FI) (st st' : State) (h : execAddImm e i st = .next st') : Frame [.free, .dev, .regs, .mem, .eng,
    .sems, .flt, .grp, .qmg, .dram, .emt, .saf, .port, .pool] st.m st'.m := by
  refine State.run_frame (fun _ => ?_) h
  refine .trans ?_ (Mach.issue_frame (fun _ => ?_))
  · exact .refl
  · refine .trans ?_ (.mono rfl (Mach.aluI_frame ..))
    exact .refl

theorem execAndImm_frame (e : Nat) (i : FI) (st st' : State) (h : execAndImm e i st = .next st') : Frame [.free, .dev, .regs, .mem, .eng,
    .sems, .flt, .grp, .qmg, .dram, .emt, .saf, .port, .pool] st.m st'.m := by
  refine State.run_frame (fun _ => ?_) h
  refine .trans ?_ (Mach.issue_frame (fun _ => ?_))
  · exact .refl
  · refine .trans ?_ (.mono rfl (Mach.aluI_frame ..))
    exact .refl

theorem execOrImm_frame (e : Nat) (i : FI) (st st' : State) (h : execOrImm e i st = .next st') : Frame [.free, .dev, .regs, .mem, .eng,
    .sems, .flt, .grp, .qmg, .dram, .emt, .saf, .port, .pool] st.m st'.m := by
  refine State.run_frame (fun _ => ?_) h
  refine .trans ?_ (Mach.issue_frame (fun _ => ?_))
  · exact .refl
  · refine .trans ?_ (.mono rfl (Mach.aluI_frame ..))
    exact .refl

theorem execXorImm_frame (e : Nat) (i : FI) (st st' : State) (h : execXorImm e i st = .next st') : Frame [.free, .dev, .regs, .mem, .eng,
    .sems, .flt, .grp, .qmg, .dram, .emt, .saf, .port, .pool] st.m st'.m := by
  refine State.run_frame (fun _ => ?_) h
  refine .trans ?_ (Mach.issue_frame (fun _ => ?_))
  · exact .refl
  · refine .trans ?_ (.mono rfl (Mach.aluI_frame ..))
    exact .refl

theorem execShlImm_frame (e : Nat) (i : FI) (st st' : State) (h : execShlImm e i st = .next st') : Frame [.free, .dev, .regs, .mem, .eng,
    .sems, .flt, .grp, .qmg, .dram, .emt, .saf, .port, .pool] st.m st'.m := by
  refine State.run_frame (fun _ => ?_) h
  refine .trans ?_ (Mach.issue_frame (fun _ => ?_))
  · exact .refl
  · refine .trans ?_ (.mono rfl (Mach.aluI_frame ..))
    exact .refl

theorem execShrImm_frame (e : Nat) (i : FI) (st st' : State) (h : execShrImm e i st = .next st') : Frame [.free, .dev, .regs, .mem, .eng,
    .sems, .flt, .grp, .qmg, .dram, .emt, .saf, .port, .pool] st.m st'.m := by
  refine State.run_frame (fun _ => ?_) h
  refine .trans ?_ (Mach.issue_frame (fun _ => ?_))
  · exact .refl
  · refine .trans ?_ (.mono rfl (Mach.aluI_frame ..))
    exact .refl

theorem execSraImm_frame (e : Nat) (i : FI) (st st' : State) (h : execSraImm e i st = .next st') : Frame [.free, .dev, .regs, .mem, .eng,
    .sems, .flt, .grp, .qmg, .dram, .emt, .saf, .port, .pool] st.m st'.m := by
  refine State.run_frame (fun _ => ?_) h
  refine .trans ?_ (Mach.issue_frame (fun _ => ?_))
  · exact .refl
  · refine .trans ?_ (.mono rfl (Mach.aluI_frame ..))
    exact .refl

theorem execMulImm_frame (e : Nat) (i : FI) (st st' : State) (h : execMulImm e i st = .next st') : Frame [.free, .dev, .regs, .mem, .eng,
    .sems, .flt, .grp, .qmg, .dram, .emt, .saf, .port, .pool] st.m st'.m := by
  refine State.run_frame (fun _ => ?_) h
  refine .trans ?_ (Mach.issue_frame (fun _ => ?_))
  · exact .refl
  · refine .trans ?_ (.mono rfl (Mach.aluI_frame ..))
    exact .refl

theorem execAddsImm_frame (e : Nat) (i : FI) (st st' : State) (h : execAddsImm e i st = .next st') : Frame [.free, .dev, .regs, .mem,
    .eng, .sems, .flt, .grp, .qmg, .dram, .emt, .saf, .port, .pool] st.m st'.m := by
  refine State.run_frame (fun _ => ?_) h
  refine .trans ?_ (Mach.issue_frame (fun _ => ?_))
  · exact .refl
  · refine .trans ?_ (.mono rfl (Mach.aluI_frame ..))
    exact .refl

theorem execMinImm_frame (e : Nat) (i : FI) (st st' : State) (h : execMinImm e i st = .next st') : Frame [.free, .dev, .regs, .mem, .eng,
    .sems, .flt, .grp, .qmg, .dram, .emt, .saf, .port, .pool] st.m st'.m := by
  refine State.run_frame (fun _ => ?_) h
  refine .trans ?_ (Mach.issue_frame (fun _ => ?_))
  · exact .refl
  · refine .trans ?_ (.mono rfl (Mach.aluI_frame ..))
    exact .refl

theorem execMaxImm_frame (e : Nat) (i : FI) (st st' : State) (h : execMaxImm e i st = .next st') : Frame [.free, .dev, .regs, .mem, .eng,
    .sems, .flt, .grp, .qmg, .dram, .emt, .saf, .port, .pool] st.m st'.m := by
  refine State.run_frame (fun _ => ?_) h
  refine .trans ?_ (Mach.issue_frame (fun _ => ?_))
  · exact .refl
  · refine .trans ?_ (.mono rfl (Mach.aluI_frame ..))
    exact .refl

theorem execLi_frame (e : Nat) (i : FI) (st st' : State) (h : execLi e i st = .next st') : Frame [.free, .dev, .regs, .mem, .eng, .sems,
    .flt, .grp, .qmg, .dram, .emt, .saf, .port, .pool] st.m st'.m := by
  refine State.run_frame (fun _ => ?_) h
  refine .trans ?_ (Mach.issue_frame (fun _ => ?_))
  · exact .refl
  · refine .trans ?_ (.mono rfl (Mach.result_frame ..))
    exact .refl

theorem execLui_frame (e : Nat) (i : FI) (st st' : State) (h : execLui e i st = .next st') : Frame [.free, .dev, .regs, .mem, .eng, .sems,
    .flt, .grp, .qmg, .dram, .emt, .saf, .port, .pool] st.m st'.m := by
  refine State.run_frame (fun _ => ?_) h
  refine .trans ?_ (Mach.issue_frame (fun _ => ?_))
  · exact .refl
  · refine .trans ?_ (.mono rfl (Mach.result_frame ..))
    exact .refl

theorem execLdW_frame (e : Nat) (i : FM) (st st' : State) (h : execLdW e i st = .next st') : Frame [.free, .dev, .regs, .mem, .eng, .sems,
    .flt, .grp, .qmg, .dram, .emt, .saf, .port, .pool] st.m st'.m := by
  refine State.run_frame (fun _ => ?_) h
  refine .trans ?_ (Mach.issue_frame (fun _ => ?_))
  · exact .refl
  · refine .trans ?_ (.mono rfl (Mach.load_frame ..))
    exact .refl

theorem execLdH_frame (e : Nat) (i : FM) (st st' : State) (h : execLdH e i st = .next st') : Frame [.free, .dev, .regs, .mem, .eng, .sems,
    .flt, .grp, .qmg, .dram, .emt, .saf, .port, .pool] st.m st'.m := by
  refine State.run_frame (fun _ => ?_) h
  refine .trans ?_ (Mach.issue_frame (fun _ => ?_))
  · exact .refl
  · refine .trans ?_ (.mono rfl (Mach.load_frame ..))
    exact .refl

theorem execLdHu_frame (e : Nat) (i : FM) (st st' : State) (h : execLdHu e i st = .next st') : Frame [.free, .dev, .regs, .mem, .eng,
    .sems, .flt, .grp, .qmg, .dram, .emt, .saf, .port, .pool] st.m st'.m := by
  refine State.run_frame (fun _ => ?_) h
  refine .trans ?_ (Mach.issue_frame (fun _ => ?_))
  · exact .refl
  · refine .trans ?_ (.mono rfl (Mach.load_frame ..))
    exact .refl

theorem execLdB_frame (e : Nat) (i : FM) (st st' : State) (h : execLdB e i st = .next st') : Frame [.free, .dev, .regs, .mem, .eng, .sems,
    .flt, .grp, .qmg, .dram, .emt, .saf, .port, .pool] st.m st'.m := by
  refine State.run_frame (fun _ => ?_) h
  refine .trans ?_ (Mach.issue_frame (fun _ => ?_))
  · exact .refl
  · refine .trans ?_ (.mono rfl (Mach.load_frame ..))
    exact .refl

theorem execLdBu_frame (e : Nat) (i : FM) (st st' : State) (h : execLdBu e i st = .next st') : Frame [.free, .dev, .regs, .mem, .eng,
    .sems, .flt, .grp, .qmg, .dram, .emt, .saf, .port, .pool] st.m st'.m := by
  refine State.run_frame (fun _ => ?_) h
  refine .trans ?_ (Mach.issue_frame (fun _ => ?_))
  · exact .refl
  · refine .trans ?_ (.mono rfl (Mach.load_frame ..))
    exact .refl

theorem execStW_frame (e : Nat) (i : FM) (st st' : State) (h : execStW e i st = .next st') : Frame [.free, .dev, .regs, .mem, .eng, .sems,
    .flt, .grp, .qmg, .dram, .emt, .saf, .port, .pool] st.m st'.m := by
  refine State.run_frame (fun _ => ?_) h
  refine .trans ?_ (Mach.issue_frame (fun _ => ?_))
  · exact .refl
  · refine .trans ?_ (.mono rfl (Mach.store_frame ..))
    exact .refl

theorem execStH_frame (e : Nat) (i : FM) (st st' : State) (h : execStH e i st = .next st') : Frame [.free, .dev, .regs, .mem, .eng, .sems,
    .flt, .grp, .qmg, .dram, .emt, .saf, .port, .pool] st.m st'.m := by
  refine State.run_frame (fun _ => ?_) h
  refine .trans ?_ (Mach.issue_frame (fun _ => ?_))
  · exact .refl
  · refine .trans ?_ (.mono rfl (Mach.store_frame ..))
    exact .refl

theorem execStB_frame (e : Nat) (i : FM) (st st' : State) (h : execStB e i st = .next st') : Frame [.free, .dev, .regs, .mem, .eng, .sems,
    .flt, .grp, .qmg, .dram, .emt, .saf, .port, .pool] st.m st'.m := by
  refine State.run_frame (fun _ => ?_) h
  refine .trans ?_ (Mach.issue_frame (fun _ => ?_))
  · exact .refl
  · refine .trans ?_ (.mono rfl (Mach.store_frame ..))
    exact .refl

theorem execLdx_frame (e : Nat) (i : FM) (st st' : State) (h : execLdx e i st = .next st') : Frame [.free, .dev, .regs, .mem, .eng, .sems,
    .flt, .grp, .qmg, .dram, .emt, .saf, .port, .pool] st.m st'.m := by
  refine State.run_frame (fun _ => ?_) h
  refine .trans ?_ (Mach.issue_frame (fun _ => ?_))
  · exact .refl
  · refine .trans ?_ (.mono rfl (Mach.transfer_frame ..))
    exact .refl

theorem execStx_frame (e : Nat) (i : FM) (st st' : State) (h : execStx e i st = .next st') : Frame [.free, .dev, .regs, .mem, .eng, .sems,
    .flt, .grp, .qmg, .dram, .emt, .saf, .port, .pool] st.m st'.m := by
  refine State.run_frame (fun _ => ?_) h
  refine .trans ?_ (Mach.issue_frame (fun _ => ?_))
  · exact .refl
  · refine .trans ?_ (.mono rfl (Mach.transfer_frame ..))
    exact .refl

theorem execLdxStxCompletion_frame (e : Nat) (bad : Option Nat) (moved : Nat) (st st' : State) (h : execLdxStxCompletion e bad moved st =
    .next st') : Frame [.dev, .regs, .mem, .eng, .sems, .flt, .grp, .qmg, .dram, .emt, .saf, .port, .pool] st.m st'.m := by
  refine State.run_frame (fun _ => ?_) h
  split
  · refine .trans ?_ (.mono rfl (Mach.resume_frame ..))
    refine .trans ?_ (Frame.when (fun _ => ?_))
    · refine .ite ?_ ?_
      · refine .trans ?_ (.mono rfl (Mach.copy_frame ..))
        refine .trans ?_ (.mono rfl (Mach.leaveQueues_frame ..))
        exact .refl
      · refine .trans ?_ (.mono rfl (Mach.unverify_frame ..))
        refine .trans ?_ (.mono rfl (Mach.copy_frame ..))
        refine .trans ?_ (.mono rfl (Mach.leaveQueues_frame ..))
        exact .refl
    · refine .trans ?_ (.mono rfl (Mach.dramUe_frame ..))
      exact .refl
  · exact .refl

theorem execRdcsControl_frame (e : Nat) (i : FM) (st st' : State) (h : execRdcsControl e i st = .next st') : Frame [.free, .dev, .regs,
    .mem, .eng, .sems, .flt, .grp, .qmg, .dram, .emt, .saf, .port, .pool] st.m st'.m := by
  refine State.run_frame (fun _ => ?_) h
  refine .trans ?_ (Mach.issue_frame (fun _ => ?_))
  · exact .refl
  · refine .trans ?_ (.mono rfl (Mach.ctlIssue_frame ..))
    exact .refl

theorem execWrcsControl_frame (e : Nat) (i : FM) (st st' : State) (h : execWrcsControl e i st = .next st') : Frame [.free, .dev, .regs,
    .mem, .eng, .sems, .flt, .grp, .qmg, .dram, .emt, .saf, .port, .pool] st.m st'.m := by
  refine State.run_frame (fun _ => ?_) h
  refine .trans ?_ (Mach.issue_frame (fun _ => ?_))
  · exact .refl
  · refine .trans ?_ (.mono rfl (Mach.ctlIssue_frame ..))
    exact .refl

theorem execControlSpaceCompletion_frame (e : Nat) (st st' : State) (h : execControlSpaceCompletion e st = .next st') : Frame [.free,
    .status, .dev, .regs, .shadow, .mem, .commits, .eng, .sems, .flt, .grp, .lane, .qmg, .dram, .emt, .grd, .saf, .axis, .port, .tdc,
    .pool, .pts, .hk, .probe, .fusJob] st.m st'.m := by
  refine State.run_frame (fun _ => ?_) h
  split
  · split
    refine .trans ?_ (.mono rfl (Mach.ctlEnd_frame ..))
    (rename_i hpair; obtain rfl := congrArg Prod.snd hpair)
    refine .trans ?_ (.mono rfl (Mach.readAt_frame ..))
    exact .refl
  · refine .trans ?_ (.mono rfl (Mach.ctlEnd_frame ..))
    refine .trans ?_ (.mono rfl (Mach.writeAt_frame ..))
    exact .refl
  · exact .refl

theorem execRdcsLocal_frame (e : Nat) (i : FI) (st st' : State) (h : execRdcsLocal e i st = .next st') : Frame [.free, .dev, .regs, .mem,
    .eng, .sems, .flt, .grp, .qmg, .dram, .emt, .saf, .port, .pool] st.m st'.m := by
  refine State.run_frame (fun _ => ?_) h
  refine .trans ?_ (Mach.issue_frame (fun _ => ?_))
  · exact .refl
  · split
    · refine .trans ?_ (.mono rfl (Mach.engFault_frame ..))
      exact .refl
    · refine .trans ?_ (.mono rfl (Mach.result_frame ..))
      refine .trans ?_ (Frame.when (fun _ => ?_))
      · exact .refl
      · refine .trans ?_ (.mono rfl (Mach.modE_frame ..))
        exact .refl

theorem execWrcsLocal_frame (e : Nat) (i : FI) (st st' : State) (h : execWrcsLocal e i st = .next st') : Frame [.free, .dev, .regs, .mem,
    .eng, .sems, .flt, .grp, .qmg, .dram, .emt, .saf, .port, .pool] st.m st'.m := by
  refine State.run_frame (fun _ => ?_) h
  refine .trans ?_ (Mach.issue_frame (fun _ => ?_))
  · exact .refl
  · split
    · refine .trans ?_ (.mono rfl (Mach.engFault_frame ..))
      exact .refl
    · refine .trans ?_ (.mono rfl (Mach.retire_frame ..))
      refine .trans ?_ (.mono rfl (Mach.setE_frame ..))
      exact .refl

theorem execB_frame (e : Nat) (i : FB) (st st' : State) (h : execB e i st = .next st') : Frame [.free, .dev, .regs, .mem, .eng, .sems,
    .flt, .grp, .qmg, .dram, .emt, .saf, .port, .pool] st.m st'.m := by
  refine State.run_frame (fun _ => ?_) h
  refine .trans ?_ (Mach.issue_frame (fun _ => ?_))
  · exact .refl
  · refine .trans ?_ (.mono rfl (Mach.leave_frame ..))
    exact .refl

theorem execBc_frame (e : Nat) (i : FB) (st st' : State) (h : execBc e i st = .next st') : Frame [.free, .dev, .regs, .mem, .eng, .sems,
    .flt, .grp, .qmg, .dram, .emt, .saf, .port, .pool] st.m st'.m := by
  refine State.run_frame (fun _ => ?_) h
  refine .trans ?_ (Mach.issue_frame (fun _ => ?_))
  · exact .refl
  · refine .ite ?_ ?_
    · refine .trans ?_ (.mono rfl (Mach.leave_frame ..))
      exact .refl
    · refine .trans ?_ (.mono rfl (Mach.retire_frame ..))
      exact .refl

theorem execCall_frame (e : Nat) (i : FB) (st st' : State) (h : execCall e i st = .next st') : Frame [.free, .dev, .regs, .mem, .eng,
    .sems, .flt, .grp, .qmg, .dram, .emt, .saf, .port, .pool] st.m st'.m := by
  refine State.run_frame (fun _ => ?_) h
  refine .trans ?_ (Mach.issue_frame (fun _ => ?_))
  · exact .refl
  · refine .ite ?_ ?_
    · refine .trans ?_ (.mono rfl (Mach.engFault_frame ..))
      exact .refl
    · refine .trans ?_ (.mono rfl (Mach.jump_frame ..))
      refine .trans ?_ (.mono rfl (Mach.modE_frame ..))
      exact .refl

theorem execRet_frame (e : Nat) (i : FS) (st st' : State) (h : execRet e i st = .next st') : Frame [.free, .dev, .regs, .mem, .eng, .sems,
    .flt, .grp, .qmg, .dram, .emt, .saf, .port, .pool] st.m st'.m := by
  refine State.run_frame (fun _ => ?_) h
  refine .trans ?_ (Mach.issue_frame (fun _ => ?_))
  · exact .refl
  · split
    · refine .trans ?_ (.mono rfl (Mach.engFault_frame ..))
      exact .refl
    · refine .trans ?_ (.mono rfl (Mach.leave_frame ..))
      refine .trans ?_ (.mono rfl (Mach.modE_frame ..))
      exact .refl

theorem execLoop_frame (e : Nat) (i : FI) (st st' : State) (h : execLoop e i st = .next st') : Frame [.free, .dev, .regs, .mem, .eng,
    .sems, .flt, .grp, .qmg, .dram, .emt, .saf, .port, .pool] st.m st'.m := by
  refine State.run_frame (fun _ => ?_) h
  refine .trans ?_ (Mach.issue_frame (fun _ => ?_))
  · exact .refl
  · refine .ite ?_ ?_
    · refine .trans ?_ (.mono rfl (Mach.engFault_frame ..))
      exact .refl
    · refine .ite ?_ ?_
      · refine .trans ?_ (.mono rfl (Mach.jump_frame ..))
        exact .refl
      · refine .ite ?_ ?_
        · refine .trans ?_ (.mono rfl (Mach.engFault_frame ..))
          exact .refl
        · refine .trans ?_ (.mono rfl (Mach.modE_frame ..))
          exact .refl

theorem execNop_frame (e : Nat) (i : FS) (st st' : State) (h : execNop e i st = .next st') : Frame [.free, .dev, .regs, .mem, .eng, .sems,
    .flt, .grp, .qmg, .dram, .emt, .saf, .port, .pool] st.m st'.m := by
  refine State.run_frame (fun _ => ?_) h
  refine .trans ?_ (Mach.issue_frame (fun _ => ?_))
  · exact .refl
  · refine .trans ?_ (.mono rfl (Mach.retire_frame ..))
    exact .refl

theorem execHalt_frame (e : Nat) (i : FS) (st st' : State) (h : execHalt e i st = .next st') : Frame [.free, .dev, .regs, .mem, .eng,
    .sems, .flt, .grp, .qmg, .dram, .emt, .saf, .port, .pool] st.m st'.m := by
  refine State.run_frame (fun _ => ?_) h
  refine .trans ?_ (Mach.issue_frame (fun _ => ?_))
  · exact .refl
  · refine .ite ?_ ?_
    · refine .trans ?_ (.mono rfl (Mach.engFault_frame ..))
      exact .refl
    · split
      · refine .trans ?_ (.mono rfl (Mach.haltSeqAs_frame ..))
        exact .refl
      · refine .trans ?_ (.mono rfl (Mach.haltEngine_frame ..))
        exact .refl

theorem execFault_frame (e : Nat) (i : FaultIns) (st st' : State) (h : execFault e i st = .next st') : Frame [.free, .dev, .regs, .mem,
    .eng, .sems, .flt, .grp, .qmg, .dram, .emt, .saf, .port, .pool] st.m st'.m := by
  refine State.run_frame (fun _ => ?_) h
  split
  · refine .trans ?_ (Mach.issue_frame (fun _ => ?_))
    · exact .refl
    · refine .trans ?_ (.mono rfl (Mach.engFault_frame ..))
      exact .refl
  · refine .trans ?_ (Mach.issue_frame (fun _ => ?_))
    · exact .refl
    · exact .refl
  · refine .ite ?_ ?_
    · refine .trans ?_ (Mach.issue_frame (fun _ => ?_))
      · exact .refl
      · exact .refl
    · exact .refl
  · refine .ite ?_ ?_
    · refine .trans ?_ (.mono rfl (Mach.engFault_frame ..))
      exact .refl
    · exact .refl

theorem execWatchdog_frame (e : Nat) (st st' : State) (h : execWatchdog e st = .next st') : Frame [.cyc, .free, .dev, .regs, .mem, .eng,
    .sems, .time, .flt, .grp, .qmg, .dram, .emt, .saf, .port, .pool] st.m st'.m := by
  refine State.run_frame (fun _ => ?_) h
  refine .ite ?_ ?_
  · refine .trans ?_ (.mono rfl (Mach.engFault_frame ..))
    refine .trans ?_ (.mono rfl (Mach.advanceTo_frame ..))
    exact .refl
  · exact .refl

theorem execLockstepMismatch_frame (n : Nat) (st st' : State) (h : execLockstepMismatch n st = .next st') : Frame [.free, .dev, .regs,
    .mem, .eng, .sems, .flt, .grp, .qmg, .dram, .emt, .saf, .port, .pool] st.m st'.m := by
  refine State.run_frame (fun _ => ?_) h
  refine .ite ?_ ?_
  · exact .refl
  · refine .trans ?_ (.mono rfl (Mach.enterOasis_frame ..))
    refine .trans ?_ (.mono rfl (Mach.supervisorDown_frame ..))
    refine .trans ?_ (.mono rfl (Mach.report_frame ..))
    refine .trans ?_ (.mono rfl (Mach.haltEngine_frame ..))
    refine .trans ?_ (.mono rfl (Mach.faultRecord_frame ..))
    refine .trans ?_ (.mono rfl (Mach.satInc_frame ..))
    exact .refl

theorem execTrap_frame (e : Nat) (i : FX) (st st' : State) (h : execTrap e i st = .next st') : Frame [.free, .dev, .regs, .mem, .eng,
    .sems, .flt, .grp, .qmg, .dram, .emt, .saf, .port, .pool] st.m st'.m := by
  refine State.run_frame (fun _ => ?_) h
  refine .trans ?_ (Mach.issue_frame (fun _ => ?_))
  · exact .refl
  · refine .ite ?_ ?_
    · refine .trans ?_ (.mono rfl (Mach.engFault_frame ..))
      exact .refl
    · refine .trans ?_ (.mono rfl (Mach.modE_frame ..))
      exact .refl

theorem execEret_frame (e : Nat) (i : FX) (st st' : State) (h : execEret e i st = .next st') : Frame [.free, .dev, .regs, .mem, .eng,
    .sems, .flt, .grp, .qmg, .dram, .emt, .saf, .port, .pool] st.m st'.m := by
  refine State.run_frame (fun _ => ?_) h
  refine .trans ?_ (Mach.issue_frame (fun _ => ?_))
  · exact .refl
  · refine .ite ?_ ?_
    · refine .trans ?_ (.mono rfl (Mach.modE_frame ..))
      exact .refl
    · refine .trans ?_ (.mono rfl (Mach.engFault_frame ..))
      exact .refl

theorem execWait_frame (e : Nat) (i : FW) (st st' : State) (h : execWait e i st = .next st') : Frame [.free, .dev, .regs, .mem, .eng,
    .sems, .flt, .grp, .qmg, .dram, .emt, .saf, .port, .pool] st.m st'.m := by
  refine State.run_frame (fun _ => ?_) h
  refine .trans ?_ (Mach.issue_frame (fun _ => ?_))
  · exact .refl
  · refine .ite ?_ ?_
    · refine .trans ?_ (.mono rfl (Mach.engFault_frame ..))
      exact .refl
    · refine .ite ?_ ?_
      · refine .trans ?_ (.mono rfl (Mach.result_frame ..))
        refine .trans ?_ (.mono rfl (Mach.setSem_frame ..))
        exact .refl
      · refine .ite ?_ ?_
        · refine .trans ?_ (.mono rfl (Mach.result_frame ..))
          exact .refl
        · refine .trans ?_ (.mono rfl (Mach.waits_frame ..))
          refine .trans ?_ (.mono rfl (Mach.setSem_frame ..))
          exact .refl

theorem execWaitTimeout_frame (e : Nat) (st st' : State) (h : execWaitTimeout e st = .next st') : Frame [.cyc, .regs, .eng, .sems, .time,
    .qmg, .dram, .pool] st.m st'.m := by
  refine State.run_frame (fun _ => ?_) h
  split
  · refine .trans ?_ (.mono rfl (Mach.resume_frame ..))
    refine .trans ?_ (.mono rfl (Mach.leaveQueues_frame ..))
    refine .trans ?_ (.mono rfl (Mach.advanceTo_frame ..))
    exact .refl
  · exact .refl

theorem execSig_frame (e : Nat) (i : FI) (st st' : State) (h : execSig e i st = .next st') : Frame [.free, .dev, .regs, .mem, .eng, .sems,
    .flt, .grp, .qmg, .dram, .emt, .saf, .port, .pool] st.m st'.m := by
  refine State.run_frame (fun _ => ?_) h
  refine .trans ?_ (Mach.issue_frame (fun _ => ?_))
  · exact .refl
  · refine .ite ?_ ?_
    · refine .trans ?_ (.mono rfl (Mach.engFault_frame ..))
      exact .refl
    · refine .trans ?_ (.mono rfl (Mach.retire_frame ..))
      refine .trans ?_ (.mono rfl (Mach.semServe_frame ..))
      refine .trans ?_ (.mono rfl (Mach.setSem_frame ..))
      refine .trans ?_ (.mono rfl (Mach.sat_frame ..))
      exact .refl

theorem execWtime_frame (e : Nat) (i : FI) (st st' : State) (h : execWtime e i st = .next st') : Frame [.free, .dev, .regs, .mem, .eng,
    .sems, .flt, .grp, .qmg, .dram, .emt, .saf, .port, .pool] st.m st'.m := by
  refine State.run_frame (fun _ => ?_) h
  refine .trans ?_ (Mach.issue_frame (fun _ => ?_))
  · exact .refl
  · refine .trans ?_ (.mono rfl (Mach.waits_frame ..))
    exact .refl

theorem execWtimeTimeout_frame (e : Nat) (st st' : State) (h : execWtimeTimeout e st = .next st') : Frame [.cyc, .eng, .time] st.m st'.m
    := by
  refine State.run_frame (fun _ => ?_) h
  split
  · refine .ite ?_ ?_
    · exact .refl
    · refine .trans ?_ (.mono rfl (Mach.resume_frame ..))
      refine .trans ?_ (.mono rfl (Mach.advanceTo_frame ..))
      exact .refl
  · exact .refl

theorem execMsnd_frame (e : Nat) (i : FW) (st st' : State) (h : execMsnd e i st = .next st') : Frame [.free, .dev, .regs, .mem, .eng,
    .sems, .flt, .grp, .qmg, .dram, .emt, .saf, .port, .pool] st.m st'.m := by
  refine State.run_frame (fun _ => ?_) h
  refine .trans ?_ (Mach.issue_frame (fun _ => ?_))
  · exact .refl
  · refine .ite ?_ ?_
    · refine .trans ?_ (.mono rfl (Mach.result_frame ..))
      exact .refl
    · refine .ite ?_ ?_
      · refine .trans ?_ (.mono rfl (Mach.result_frame ..))
        refine .trans ?_ (.mono rfl (Mach.mboxRefuse_frame ..))
        exact .refl
      · refine .trans ?_ (.mono rfl (Mach.result_frame ..))
        refine .trans ?_ (.mono rfl (Mach.modE_frame ..))
        exact .refl

theorem execMailboxWordArrival_frame (sender e : Nat) (st st' : State) (h : execMailboxWordArrival sender e st = .next st') : Frame [.eng]
    st.m st'.m := by
  refine State.run_frame (fun _ => ?_) h
  split
  · refine .trans ?_ (.mono rfl (Mach.mboxPut_frame ..))
    refine .trans ?_ (.mono rfl (Mach.modE_frame ..))
    exact .refl
  · exact .refl

theorem execMrcv_frame (e : Nat) (i : FW) (st st' : State) (h : execMrcv e i st = .next st') : Frame [.free, .dev, .regs, .mem, .eng,
    .sems, .flt, .grp, .qmg, .dram, .emt, .saf, .port, .pool] st.m st'.m := by
  refine State.run_frame (fun _ => ?_) h
  refine .trans ?_ (Mach.issue_frame (fun _ => ?_))
  · exact .refl
  · split
    · refine .trans ?_ (.mono rfl (Mach.result_frame ..))
      refine .trans ?_ (.mono rfl (Mach.modE_frame ..))
      exact .refl
    · refine .ite ?_ ?_
      · refine .trans ?_ (.mono rfl (Mach.retire_frame ..))
        refine .trans ?_ (.mono rfl (Mach.modE_frame ..))
        exact .refl
      · refine .trans ?_ (.mono rfl (Mach.waits_frame ..))
        exact .refl

theorem execMrcvTimeout_frame (e : Nat) (st st' : State) (h : execMrcvTimeout e st = .next st') : Frame [.cyc, .eng, .time] st.m st'.m := by
  refine State.run_frame (fun _ => ?_) h
  split
  · refine .trans ?_ (.mono rfl (Mach.resumeKeep_frame ..))
    refine .trans ?_ (.mono rfl (Mach.modE_frame ..))
    refine .trans ?_ (.mono rfl (Mach.advanceTo_frame ..))
    exact .refl
  · exact .refl

theorem execEmit_frame (e : Nat) (i : FM) (st st' : State) (h : execEmit e i st = .next st') : Frame [.free, .dev, .regs, .mem, .eng,
    .sems, .flt, .grp, .qmg, .dram, .emt, .saf, .port, .pool] st.m st'.m := by
  refine State.run_frame (fun _ => ?_) h
  refine .trans ?_ (Mach.issue_frame (fun _ => ?_))
  · exact .refl
  · refine .ite ?_ ?_
    · refine .trans ?_ (.mono rfl (Mach.engFault_frame ..))
      exact .refl
    · refine .ite ?_ ?_
      · refine .trans ?_ (.mono rfl (Mach.engFault_frame ..))
        exact .refl
      · refine .ite ?_ ?_
        · refine .trans ?_ (.mono rfl (Mach.engFault_frame ..))
          exact .refl
        · refine .ite ?_ ?_
          · refine .trans ?_ (.mono rfl (Mach.result_frame ..))
            exact .refl
          · refine .ite ?_ ?_
            · refine .trans ?_ (.mono rfl (Mach.result_frame ..))
              refine .trans ?_ (.mono rfl (Mach.modE_frame ..))
              exact .refl
            · refine .ite ?_ ?_
              · refine .trans ?_ (.mono rfl (Mach.result_frame ..))
                refine .trans ?_ (.mono rfl (Mach.modE_frame ..))
                exact .refl
              · split
                · refine .trans ?_ (.mono rfl (Mach.result_frame ..))
                  (rename_i hpair; obtain rfl := congrArg Prod.fst hpair)
                  refine .trans ?_ (.mono rfl (Mach.offer_frame ..))
                  refine .trans ?_ (.mono rfl (Mach.modE_frame ..))
                  exact .refl
                · refine .trans ?_ (.mono rfl (Mach.result_frame ..))
                  (rename_i hpair; obtain rfl := congrArg Prod.fst hpair)
                  refine .trans ?_ (.mono rfl (Mach.offer_frame ..))
                  refine .trans ?_ (.mono rfl (Mach.modE_frame ..))
                  exact .refl
                · refine .trans ?_ (.mono rfl (Mach.waits_frame ..))
                  (rename_i hpair; obtain rfl := congrArg Prod.fst hpair)
                  refine .trans ?_ (.mono rfl (Mach.offer_frame ..))
                  refine .trans ?_ (.mono rfl (Mach.modE_frame ..))
                  exact .refl

theorem execEmitTimeout_frame (e : Nat) (st st' : State) (h : execEmitTimeout e st = .next st') : Frame [.cyc, .regs, .eng, .time, .qmg]
    st.m st'.m := by
  refine State.run_frame (fun _ => ?_) h
  split
  · refine .trans ?_ (.mono rfl (Mach.resume_frame ..))
    refine .trans ?_ (.mono rfl (Mach.qDrop_frame ..))
    refine .trans ?_ (.mono rfl (Mach.withdraw_frame ..))
    refine .trans ?_ (.mono rfl (Mach.advanceTo_frame ..))
    exact .refl
  · exact .refl

theorem execFire_frame (e : Nat) (i : FX) (st st' : State) (h : execFire e i st = .next st') : Frame [.free, .dev, .regs, .mem, .commits,
    .eng, .sems, .flt, .grp, .qmg, .dram, .emt, .saf, .port, .pool] st.m st'.m := by
  refine State.run_frame (fun _ => ?_) h
  refine .trans ?_ (Mach.seqIssue_frame (fun _ => ?_))
  · exact .refl
  · refine .ite ?_ ?_
    · refine .trans ?_ (.mono rfl (Mach.waits_frame ..))
      refine .trans ?_ (.mono rfl (Mach.modSeq_frame ..))
      exact .refl
    · refine .trans ?_ (.mono rfl (Mach.fireNow_frame ..))
      exact .refl

theorem execStringArbitration_frame  (st st' : State) (h : execStringArbitration  st = .next st') : Frame [.cyc, .dev, .regs, .mem, .eng,
    .sems, .time, .flt, .grp, .qmg, .dram, .emt, .saf, .port, .pool, .rej] st.m st'.m := by
  refine State.run_frame (fun _ => ?_) h
  split
  · exact .refl
  · dsimp only
    refine .trans ?_ (.foldl (fun _ _ => ?_) _)
    · refine .trans ?_ (.mono rfl (Mach.ties_frame ..))
      refine .trans ?_ (.foldl (fun _ _ => ?_) _)
      · refine .emt ?_
        refine .trans ?_ (.mono rfl (Mach.advanceTo_frame ..))
        exact .refl
      · refine .trans ?_ (.mono rfl (Mach.satAdd_frame ..))
        refine .trans ?_ (.mono rfl (Mach.satAdd_frame ..))
        exact .refl
    · refine .trans ?_ (.mono rfl (Mach.judge_frame ..))
      exact .refl

theorem execGuardDecision_frame (n : Nat) (late : Bool) (st st' : State) (h : execGuardDecision n late st = .next st') : Frame [.cyc,
    .regs, .mem, .eng, .sems, .time, .qmg, .dram, .emt, .grd, .port, .pool, .rej] st.m st'.m := by
  refine State.run_frame (fun _ => ?_) h
  split
  · refine .ite ?_ ?_
    · exact .refl
    · refine .trans ?_ (.mono rfl (Mach.shadowEnd_frame ..))
      exact .refl
  · refine .trans ?_ (.mono rfl (Mach.seqSettled_frame ..))
    refine .ite ?_ ?_
    · refine .trans ?_ (.mono rfl (Mach.shotDenied_frame ..))
      refine .trans ?_ (.mono rfl (Mach.advanceTo_frame ..))
      exact .refl
    · split
      refine .ite ?_ ?_
      · refine .trans ?_ (.mono rfl (Mach.shotGranted_frame ..))
        (rename_i hpair; obtain rfl := congrArg Prod.snd hpair)
        refine .trans ?_ (.mono rfl (Mach.guardDecide_frame ..))
        refine .trans ?_ (.mono rfl (Mach.advanceTo_frame ..))
        exact .refl
      · refine .trans ?_ (.mono rfl (Mach.shotDenied_frame ..))
        refine .trans ?_ (.mono rfl (Mach.countShot_frame ..))
        refine .trans ?_ (.mono rfl (Mach.satInc_frame ..))
        refine .emt ?_
        (rename_i hpair; obtain rfl := congrArg Prod.snd hpair)
        refine .trans ?_ (.mono rfl (Mach.guardDecide_frame ..))
        refine .trans ?_ (.mono rfl (Mach.advanceTo_frame ..))
        exact .refl

theorem execPatternFrame_frame  (st st' : State) (h : execPatternFrame  st = .next st') : Frame [.cyc, .time, .emt] st.m st'.m := by
  refine State.run_frame (fun _ => ?_) h
  split
  · exact .refl
  · refine .trans ?_ (.mono rfl (Mach.sendFrame_frame ..))
    refine .trans ?_ (.mono rfl (Mach.advanceTo_frame ..))
    exact .refl

theorem execFireEdge_frame  (st st' : State) (h : execFireEdge  st = .next st') : Frame [.cyc, .regs, .commits, .eng, .sems, .time, .qmg,
    .dram, .emt, .port, .tdc, .pool] st.m st'.m := by
  refine State.run_frame (fun _ => ?_) h
  split
  · exact .refl
  · refine .trans ?_ (.mono rfl (Mach.unstall_frame ..))
    refine .trans ?_ (.mono rfl (Mach.seqSettled_frame ..))
    refine .ite ?_ ?_
    · refine .emt ?_
      refine .trans ?_ (.mono rfl (Mach.putShot_frame ..))
      refine .emt ?_
      refine .ite ?_ ?_
      · refine .trans ?_ (.mono rfl (Mach.advanceToFine_frame ..))
        refine .ite ?_ ?_
        · exact .refl
        · refine .trans ?_ (.mono rfl (Mach.sendFrame_frame ..))
          exact .refl
      · refine .trans ?_ (.mono rfl (Mach.latchStart_frame ..))
        refine .trans ?_ (.mono rfl (Mach.advanceToFine_frame ..))
        refine .ite ?_ ?_
        · exact .refl
        · refine .trans ?_ (.mono rfl (Mach.sendFrame_frame ..))
          exact .refl
    · refine .ite ?_ ?_
      · refine .trans ?_ (.mono rfl (Mach.walkOutcome_frame ..))
        refine .trans ?_ (.foldl (fun _ _ => ?_) _)
        · refine .trans ?_ (.mono rfl (Mach.satInc_frame ..))
          refine .trans ?_ (.mono rfl (Mach.dropShot_frame ..))
          refine .emt ?_
          refine .ite ?_ ?_
          · refine .trans ?_ (.mono rfl (Mach.advanceToFine_frame ..))
            refine .ite ?_ ?_
            · exact .refl
            · refine .trans ?_ (.mono rfl (Mach.sendFrame_frame ..))
              exact .refl
          · refine .trans ?_ (.mono rfl (Mach.latchStart_frame ..))
            refine .trans ?_ (.mono rfl (Mach.advanceToFine_frame ..))
            refine .ite ?_ ?_
            · exact .refl
            · refine .trans ?_ (.mono rfl (Mach.sendFrame_frame ..))
              exact .refl
        · refine .trans ?_ (.mono rfl (Mach.portBlocked_frame ..))
          exact .refl
      · refine .ite ?_ ?_
        · refine .trans ?_ (.mono rfl (Mach.proofDone_frame ..))
          refine .trans ?_ (.foldl (fun _ _ => ?_) _)
          · refine .trans ?_ (.mono rfl (Mach.satInc_frame ..))
            refine .trans ?_ (.mono rfl (Mach.dropShot_frame ..))
            refine .emt ?_
            refine .ite ?_ ?_
            · refine .trans ?_ (.mono rfl (Mach.advanceToFine_frame ..))
              refine .ite ?_ ?_
              · exact .refl
              · refine .trans ?_ (.mono rfl (Mach.sendFrame_frame ..))
                exact .refl
            · refine .trans ?_ (.mono rfl (Mach.latchStart_frame ..))
              refine .trans ?_ (.mono rfl (Mach.advanceToFine_frame ..))
              refine .ite ?_ ?_
              · exact .refl
              · refine .trans ?_ (.mono rfl (Mach.sendFrame_frame ..))
                exact .refl
          · refine .trans ?_ (.mono rfl (Mach.portBlocked_frame ..))
            exact .refl
        · refine .trans ?_ (.foldl (fun _ _ => ?_) _)
          · refine .trans ?_ (.mono rfl (Mach.satInc_frame ..))
            refine .trans ?_ (.mono rfl (Mach.dropShot_frame ..))
            refine .emt ?_
            refine .ite ?_ ?_
            · refine .trans ?_ (.mono rfl (Mach.advanceToFine_frame ..))
              refine .ite ?_ ?_
              · exact .refl
              · refine .trans ?_ (.mono rfl (Mach.sendFrame_frame ..))
                exact .refl
            · refine .trans ?_ (.mono rfl (Mach.latchStart_frame ..))
              refine .trans ?_ (.mono rfl (Mach.advanceToFine_frame ..))
              refine .ite ?_ ?_
              · exact .refl
              · refine .trans ?_ (.mono rfl (Mach.sendFrame_frame ..))
                exact .refl
          · refine .trans ?_ (.mono rfl (Mach.portBlocked_frame ..))
            exact .refl

theorem execOpticalStart_frame (s t : Nat) (st st' : State) (h : execOpticalStart s t st = .next st') : Frame [.cyc, .regs, .eng, .time,
    .emt, .port] st.m st'.m := by
  refine State.run_frame (fun _ => ?_) h
  split
  · exact .refl
  · refine .ite ?_ ?_
    · exact .refl
    · refine .trans ?_ (.mono rfl (Mach.started_frame ..))
      exact .refl

theorem execNoStart_frame (s : Nat) (st st' : State) (h : execNoStart s st = .next st') : Frame [.cyc, .dev, .regs, .mem, .eng, .sems,
    .time, .flt, .grp, .qmg, .dram, .emt, .saf, .port, .pool] st.m st'.m := by
  refine State.run_frame (fun _ => ?_) h
  split
  · exact .refl
  · refine .trans ?_ (.mono rfl (Mach.notStarted_frame ..))
    refine .trans ?_ (.mono rfl (Mach.advanceToFine_frame ..))
    exact .refl

theorem execProof_frame (e : Nat) (i : FX) (st st' : State) (h : execProof e i st = .next st') : Frame [.free, .dev, .regs, .mem,
    .commits, .eng, .sems, .flt, .grp, .qmg, .dram, .emt, .saf, .port, .pool] st.m st'.m := by
  refine State.run_frame (fun _ => ?_) h
  refine .trans ?_ (Mach.seqIssue_frame (fun _ => ?_))
  · exact .refl
  · refine .ite ?_ ?_
    · refine .trans ?_ (.mono rfl (Mach.waits_frame ..))
      refine .trans ?_ (.mono rfl (Mach.applyGroups_frame ..))
      exact .refl
    · refine .trans ?_ (.mono rfl (Mach.ask_frame ..))
      refine .trans ?_ (.mono rfl (Mach.waits_frame ..))
      refine .trans ?_ (.mono rfl (Mach.applyGroups_frame ..))
      exact .refl

theorem execProofWalk_frame (e : Nat) (i : FX) (st st' : State) (h : execProofWalk e i st = .next st') : Frame [.free, .dev, .regs, .mem,
    .commits, .eng, .sems, .flt, .grp, .qmg, .dram, .emt, .saf, .port, .pool] st.m st'.m := by
  refine State.run_frame (fun _ => ?_) h
  refine .trans ?_ (Mach.seqIssue_frame (fun _ => ?_))
  · exact .refl
  · refine .ite ?_ ?_
    · refine .trans ?_ (.mono rfl (Mach.waits_frame ..))
      refine .trans ?_ (.mono rfl (Mach.applyGroups_frame ..))
      exact .refl
    · refine .ite ?_ ?_
      · refine .trans ?_ (.mono rfl (Mach.result_frame ..))
        refine .trans ?_ (.mono rfl (Mach.applyGroups_frame ..))
        exact .refl
      · refine .ite ?_ ?_
        · refine .trans ?_ (.mono rfl (Mach.result_frame ..))
          refine .trans ?_ (.mono rfl (Mach.setFld_frame ..))
          refine .trans ?_ (.mono rfl (Mach.applyGroups_frame ..))
          exact .refl
        · refine .trans ?_ (.mono rfl (Mach.waits_frame ..))
          refine .trans ?_ (.mono rfl (Mach.showWalks_frame ..))
          refine .emt ?_
          refine .trans ?_ (.mono rfl (Mach.applyGroups_frame ..))
          exact .refl

theorem execWalkShot_frame (s : Nat) (st st' : State) (h : execWalkShot s st = .next st') : Frame [.cyc, .time, .emt] st.m st'.m := by
  refine State.run_frame (fun _ => ?_) h
  split
  · exact .refl
  · refine .ite ?_ ?_
    · exact .refl
    · split
      · refine .trans ?_ (.mono rfl (Mach.modWalk_frame ..))
        refine .trans ?_ (.mono rfl (Mach.ask_frame ..))
        refine .trans ?_ (.mono rfl (Mach.advanceTo_frame ..))
        exact .refl
      · refine .ite ?_ ?_
        · exact .refl
        · refine .trans ?_ (.mono rfl (Mach.modWalk_frame ..))
          refine .trans ?_ (.mono rfl (Mach.ask_frame ..))
          refine .trans ?_ (.mono rfl (Mach.advanceTo_frame ..))
          exact .refl

theorem execProofLate_frame (s : Nat) (st st' : State) (h : execProofLate s st = .next st') : Frame [.cyc, .dev, .regs, .mem, .eng, .sems,
    .time, .flt, .grp, .qmg, .dram, .emt, .saf, .port, .pool] st.m st'.m := by
  refine State.run_frame (fun _ => ?_) h
  split
  · exact .refl
  · refine .trans ?_ (.mono rfl (Mach.report_frame ..))
    refine .trans ?_ (.mono rfl (Mach.setFld_frame ..))
    refine .emt ?_
    refine .trans ?_ (.mono rfl (Mach.advanceTo_frame ..))
    exact .refl

theorem execArm_frame (e : Nat) (i : FX) (st st' : State) (h : execArm e i st = .next st') : Frame [.free, .dev, .regs, .mem, .eng, .sems,
    .flt, .grp, .qmg, .dram, .emt, .saf, .port, .pool] st.m st'.m := by
  refine State.run_frame (fun _ => ?_) h
  refine .trans ?_ (Mach.seqIssue_frame (fun _ => ?_))
  · exact .refl
  · refine .ite ?_ ?_
    · refine .trans ?_ (.mono rfl (Mach.result_frame ..))
      refine .trans ?_ (Frame.when (fun _ => ?_))
      · exact .refl
      · refine .trans ?_ (.mono rfl (Mach.modSeq_frame ..))
        exact .refl
    · refine .ite ?_ ?_
      · refine .trans ?_ (.mono rfl (Mach.result_frame ..))
        refine .trans ?_ (Frame.when (fun _ => ?_))
        · exact .refl
        · refine .trans ?_ (.mono rfl (Mach.modSeq_frame ..))
          exact .refl
      · refine .trans ?_ (.mono rfl (Mach.result_frame ..))
        refine .trans ?_ (.mono rfl (Mach.setFld_frame ..))
        refine .trans ?_ (.mono rfl (Mach.modSeq_frame ..))
        refine .trans ?_ (Frame.when (fun _ => ?_))
        · exact .refl
        · refine .trans ?_ (.mono rfl (Mach.modSeq_frame ..))
          exact .refl

theorem execArmClose_frame (e : Nat) (i : FX) (st st' : State) (h : execArmClose e i st = .next st') : Frame [.free, .dev, .regs, .mem,
    .eng, .sems, .flt, .grp, .qmg, .dram, .emt, .saf, .port, .pool] st.m st'.m := by
  refine State.run_frame (fun _ => ?_) h
  refine .trans ?_ (Mach.seqIssue_frame (fun _ => ?_))
  · exact .refl
  · refine .ite ?_ ?_
    · refine .trans ?_ (.mono rfl (Mach.result_frame ..))
      refine .trans ?_ (Frame.when (fun _ => ?_))
      · exact .refl
      · refine .trans ?_ (.mono rfl (Mach.modSeq_frame ..))
        exact .refl
    · refine .trans ?_ (.mono rfl (Mach.result_frame ..))
      refine .trans ?_ (Frame.when (fun _ => ?_))
      · refine .trans ?_ (Frame.when (fun _ => ?_))
        · exact .refl
        · refine .trans ?_ (.mono rfl (Mach.modSeq_frame ..))
          exact .refl
      · refine .trans ?_ (.foldl (fun _ _ => ?_) _)
        · exact .refl
        · refine .trans ?_ (.mono rfl (Mach.closeCell_frame ..))
          exact .refl

theorem execWangle_frame (e : Nat) (i : FX) (st st' : State) (h : execWangle e i st = .next st') : Frame [.free, .dev, .regs, .mem, .eng,
    .sems, .flt, .grp, .qmg, .dram, .emt, .saf, .port, .pool] st.m st'.m := by
  refine State.run_frame (fun _ => ?_) h
  refine .trans ?_ (Mach.seqIssue_frame (fun _ => ?_))
  · exact .refl
  · refine .ite ?_ ?_
    · refine .trans ?_ (.mono rfl (Mach.result_frame ..))
      exact .refl
    · refine .trans ?_ (.mono rfl (Mach.waits_frame ..))
      exact .refl

theorem execWangleEvaluation_frame (e : Nat) (st st' : State) (h : execWangleEvaluation e st = .next st') : Frame [.cyc, .eng, .time] st.m
    st'.m := by
  refine State.run_frame (fun _ => ?_) h
  split
  · refine .ite ?_ ?_
    · refine .trans ?_ (.mono rfl (Mach.resume_frame ..))
      refine .trans ?_ (.mono rfl (Mach.advanceTo_frame ..))
      exact .refl
    · refine .ite ?_ ?_
      · refine .trans ?_ (.mono rfl (Mach.resume_frame ..))
        refine .trans ?_ (.mono rfl (Mach.advanceTo_frame ..))
        exact .refl
      · refine .ite ?_ ?_
        · refine .trans ?_ (.mono rfl (Mach.resume_frame ..))
          refine .trans ?_ (.mono rfl (Mach.advanceTo_frame ..))
          exact .refl
        · refine .trans ?_ (.mono rfl (Mach.modE_frame ..))
          refine .trans ?_ (.mono rfl (Mach.advanceTo_frame ..))
          exact .refl
  · exact .refl

theorem execCode_frame (e : Nat) (i : FX) (st st' : State) (h : execCode e i st = .next st') : Frame [.free, .dev, .regs, .mem, .eng,
    .sems, .flt, .grp, .qmg, .dram, .emt, .saf, .port, .pool] st.m st'.m := by
  refine State.run_frame (fun _ => ?_) h
  refine .trans ?_ (Mach.seqIssue_frame (fun _ => ?_))
  · exact .refl
  · refine .ite ?_ ?_
    · refine .trans ?_ (.mono rfl (Mach.result_frame ..))
      exact .refl
    · refine .ite ?_ ?_
      · refine .trans ?_ (.mono rfl (Mach.result_frame ..))
        exact .refl
      · refine .trans ?_ (.mono rfl (Mach.result_frame ..))
        refine .trans ?_ (.mono rfl (Mach.modSeq_frame ..))
        refine .trans ?_ (Frame.when (fun _ => ?_))
        · exact .refl
        · refine .trans ?_ (.mono rfl (Mach.closeArmed_frame ..))
          exact .refl

theorem execCodeOff_frame (e : Nat) (i : FX) (st st' : State) (h : execCodeOff e i st = .next st') : Frame [.free, .dev, .regs, .mem,
    .eng, .sems, .flt, .grp, .qmg, .dram, .emt, .saf, .port, .pool] st.m st'.m := by
  refine State.run_frame (fun _ => ?_) h
  refine .trans ?_ (Mach.seqIssue_frame (fun _ => ?_))
  · exact .refl
  · refine .trans ?_ (.mono rfl (Mach.result_frame ..))
    refine .trans ?_ (.mono rfl (Mach.modSeq_frame ..))
    refine .trans ?_ (Frame.when (fun _ => ?_))
    · exact .refl
    · refine .trans ?_ (.mono rfl (Mach.closeArmed_frame ..))
      exact .refl

theorem execPat_frame (e : Nat) (i : FX) (st st' : State) (h : execPat e i st = .next st') : Frame [.free, .dev, .regs, .mem, .eng, .sems,
    .flt, .grp, .qmg, .dram, .emt, .saf, .port, .pool] st.m st'.m := by
  refine State.run_frame (fun _ => ?_) h
  refine .trans ?_ (Mach.seqIssue_frame (fun _ => ?_))
  · exact .refl
  · refine .trans ?_ (.mono rfl (Mach.result_frame ..))
    refine .trans ?_ (.mono rfl (Mach.modSeq_frame ..))
    exact .refl

theorem execZoom_frame (e : Nat) (i : FX) (st st' : State) (h : execZoom e i st = .next st') : Frame [.free, .dev, .regs, .mem, .eng,
    .sems, .flt, .grp, .qmg, .dram, .emt, .saf, .port, .pool] st.m st'.m := by
  refine State.run_frame (fun _ => ?_) h
  refine .trans ?_ (Mach.seqIssue_frame (fun _ => ?_))
  · exact .refl
  · refine .ite ?_ ?_
    · refine .trans ?_ (.mono rfl (Mach.result_frame ..))
      exact .refl
    · split
      · refine .trans ?_ (.mono rfl (Mach.result_frame ..))
        exact .refl
      · refine .ite ?_ ?_
        · refine .trans ?_ (.mono rfl (Mach.result_frame ..))
          exact .refl
        · refine .trans ?_ (.mono rfl (Mach.result_frame ..))
          refine .trans ?_ (.foldl (fun _ _ => ?_) _)
          · exact .refl
          · refine .trans ?_ (.mono rfl (Mach.zoomAt_frame ..))
            exact .refl

theorem execZoomOff_frame (e : Nat) (i : FX) (st st' : State) (h : execZoomOff e i st = .next st') : Frame [.free, .dev, .regs, .mem,
    .eng, .sems, .flt, .grp, .qmg, .dram, .emt, .saf, .port, .pool] st.m st'.m := by
  refine State.run_frame (fun _ => ?_) h
  refine .trans ?_ (Mach.seqIssue_frame (fun _ => ?_))
  · exact .refl
  · refine .ite ?_ ?_
    · refine .trans ?_ (.mono rfl (Mach.result_frame ..))
      exact .refl
    · split
      · refine .trans ?_ (.mono rfl (Mach.result_frame ..))
        exact .refl
      · refine .trans ?_ (.mono rfl (Mach.result_frame ..))
        refine .trans ?_ (.foldl (fun _ _ => ?_) _)
        · exact .refl
        · refine .trans ?_ (.mono rfl (Mach.zoomOffAt_frame ..))
          exact .refl

theorem execSequencerHandover_frame (p : Nat) (st st' : State) (h : execSequencerHandover p st = .next st') : Frame [.regs, .shadow, .eng,
    .sems, .qmg, .dram, .emt, .port, .pool] st.m st'.m := by
  refine State.run_frame (fun _ => ?_) h
  split
  · exact .refl
  · refine .ite ?_ ?_
    · refine .trans ?_ (.mono rfl (Mach.stopSeq_frame ..))
      refine .trans ?_ (.mono rfl (Mach.setFld_frame ..))
      refine .trans ?_ (.foldl (fun _ _ => ?_) _)
      · refine .trans ?_ (.foldl (fun _ _ => ?_) _)
        · refine .trans ?_ (.mono rfl (Mach.setBoth_frame ..))
          exact .refl
        · refine .trans ?_ (.mono rfl (Mach.setShadow_frame ..))
          refine .trans ?_ (.mono rfl (Mach.setReg_frame ..))
          exact .refl
      · refine .trans ?_ (.mono rfl (Mach.closeCell_frame ..))
        exact .refl
    · refine .trans ?_ (.mono rfl (Mach.modE_frame ..))
      refine .trans ?_ (.mono rfl (Mach.setFld_frame ..))
      refine .trans ?_ (.foldl (fun _ _ => ?_) _)
      · refine .trans ?_ (.foldl (fun _ _ => ?_) _)
        · refine .trans ?_ (.mono rfl (Mach.setBoth_frame ..))
          exact .refl
        · refine .trans ?_ (.mono rfl (Mach.setShadow_frame ..))
          refine .trans ?_ (.mono rfl (Mach.setReg_frame ..))
          exact .refl
      · refine .trans ?_ (.mono rfl (Mach.closeCell_frame ..))
        exact .refl

theorem execMacs_frame (e : Nat) (i : FX) (st st' : State) (h : execMacs e i st = .next st') : Frame [.free, .dev, .regs, .mem, .eng,
    .sems, .flt, .grp, .qmg, .dram, .emt, .saf, .port, .pool] st.m st'.m := by
  refine State.run_frame (fun _ => ?_) h
  refine .trans ?_ (Mach.issue_frame (fun _ => ?_))
  · exact .refl
  · refine .trans ?_ (.mono rfl (Mach.retire_frame ..))
    refine .trans ?_ (.mono rfl (Mach.modE_frame ..))
    exact .refl

theorem execLim_frame (e : Nat) (i : FX) (st st' : State) (h : execLim e i st = .next st') : Frame [.free, .dev, .regs, .mem, .eng, .sems,
    .flt, .grp, .qmg, .dram, .emt, .saf, .port, .pool] st.m st'.m := by
  refine State.run_frame (fun _ => ?_) h
  refine .trans ?_ (Mach.issue_frame (fun _ => ?_))
  · exact .refl
  · refine .trans ?_ (.mono rfl (Mach.result_frame ..))
    refine .trans ?_ (.mono rfl (Mach.modE_frame ..))
    exact .refl

theorem execFerr_frame (e : Nat) (i : FX) (st st' : State) (h : execFerr e i st = .next st') : Frame [.free, .dev, .regs, .mem, .eng,
    .sems, .flt, .grp, .qmg, .dram, .emt, .saf, .axis, .port, .pool] st.m st'.m := by
  refine State.run_frame (fun _ => ?_) h
  refine .trans ?_ (Mach.issue_frame (fun _ => ?_))
  · exact .refl
  · refine .trans ?_ (.mono rfl (Mach.result_frame ..))
    refine .trans ?_ (Frame.when (fun _ => ?_))
    · exact .refl
    · refine .trans ?_ (.mono rfl (Mach.modAx_frame ..))
      exact .refl

theorem execXfade_frame (e : Nat) (i : FX) (st st' : State) (h : execXfade e i st = .next st') : Frame [.free, .dev, .regs, .mem, .eng,
    .sems, .flt, .grp, .qmg, .dram, .emt, .saf, .axis, .port, .pool] st.m st'.m := by
  refine State.run_frame (fun _ => ?_) h
  refine .trans ?_ (Mach.issue_frame (fun _ => ?_))
  · exact .refl
  · refine .ite ?_ ?_
    · refine .trans ?_ (.mono rfl (Mach.result_frame ..))
      exact .refl
    · split
      refine .trans ?_ (.mono rfl (Mach.result_frame ..))
      (rename_i hpair; obtain rfl := congrArg Prod.fst hpair)
      refine .trans ?_ (.mono rfl (Mach.fadeTo_frame ..))
      exact .refl

theorem execPub_frame (e : Nat) (i : FX) (st st' : State) (h : execPub e i st = .next st') : Frame [.free, .dev, .regs, .mem, .eng, .sems,
    .flt, .grp, .qmg, .dram, .emt, .saf, .axis, .port, .pool, .pts] st.m st'.m := by
  refine State.run_frame (fun _ => ?_) h
  refine .trans ?_ (Mach.issue_frame (fun _ => ?_))
  · exact .refl
  · refine .ite ?_ ?_
    · refine .trans ?_ (.mono rfl (Mach.result_frame ..))
      exact .refl
    · refine .ite ?_ ?_
      · refine .trans ?_ (.mono rfl (Mach.result_frame ..))
        refine .trans ?_ (.mono rfl (Mach.axNote_frame ..))
        exact .refl
      · split
        refine .trans ?_ (.mono rfl (Mach.result_frame ..))
        refine .trans ?_ (.mono rfl (Mach.modAx_frame ..))
        refine .trans ?_ (.mono rfl (Mach.ptsNote_frame ..))
        (rename_i hpair; obtain rfl := congrArg Prod.snd hpair)
        split
        · dsimp only
          refine .trans ?_ (.mono rfl (Mach.axNote_frame ..))
          exact .refl
        · split
          · dsimp only
            refine .trans ?_ (.mono rfl (Mach.axNote_frame ..))
            exact .refl
          · split
            dsimp only
            (rename_i hpair; obtain rfl := congrArg Prod.snd hpair)
            refine .trans ?_ (.mono rfl (Mach.takeFree_frame ..))
            refine .trans ?_ (.mono rfl (Mach.axNote_frame ..))
            exact .refl

theorem execDacw_frame (e : Nat) (i : FX) (st st' : State) (h : execDacw e i st = .next st') : Frame [.free, .dev, .regs, .mem, .eng,
    .sems, .flt, .grp, .qmg, .dram, .emt, .saf, .axis, .port, .pool] st.m st'.m := by
  refine State.run_frame (fun _ => ?_) h
  refine .trans ?_ (Mach.issue_frame (fun _ => ?_))
  · exact .refl
  · refine .ite ?_ ?_
    · refine .trans ?_ (.mono rfl (Mach.result_frame ..))
      refine .trans ?_ (.mono rfl (Mach.axNote_frame ..))
      refine .trans ?_ (.mono rfl (Mach.sat_frame ..))
      exact .refl
    · refine .ite ?_ ?_
      · refine .trans ?_ (.mono rfl (Mach.result_frame ..))
        refine .trans ?_ (.mono rfl (Mach.axNote_frame ..))
        refine .trans ?_ (.mono rfl (Mach.sat_frame ..))
        exact .refl
      · refine .trans ?_ (.mono rfl (Mach.result_frame ..))
        refine .trans ?_ (.mono rfl (Mach.modAx_frame ..))
        refine .trans ?_ (.mono rfl (Mach.axNote_frame ..))
        refine .trans ?_ (.mono rfl (Mach.sat_frame ..))
        exact .refl

theorem execAdcr_frame (e : Nat) (i : FX) (st st' : State) (h : execAdcr e i st = .next st') : Frame [.free, .dev, .regs, .mem, .eng,
    .sems, .flt, .grp, .qmg, .dram, .emt, .saf, .axis, .port, .pool] st.m st'.m := by
  refine State.run_frame (fun _ => ?_) h
  refine .trans ?_ (Mach.issue_frame (fun _ => ?_))
  · exact .refl
  · refine .ite ?_ ?_
    · refine .trans ?_ (.mono rfl (Mach.waits_frame ..))
      exact .refl
    · refine .trans ?_ (Mach.adcrEnd_frame (fun _ => ?_))
      · exact .refl
      · intro _
        refine .trans ?_ (.mono rfl (Mach.result_frame ..))
        exact .refl

theorem execEncoderEdge_frame (axis : Nat) (a b : Bool) (st st' : State) (h : execEncoderEdge axis a b st = .next st') : Frame [.regs,
    .grd, .axis] st.m st'.m := by
  refine State.run_frame (fun _ => ?_) h
  refine .ite ?_ ?_
  · exact .refl
  · refine .trans ?_ (.mono rfl (Mach.grdShow_frame ..))
    refine .trans ?_ (.foldl (fun _ _ => ?_) _)
    · refine .trans ?_ (Frame.when (fun _ => ?_))
      · refine .trans ?_ (.mono rfl (Mach.modAx_frame ..))
        exact .refl
      · refine .trans ?_ (.mono rfl (Mach.satInc_frame ..))
        exact .refl
    · refine .ite ?_ ?_
      · refine .trans ?_ (.mono rfl (Mach.azLost_frame ..))
        exact .refl
      · refine .trans ?_ (.mono rfl (Mach.headEdge_frame ..))
        exact .refl

theorem execEncoderIndex_frame (axis : Nat) (st st' : State) (h : execEncoderIndex axis st = .next st') : Frame [.regs, .grd, .axis] st.m
    st'.m := by
  refine State.run_frame (fun _ => ?_) h
  refine .trans ?_ (.mono rfl (Mach.grdShow_frame ..))
  refine .trans ?_ (.foldl (fun _ _ => ?_) _)
  · refine .trans ?_ (.mono rfl (Mach.modAx_frame ..))
    exact .refl
  · refine .trans ?_ (.mono rfl (Mach.headIndex_frame ..))
    exact .refl

theorem execStall_frame (h : Nat) (st st' : State) (h : execStall h st = .next st') : Frame [.cyc, .dev, .regs, .mem, .eng, .sems, .time,
    .flt, .grp, .qmg, .dram, .emt, .grd, .saf, .port, .pool] st.m st'.m := by
  refine State.run_frame (fun _ => ?_) h
  refine .ite ?_ ?_
  · exact .refl
  · refine .ite ?_ ?_
    · split
      · exact .refl
      · refine .trans ?_ (.mono rfl (Mach.stallNow_frame ..))
        refine .trans ?_ (.mono rfl (Mach.advanceTo_frame ..))
        exact .refl
    · refine .ite ?_ ?_
      · exact .refl
      · refine .trans ?_ (.mono rfl (Mach.stallNow_frame ..))
        exact .refl

theorem execCoefficientWrite_frame (src : Src) (axis bank k : Nat) (second : Bool) (v : Word) (st st' : State) (h : execCoefficientWrite
    src axis bank k second v st = .next st') : Frame [.status, .regs] st.m st'.m := by
  refine State.run_frame (fun _ => ?_) h
  refine .trans ?_ (Mach.asWriter_frame (fun _ => ?_))
  · exact .refl
  · refine .trans ?_ (.mono rfl (Mach.coefWrite_frame ..))
    exact .refl

theorem execPubRead_frame (src : Src) (axis : Nat) (st st' : State) (h : execPubRead src axis st = .next st') : Frame [.status, .regs]
    st.m st'.m := by
  refine State.run_frame (fun _ => ?_) h
  split
  · refine .trans ?_ (.mono rfl (Mach.pubLatch_frame ..))
    refine .trans ?_ (.mono rfl (Mach.done_frame ..))
    exact .refl
  · refine .trans ?_ (.mono rfl (Mach.done_frame ..))
    exact .refl

theorem execFeTripClear_frame (src : Src) (axis : Nat) (st st' : State) (h : execFeTripClear src axis st = .next st') : Frame [.status,
    .regs, .axis] st.m st'.m := by
  refine State.run_frame (fun _ => ?_) h
  refine .trans ?_ (Mach.asWriter_frame (fun _ => ?_))
  · exact .refl
  · refine .trans ?_ (.mono rfl (Mach.feClear_frame ..))
    exact .refl

theorem execGuardStagingWrite_frame (src : Src) (off : Nat) (w : Word) (st st' : State) (h : execGuardStagingWrite src off w st = .next
    st') : Frame [.status, .regs, .mem] st.m st'.m := by
  refine State.run_frame (fun _ => ?_) h
  refine .trans ?_ (Mach.asWriter_frame (fun _ => ?_))
  · exact .refl
  · refine .trans ?_ (.mono rfl (Mach.grdStageWrite_frame ..))
    exact .refl

theorem execRequestRecordWrite_frame (ctx grp off : Nat) (w : Word) (st st' : State) (h : execRequestRecordWrite ctx grp off w st = .next
    st') : Frame [.status, .regs, .mem, .grd] st.m st'.m := by
  refine State.run_frame (fun _ => ?_) h
  refine .trans ?_ (.mono rfl (Mach.grdRecordWrite_frame ..))
  exact .refl

theorem execGuardVerifyDone_frame  (st st' : State) (h : execGuardVerifyDone  st = .next st') : Frame [.regs, .mem, .commits, .grd] st.m
    st'.m := by
  refine State.run_frame (fun _ => ?_) h
  split
  · exact .refl
  · refine .ite ?_ ?_
    · refine .trans ?_ (.mono rfl (Mach.applied_frame ..))
      refine .trans ?_ (.mono rfl (Mach.grdActivate_frame ..))
      refine .trans ?_ (.mono rfl (Mach.dropCommit_frame ..))
      refine .trans ?_ (.mono rfl (Mach.grdRecordsClear_frame ..))
      refine .trans ?_ (.mono rfl (Mach.setFld_frame ..))
      refine .trans ?_ (.mono rfl (Mach.setFld_frame ..))
      refine .grd ?_
      exact .refl
    · refine .trans ?_ (.mono rfl (Mach.dropCommit_frame ..))
      refine .trans ?_ (.mono rfl (Mach.grdRecordsClear_frame ..))
      refine .trans ?_ (.mono rfl (Mach.setFld_frame ..))
      refine .trans ?_ (.mono rfl (Mach.setFld_frame ..))
      refine .grd ?_
      exact .refl

theorem execGuardFault_frame  (st st' : State) (h : execGuardFault  st = .next st') : Frame [.dev, .regs, .mem, .eng, .sems, .flt, .grp,
    .qmg, .dram, .emt, .grd, .saf, .port, .pool] st.m st'.m := by
  refine State.run_frame (fun _ => ?_) h
  refine .ite ?_ ?_
  · exact .refl
  · refine .trans ?_ (.mono rfl (Mach.grdShow_frame ..))
    refine .trans ?_ (.mono rfl (Mach.guardFails_frame ..))
    exact .refl

theorem execModuleStale_frame (k : Nat) (st st' : State) (h : execModuleStale k st = .next st') : Frame [.cyc, .regs, .time, .grd] st.m
    st'.m := by
  refine State.run_frame (fun _ => ?_) h
  split
  · exact .refl
  · refine .trans ?_ (.mono rfl (Mach.grdShow_frame ..))
    refine .trans ?_ (.mono rfl (Mach.advanceTo_frame ..))
    exact .refl

theorem execListenOpen_frame (p : Nat) (st st' : State) (h : execListenOpen p st = .next st') : Frame [.cyc, .regs, .time, .port, .tdc]
    st.m st'.m := by
  refine State.run_frame (fun _ => ?_) h
  split
  · exact .refl
  · refine .trans ?_ (.mono rfl (Mach.modP_frame ..))
    refine .ite ?_ ?_
    · refine .trans ?_ (.mono rfl (Mach.satInc_frame ..))
      refine .trans ?_ (.mono rfl (Mach.closeInterval_frame ..))
      refine .trans ?_ (.mono rfl (Mach.advanceToFine_frame ..))
      exact .refl
    · refine .trans ?_ (.mono rfl (Mach.advanceToFine_frame ..))
      exact .refl

theorem execListenClose_frame (p : Nat) (st st' : State) (h : execListenClose p st = .next st') : Frame [.cyc, .time, .port, .tdc] st.m
    st'.m := by
  refine State.run_frame (fun _ => ?_) h
  split
  · exact .refl
  · split
    · exact .refl
    · refine .ite ?_ ?_
      · refine .trans ?_ (.mono rfl (Mach.closeInterval_frame ..))
        refine .trans ?_ (.mono rfl (Mach.advanceToFine_frame ..))
        exact .refl
      · refine .ite ?_ ?_
        · refine .trans ?_ (.mono rfl (Mach.closeInterval_frame ..))
          refine .trans ?_ (.mono rfl (Mach.advanceToFine_frame ..))
          exact .refl
        · exact .refl

theorem execComparatorEdge_frame (p c : Nat) (rising : Bool) (t : Nat) (st st' : State) (h : execComparatorEdge p c rising t st = .next
    st') : Frame [.cyc, .regs, .time, .port] st.m st'.m := by
  refine State.run_frame (fun _ => ?_) h
  refine .ite ?_ ?_
  · refine .trans ?_ (.mono rfl (Mach.modP_frame ..))
    refine .trans ?_ (.mono rfl (Mach.advanceToFine_frame ..))
    exact .refl
  · refine .ite ?_ ?_
    · refine .trans ?_ (.mono rfl (Mach.advanceToFine_frame ..))
      exact .refl
    · refine .ite ?_ ?_
      · refine .trans ?_ (.mono rfl (Mach.modP_frame ..))
        refine .trans ?_ (Frame.when (fun _ => ?_))
        · refine .trans ?_ (.mono rfl (Mach.advanceToFine_frame ..))
          exact .refl
        · refine .trans ?_ (.mono rfl (Mach.satInc_frame ..))
          exact .refl
      · refine .ite ?_ ?_
        · refine .trans ?_ (.mono rfl (Mach.modP_frame ..))
          refine .trans ?_ (.mono rfl (Mach.modP_frame ..))
          refine .trans ?_ (.mono rfl (Mach.advanceToFine_frame ..))
          exact .refl
        · refine .ite ?_ ?_
          · refine .trans ?_ (.mono rfl (Mach.modP_frame ..))
            refine .trans ?_ (.mono rfl (Mach.satInc_frame ..))
            refine .trans ?_ (.mono rfl (Mach.modP_frame ..))
            refine .trans ?_ (.mono rfl (Mach.advanceToFine_frame ..))
            exact .refl
          · refine .trans ?_ (Frame.when (fun _ => ?_))
            · refine .trans ?_ (.mono rfl (Mach.modP_frame ..))
              refine .trans ?_ (.mono rfl (Mach.modP_frame ..))
              refine .trans ?_ (.mono rfl (Mach.advanceToFine_frame ..))
              exact .refl
            · refine .trans ?_ (.mono rfl (Mach.satInc_frame ..))
              exact .refl

theorem execOverloadTrip_frame (p t : Nat) (st st' : State) (h : execOverloadTrip p t st = .next st') : Frame [.cyc, .regs, .time, .port]
    st.m st'.m := by
  refine State.run_frame (fun _ => ?_) h
  refine .ite ?_ ?_
  · refine .trans ?_ (.mono rfl (Mach.advanceToFine_frame ..))
    exact .refl
  · refine .trans ?_ (.foldl (fun _ _ => ?_) _)
    · refine .trans ?_ (.mono rfl (Mach.modP_frame ..))
      refine .trans ?_ (.mono rfl (Mach.satInc_frame ..))
      refine .trans ?_ (.mono rfl (Mach.advanceToFine_frame ..))
      exact .refl
    · refine .trans ?_ (.mono rfl (Mach.modP_frame ..))
      exact .refl

theorem execOverloadRelease_frame (p t : Nat) (st st' : State) (h : execOverloadRelease p t st = .next st') : Frame [.cyc, .time, .port]
    st.m st'.m := by
  refine State.run_frame (fun _ => ?_) h
  dsimp only
  split
  · refine .trans ?_ (.mono rfl (Mach.advanceToFine_frame ..))
    exact .refl
  · refine .trans ?_ (.foldl (fun _ _ => ?_) _)
    · refine .trans ?_ (.mono rfl (Mach.modP_frame ..))
      refine .trans ?_ (.mono rfl (Mach.advanceToFine_frame ..))
      exact .refl
    · refine .trans ?_ (.mono rfl (Mach.modP_frame ..))
      exact .refl

theorem execBlankPin_frame (i : Nat) (level : Bool) (t : Nat) (st st' : State) (h : execBlankPin i level t st = .next st') : Frame [.cyc,
    .time, .tdc] st.m st'.m := by
  refine State.run_frame (fun _ => ?_) h
  refine .tdc ?_
  refine .trans ?_ (.mono rfl (Mach.advanceToFine_frame ..))
  exact .refl

theorem execIbiasReading_frame (p pA : Nat) (high : Bool) (st st' : State) (h : execIbiasReading p pA high st = .next st') : Frame [.dev,
    .regs, .mem, .eng, .sems, .flt, .grp, .qmg, .dram, .emt, .saf, .port, .pool] st.m st'.m := by
  refine State.run_frame (fun _ => ?_) h
  refine .trans ?_ (Frame.when (fun _ => ?_))
  · refine .trans ?_ (.mono rfl (Mach.setFld_frame ..))
    refine .trans ?_ (Frame.when (fun _ => ?_))
    · refine .trans ?_ (.mono rfl (Mach.modP_frame ..))
      refine .trans ?_ (.mono rfl (Mach.setFld_frame ..))
      refine .trans ?_ (.mono rfl (Mach.setFld_frame ..))
      refine .trans ?_ (.mono rfl (Mach.setFld_frame ..))
      exact .refl
    · refine .trans ?_ (.mono rfl (Mach.report_frame ..))
      refine .trans ?_ (.mono rfl (Mach.setFld_frame ..))
      exact .refl
  · refine .trans ?_ (.mono rfl (Mach.report_frame ..))
    refine .trans ?_ (.mono rfl (Mach.setFld_frame ..))
    exact .refl

theorem execDllLockRequest_frame (src : Src) (st st' : State) (h : execDllLockRequest src st = .next st') : Frame [.status, .tdc] st.m
    st'.m := by
  refine State.run_frame (fun _ => ?_) h
  refine .trans ?_ (Mach.asWriter_frame (fun _ => ?_))
  · exact .refl
  · refine .trans ?_ (.mono rfl (Mach.dllRequest_frame ..))
    exact .refl

theorem execDllLock_frame (pair d : Nat) (st st' : State) (h : execDllLock pair d st = .next st') : Frame [.regs, .tdc] st.m st'.m := by
  refine State.run_frame (fun _ => ?_) h
  refine .ite ?_ ?_
  · exact .refl
  · refine .trans ?_ (.mono rfl (Mach.showDll_frame ..))
    refine .trans ?_ (Frame.when (fun _ => ?_))
    · refine .ite ?_ ?_
      · refine .trans ?_ (.mono rfl (Mach.setDllDue_frame ..))
        refine .trans ?_ (.mono rfl (Mach.setDllLock_frame ..))
        exact .refl
      · refine .trans ?_ (.mono rfl (Mach.setDllLock_frame ..))
        exact .refl
    · refine .trans ?_ (.mono rfl (Mach.dllSwap_frame ..))
      exact .refl

theorem execDllLockLoss_frame (pair d : Nat) (st st' : State) (h : execDllLockLoss pair d st = .next st') : Frame [.dev, .regs, .mem,
    .eng, .sems, .flt, .grp, .qmg, .dram, .emt, .saf, .port, .tdc, .pool] st.m st'.m := by
  refine State.run_frame (fun _ => ?_) h
  refine .trans ?_ (.mono rfl (Mach.dllLoses_frame ..))
  exact .refl

theorem execDllSwap_frame (pair : Nat) (st st' : State) (h : execDllSwap pair st = .next st') : Frame [.regs, .tdc] st.m st'.m := by
  refine State.run_frame (fun _ => ?_) h
  refine .trans ?_ (.mono rfl (Mach.dllSwap_frame ..))
  exact .refl

theorem execChannelCalibrationDone_frame (i : Nat) (ok : Bool) (dnlmax : Nat) (chofs : Int) (st st' : State) (h :
    execChannelCalibrationDone i ok dnlmax chofs st = .next st') : Frame [.dev, .regs, .mem, .eng, .sems, .flt, .grp, .qmg, .dram, .emt,
    .saf, .port, .tdc, .pool] st.m st'.m := by
  refine State.run_frame (fun _ => ?_) h
  refine .ite ?_ ?_
  · refine .ite ?_ ?_
    · refine .ite ?_ ?_
      · refine .trans ?_ (.mono rfl (Mach.rotCalibrated_frame ..))
        refine .trans ?_ (.mono rfl (Mach.setFld_frame ..))
        refine .trans ?_ (.mono rfl (Mach.setFld_frame ..))
        refine .tdc ?_
        refine .trans ?_ (.mono rfl (Mach.calRecord_frame ..))
        exact .refl
      · refine .trans ?_ (.mono rfl (Mach.physFails_frame ..))
        refine .trans ?_ (.mono rfl (Mach.setFld_frame ..))
        refine .trans ?_ (.mono rfl (Mach.setFld_frame ..))
        refine .tdc ?_
        refine .trans ?_ (.mono rfl (Mach.calRecord_frame ..))
        exact .refl
    · refine .ite ?_ ?_
      · refine .tdc ?_
        refine .tdc ?_
        refine .trans ?_ (.mono rfl (Mach.calRecord_frame ..))
        exact .refl
      · refine .trans ?_ (.mono rfl (Mach.startFails_frame ..))
        refine .tdc ?_
        refine .tdc ?_
        refine .trans ?_ (.mono rfl (Mach.calRecord_frame ..))
        exact .refl
  · refine .ite ?_ ?_
    · refine .trans ?_ (.mono rfl (Mach.setReg_frame ..))
      refine .trans ?_ (.mono rfl (Mach.calRecord_frame ..))
      exact .refl
    · refine .trans ?_ (.mono rfl (Mach.sliceFails_frame ..))
      refine .trans ?_ (.mono rfl (Mach.setReg_frame ..))
      refine .trans ?_ (.mono rfl (Mach.calRecord_frame ..))
      exact .refl

theorem execRotationHandover_frame (t diff : Nat) (st st' : State) (h : execRotationHandover t diff st = .next st') : Frame [.dev, .regs,
    .mem, .eng, .sems, .flt, .grp, .qmg, .dram, .emt, .saf, .port, .tdc, .pool] st.m st'.m := by
  refine State.run_frame (fun _ => ?_) h
  refine .ite ?_ ?_
  · refine .trans ?_ (.mono rfl (Mach.handover_frame ..))
    exact .refl
  · refine .trans ?_ (.mono rfl (Mach.sliceHandover_frame ..))
    exact .refl

theorem execTestEdge_frame (i off : Nat) (st st' : State) (h : execTestEdge i off st = .next st') : Frame [.dev, .regs, .mem, .eng, .sems,
    .flt, .grp, .qmg, .dram, .emt, .saf, .port, .tdc, .pool] st.m st'.m := by
  refine State.run_frame (fun _ => ?_) h
  refine .ite ?_ ?_
  · refine .ite ?_ ?_
    · exact .refl
    · refine .ite ?_ ?_
      · refine .tdc ?_
        exact .refl
      · refine .ite ?_ ?_
        · refine .ite ?_ ?_
          · refine .trans ?_ (.mono rfl (Mach.physFails_frame ..))
            refine .tdc ?_
            exact .refl
          · refine .trans ?_ (.mono rfl (Mach.startFails_frame ..))
            refine .tdc ?_
            exact .refl
        · refine .tdc ?_
          exact .refl
  · refine .ite ?_ ?_
    · exact .refl
    · refine .ite ?_ ?_
      · refine .trans ?_ (.mono rfl (Mach.modP_frame ..))
        exact .refl
      · refine .ite ?_ ?_
        · refine .trans ?_ (.mono rfl (Mach.sliceFails_frame ..))
          refine .trans ?_ (.mono rfl (Mach.modP_frame ..))
          exact .refl
        · refine .trans ?_ (.mono rfl (Mach.modP_frame ..))
          exact .refl

theorem execSpareTakeover_frame (t : Nat) (st st' : State) (h : execSpareTakeover t st = .next st') : Frame [.regs, .port, .tdc] st.m
    st'.m := by
  refine State.run_frame (fun _ => ?_) h
  refine .trans ?_ (.foldl (fun _ _ => ?_) _)
  · refine .trans ?_ (.mono rfl (Mach.takeover_frame ..))
    refine .trans ?_ (.mono rfl (Mach.dllSwap_frame ..))
    exact .refl
  · refine .trans ?_ (.mono rfl (Mach.slicesDue_frame ..))
    exact .refl

theorem execShotSettle_frame (p : Nat) (st st' : State) (h : execShotSettle p st = .next st') : Frame [.cyc, .regs, .mem, .time, .port,
    .rej] st.m st'.m := by
  refine State.run_frame (fun _ => ?_) h
  split
  · exact .refl
  · split
    · dsimp only
      refine .trans ?_ (.mono rfl (Mach.pstat_frame ..))
      refine .trans ?_ (.mono rfl (Mach.modP_frame ..))
      refine .trans ?_ (Frame.when (fun _ => ?_))
      · split
        · refine .trans ?_ (.mono rfl (Mach.accumulate_frame ..))
          refine .trans ?_ (.mono rfl (Mach.modP_frame ..))
          refine .trans ?_ (.mono rfl (Mach.advanceToFine_frame ..))
          exact .refl
        · dsimp only
          refine .trans ?_ (.mono rfl (Mach.shotEntry_frame ..))
          refine .trans ?_ (.mono rfl (Mach.modP_frame ..))
          refine .trans ?_ (.mono rfl (Mach.advanceToFine_frame ..))
          exact .refl
      · refine .trans ?_ (.mono rfl (Mach.satInc_frame ..))
        exact .refl
    · exact .refl

theorem execCellSwap_frame (p : Nat) (st st' : State) (h : execCellSwap p st = .next st') : Frame [.cyc, .regs, .mem, .commits, .time,
    .port, .pool] st.m st'.m := by
  refine State.run_frame (fun _ => ?_) h
  split
  · exact .refl
  · refine .ite ?_ ?_
    · exact .refl
    · refine .trans ?_ (.mono rfl (Mach.applyGroups_frame ..))
      refine .trans ?_ (.mono rfl (Mach.pstat_frame ..))
      refine .trans ?_ (.mono rfl (Mach.modP_frame ..))
      refine .trans ?_ (.mono rfl (Mach.modPool_frame ..))
      refine .trans ?_ (.mono rfl (Mach.wrapInc_frame ..))
      refine .trans ?_ (.mono rfl (Mach.setBankSt_frame ..))
      refine .trans ?_ (.mono rfl (Mach.setFld_frame ..))
      refine .trans ?_ (Frame.when (fun _ => ?_))
      · refine .trans ?_ (.mono rfl (Mach.setBytes_frame ..))
        refine .trans ?_ (.mono rfl (Mach.advanceTo_frame ..))
        exact .refl
      · refine .trans ?_ (.mono rfl (Mach.satInc_frame ..))
        exact .refl

theorem execBankAssign_frame (src : Src) (b : Nat) (v : Word) (st st' : State) (h : execBankAssign src b v st = .next st') : Frame
    [.status, .regs] st.m st'.m := by
  refine State.run_frame (fun _ => ?_) h
  refine .trans ?_ (Mach.asWriter_frame (fun _ => ?_))
  · exact .refl
  · refine .trans ?_ (.mono rfl (Mach.bankWrite_frame ..))
    exact .refl

theorem execFlush_frame (src : Src) (st st' : State) (h : execFlush src st = .next st') : Frame [.status, .regs, .mem, .pool] st.m st'.m
    := by
  refine State.run_frame (fun _ => ?_) h
  refine .trans ?_ (Mach.asWriter_frame (fun _ => ?_))
  · exact .refl
  · refine .trans ?_ (.mono rfl (Mach.flush_frame ..))
    exact .refl

theorem execErgWindowWrite_frame (src : Src) (b off : Nat) (w : Word) (st st' : State) (h : execErgWindowWrite src b off w st = .next st')
    : Frame [.status, .mem] st.m st'.m := by
  refine State.run_frame (fun _ => ?_) h
  refine .trans ?_ (.mono rfl (Mach.ergWrite_frame ..))
  exact .refl

theorem execErgEccError_frame (b : Nat) (st st' : State) (h : execErgEccError b st = .next st') : Frame [.dev, .regs, .mem, .eng, .sems,
    .flt, .grp, .qmg, .dram, .emt, .saf, .port, .pool] st.m st'.m := by
  refine State.run_frame (fun _ => ?_) h
  refine .ite ?_ ?_
  · refine .trans ?_ (.mono rfl (Mach.report_frame ..))
    refine .trans ?_ (.mono rfl (Mach.pstat_frame ..))
    refine .trans ?_ (.mono rfl (Mach.setBankSt_frame ..))
    refine .trans ?_ (.mono rfl (Mach.clearBank_frame ..))
    exact .refl
  · refine .ite ?_ ?_
    · refine .ite ?_ ?_
      · exact .refl
      · refine .trans ?_ (.mono rfl (Mach.report_frame ..))
        refine .trans ?_ (.mono rfl (Mach.setByte_frame ..))
        exact .refl
    · exact .refl

theorem execTake_frame (e : Nat) (i : FX) (st st' : State) (h : execTake e i st = .next st') : Frame [.free, .dev, .regs, .mem, .eng,
    .sems, .flt, .grp, .qmg, .dram, .emt, .saf, .port, .pool] st.m st'.m := by
  refine State.run_frame (fun _ => ?_) h
  refine .trans ?_ (Mach.issue_frame (fun _ => ?_))
  · exact .refl
  · refine .ite ?_ ?_
    · refine .trans ?_ (.mono rfl (Mach.engFault_frame ..))
      exact .refl
    · split
      · refine .trans ?_ (.mono rfl (Mach.result_frame ..))
        refine .trans ?_ (.mono rfl (Mach.holdHandle_frame ..))
        refine .trans ?_ (.mono rfl (Mach.modPool_frame ..))
        exact .refl
      · refine .ite ?_ ?_
        · refine .trans ?_ (.mono rfl (Mach.result_frame ..))
          exact .refl
        · refine .trans ?_ (.mono rfl (Mach.waits_frame ..))
          refine .trans ?_ (.mono rfl (Mach.modPool_frame ..))
          exact .refl

theorem execTakeLook_frame (e : Nat) (i : FX) (st st' : State) (h : execTakeLook e i st = .next st') : Frame [.free, .dev, .regs, .mem,
    .eng, .sems, .flt, .grp, .qmg, .dram, .emt, .saf, .port, .pool] st.m st'.m := by
  refine State.run_frame (fun _ => ?_) h
  refine .trans ?_ (Mach.issue_frame (fun _ => ?_))
  · exact .refl
  · refine .ite ?_ ?_
    · refine .trans ?_ (.mono rfl (Mach.result_frame ..))
      exact .refl
    · refine .ite ?_ ?_
      · refine .trans ?_ (.mono rfl (Mach.result_frame ..))
        exact .refl
      · refine .trans ?_ (.mono rfl (Mach.result_frame ..))
        refine .trans ?_ (.mono rfl (Mach.showHold_frame ..))
        refine .trans ?_ (.mono rfl (Mach.modE_frame ..))
        exact .refl

theorem execTakeTimeout_frame (e : Nat) (st st' : State) (h : execTakeTimeout e st = .next st') : Frame [.cyc, .regs, .eng, .sems, .time,
    .qmg, .dram, .pool] st.m st'.m := by
  refine State.run_frame (fun _ => ?_) h
  split
  · refine .trans ?_ (.mono rfl (Mach.resume_frame ..))
    refine .trans ?_ (.mono rfl (Mach.leaveQueues_frame ..))
    refine .trans ?_ (.mono rfl (Mach.advanceTo_frame ..))
    exact .refl
  · exact .refl

theorem execHandleDispatch_frame (p : Nat) (st st' : State) (h : execHandleDispatch p st = .next st') : Frame [.cyc, .regs, .eng, .time,
    .pool] st.m st'.m := by
  refine State.run_frame (fun _ => ?_) h
  split
  · refine .ite ?_ ?_
    · exact .refl
    · refine .trans ?_ (.mono rfl (Mach.resume_frame ..))
      refine .trans ?_ (.mono rfl (Mach.holdHandle_frame ..))
      refine .trans ?_ (.mono rfl (Mach.modPool_frame ..))
      refine .trans ?_ (.mono rfl (Mach.advanceTo_frame ..))
      exact .refl
  · exact .refl

theorem execRel_frame (e : Nat) (i : FX) (st st' : State) (h : execRel e i st = .next st') : Frame [.free, .dev, .regs, .mem, .eng, .sems,
    .flt, .grp, .qmg, .dram, .emt, .saf, .port, .pool] st.m st'.m := by
  refine State.run_frame (fun _ => ?_) h
  refine .trans ?_ (Mach.issue_frame (fun _ => ?_))
  · exact .refl
  · refine .trans ?_ (Mach.checked_frame (fun _ => ?_))
    · exact .refl
    · refine .trans ?_ (.mono rfl (Mach.waits_frame ..))
      exact .refl

theorem execBgest_frame (e : Nat) (i : FX) (st st' : State) (h : execBgest e i st = .next st') : Frame [.free, .dev, .regs, .mem, .eng,
    .sems, .flt, .grp, .qmg, .dram, .emt, .saf, .port, .pool] st.m st'.m := by
  refine State.run_frame (fun _ => ?_) h
  refine .trans ?_ (Mach.issue_frame (fun _ => ?_))
  · exact .refl
  · refine .trans ?_ (Mach.checked_frame (fun _ => ?_))
    · exact .refl
    · refine .ite ?_ ?_
      · refine .trans ?_ (.mono rfl (Mach.staleOut_frame ..))
        exact .refl
      · split
        refine .trans ?_ (.mono rfl (Mach.result_frame ..))
        refine .trans ?_ (.mono rfl (Mach.sat_frame ..))
        refine .trans ?_ (.mono rfl (Mach.setDwords_frame ..))
        exact .refl

theorem execBscan_frame (e : Nat) (i : FX) (st st' : State) (h : execBscan e i st = .next st') : Frame [.free, .dev, .regs, .mem, .eng,
    .sems, .flt, .grp, .qmg, .dram, .emt, .saf, .port, .pool] st.m st'.m := by
  refine State.run_frame (fun _ => ?_) h
  refine .trans ?_ (Mach.issue_frame (fun _ => ?_))
  · exact .refl
  · refine .trans ?_ (Mach.checked_frame (fun _ => ?_))
    · exact .refl
    · refine .ite ?_ ?_
      · refine .trans ?_ (.mono rfl (Mach.staleOut_frame ..))
        exact .refl
      · refine .trans ?_ (Mach.checked_frame (fun _ => ?_))
        · exact .refl
        · refine .trans ?_ (.mono rfl (Mach.result_frame ..))
          refine .trans ?_ (.mono rfl (Mach.sat_frame ..))
          refine .trans ?_ (.mono rfl (Mach.setDwords_frame ..))
          exact .refl

theorem execCorr_frame (e : Nat) (i : FX) (st st' : State) (h : execCorr e i st = .next st') : Frame [.free, .dev, .regs, .mem, .eng,
    .sems, .flt, .grp, .qmg, .dram, .emt, .saf, .port, .pool] st.m st'.m := by
  refine State.run_frame (fun _ => ?_) h
  refine .trans ?_ (Mach.issue_frame (fun _ => ?_))
  · exact .refl
  · refine .trans ?_ (Mach.checked_frame (fun _ => ?_))
    · exact .refl
    · refine .ite ?_ ?_
      · refine .trans ?_ (.mono rfl (Mach.staleOut_frame ..))
        exact .refl
      · refine .trans ?_ (.mono rfl (Mach.result_frame ..))
        refine .trans ?_ (.mono rfl (Mach.sat_frame ..))
        refine .trans ?_ (.mono rfl (Mach.setDwords_frame ..))
        exact .refl

theorem execFit_frame (e : Nat) (i : FX) (st st' : State) (h : execFit e i st = .next st') : Frame [.free, .dev, .regs, .mem, .eng, .sems,
    .flt, .grp, .qmg, .dram, .emt, .saf, .port, .pool] st.m st'.m := by
  refine State.run_frame (fun _ => ?_) h
  refine .trans ?_ (Mach.issue_frame (fun _ => ?_))
  · exact .refl
  · refine .trans ?_ (Mach.checked_frame (fun _ => ?_))
    · exact .refl
    · refine .ite ?_ ?_
      · refine .trans ?_ (.mono rfl (Mach.staleOut_frame ..))
        exact .refl
      · dsimp only
        refine .trans ?_ (.mono rfl (Mach.result_frame ..))
        refine .trans ?_ (.mono rfl (Mach.setDwords_frame ..))
        exact .refl

theorem execWfpk_frame (e : Nat) (i : FX) (st st' : State) (h : execWfpk e i st = .next st') : Frame [.free, .dev, .regs, .mem, .eng,
    .sems, .flt, .grp, .qmg, .dram, .emt, .saf, .port, .pool] st.m st'.m := by
  refine State.run_frame (fun _ => ?_) h
  refine .trans ?_ (Mach.issue_frame (fun _ => ?_))
  · exact .refl
  · refine .trans ?_ (Mach.checked_frame (fun _ => ?_))
    · exact .refl
    · refine .ite ?_ ?_
      · refine .trans ?_ (.mono rfl (Mach.staleOut_frame ..))
        exact .refl
      · split
        refine .trans ?_ (.mono rfl (Mach.result_frame ..))
        split
        · refine .trans ?_ (.mono rfl (Mach.setDwords_frame ..))
          exact .refl
        · exact .refl

theorem execPoly_frame (e : Nat) (i : FX) (st st' : State) (h : execPoly e i st = .next st') : Frame [.free, .dev, .regs, .mem, .eng,
    .sems, .flt, .grp, .qmg, .dram, .emt, .saf, .port, .pool] st.m st'.m := by
  refine State.run_frame (fun _ => ?_) h
  refine .trans ?_ (Mach.issue_frame (fun _ => ?_))
  · exact .refl
  · refine .trans ?_ (Mach.checked_frame (fun _ => ?_))
    · exact .refl
    · refine .trans ?_ (.mono rfl (Mach.result_frame ..))
      refine .trans ?_ (.mono rfl (Mach.sat_frame ..))
      exact .refl

theorem execCls_frame (e : Nat) (i : FX) (st st' : State) (h : execCls e i st = .next st') : Frame [.free, .dev, .regs, .mem, .eng, .sems,
    .flt, .grp, .qmg, .dram, .emt, .saf, .port, .pool] st.m st'.m := by
  refine State.run_frame (fun _ => ?_) h
  refine .trans ?_ (Mach.issue_frame (fun _ => ?_))
  · exact .refl
  · dsimp only
    refine .trans ?_ (Mach.checked_frame (fun _ => ?_))
    · exact .refl
    · refine .trans ?_ (.mono rfl (Mach.result_frame ..))
      exact .refl

theorem execPoolWrite_frame (src : Src) (n : Nat) (v : Word) (st st' : State) (h : execPoolWrite src n v st = .next st') : Frame [.status,
    .regs, .eng] st.m st'.m := by
  refine State.run_frame (fun _ => ?_) h
  refine .trans ?_ (Mach.asWriter_frame (fun _ => ?_))
  · exact .refl
  · refine .trans ?_ (.mono rfl (Mach.poolSet_frame ..))
    exact .refl

theorem execPortPoolWrite_frame (src : Src) (k : Nat) (v : Word) (st st' : State) (h : execPortPoolWrite src k v st = .next st') : Frame
    [.status, .regs, .eng] st.m st'.m := by
  refine State.run_frame (fun _ => ?_) h
  refine .trans ?_ (Mach.asWriter_frame (fun _ => ?_))
  · exact .refl
  · refine .trans ?_ (.mono rfl (Mach.portPoolSet_frame ..))
    exact .refl

theorem execGroupAccept_frame (e : Nat) (st st' : State) (h : execGroupAccept e st = .next st') : Frame [.cyc, .dev, .regs, .mem, .eng,
    .sems, .time, .flt, .grp, .qmg, .dram, .emt, .saf, .port, .pool, .rej, .pts] st.m st'.m := by
  refine State.run_frame (fun _ => ?_) h
  refine .ite ?_ ?_
  · exact .refl
  · refine .ite ?_ ?_
    · split
      · exact .refl
      · refine .trans ?_ (.mono rfl (Mach.releaseNow_frame ..))
        refine .trans ?_ (.mono rfl (Mach.modPool_frame ..))
        refine .trans ?_ (.mono rfl (Mach.acceptGroup_frame ..))
        refine .ite ?_ ?_
        · refine .trans ?_ (.mono rfl (Mach.advance_frame ..))
          exact .refl
        · exact .refl
    · split
      · refine .trans ?_ (.mono rfl (Mach.resume_frame ..))
        refine .trans ?_ (.mono rfl (Mach.showHold_frame ..))
        refine .trans ?_ (.mono rfl (Mach.modE_frame ..))
        refine .trans ?_ (.mono rfl (Mach.setFld_frame ..))
        refine .trans ?_ (.mono rfl (Mach.wrapInc_frame ..))
        refine .trans ?_ (.mono rfl (Mach.releaseNow_frame ..))
        refine .trans ?_ (.mono rfl (Mach.acceptGroup_frame ..))
        refine .ite ?_ ?_
        · refine .trans ?_ (.mono rfl (Mach.advance_frame ..))
          exact .refl
        · exact .refl
      · exact .refl

theorem execMapLineFetch_frame (p : Nat) (st st' : State) (h : execMapLineFetch p st = .next st') : Frame [.mem, .dram, .rej] st.m st'.m
    := by
  refine State.run_frame (fun _ => ?_) h
  split
  · exact .refl
  · refine .ite ?_ ?_
    · refine .upd ?_ (.inl rfl) (.inl rfl) (.inl rfl) (.inl rfl) (.inl rfl) (.inl rfl) (.inl rfl) (.inl rfl) id (.inl rfl) (.inl rfl) (.inl rfl) (.inl rfl) (.inl rfl) (.inl rfl) (.inl rfl) (.inl rfl) (.inr rfl) (.inl rfl) (.inl rfl) (.inl rfl) (.inl rfl) (.inl rfl) (.inl rfl) (.inl rfl) (.inr rfl) (.inl rfl) (.inl rfl) (.inl rfl) (.inl rfl) (.inl rfl) (.inl rfl)
      exact .refl
    · refine .trans ?_ (.mono rfl (Mach.setLines_frame ..))
      refine .trans ?_ (.foldl (fun _ _ => ?_) _)
      · refine .upd ?_ (.inl rfl) (.inl rfl) (.inl rfl) (.inl rfl) (.inl rfl) (.inl rfl) (.inl rfl) (.inl rfl) id (.inl rfl) (.inl rfl) (.inl rfl) (.inl rfl) (.inl rfl) (.inl rfl) (.inl rfl) (.inl rfl) (.inr rfl) (.inl rfl) (.inl rfl) (.inl rfl) (.inl rfl) (.inl rfl) (.inl rfl) (.inl rfl) (.inr rfl) (.inl rfl) (.inl rfl) (.inl rfl) (.inl rfl) (.inl rfl) (.inl rfl)
        exact .refl
      · refine .trans ?_ (.mono rfl (Mach.writeBack_frame ..))
        exact .refl

theorem execHaboobSwitch_frame  (st st' : State) (h : execHaboobSwitch  st = .next st') : Frame [.cyc, .regs, .time] st.m st'.m := by
  refine State.run_frame (fun _ => ?_) h
  dsimp only
  split
  · refine .trans ?_ (.mono rfl (Mach.hbJudge_frame ..))
    exact .refl
  · refine .trans ?_ (.mono rfl (Mach.hbJudge_frame ..))
    refine .trans ?_ (.mono rfl (Mach.advanceTo_frame ..))
    exact .refl

theorem execMirageObservation_frame  (st st' : State) (h : execMirageObservation  st = .next st') : Frame [.regs, .mem, .grp, .qmg, .rej]
    st.m st'.m := by
  refine State.run_frame (fun _ => ?_) h
  split
  · exact .refl
  · dsimp only
    split
    · refine .trans ?_ (.mono rfl (Mach.mirNew_frame ..))
      refine .rej ?_
      exact .refl
    · refine .ite ?_ ?_
      · refine .trans ?_ (.mono rfl (Mach.mirNote_frame ..))
        refine .trans ?_ (.mono rfl (Mach.mirStore_frame ..))
        refine .rej ?_
        exact .refl
      · refine .trans ?_ (.mono rfl (Mach.mirStore_frame ..))
        refine .rej ?_
        exact .refl

theorem execMirageEntryAge_frame (i : Nat) (st st' : State) (h : execMirageEntryAge i st = .next st') : Frame [.regs, .mem] st.m st'.m := by
  refine State.run_frame (fun _ => ?_) h
  refine .ite ?_ ?_
  · refine .trans ?_ (.mono rfl (Mach.mirFree_frame ..))
    exact .refl
  · exact .refl

theorem execMirageClear_frame (src : Src) (st st' : State) (h : execMirageClear src st = .next st') : Frame [.status, .regs, .mem] st.m
    st'.m := by
  refine State.run_frame (fun _ => ?_) h
  refine .trans ?_ (Mach.asWriter_frame (fun _ => ?_))
  · exact .refl
  · refine .trans ?_ (.mono rfl (Mach.mirClear_frame ..))
    exact .refl

theorem execFrameRequest_frame (src : Src) (st st' : State) (h : execFrameRequest src st = .next st') : Frame [.status, .pts] st.m st'.m
    := by
  refine State.run_frame (fun _ => ?_) h
  refine .trans ?_ (Mach.asWriter_frame (fun _ => ?_))
  · exact .refl
  · refine .trans ?_ (.mono rfl (Mach.frameRequest_frame ..))
    exact .refl

theorem execFrameBoundary_frame (cause : Nat) (st st' : State) (h : execFrameBoundary cause st = .next st') : Frame [.cyc, .regs, .mem,
    .commits, .time, .grp, .qmg, .cam, .pts] st.m st'.m := by
  refine State.run_frame (fun _ => ?_) h
  refine .ite ?_ ?_
  · exact .refl
  · split
    · refine .ite ?_ ?_
      · exact .refl
      · split
        · exact .refl
        · split
          · exact .refl
          · refine .trans ?_ (.mono rfl (Mach.frameNow_frame ..))
            refine .trans ?_ (.mono rfl (Mach.advanceTo_frame ..))
            exact .refl
    · refine .trans ?_ (.mono rfl (Mach.frameNow_frame ..))
      refine .trans ?_ (.mono rfl (Mach.advanceTo_frame ..))
      exact .refl
    · refine .ite ?_ ?_
      · refine .trans ?_ (.mono rfl (Mach.frameNow_frame ..))
        exact .refl
      · exact .refl

theorem execSliceBoundary_frame  (st st' : State) (h : execSliceBoundary  st = .next st') : Frame [.cyc, .regs, .mem, .time, .grp, .qmg,
    .pts] st.m st'.m := by
  refine State.run_frame (fun _ => ?_) h
  dsimp only
  split
  · exact .refl
  · refine .ite ?_ ?_
    · exact .refl
    · split
      · exact .refl
      · refine .ite ?_ ?_
        · exact .refl
        · refine .trans ?_ (.mono rfl (Mach.modPts_frame ..))
          refine .trans ?_ (.foldl (fun _ _ => ?_) _)
          · refine .trans ?_ (.foldl (fun _ _ => ?_) _)
            · refine .trans ?_ (.mono rfl (Mach.modPts_frame ..))
              refine .trans ?_ (.mono rfl (Mach.advanceTo_frame ..))
              exact .refl
            · refine .trans ?_ (.mono rfl (Mach.header_frame ..))
              exact .refl
          · refine .trans ?_ (.mono rfl (Mach.modStrm_frame ..))
            exact .refl

theorem execTimeTriggerFire_frame (t : Nat) (st st' : State) (h : execTimeTriggerFire t st = .next st') : Frame [.cyc, .free, .dev, .regs,
    .mem, .commits, .eng, .sems, .time, .flt, .grp, .lane, .qmg, .dram, .emt, .grd, .saf, .axis, .port, .pool, .rej, .cam, .pts, .hk] st.m
    st'.m := by
  refine State.run_frame (fun _ => ?_) h
  refine .ite ?_ ?_
  · exact .refl
  · refine .trans ?_ (Frame.when (fun _ => ?_))
    · refine .trans ?_ (.mono rfl (Mach.hkTrigger_frame ..))
      refine .trans ?_ (.mono rfl (Mach.frameTrigger_frame ..))
      refine .trans ?_ (.mono rfl (Mach.camTrigger_frame ..))
      refine .trans ?_ (.mono rfl (Mach.ccTrigger_frame ..))
      refine .trans ?_ (.foldl (fun _ _ => ?_) _)
      · refine .trans ?_ (.mono rfl (Mach.releaseCommits_frame ..))
        refine .trans ?_ (.mono rfl (Mach.trigFired_frame ..))
        refine .trans ?_ (.mono rfl (Mach.advanceTo_frame ..))
        exact .refl
      · refine .trans ?_ (.mono rfl (Mach.engTrigger_frame ..))
        exact .refl
    · refine .trans ?_ (.mono rfl (Mach.ppsStart_frame ..))
      exact .refl

theorem execSecondCarry_frame  (st st' : State) (h : execSecondCarry  st = .next st') : Frame [.cyc, .time] st.m st'.m := by
  refine State.run_frame (fun _ => ?_) h
  refine .ite ?_ ?_
  · exact .refl
  · refine .trans ?_ (.mono rfl (Mach.ppsStart_frame ..))
    refine .trans ?_ (.mono rfl (Mach.advance_frame ..))
    exact .refl

theorem execPpsOutPulseEnd_frame  (st st' : State) (h : execPpsOutPulseEnd  st = .next st') : Frame [.cyc, .time] st.m st'.m := by
  refine State.run_frame (fun _ => ?_) h
  split
  · exact .refl
  · refine .time ?_
    refine .trans ?_ (.mono rfl (Mach.advanceTo_frame ..))
    exact .refl

theorem execEdgeCapture_frame (n : Nat) (rising half : Bool) (st st' : State) (h : execEdgeCapture n rising half st = .next st') : Frame
    [.regs, .time] st.m st'.m := by
  refine State.run_frame (fun _ => ?_) h
  refine .ite ?_ ?_
  · exact .refl
  · refine .trans ?_ (Frame.when (fun _ => ?_))
    · refine .ite ?_ ?_
      · exact .refl
      · refine .ite ?_ ?_
        · refine .trans ?_ (.mono rfl (Mach.satInc_frame ..))
          exact .refl
        · refine .trans ?_ (.mono rfl (Mach.setFld_frame ..))
          refine .trans ?_ (.mono rfl (Mach.setFld_frame ..))
          refine .trans ?_ (.mono rfl (Mach.setFld_frame ..))
          refine .trans ?_ (.mono rfl (Mach.setFld_frame ..))
          refine .trans ?_ (.mono rfl (Mach.setFld_frame ..))
          exact .refl
    · refine .trans ?_ (.foldl (fun _ _ => ?_) _)
      · exact .refl
      · refine .trans ?_ (.mono rfl (Mach.realign_frame ..))
        exact .refl

theorem execCaptureRead_frame (src : Src) (n : Nat) (st st' : State) (h : execCaptureRead src n st = .next st') : Frame [.status, .regs]
    st.m st'.m := by
  refine State.run_frame (fun _ => ?_) h
  split
  · refine .trans ?_ (.mono rfl (Mach.capRead_frame ..))
    refine .trans ?_ (.mono rfl (Mach.done_frame ..))
    exact .refl
  · refine .trans ?_ (.mono rfl (Mach.done_frame ..))
    exact .refl

theorem execTimeNowRead_frame (src : Src) (st st' : State) (h : execTimeNowRead src st = .next st') : Frame [.status, .regs] st.m st'.m :=
    by
  refine State.run_frame (fun _ => ?_) h
  split
  · refine .trans ?_ (.mono rfl (Mach.latchNow_frame ..))
    refine .trans ?_ (.mono rfl (Mach.done_frame ..))
    exact .refl
  · refine .trans ?_ (.mono rfl (Mach.done_frame ..))
    exact .refl

theorem execCamVsEdge_frame (half : Bool) (st st' : State) (h : execCamVsEdge half st = .next st') : Frame [.regs, .mem, .commits, .grp,
    .qmg, .cam] st.m st'.m := by
  refine State.run_frame (fun _ => ?_) h
  refine .trans ?_ (Frame.when (fun _ => ?_))
  · refine .trans ?_ (.mono rfl (Mach.camApply_frame ..))
    refine .trans ?_ (.mono rfl (Mach.camClose_frame ..))
    exact .refl
  · refine .trans ?_ (.mono rfl (Mach.camOpen_frame ..))
    exact .refl

theorem execBusLine_frame (pixels : List Nat) (st st' : State) (h : execBusLine pixels st = .next st') : Frame [.regs, .mem, .grp, .qmg,
    .cam] st.m st'.m := by
  refine State.run_frame (fun _ => ?_) h
  split
  · exact .refl
  · refine .ite ?_ ?_
    · refine .trans ?_ (.mono rfl (Mach.modFrame_frame ..))
      exact .refl
    · refine .trans ?_ (Frame.when (fun _ => ?_))
      · refine .trans ?_ (Frame.when (fun _ => ?_))
        · refine .trans ?_ (.mono rfl (Mach.modFrame_frame ..))
          refine .trans ?_ (Frame.when (fun _ => ?_))
          · exact .refl
          · refine .trans ?_ (.mono rfl (Mach.modFrame_frame ..))
            refine .trans ?_ (.mono rfl (Mach.satInc_frame ..))
            exact .refl
        · refine .trans ?_ (.mono rfl (Mach.camImageLine_frame ..))
          exact .refl
      · refine .trans ?_ (.mono rfl (Mach.camComplete_frame ..))
        exact .refl

theorem execCamFrameTimeout_frame  (st st' : State) (h : execCamFrameTimeout  st = .next st') : Frame [.cyc, .regs, .mem, .time, .grp,
    .qmg, .cam] st.m st'.m := by
  refine State.run_frame (fun _ => ?_) h
  split
  · exact .refl
  · refine .trans ?_ (.mono rfl (Mach.camClose_frame ..))
    refine .trans ?_ (.mono rfl (Mach.advanceTo_frame ..))
    exact .refl

theorem execI2cTransferDone_frame (nack : Bool) (rd : Word) (st st' : State) (h : execI2cTransferDone nack rd st = .next st') : Frame
    [.regs, .cam] st.m st'.m := by
  refine State.run_frame (fun _ => ?_) h
  split
  · exact .refl
  · refine .ite ?_ ?_
    · refine .trans ?_ (.mono rfl (Mach.modFrame_frame ..))
      refine .trans ?_ (.mono rfl (Mach.setFld_frame ..))
      refine .trans ?_ (.mono rfl (Mach.setFld_frame ..))
      refine .trans ?_ (.mono rfl (Mach.modCam_frame ..))
      exact .refl
    · refine .trans ?_ (Frame.when (fun _ => ?_))
      · refine .trans ?_ (.mono rfl (Mach.modCam_frame ..))
        refine .trans ?_ (Frame.when (fun _ => ?_))
        · refine .trans ?_ (.mono rfl (Mach.setFld_frame ..))
          refine .trans ?_ (.mono rfl (Mach.modCam_frame ..))
          exact .refl
        · refine .trans ?_ (.mono rfl (Mach.setReg_frame ..))
          exact .refl
      · refine .trans ?_ (.mono rfl (Mach.modFrame_frame ..))
        refine .trans ?_ (.mono rfl (Mach.satInc_frame ..))
        exact .refl

theorem execCamTrigActive_frame  (st st' : State) (h : execCamTrigActive  st = .next st') : Frame [.cyc, .time, .cam] st.m st'.m := by
  refine State.run_frame (fun _ => ?_) h
  split
  · exact .refl
  · refine .trans ?_ (.mono rfl (Mach.modCam_frame ..))
    refine .trans ?_ (.mono rfl (Mach.advanceTo_frame ..))
    exact .refl

theorem execCamTrigInactive_frame  (st st' : State) (h : execCamTrigInactive  st = .next st') : Frame [.cyc, .time, .cam] st.m st'.m := by
  refine State.run_frame (fun _ => ?_) h
  refine .ite ?_ ?_
  · refine .trans ?_ (.mono rfl (Mach.modCam_frame ..))
    refine .trans ?_ (.mono rfl (Mach.advanceTo_frame ..))
    exact .refl
  · exact .refl

theorem execIdle_frame (g : Nat) (st st' : State) (h : execIdle g st = .next st') : Frame [] st.m st'.m := by
  refine State.run_frame (fun _ => ?_) h
  exact .refl

theorem execMarkerTimer_frame (l : Nat) (st st' : State) (h : execMarkerTimer l st = .next st') : Frame [.grp, .lane] st.m st'.m := by
  refine State.run_frame (fun _ => ?_) h
  refine .ite ?_ ?_
  · refine .trans ?_ (.mono rfl (Mach.sendOn_frame ..))
    exact .refl
  · refine .ite ?_ ?_
    · refine .trans ?_ (.mono rfl (Mach.modG_frame ..))
      refine .trans ?_ (.mono rfl (Mach.sendOn_frame ..))
      exact .refl
    · exact .refl

theorem execPacketDiscard_frame (g : Nat) (why : Discard) (st st' : State) (h : execPacketDiscard g why st = .next st') : Frame [.regs,
    .grp, .lane, .qmg] st.m st'.m := by
  refine State.run_frame (fun _ => ?_) h
  refine .ite ?_ ?_
  · exact .refl
  · refine .trans ?_ (.mono rfl (Mach.discarded_frame ..))
    split
    · refine .trans ?_ (.mono rfl (Mach.satInc_frame ..))
      exact .refl
    · refine .trans ?_ (.mono rfl (Mach.satInc_frame ..))
      exact .refl
    · refine .trans ?_ (.mono rfl (Mach.satInc_frame ..))
      exact .refl
    · refine .trans ?_ (.mono rfl (Mach.satInc_frame ..))
      exact .refl
    · refine .trans ?_ (.mono rfl (Mach.satInc_frame ..))
      exact .refl
    · refine .trans ?_ (.mono rfl (Mach.sendAck_frame ..))
      refine .trans ?_ (.mono rfl (Mach.satInc_frame ..))
      exact .refl
    · refine .trans ?_ (.mono rfl (Mach.satInc_frame ..))
      exact .refl

theorem execAck_frame (g seq : Nat) (st st' : State) (h : execAck g seq st = .next st') : Frame [.regs, .grp] st.m st'.m := by
  refine State.run_frame (fun _ => ?_) h
  refine .ite ?_ ?_
  · refine .trans ?_ (.mono rfl (Mach.acked_frame ..))
    exact .refl
  · exact .refl

theorem execNak_frame (g seq : Nat) (st st' : State) (h : execNak g seq st = .next st') : Frame [.regs, .grp, .lane, .qmg] st.m st'.m := by
  refine State.run_frame (fun _ => ?_) h
  refine .ite ?_ ?_
  · refine .trans ?_ (.mono rfl (Mach.startReplay_frame ..))
    refine .trans ?_ (.mono rfl (Mach.acked_frame ..))
    refine .trans ?_ (.mono rfl (Mach.satInc_frame ..))
    exact .refl
  · exact .refl

theorem execAckTimer_frame (g : Nat) (st st' : State) (h : execAckTimer g st = .next st') : Frame [.cyc, .time, .grp] st.m st'.m := by
  refine State.run_frame (fun _ => ?_) h
  split
  · exact .refl
  · refine .ite ?_ ?_
    · refine .trans ?_ (.mono rfl (Mach.sendAck_frame ..))
      refine .trans ?_ (.mono rfl (Mach.advanceTo_frame ..))
      exact .refl
    · exact .refl

theorem execReplayTimeout_frame (g : Nat) (st st' : State) (h : execReplayTimeout g st = .next st') : Frame [.cyc, .regs, .time, .grp,
    .lane, .qmg] st.m st'.m := by
  refine State.run_frame (fun _ => ?_) h
  refine .ite ?_ ?_
  · refine .trans ?_ (.mono rfl (Mach.startReplay_frame ..))
    refine .trans ?_ (.mono rfl (Mach.advanceTo_frame ..))
    exact .refl
  · exact .refl

theorem execTrain_frame (l : Nat) (t : TrainPkt) (st st' : State) (h : execTrain l t st = .next st') : Frame [.regs, .grp, .lane, .qmg]
    st.m st'.m := by
  refine State.run_frame (fun _ => ?_) h
  refine .ite ?_ ?_
  · refine .ite ?_ ?_
    · refine .trans ?_ (.mono rfl (Mach.modL_frame ..))
      refine .trans ?_ (.mono rfl (Mach.setLState_frame ..))
      exact .refl
    · refine .trans ?_ (.mono rfl (Mach.trainSeen_frame ..))
      refine .trans ?_ (Frame.when (fun _ => ?_))
      · exact .refl
      · refine .trans ?_ (.mono rfl (Mach.setGState_frame ..))
        exact .refl
  · exact .refl

theorem execGroupBond_frame (g skewed : Nat) (st st' : State) (h : execGroupBond g skewed st = .next st') : Frame [.dev, .regs, .mem,
    .eng, .sems, .grp, .lane, .qmg, .dram, .emt, .saf, .port, .pool] st.m st'.m := by
  refine State.run_frame (fun _ => ?_) h
  refine .ite ?_ ?_
  · refine .trans ?_ (.mono rfl (Mach.bondAligned_frame ..))
    exact .refl
  · exact .refl

theorem execBondTimeout_frame (g skewed : Nat) (st st' : State) (h : execBondTimeout g skewed st = .next st') : Frame [.cyc, .dev, .regs,
    .mem, .eng, .sems, .time, .grp, .lane, .qmg, .dram, .emt, .saf, .port, .pool] st.m st'.m := by
  refine State.run_frame (fun _ => ?_) h
  split
  · exact .refl
  · refine .ite ?_ ?_
    · refine .trans ?_ (.mono rfl (Mach.bondAligned_frame ..))
      refine .trans ?_ (.mono rfl (Mach.advanceTo_frame ..))
      exact .refl
    · exact .refl

theorem execTrainingTimeout_frame (g : Nat) (st st' : State) (h : execTrainingTimeout g st = .next st') : Frame [.cyc, .regs, .time, .grp,
    .lane, .qmg] st.m st'.m := by
  refine State.run_frame (fun _ => ?_) h
  refine .ite ?_ ?_
  · refine .trans ?_ (.mono rfl (Mach.trainAt_frame ..))
    refine .trans ?_ (Frame.when (fun _ => ?_))
    · refine .trans ?_ (.mono rfl (Mach.advanceTo_frame ..))
      exact .refl
    · refine .trans ?_ (.mono rfl (Mach.modG_frame ..))
      refine .trans ?_ (.mono rfl (Mach.satInc_frame ..))
      exact .refl
  · exact .refl

theorem execRateChangeRequest_frame (src : Src) (g : Nat) (v : Word) (st st' : State) (h : execRateChangeRequest src g v st = .next st') :
    Frame [.status, .regs, .grp, .qmg] st.m st'.m := by
  refine State.run_frame (fun _ => ?_) h
  refine .trans ?_ (Mach.asWriter_frame (fun _ => ?_))
  · exact .refl
  · refine .trans ?_ (.mono rfl (Mach.rateWrite_frame ..))
    exact .refl

theorem execRate_frame (g : Nat) (reply : Bool) (target : Nat) (st st' : State) (h : execRate g reply target st = .next st') : Frame
    [.regs, .grp, .lane, .qmg] st.m st'.m := by
  refine State.run_frame (fun _ => ?_) h
  refine .ite ?_ ?_
  · exact .refl
  · refine .ite ?_ ?_
    · split
      · refine .trans ?_ (.mono rfl (Mach.rateTrain_frame ..))
        exact .refl
      · exact .refl
    · refine .ite ?_ ?_
      · exact .refl
      · refine .trans ?_ (.mono rfl (Mach.rateTrain_frame ..))
        refine .trans ?_ (.mono rfl (Mach.modG_frame ..))
        refine .trans ?_ (.mono rfl (Mach.sendOn_frame ..))
        exact .refl

theorem execLaneLoss_frame (l : Nat) (why : LaneFault) (st st' : State) (h : execLaneLoss l why st = .next st') : Frame [.dev, .regs,
    .mem, .eng, .sems, .flt, .grp, .lane, .qmg, .dram, .emt, .saf, .port, .pool] st.m st'.m := by
  refine State.run_frame (fun _ => ?_) h
  refine .ite ?_ ?_
  · refine .trans ?_ (.mono rfl (Mach.laneLost_frame ..))
    split
    · refine .trans ?_ (.mono rfl (Mach.satInc_frame ..))
      exact .refl
    · refine .trans ?_ (.mono rfl (Mach.satInc_frame ..))
      exact .refl
    · refine .trans ?_ (.mono rfl (Mach.satInc_frame ..))
      exact .refl
  · exact .refl

theorem execRebond_frame (g : Nat) (reply : Bool) (mask : Nat) (st st' : State) (h : execRebond g reply mask st = .next st') : Frame
    [.regs, .grp, .lane, .qmg] st.m st'.m := by
  refine State.run_frame (fun _ => ?_) h
  refine .ite ?_ ?_
  · split
    · refine .ite ?_ ?_
      · refine .trans ?_ (.mono rfl (Mach.rebondEnd_frame ..))
        exact .refl
      · exact .refl
    · exact .refl
  · refine .ite ?_ ?_
    · refine .trans ?_ (.mono rfl (Mach.rebondEnd_frame ..))
      refine .trans ?_ (.mono rfl (Mach.sendLink_frame ..))
      exact .refl
    · exact .refl

theorem execLaneRetrain_frame (l : Nat) (st st' : State) (h : execLaneRetrain l st = .next st') : Frame [.regs, .lane] st.m st'.m := by
  refine State.run_frame (fun _ => ?_) h
  refine .ite ?_ ?_
  · refine .trans ?_ (.mono rfl (Mach.laneTrains_frame ..))
    exact .refl
  · exact .refl

theorem execLaneRejoin_frame (l : Nat) (st st' : State) (h : execLaneRejoin l st = .next st') : Frame [.regs, .grp, .qmg] st.m st'.m := by
  refine State.run_frame (fun _ => ?_) h
  refine .ite ?_ ?_
  · refine .trans ?_ (.mono rfl (Mach.rebondStart_frame ..))
    exact .refl
  · exact .refl

theorem execRead_frame (g : Nat) (h : ReqHdr) (ecc : List (Nat × Bool)) (st st' : State) (h : execRead g h ecc st = .next st') : Frame
    [.free, .status, .dev, .regs, .mem, .eng, .sems, .flt, .grp, .qmg, .dram, .emt, .saf, .port, .pool] st.m st'.m := by
  refine State.run_frame (fun _ => ?_) h
  refine .trans ?_ (Mach.arrives_frame (fun _ => ?_))
  · exact .refl
  · refine .ite ?_ ?_
    · refine .trans ?_ (.mono rfl (Mach.compl_frame ..))
      exact .refl
    · refine .ite ?_ ?_
      · refine .trans ?_ (.mono rfl (Mach.compl_frame ..))
        exact .refl
      · split
        refine .trans ?_ (.mono rfl (Mach.compl_frame ..))
        refine .trans ?_ (.mono rfl (Mach.done_frame ..))
        (rename_i hpair; obtain rfl := congrArg Prod.snd hpair)
        refine .trans ?_ (.mono rfl (Mach.readWords_frame ..))
        exact .refl

theorem execWrite_frame (g : Nat) (h : ReqHdr) (ws : List Word) (st st' : State) (h : execWrite g h ws st = .next st') : Frame [.status,
    .dev, .regs, .shadow, .mem, .commits, .eng, .sems, .flt, .grp, .lane, .qmg, .dram, .emt, .grd, .saf, .axis, .port, .tdc, .pool, .pts,
    .hk, .probe, .fusJob] st.m st'.m := by
  refine State.run_frame (fun _ => ?_) h
  refine .trans ?_ (Mach.arrives_frame (fun _ => ?_))
  · exact .refl
  · refine .ite ?_ ?_
    · refine .trans ?_ (.mono rfl (Mach.compl_frame ..))
      exact .refl
    · refine .ite ?_ ?_
      · refine .trans ?_ (.mono rfl (Mach.compl_frame ..))
        exact .refl
      · refine .ite ?_ ?_
        · refine .trans ?_ (.mono rfl (Mach.compl_frame ..))
          exact .refl
        · split
          refine .trans ?_ (.mono rfl (Mach.newOwner_frame ..))
          refine .trans ?_ (.mono rfl (Mach.compl_frame ..))
          refine .trans ?_ (.mono rfl (Mach.done_frame ..))
          (rename_i hpair; obtain rfl := congrArg Prod.snd hpair)
          refine .trans ?_ (.mono rfl (Mach.writeWords_frame ..))
          exact .refl

theorem execBadtype_frame (g ctx ty : Nat) (st st' : State) (h : execBadtype g ctx ty st = .next st') : Frame [.regs, .grp] st.m st'.m := by
  refine State.run_frame (fun _ => ?_) h
  refine .ite ?_ ?_
  · refine .trans ?_ (Mach.arrives_frame (fun _ => ?_))
    · exact .refl
    · refine .trans ?_ (.mono rfl (Mach.compl_frame ..))
      exact .refl
  · refine .ite ?_ ?_
    · refine .trans ?_ (Mach.packetIn_frame (fun _ => ?_))
      · exact .refl
      · refine .trans ?_ (.mono rfl (Mach.compl_frame ..))
        exact .refl
    · exact .refl

theorem execCredit_frame (g ctx : Nat) (c : CreditPkt) (st st' : State) (h : execCredit g ctx c st = .next st') : Frame [.regs, .grp,
    .qmg] st.m st'.m := by
  refine State.run_frame (fun _ => ?_) h
  refine .trans ?_ (Mach.packetIn_frame (fun _ => ?_))
  · exact .refl
  · split
    · refine .trans ?_ (.mono rfl (Mach.creditOne_frame ..))
      exact .refl
    · refine .trans ?_ (.foldl (fun _ _ => ?_) _)
      · exact .refl
      · refine .trans ?_ (.mono rfl (Mach.creditOne_frame ..))
        exact .refl

theorem execTsync_frame (g ctx : Nat) (tsid : Word) (echo rpl : Bool) (phase : Nat) (st st' : State) (h : execTsync g ctx tsid echo rpl
    phase st = .next st') : Frame [.regs, .grp] st.m st'.m := by
  refine State.run_frame (fun _ => ?_) h
  refine .trans ?_ (Mach.packetIn_frame (fun _ => ?_))
  · exact .refl
  · refine .ite ?_ ?_
    · refine .trans ?_ (.mono rfl (Mach.badPkt_frame ..))
      exact .refl
    · refine .trans ?_ (.mono rfl (Mach.respond_frame ..))
      refine .trans ?_ (.mono rfl (Mach.modG_frame ..))
      exact .refl

theorem execEgressGrant_frame (g phase : Nat) (st st' : State) (h : execEgressGrant g phase st = .next st') : Frame [.regs, .grp, .lane,
    .qmg] st.m st'.m := by
  refine State.run_frame (fun _ => ?_) h
  split
  · refine .ite ?_ ?_
    · refine .trans ?_ (.mono rfl (Mach.modG_frame ..))
      refine .trans ?_ (.mono rfl (Mach.sendOn_frame ..))
      exact .refl
    · exact .refl
  · refine .ite ?_ ?_
    · exact .refl
    · refine .ite ?_ ?_
      · refine .trans ?_ (.mono rfl (Mach.resend_frame ..))
        exact .refl
      · refine .trans ?_ (.mono rfl (Mach.egressNew_frame ..))
        exact .refl

theorem execQueueGroupChange_frame (q : Nat) (st st' : State) (h : execQueueGroupChange q st = .next st') : Frame [.cyc, .regs, .time,
    .qmg] st.m st'.m := by
  refine State.run_frame (fun _ => ?_) h
  refine .ite ?_ ?_
  · refine .trans ?_ (.mono rfl (Mach.qMark_frame ..))
    refine .trans ?_ (.mono rfl (Mach.setFld_frame ..))
    refine .trans ?_ (.mono rfl (Mach.advanceTo_frame ..))
    exact .refl
  · exact .refl

theorem execRolesWrite_frame (src : Src) (v : Word) (st st' : State) (h : execRolesWrite src v st = .next st') : Frame [.status, .regs]
    st.m st'.m := by
  refine State.run_frame (fun _ => ?_) h
  refine .trans ?_ (Mach.asWriter_frame (fun _ => ?_))
  · exact .refl
  · refine .trans ?_ (.mono rfl (Mach.rolesBy_frame ..))
    exact .refl

theorem execDescriptorWrite_frame (src : Src) (q k : Nat) (v : Word) (st st' : State) (h : execDescriptorWrite src q k v st = .next st') :
    Frame [.status, .regs, .mem, .eng, .qmg, .pts] st.m st'.m := by
  refine State.run_frame (fun _ => ?_) h
  refine .trans ?_ (Mach.asWriter_frame (fun _ => ?_))
  · exact .refl
  · refine .trans ?_ (.mono rfl (Mach.qWrite_frame ..))
    exact .refl

theorem execBlockedRecordAccept_frame (q : Nat) (st st' : State) (h : execBlockedRecordAccept q st = .next st') : Frame [.regs, .mem,
    .eng, .grp, .qmg, .pts] st.m st'.m := by
  refine State.run_frame (fun _ => ?_) h
  split
  · exact .refl
  · refine .ite ?_ ?_
    · refine .trans ?_ (.mono rfl (Mach.offerDone_frame ..))
      refine .trans ?_ (.mono rfl (Mach.qDrop_frame ..))
      refine .trans ?_ (.mono rfl (Mach.qNext_frame ..))
      exact .refl
    · refine .ite ?_ ?_
      · refine .trans ?_ (.mono rfl (Mach.offerDone_frame ..))
        refine .trans ?_ (.mono rfl (Mach.qAccept_frame ..))
        refine .trans ?_ (.mono rfl (Mach.qNext_frame ..))
        exact .refl
      · exact .refl

theorem execHostFreeze_frame (src : Src) (v : Word) (st st' : State) (h : execHostFreeze src v st = .next st') : Frame [.status, .regs,
    .mem, .grp, .qmg] st.m st'.m := by
  refine State.run_frame (fun _ => ?_) h
  refine .trans ?_ (Mach.asWriter_frame (fun _ => ?_))
  · exact .refl
  · refine .trans ?_ (.mono rfl (Mach.qfreezeSet_frame ..))
    exact .refl

theorem execRecorderFrozen_frame (q : Nat) (st st' : State) (h : execRecorderFrozen q st = .next st') : Frame [.regs, .mem, .eng, .grp,
    .qmg, .pts] st.m st'.m := by
  refine State.run_frame (fun _ => ?_) h
  refine .ite ?_ ?_
  · refine .trans ?_ (.mono rfl (Mach.refuseWaiters_frame ..))
    refine .trans ?_ (.mono rfl (Mach.frozen_frame ..))
    exact .refl
  · exact .refl

theorem execRingHeaderRewrite_frame (q : Nat) (st st' : State) (h : execRingHeaderRewrite q st = .next st') : Frame [.mem, .qmg] st.m
    st'.m := by
  refine State.run_frame (fun _ => ?_) h
  refine .ite ?_ ?_
  · refine .trans ?_ (.mono rfl (Mach.writeHeader_frame ..))
    exact .refl
  · exact .refl

theorem execFrozenResume_frame (src : Src) (q : Nat) (st st' : State) (h : execFrozenResume src q st = .next st') : Frame [.status, .regs,
    .mem, .qmg] st.m st'.m := by
  refine State.run_frame (fun _ => ?_) h
  refine .trans ?_ (Mach.asWriter_frame (fun _ => ?_))
  · exact .refl
  · refine .trans ?_ (.mono rfl (Mach.qResume_frame ..))
    refine .trans ?_ (.mono rfl (Mach.done_frame ..))
    exact .refl

theorem execDramInit_frame (src : Src) (st st' : State) (h : execDramInit src st = .next st') : Frame [.status, .dram] st.m st'.m := by
  refine State.run_frame (fun _ => ?_) h
  refine .trans ?_ (Mach.asWriter_frame (fun _ => ?_))
  · exact .refl
  · refine .trans ?_ (.mono rfl (Mach.memInit_frame ..))
    exact .refl

theorem execDramReady_frame (failing : Nat) (st st' : State) (h : execDramReady failing st = .next st') : Frame [.dev, .regs, .mem, .eng,
    .sems, .flt, .grp, .qmg, .dram, .emt, .saf, .port, .pool] st.m st'.m := by
  refine State.run_frame (fun _ => ?_) h
  split
  · exact .refl
  · refine .trans ?_ (.mono rfl (Mach.trainFail_frame ..))
    refine .trans ?_ (.mono rfl (Mach.setFld_frame ..))
    refine .dram ?_
    exact .refl

theorem execDramBurstGrant_frame (ch : Nat) (st st' : State) (h : execDramBurstGrant ch st = .next st') : Frame [.regs, .dram] st.m st'.m
    := by
  refine State.run_frame (fun _ => ?_) h
  split
  · exact .refl
  · refine .trans ?_ (.mono rfl (Mach.setFld_frame ..))
    refine .dram ?_
    exact .refl

theorem execDramChannelFail_frame (ch : Nat) (st st' : State) (h : execDramChannelFail ch st = .next st') : Frame [.dev, .regs, .mem,
    .eng, .sems, .flt, .grp, .qmg, .dram, .emt, .saf, .port, .pool] st.m st'.m := by
  refine State.run_frame (fun _ => ?_) h
  refine .ite ?_ ?_
  · refine .trans ?_ (.mono rfl (Mach.dramFail_frame ..))
    exact .refl
  · exact .refl

theorem execPatrolScrub_frame (ch : Nat) (corrected uncorrectable : Bool) (st st' : State) (h : execPatrolScrub ch corrected uncorrectable
    st = .next st') : Frame [.dev, .regs, .mem, .eng, .sems, .flt, .grp, .qmg, .dram, .emt, .saf, .port, .pool] st.m st'.m := by
  refine State.run_frame (fun _ => ?_) h
  refine .ite ?_ ?_
  · refine .trans ?_ (Frame.when (fun _ => ?_))
    · refine .trans ?_ (Frame.when (fun _ => ?_))
      · refine .dram ?_
        exact .refl
      · refine .trans ?_ (.mono rfl (Mach.satInc_frame ..))
        exact .refl
    · refine .trans ?_ (.mono rfl (Mach.dramUe_frame ..))
      exact .refl
  · exact .refl

theorem execRefresh_frame (ch : Nat) (st st' : State) (h : execRefresh ch st = .next st') : Frame [.dram] st.m st'.m := by
  refine State.run_frame (fun _ => ?_) h
  refine .ite ?_ ?_
  · refine .dram ?_
    exact .refl
  · exact .refl

theorem execMr4Read_frame (ch quarters : Nat) (st st' : State) (h : execMr4Read ch quarters st = .next st') : Frame [.dram] st.m st'.m := by
  refine State.run_frame (fun _ => ?_) h
  refine .ite ?_ ?_
  · refine .dram ?_
    exact .refl
  · exact .refl

theorem execDramStarve_frame (k : Nat) (st st' : State) (h : execDramStarve k st = .next st') : Frame [.cyc, .regs, .time, .grp] st.m
    st'.m := by
  refine State.run_frame (fun _ => ?_) h
  split
  · exact .refl
  · refine .ite ?_ ?_
    · refine .trans ?_ (.mono rfl (Mach.advanceTo_frame ..))
      exact .refl
    · refine .trans ?_ (.mono rfl (Mach.starved_frame ..))
      refine .trans ?_ (.mono rfl (Mach.setFld_frame ..))
      refine .trans ?_ (.mono rfl (Mach.advanceTo_frame ..))
      exact .refl

theorem execQueueStarve_frame (q : Nat) (st st' : State) (h : execQueueStarve q st = .next st') : Frame [.cyc, .regs, .time, .grp] st.m
    st'.m := by
  refine State.run_frame (fun _ => ?_) h
  split
  · exact .refl
  · refine .ite ?_ ?_
    · refine .trans ?_ (.mono rfl (Mach.advanceTo_frame ..))
      exact .refl
    · refine .trans ?_ (.mono rfl (Mach.raiseAll_frame ..))
      refine .trans ?_ (.mono rfl (Mach.setFld_frame ..))
      refine .trans ?_ (.mono rfl (Mach.advanceTo_frame ..))
      exact .refl

theorem execSafetyStagingWrite_frame (src : Src) (off : Nat) (w : Word) (st st' : State) (h : execSafetyStagingWrite src off w st = .next
    st') : Frame [.status, .regs, .mem] st.m st'.m := by
  refine State.run_frame (fun _ => ?_) h
  refine .trans ?_ (Mach.asWriter_frame (fun _ => ?_))
  · exact .refl
  · refine .trans ?_ (.mono rfl (Mach.safStageWrite_frame ..))
    exact .refl

theorem execSafetyRecordWrite_frame (ctx grp off : Nat) (w : Word) (st st' : State) (h : execSafetyRecordWrite ctx grp off w st = .next
    st') : Frame [.status, .regs, .mem, .saf] st.m st'.m := by
  refine State.run_frame (fun _ => ?_) h
  refine .trans ?_ (.mono rfl (Mach.safRecordWrite_frame ..))
  exact .refl

theorem execSafetyVerifyDone_frame  (st st' : State) (h : execSafetyVerifyDone  st = .next st') : Frame [.regs, .mem, .commits, .saf] st.m
    st'.m := by
  refine State.run_frame (fun _ => ?_) h
  split
  · exact .refl
  · refine .ite ?_ ?_
    · refine .trans ?_ (.mono rfl (Mach.applied_frame ..))
      refine .trans ?_ (.mono rfl (Mach.safActivate_frame ..))
      refine .trans ?_ (.mono rfl (Mach.dropCommit_frame ..))
      refine .trans ?_ (.mono rfl (Mach.safRecordsClear_frame ..))
      refine .trans ?_ (.mono rfl (Mach.setFld_frame ..))
      refine .trans ?_ (.mono rfl (Mach.setFld_frame ..))
      refine .saf ?_
      exact .refl
    · refine .trans ?_ (.mono rfl (Mach.dropCommit_frame ..))
      refine .trans ?_ (.mono rfl (Mach.safRecordsClear_frame ..))
      refine .trans ?_ (.mono rfl (Mach.setFld_frame ..))
      refine .trans ?_ (.mono rfl (Mach.setFld_frame ..))
      refine .saf ?_
      exact .refl

theorem execBconfWrite_frame (src : Src) (v : Word) (st st' : State) (h : execBconfWrite src v st = .next st') : Frame [.status, .regs,
    .saf] st.m st'.m := by
  refine State.run_frame (fun _ => ?_) h
  refine .trans ?_ (Mach.asWriter_frame (fun _ => ?_))
  · exact .refl
  · refine .trans ?_ (.mono rfl (Mach.bconfSet_frame ..))
    exact .refl

theorem execBconfTimeout_frame  (st st' : State) (h : execBconfTimeout  st = .next st') : Frame [.cyc, .regs, .mem, .time, .grp, .qmg,
    .saf] st.m st'.m := by
  refine State.run_frame (fun _ => ?_) h
  split
  · exact .refl
  · refine .trans ?_ (.mono rfl (Mach.ossdOffAll_frame ..))
    refine .trans ?_ (.mono rfl (Mach.setFld_frame ..))
    refine .saf ?_
    refine .trans ?_ (.mono rfl (Mach.advanceTo_frame ..))
    exact .refl

theorem execPeriodEnd_frame  (st st' : State) (h : execPeriodEnd  st = .next st') : Frame [.cyc, .dev, .regs, .mem, .eng, .sems, .time,
    .flt, .grp, .qmg, .dram, .emt, .saf, .port, .pool] st.m st'.m := by
  refine State.run_frame (fun _ => ?_) h
  split
  · exact .refl
  · refine .trans ?_ (.mono rfl (Mach.sendSafe_frame ..))
    refine .trans ?_ (.mono rfl (Mach.ossdJudge_frame ..))
    refine .trans ?_ (Frame.when (fun _ => ?_))
    · refine .trans ?_ (.foldl (fun _ _ => ?_) _)
      · refine .trans ?_ (.mono rfl (Mach.applySet_frame ..))
        refine .trans ?_ (.mono rfl (Mach.wrapInc_frame ..))
        refine .saf ?_
        refine .trans ?_ (.mono rfl (Mach.pairEnd_frame ..))
        refine .trans ?_ (.mono rfl (Mach.pairEnd_frame ..))
        refine .trans ?_ (.mono rfl (Mach.selSettle_frame ..))
        refine .trans ?_ (.mono rfl (Mach.advanceTo_frame ..))
        exact .refl
      · refine .trans ?_ (.mono rfl (Mach.modOssd_frame ..))
        exact .refl
    · refine .trans ?_ (.mono rfl (Mach.safetyFault_frame ..))
      exact .refl

theorem execBresWrite_frame (src : Src) (p : Nat) (v : Word) (st st' : State) (h : execBresWrite src p v st = .next st') : Frame [.status,
    .regs, .mem, .grp, .qmg, .saf] st.m st'.m := by
  refine State.run_frame (fun _ => ?_) h
  refine .trans ?_ (Mach.asWriter_frame (fun _ => ?_))
  · exact .refl
  · refine .trans ?_ (.mono rfl (Mach.bresSet_frame ..))
    refine .trans ?_ (.mono rfl (Mach.selSettle_frame ..))
    exact .refl

theorem execBlatDeadline_frame (p : Nat) (st st' : State) (h : execBlatDeadline p st = .next st') : Frame [.cyc, .dev, .regs, .mem, .eng,
    .sems, .time, .flt, .grp, .qmg, .dram, .emt, .saf, .port, .pool] st.m st'.m := by
  refine State.run_frame (fun _ => ?_) h
  refine .trans ?_ (Mach.safCmd_frame (fun _ => ?_))
  · exact .refl
  · split
    · exact .refl
    · refine .ite ?_ ?_
      · exact .refl
      · refine .trans ?_ (.mono rfl (Mach.safetyFault_frame ..))
        refine .trans ?_ (.mono rfl (Mach.ossdJudge_frame ..))
        refine .trans ?_ (.mono rfl (Mach.modOssd_frame ..))
        refine .trans ?_ (.mono rfl (Mach.advanceTo_frame ..))
        exact .refl

theorem execInputLevel_frame (k : Nat) (level : Bool) (evs : Nat) (st st' : State) (h : execInputLevel k level evs st = .next st') : Frame
    [.regs, .mem, .grp, .qmg, .saf] st.m st'.m := by
  refine State.run_frame (fun _ => ?_) h
  refine .trans ?_ (Mach.safCmd_frame (fun _ => ?_))
  · exact .refl
  · refine .trans ?_ (.mono rfl (Mach.codeChanged_frame ..))
    refine .trans ?_ (.mono rfl (Mach.inDiffer_frame ..))
    refine .trans ?_ (.mono rfl (Mach.inDiffer_frame ..))
    refine .trans ?_ (Frame.when (fun _ => ?_))
    · refine .trans ?_ (.foldl (fun _ _ => ?_) _)
      · exact .refl
      · refine .trans ?_ (.mono rfl (Mach.evalInput_frame ..))
        refine .trans ?_ (.mono rfl (Mach.modSafIn_frame ..))
        exact .refl
    · refine .trans ?_ (.mono rfl (Mach.setFld_frame ..))
      exact .refl

theorem execDiscrepancyExpiry_frame (i : Nat) (st st' : State) (h : execDiscrepancyExpiry i st = .next st') : Frame [.cyc, .regs, .mem,
    .time, .grp, .qmg, .saf] st.m st'.m := by
  refine State.run_frame (fun _ => ?_) h
  refine .trans ?_ (Mach.safCmd_frame (fun _ => ?_))
  · exact .refl
  · refine .ite ?_ ?_
    · exact .refl
    · refine .trans ?_ (.mono rfl (Mach.inDiffer_frame ..))
      refine .trans ?_ (.mono rfl (Mach.inDiffer_frame ..))
      refine .trans ?_ (.mono rfl (Mach.setFld_frame ..))
      refine .trans ?_ (.foldl (fun _ _ => ?_) _)
      · refine .trans ?_ (.mono rfl (Mach.advanceTo_frame ..))
        exact .refl
      · refine .trans ?_ (.mono rfl (Mach.inFault_frame ..))
        exact .refl

theorem execTwoHandTimeout_frame (k : Nat) (st st' : State) (h : execTwoHandTimeout k st = .next st') : Frame [.cyc, .regs, .mem, .time,
    .grp, .qmg, .saf] st.m st'.m := by
  refine State.run_frame (fun _ => ?_) h
  refine .trans ?_ (Mach.safCmd_frame (fun _ => ?_))
  · exact .refl
  · refine .ite ?_ ?_
    · exact .refl
    · refine .trans ?_ (.mono rfl (Mach.inDiffer_frame ..))
      refine .trans ?_ (.mono rfl (Mach.inDiffer_frame ..))
      refine .trans ?_ (.foldl (fun _ _ => ?_) _)
      · refine .trans ?_ (.mono rfl (Mach.advanceTo_frame ..))
        exact .refl
      · refine .trans ?_ (.mono rfl (Mach.evalInput_frame ..))
        refine .trans ?_ (.mono rfl (Mach.inGoes_frame ..))
        refine .trans ?_ (.mono rfl (Mach.inGoes_frame ..))
        exact .refl

theorem execEvaluatorDisagree_frame (i : Nat) (st st' : State) (h : execEvaluatorDisagree i st = .next st') : Frame [.cyc, .dev, .regs,
    .mem, .eng, .sems, .time, .flt, .grp, .qmg, .dram, .emt, .saf, .port, .pool] st.m st'.m := by
  refine State.run_frame (fun _ => ?_) h
  refine .trans ?_ (Mach.safCmd_frame (fun _ => ?_))
  · exact .refl
  · split
    · exact .refl
    · refine .ite ?_ ?_
      · refine .trans ?_ (.mono rfl (Mach.safetyFault_frame ..))
        refine .trans ?_ (.mono rfl (Mach.advanceTo_frame ..))
        exact .refl
      · exact .refl

theorem execTestPulse_frame (k : Nat) (st st' : State) (h : execTestPulse k st = .next st') : Frame [.cyc, .regs, .mem, .time, .grp, .qmg,
    .saf] st.m st'.m := by
  refine State.run_frame (fun _ => ?_) h
  refine .trans ?_ (Mach.safCmd_frame (fun _ => ?_))
  · exact .refl
  · split
    · exact .refl
    · refine .saf ?_
      refine .trans ?_ (.mono rfl (Mach.advanceTo_frame ..))
      exact .refl

theorem execTestPulseJudge_frame (k failed : Nat) (st st' : State) (h : execTestPulseJudge k failed st = .next st') : Frame [.cyc, .regs,
    .mem, .time, .grp, .qmg, .saf] st.m st'.m := by
  refine State.run_frame (fun _ => ?_) h
  refine .trans ?_ (Mach.safCmd_frame (fun _ => ?_))
  · exact .refl
  · split
    · exact .refl
    · refine .ite ?_ ?_
      · exact .refl
      · refine .saf ?_
        refine .trans ?_ (.foldl (fun _ _ => ?_) _)
        · refine .trans ?_ (.mono rfl (Mach.advanceTo_frame ..))
          exact .refl
        · refine .trans ?_ (.mono rfl (Mach.tpJudge_frame ..))
          exact .refl

theorem execFswerr_frame  (st st' : State) (h : execFswerr  st = .next st') : Frame [.cyc, .regs, .mem, .time, .grp, .qmg, .saf] st.m
    st'.m := by
  refine State.run_frame (fun _ => ?_) h
  refine .trans ?_ (Mach.safCmd_frame (fun _ => ?_))
  · exact .refl
  · split
    · exact .refl
    · refine .ite ?_ ?_
      · refine .ite ?_ ?_
        · refine .trans ?_ (.mono rfl (Mach.setFld_frame ..))
          refine .trans ?_ (.mono rfl (Mach.selSettle_frame ..))
          exact .mono rfl (Mach.advanceTo_frame ..)
        · refine .trans ?_ (.mono rfl (Mach.selSettle_frame ..))
          exact .mono rfl (Mach.advanceTo_frame ..)
      · exact .refl

theorem execSwitchOn_frame (p : Nat) (st st' : State) (h : execSwitchOn p st = .next st') : Frame [.regs, .mem, .grp, .qmg, .saf] st.m
    st'.m := by
  refine State.run_frame (fun _ => ?_) h
  refine .trans ?_ (Mach.safCmd_frame (fun _ => ?_))
  · exact .refl
  · refine .ite ?_ ?_
    · refine .trans ?_ (.mono rfl (Mach.modOssd_frame ..))
      refine .trans ?_ (.mono rfl (Mach.setFld_frame ..))
      refine .trans ?_ (.mono rfl (Mach.setFld_frame ..))
      refine .trans ?_ (.mono rfl (Mach.setFld_frame ..))
      refine .trans ?_ (.mono rfl (Mach.setFld_frame ..))
      exact .refl
    · exact .refl

theorem execFbCheck_frame (p : Nat) (fb : Bool) (st st' : State) (h : execFbCheck p fb st = .next st') : Frame [.cyc, .dev, .regs, .mem,
    .eng, .sems, .time, .flt, .grp, .qmg, .dram, .emt, .saf, .port, .pool] st.m st'.m := by
  refine State.run_frame (fun _ => ?_) h
  refine .trans ?_ (Mach.safCmd_frame (fun _ => ?_))
  · exact .refl
  · dsimp only
    split
    · refine .ite ?_ ?_
      · refine .trans ?_ (.mono rfl (Mach.modOssd_frame ..))
        refine .trans ?_ (.mono rfl (Mach.setFld_frame ..))
        refine .trans ?_ (.mono rfl (Mach.setFld_frame ..))
        refine .trans ?_ (.mono rfl (Mach.fbSeen_frame ..))
        refine .trans ?_ (.mono rfl (Mach.advanceTo_frame ..))
        exact .refl
      · refine .trans ?_ (.mono rfl (Mach.fbFails_frame ..))
        refine .trans ?_ (.mono rfl (Mach.fbSeen_frame ..))
        refine .trans ?_ (.mono rfl (Mach.advanceTo_frame ..))
        exact .refl
    · refine .ite ?_ ?_
      · refine .trans ?_ (.mono rfl (Mach.fbFails_frame ..))
        refine .trans ?_ (.mono rfl (Mach.fbSeen_frame ..))
        refine .trans ?_ (.mono rfl (Mach.advanceTo_frame ..))
        exact .refl
      · refine .trans ?_ (.mono rfl (Mach.modOssd_frame ..))
        refine .trans ?_ (.mono rfl (Mach.setFld_frame ..))
        refine .trans ?_ (.mono rfl (Mach.fbSeen_frame ..))
        refine .trans ?_ (.mono rfl (Mach.advanceTo_frame ..))
        exact .refl
    · refine .trans ?_ (.mono rfl (Mach.fbSeen_frame ..))
      refine .trans ?_ (.mono rfl (Mach.modOssd_frame ..))
      exact .refl

theorem execOffpTest_frame (p : Nat) (st st' : State) (h : execOffpTest p st = .next st') : Frame [.cyc, .regs, .mem, .time, .grp, .qmg,
    .saf] st.m st'.m := by
  refine State.run_frame (fun _ => ?_) h
  refine .trans ?_ (Mach.safCmd_frame (fun _ => ?_))
  · exact .refl
  · refine .ite ?_ ?_
    · refine .trans ?_ (.mono rfl (Mach.modOssd_frame ..))
      refine .trans ?_ (.mono rfl (Mach.setFld_frame ..))
      refine .trans ?_ (.mono rfl (Mach.advanceTo_frame ..))
      exact .refl
    · exact .refl

theorem execOfftTestEnd_frame (p : Nat) (fb : Bool) (st st' : State) (h : execOfftTestEnd p fb st = .next st') : Frame [.cyc, .dev, .regs,
    .mem, .eng, .sems, .time, .flt, .grp, .qmg, .dram, .emt, .saf, .port, .pool] st.m st'.m := by
  refine State.run_frame (fun _ => ?_) h
  refine .trans ?_ (Mach.safCmd_frame (fun _ => ?_))
  · exact .refl
  · refine .ite ?_ ?_
    · refine .ite ?_ ?_
      · refine .trans ?_ (.mono rfl (Mach.modOssd_frame ..))
        refine .trans ?_ (.mono rfl (Mach.setFld_frame ..))
        refine .trans ?_ (.mono rfl (Mach.fbSeen_frame ..))
        refine .trans ?_ (.mono rfl (Mach.advanceTo_frame ..))
        exact .refl
      · refine .trans ?_ (.mono rfl (Mach.fbFails_frame ..))
        refine .trans ?_ (.mono rfl (Mach.fbSeen_frame ..))
        refine .trans ?_ (.mono rfl (Mach.advanceTo_frame ..))
        exact .refl
    · exact .refl

theorem execSafe_frame (g ctx : Nat) (spec payload : List Byte) (st st' : State) (h : execSafe g ctx spec payload st = .next st') : Frame
    [.regs, .mem, .grp, .qmg, .saf] st.m st'.m := by
  refine State.run_frame (fun _ => ?_) h
  refine .trans ?_ (Mach.arrives_frame (fun _ => ?_))
  · exact .refl
  · refine .ite ?_ ?_
    · exact .refl
    · refine .ite ?_ ?_
      · refine .trans ?_ (.mono rfl (Mach.badPkt_frame ..))
        exact .refl
      · refine .ite ?_ ?_
        · refine .trans ?_ (.mono rfl (Mach.badPkt_frame ..))
          exact .refl
        · refine .trans ?_ (Mach.safCmd_frame (fun _ => ?_))
          · exact .refl
          · refine .ite ?_ ?_
            · refine .trans ?_ (.mono rfl (Mach.safCopy_frame ..))
              exact .refl
            · refine .trans ?_ (.mono rfl (Mach.satInc_frame ..))
              exact .refl

theorem execSafeCopyTimeout_frame (g : Nat) (st st' : State) (h : execSafeCopyTimeout g st = .next st') : Frame [.cyc, .regs, .mem, .time,
    .grp, .qmg, .saf] st.m st'.m := by
  refine State.run_frame (fun _ => ?_) h
  refine .trans ?_ (Mach.safCmd_frame (fun _ => ?_))
  · exact .refl
  · split
    · exact .refl
    · refine .trans ?_ (.mono rfl (Mach.satInc_frame ..))
      refine .saf ?_
      refine .trans ?_ (.mono rfl (Mach.advanceTo_frame ..))
      exact .refl

theorem execHeartbeat_frame  (st st' : State) (h : execHeartbeat  st = .next st') : Frame [.regs, .mem, .grp, .qmg, .saf] st.m st'.m := by
  refine State.run_frame (fun _ => ?_) h
  refine .trans ?_ (Mach.safExec_frame (fun _ => ?_))
  · exact .refl
  · intro _
    refine .trans ?_ (.mono rfl (Mach.beat_frame ..))
    exact .refl

theorem execFieldsel_frame  (st st' : State) (h : execFieldsel  st = .next st') : Frame [.regs, .mem, .grp, .qmg, .saf] st.m st'.m := by
  refine State.run_frame (fun _ => ?_) h
  refine .trans ?_ (Mach.safExec_frame (fun _ => ?_))
  · exact .refl
  · intro _
    refine .trans ?_ (.mono rfl (Mach.codeChanged_frame ..))
    refine .saf ?_
    exact .refl

theorem execRestart_frame  (st st' : State) (h : execRestart  st = .next st') : Frame [.regs, .mem, .grp, .qmg, .saf] st.m st'.m := by
  refine State.run_frame (fun _ => ?_) h
  refine .trans ?_ (Mach.safExec_frame (fun _ => ?_))
  · exact .refl
  · intro _
    refine .trans ?_ (.foldl (fun _ _ => ?_) _)
    · exact .refl
    · refine .ite ?_ ?_
      · refine .trans ?_ (.mono rfl (Mach.setFld_frame ..))
        refine .trans ?_ (.mono rfl (Mach.modOssd_frame ..))
        exact .refl
      · exact .refl

theorem execFaultAck_frame  (st st' : State) (h : execFaultAck  st = .next st') : Frame [.regs, .mem, .grp, .qmg, .saf] st.m st'.m := by
  refine State.run_frame (fun _ => ?_) h
  refine .trans ?_ (Mach.safExec_frame (fun _ => ?_))
  · exact .refl
  · intro _
    refine .trans ?_ (.foldl (fun _ _ => ?_) _)
    · refine .trans ?_ (.foldl (fun _ _ => ?_) _)
      · exact .refl
      · refine .trans ?_ (Frame.when (fun _ => ?_))
        · exact .refl
        · refine .trans ?_ (.mono rfl (Mach.setFld_frame ..))
          refine .trans ?_ (.mono rfl (Mach.setFld_frame ..))
          exact .refl
    · refine .ite ?_ ?_
      · refine .trans ?_ (.mono rfl (Mach.fbSeen_frame ..))
        refine .trans ?_ (.mono rfl (Mach.modOssd_frame ..))
        exact .refl
      · exact .refl

theorem execOasis_frame  (st st' : State) (h : execOasis  st = .next st') : Frame [.dev, .regs, .mem, .eng, .sems, .grp, .qmg, .dram,
    .emt, .saf, .port, .pool] st.m st'.m := by
  refine State.run_frame (fun _ => ?_) h
  refine .trans ?_ (Mach.safExec_frame (fun _ => ?_))
  · exact .refl
  · intro _
    refine .trans ?_ (.mono rfl (Mach.enterOasis_frame ..))
    exact .refl

theorem execHeartbeatTimeout_frame  (st st' : State) (h : execHeartbeatTimeout  st = .next st') : Frame [.cyc, .regs, .mem, .time, .grp,
    .qmg, .saf] st.m st'.m := by
  refine State.run_frame (fun _ => ?_) h
  refine .trans ?_ (Mach.safCmd_frame (fun _ => ?_))
  · exact .refl
  · refine .ite ?_ ?_
    · exact .refl
    · refine .trans ?_ (.mono rfl (Mach.setFld_frame ..))
      refine .trans ?_ (.mono rfl (Mach.advanceTo_frame ..))
      exact .refl

theorem execHkRefEn_frame (src : Src) (on : Bool) (st st' : State) (h : execHkRefEn src on st = .next st') : Frame [.status, .dev, .regs,
    .mem, .eng, .sems, .grp, .qmg, .dram, .emt, .saf, .port, .pool, .hk] st.m st'.m := by
  refine State.run_frame (fun _ => ?_) h
  refine .trans ?_ (Mach.asWriter_frame (fun _ => ?_))
  · exact .refl
  · refine .trans ?_ (.mono rfl (Mach.hkCtrl_frame ..))
    exact .refl

theorem execHkGo_frame (src : Src) (st st' : State) (h : execHkGo src st = .next st') : Frame [.status, .dev, .regs, .mem, .eng, .sems,
    .grp, .qmg, .dram, .emt, .saf, .port, .pool, .hk] st.m st'.m := by
  refine State.run_frame (fun _ => ?_) h
  refine .trans ?_ (Mach.asWriter_frame (fun _ => ?_))
  · exact .refl
  · refine .trans ?_ (.mono rfl (Mach.hkCtrl_frame ..))
    exact .refl

theorem execHkSync_frame (src : Src) (st st' : State) (h : execHkSync src st = .next st') : Frame [.status, .dev, .regs, .mem, .eng,
    .sems, .grp, .qmg, .dram, .emt, .saf, .port, .pool, .hk] st.m st'.m := by
  refine State.run_frame (fun _ => ?_) h
  refine .trans ?_ (Mach.asWriter_frame (fun _ => ?_))
  · exact .refl
  · refine .trans ?_ (.mono rfl (Mach.hkCtrl_frame ..))
    exact .refl

theorem execHkPassStart_frame  (st st' : State) (h : execHkPassStart  st = .next st') : Frame [.cyc, .regs, .time, .hk] st.m st'.m := by
  refine State.run_frame (fun _ => ?_) h
  dsimp only
  split
  · exact .refl
  · refine .ite ?_ ?_
    · exact .refl
    · refine .trans ?_ (.mono rfl (Mach.modHk_frame ..))
      refine .trans ?_ (.mono rfl (Mach.setFld_frame ..))
      refine .trans ?_ (.mono rfl (Mach.advanceTo_frame ..))
      exact .refl

theorem execHkEntryDone_frame (codes : List Int) (st st' : State) (h : execHkEntryDone codes st = .next st') : Frame [.cyc, .dev, .regs,
    .mem, .commits, .eng, .sems, .time, .flt, .grp, .qmg, .dram, .emt, .saf, .port, .pool, .hk] st.m st'.m := by
  refine State.run_frame (fun _ => ?_) h
  split
  · exact .refl
  · refine .ite ?_ ?_
    · exact .refl
    · refine .ite ?_ ?_
      · refine .trans ?_ (.mono rfl (Mach.hkPassEnd_frame ..))
        refine .ite ?_ ?_
        · refine .trans ?_ (.mono rfl (Mach.hkFilter_frame ..))
          refine .trans ?_ (.mono rfl (Mach.hkStatus_frame ..))
          refine .trans ?_ (.mono rfl (Mach.modEnt_frame ..))
          refine .trans ?_ (.mono rfl (Mach.modHk_frame ..))
          refine .trans ?_ (.mono rfl (Mach.advanceTo_frame ..))
          exact .refl
        · refine .trans ?_ (.mono rfl (Mach.setFld_frame ..))
          refine .trans ?_ (.mono rfl (Mach.modHk_frame ..))
          refine .trans ?_ (.mono rfl (Mach.advanceTo_frame ..))
          exact .refl
      · refine .ite ?_ ?_
        · refine .trans ?_ (.mono rfl (Mach.hkFilter_frame ..))
          refine .trans ?_ (.mono rfl (Mach.hkStatus_frame ..))
          refine .trans ?_ (.mono rfl (Mach.modEnt_frame ..))
          refine .trans ?_ (.mono rfl (Mach.modHk_frame ..))
          refine .trans ?_ (.mono rfl (Mach.advanceTo_frame ..))
          exact .refl
        · refine .trans ?_ (.mono rfl (Mach.setFld_frame ..))
          refine .trans ?_ (.mono rfl (Mach.modHk_frame ..))
          refine .trans ?_ (.mono rfl (Mach.advanceTo_frame ..))
          exact .refl

theorem execOutputWord_frame (e : Nat) (st st' : State) (h : execOutputWord e st = .next st') : Frame [.cyc, .regs, .mem, .time, .grp,
    .qmg, .hk] st.m st'.m := by
  refine State.run_frame (fun _ => ?_) h
  split
  · exact .refl
  · refine .ite ?_ ?_
    · dsimp only
      split
      · (rename_i hpair; obtain rfl := congrArg Prod.fst hpair)
        refine .trans ?_ (.mono rfl (Mach.offer_frame ..))
        refine .trans ?_ (.mono rfl (Mach.wrapInc_frame ..))
        refine .trans ?_ (.mono rfl (Mach.setReg_frame ..))
        refine .trans ?_ (.mono rfl (Mach.modHk_frame ..))
        refine .trans ?_ (.mono rfl (Mach.advanceTo_frame ..))
        exact .refl
      · refine .trans ?_ (.mono rfl (Mach.satInc_frame ..))
        (rename_i hpair; obtain rfl := congrArg Prod.fst hpair)
        refine .trans ?_ (.mono rfl (Mach.offer_frame ..))
        refine .trans ?_ (.mono rfl (Mach.wrapInc_frame ..))
        refine .trans ?_ (.mono rfl (Mach.setReg_frame ..))
        refine .trans ?_ (.mono rfl (Mach.modHk_frame ..))
        refine .trans ?_ (.mono rfl (Mach.advanceTo_frame ..))
        exact .refl
    · refine .trans ?_ (.mono rfl (Mach.wrapInc_frame ..))
      refine .trans ?_ (.mono rfl (Mach.setReg_frame ..))
      refine .trans ?_ (.mono rfl (Mach.modHk_frame ..))
      refine .trans ?_ (.mono rfl (Mach.advanceTo_frame ..))
      exact .refl

theorem execFixedPairBlock_frame  (st st' : State) (h : execFixedPairBlock  st = .next st') : Frame [.cyc, .time, .hk] st.m st'.m := by
  refine State.run_frame (fun _ => ?_) h
  split
  · exact .refl
  · refine .trans ?_ (.mono rfl (Mach.modHk_frame ..))
    refine .trans ?_ (.mono rfl (Mach.advanceTo_frame ..))
    exact .refl

theorem execFixedPairResult_frame (k : Nat) (sum : Int) (ovl : Bool) (st st' : State) (h : execFixedPairResult k sum ovl st = .next st')
    : Frame [.cyc, .regs, .time, .grd, .hk] st.m st'.m := by
  refine State.run_frame (fun _ => ?_) h
  split
  · exact .refl
  · refine .ite ?_ ?_
    · exact .refl
    · refine .trans ?_ (.mono rfl (Mach.grdShow_frame ..))
      refine .grd ?_
      refine .trans ?_ (.mono rfl (Mach.modHk_frame ..))
      refine .trans ?_ (.mono rfl (Mach.setFld_frame ..))
      refine .trans ?_ (.mono rfl (Mach.setFld_frame ..))
      refine .trans ?_ (.mono rfl (Mach.setFld_frame ..))
      refine .trans ?_ (.mono rfl (Mach.advanceTo_frame ..))
      exact .refl

theorem execHkCalibrationSlot_frame (zero full : Int) (st st' : State) (h : execHkCalibrationSlot zero full st = .next st') : Frame [.cyc,
    .mem, .time, .hk] st.m st'.m := by
  refine State.run_frame (fun _ => ?_) h
  split
  · exact .refl
  · split
    · exact .refl
    · refine .ite ?_ ?_
      · exact .refl
      · refine .trans ?_ (.mono rfl (Mach.calRecord_frame ..))
        refine .trans ?_ (.mono rfl (Mach.modHk_frame ..))
        refine .trans ?_ (.mono rfl (Mach.advanceTo_frame ..))
        exact .refl

theorem execDieSensorRead_frame (temps : List Int) (st st' : State) (h : execDieSensorRead temps st = .next st') : Frame [.cyc, .dev,
    .regs, .mem, .eng, .sems, .time, .flt, .grp, .lane, .qmg, .dram, .emt, .grd, .saf, .port, .tdc, .pool, .thm] st.m st'.m := by
  refine State.run_frame (fun _ => ?_) h
  refine .ite ?_ ?_
  · exact .refl
  · dsimp only
    split
    · refine .trans ?_ (Frame.when (fun _ => ?_))
      · refine .trans ?_ (.foldl (fun _ _ => ?_) _)
        · refine .trans ?_ (.foldl (fun _ _ => ?_) _)
          · refine .thm ?_
            refine .trans ?_ (.mono rfl (Mach.advanceTo_frame ..))
            exact .refl
          · refine .trans ?_ (.mono rfl (Mach.dieJudge_frame ..))
            exact .refl
        · split
          · refine .trans ?_ (.mono rfl (Mach.setFld_frame ..))
            exact .refl
          · exact .refl
      · refine .trans ?_ (.mono rfl (Mach.enterOasis_frame ..))
        exact .refl
    · refine .ite ?_ ?_
      · refine .trans ?_ (.mono rfl (Mach.enterShutdown_frame ..))
        refine .trans ?_ (.mono rfl (Mach.report_frame ..))
        refine .trans ?_ (.mono rfl (Mach.heatShow_frame ..))
        refine .trans ?_ (.mono rfl (Mach.bandTo_frame ..))
        refine .thm ?_
        refine .trans ?_ (.mono rfl (Mach.coldTo_frame ..))
        refine .trans ?_ (.mono rfl (Mach.warnings_frame ..))
        refine .trans ?_ (.mono rfl (Mach.setFld_frame ..))
        refine .trans ?_ (.mono rfl (Mach.setFld_frame ..))
        refine .trans ?_ (Frame.when (fun _ => ?_))
        · refine .trans ?_ (.foldl (fun _ _ => ?_) _)
          · refine .trans ?_ (.foldl (fun _ _ => ?_) _)
            · refine .thm ?_
              refine .trans ?_ (.mono rfl (Mach.advanceTo_frame ..))
              exact .refl
            · refine .trans ?_ (.mono rfl (Mach.dieJudge_frame ..))
              exact .refl
          · split
            · refine .trans ?_ (.mono rfl (Mach.setFld_frame ..))
              exact .refl
            · exact .refl
        · refine .trans ?_ (.mono rfl (Mach.enterOasis_frame ..))
          exact .refl
      · refine .trans ?_ (.mono rfl (Mach.heatShow_frame ..))
        refine .trans ?_ (.mono rfl (Mach.bandTo_frame ..))
        refine .thm ?_
        refine .trans ?_ (.mono rfl (Mach.coldTo_frame ..))
        refine .trans ?_ (.mono rfl (Mach.warnings_frame ..))
        refine .trans ?_ (.mono rfl (Mach.setFld_frame ..))
        refine .trans ?_ (.mono rfl (Mach.setFld_frame ..))
        refine .trans ?_ (Frame.when (fun _ => ?_))
        · refine .trans ?_ (.foldl (fun _ _ => ?_) _)
          · refine .trans ?_ (.foldl (fun _ _ => ?_) _)
            · refine .thm ?_
              refine .trans ?_ (.mono rfl (Mach.advanceTo_frame ..))
              exact .refl
            · refine .trans ?_ (.mono rfl (Mach.dieJudge_frame ..))
              exact .refl
          · split
            · refine .trans ?_ (.mono rfl (Mach.setFld_frame ..))
              exact .refl
            · exact .refl
        · refine .trans ?_ (.mono rfl (Mach.enterOasis_frame ..))
          exact .refl

theorem execCalSetEvaluation_frame  (st st' : State) (h : execCalSetEvaluation  st = .next st') : Frame [.cyc, .regs, .time, .hk] st.m
    st'.m := by
  refine State.run_frame (fun _ => ?_) h
  refine .trans ?_ (.mono rfl (Mach.setFld_frame ..))
  refine .trans ?_ (.foldl (fun _ _ => ?_) _)
  · refine .trans ?_ (.mono rfl (Mach.modHk_frame ..))
    refine .trans ?_ (.mono rfl (Mach.advanceTo_frame ..))
    exact .refl
  · refine .trans ?_ (.mono rfl (Mach.calEval_frame ..))
    exact .refl

theorem execFaultRecordClose_frame (root : Nat) (st st' : State) (h : execFaultRecordClose root st = .next st') : Frame [.cyc, .regs,
    .mem, .time, .flt, .grp] st.m st'.m := by
  refine State.run_frame (fun _ => ?_) h
  split
  · exact .refl
  · refine .trans ?_ (.mono rfl (Mach.logRecord_frame ..))
    refine .trans ?_ (.mono rfl (Mach.setFld_frame ..))
    refine .flt ?_
    refine .trans ?_ (.mono rfl (Mach.advanceTo_frame ..))
    exact .refl

theorem execCaptureGo_frame (src : Src) (v : Word) (st st' : State) (h : execCaptureGo src v st = .next st') : Frame [.status, .regs,
    .shadow, .probe] st.m st'.m := by
  refine State.run_frame (fun _ => ?_) h
  refine .trans ?_ (Mach.asWriter_frame (fun _ => ?_))
  · exact .refl
  · refine .trans ?_ (.mono rfl (Mach.prbCtrlSet_frame ..))
    exact .refl

theorem execCaptureStop_frame (src : Src) (st st' : State) (h : execCaptureStop src st = .next st') : Frame [.status, .regs] st.m st'.m :=
    by
  refine State.run_frame (fun _ => ?_) h
  refine .trans ?_ (Mach.asWriter_frame (fun _ => ?_))
  · exact .refl
  · refine .trans ?_ (.mono rfl (Mach.prbStop_frame ..))
    refine .trans ?_ (.mono rfl (Mach.done_frame ..))
    exact .refl

theorem execProbeSample_frame (lost : Bool) (st st' : State) (h : execProbeSample lost st = .next st') : Frame [.cyc, .regs, .mem, .time,
    .probe] st.m st'.m := by
  refine State.run_frame (fun _ => ?_) h
  refine .ite ?_ ?_
  · exact .refl
  · refine .ite ?_ ?_
    · refine .trans ?_ (.mono rfl (Mach.prbStore_frame ..))
      refine .trans ?_ (.mono rfl (Mach.modProbe_frame ..))
      refine .trans ?_ (.mono rfl (Mach.advanceTo_frame ..))
      exact .refl
    · refine .trans ?_ (Frame.when (fun _ => ?_))
      · refine .trans ?_ (.mono rfl (Mach.prbStore_frame ..))
        refine .trans ?_ (.mono rfl (Mach.modProbe_frame ..))
        refine .trans ?_ (.mono rfl (Mach.modProbe_frame ..))
        refine .trans ?_ (.mono rfl (Mach.advanceTo_frame ..))
        exact .refl
      · refine .trans ?_ (.mono rfl (Mach.prbTrigger_frame ..))
        exact .refl

theorem execCaptureDone_frame  (st st' : State) (h : execCaptureDone  st = .next st') : Frame [.regs] st.m st'.m := by
  refine State.run_frame (fun _ => ?_) h
  refine .ite ?_ ?_
  · refine .trans ?_ (.mono rfl (Mach.setFld_frame ..))
    exact .refl
  · exact .refl

theorem execInject_frame (src : Src) (v : Word) (st st' : State) (h : execInject src v st = .next st') : Frame [.status, .dev, .regs,
    .mem, .eng, .sems, .flt, .grp, .lane, .qmg, .dram, .emt, .saf, .axis, .port, .tdc, .pool] st.m st'.m := by
  refine State.run_frame (fun _ => ?_) h
  refine .trans ?_ (Mach.asWriter_frame (fun _ => ?_))
  · exact .refl
  · refine .trans ?_ (.mono rfl (Mach.injectSet_frame ..))
    exact .refl

theorem execProgramSlot_frame (src : Src) (v : Word) (st st' : State) (h : execProgramSlot src v st = .next st') : Frame [.status,
    .fusJob] st.m st'.m := by
  refine State.run_frame (fun _ => ?_) h
  refine .trans ?_ (Mach.asWriter_frame (fun _ => ?_))
  · exact .refl
  · refine .trans ?_ (.mono rfl (Mach.fusProg_frame ..))
    exact .refl

theorem execRevokeSlot_frame (src : Src) (v : Word) (st st' : State) (h : execRevokeSlot src v st = .next st') : Frame [.status, .fusJob]
    st.m st'.m := by
  refine State.run_frame (fun _ => ?_) h
  refine .trans ?_ (Mach.asWriter_frame (fun _ => ?_))
  · exact .refl
  · refine .trans ?_ (.mono rfl (Mach.fusProg_frame ..))
    exact .refl

theorem execRaiseGminver_frame (src : Src) (v : Word) (st st' : State) (h : execRaiseGminver src v st = .next st') : Frame [.status,
    .fusJob] st.m st'.m := by
  refine State.run_frame (fun _ => ?_) h
  refine .trans ?_ (Mach.asWriter_frame (fun _ => ?_))
  · exact .refl
  · refine .trans ?_ (.mono rfl (Mach.fusProg_frame ..))
    exact .refl

theorem execRaiseSminver_frame (src : Src) (v : Word) (st st' : State) (h : execRaiseSminver src v st = .next st') : Frame [.status,
    .fusJob] st.m st'.m := by
  refine State.run_frame (fun _ => ?_) h
  refine .trans ?_ (Mach.asWriter_frame (fun _ => ?_))
  · exact .refl
  · refine .trans ?_ (.mono rfl (Mach.fusProg_frame ..))
    exact .refl

theorem execTapReset_frame  (st st' : State) (h : execTapReset  st = .next st') : Frame [.status, .dev, .tap, .regs, .shadow, .mem,
    .commits, .eng, .sems, .time, .flt, .grp, .lane, .qmg, .dram, .emt, .grd, .saf, .axis, .port, .tdc, .pool, .rej, .cam, .pts, .hk,
    .thm, .probe, .fusJob] st.m st'.m := by
  refine State.run_frame (fun _ => ?_) h
  refine .trans ?_ (.mono rfl (Mach.tapSelect_frame ..))
  exact .refl

theorem execBypass_frame (ir : Nat) (st st' : State) (h : execBypass ir st = .next st') : Frame [.status, .dev, .tap, .regs, .shadow,
    .mem, .commits, .eng, .sems, .time, .flt, .grp, .lane, .qmg, .dram, .emt, .grd, .saf, .axis, .port, .tdc, .pool, .rej, .cam, .pts,
    .hk, .thm, .probe, .fusJob] st.m st'.m := by
  refine State.run_frame (fun _ => ?_) h
  refine .ite ?_ ?_
  · exact .refl
  · refine .trans ?_ (.mono rfl (Mach.tapSelect_frame ..))
    exact .refl

theorem execSamplePreload_frame (cells : List (Nat × Nat)) (st st' : State) (h : execSamplePreload cells st = .next st') : Frame [.status,
    .dev, .tap, .regs, .shadow, .mem, .commits, .eng, .sems, .time, .flt, .grp, .lane, .qmg, .dram, .emt, .grd, .saf, .axis, .port, .tdc,
    .pool, .rej, .cam, .pts, .hk, .thm, .probe, .fusJob] st.m st'.m := by
  refine State.run_frame (fun _ => ?_) h
  refine .tap ?_
  refine .trans ?_ (.mono rfl (Mach.tapSelect_frame ..))
  exact .refl

theorem execExtest_frame  (st st' : State) (h : execExtest  st = .next st') : Frame [.status, .dev, .tap, .regs, .shadow, .mem, .commits,
    .eng, .sems, .time, .flt, .grp, .lane, .qmg, .dram, .emt, .grd, .saf, .axis, .port, .tdc, .pool, .rej, .cam, .pts, .hk, .thm, .probe,
    .fusJob] st.m st'.m := by
  refine State.run_frame (fun _ => ?_) h
  refine .trans ?_ (.mono rfl (Mach.tapSelect_frame ..))
  exact .refl

theorem execWaveformSample_frame (p : Nat) (odd : Bool) (k adc : Nat) (st st' : State) (h : execWaveformSample p odd k adc st = .next st')
    : Frame [.cyc, .time, .port] st.m st'.m := by
  refine State.run_frame (fun _ => ?_) h
  refine .trans ?_ (.mono rfl (Mach.modP_frame ..))
  refine .trans ?_ (.mono rfl (Mach.advanceToFine_frame ..))
  exact .refl

theorem execPositionConverterSample_frame (axis : Nat) (adc : Int) (ovl : Bool) (st st' : State) (h : execPositionConverterSample axis
    adc ovl st = .next st') : Frame [.regs, .axis] st.m st'.m := by
  refine State.run_frame (fun _ => ?_) h
  refine .trans ?_ (Frame.when (fun _ => ?_))
  · refine .trans ?_ (.mono rfl (Mach.modAx_frame ..))
    exact .refl
  · refine .trans ?_ (.mono rfl (Mach.satInc_frame ..))
    exact .refl

theorem execPositionAverageReady_frame (axis : Nat) (st st' : State) (h : execPositionAverageReady axis st = .next st') : Frame [.free,
    .eng, .axis] st.m st'.m := by
  refine State.run_frame (fun _ => ?_) h
  refine .ite ?_ ?_
  · exact .refl
  · refine .trans ?_ (.foldl (fun _ _ => ?_) _)
    · refine .trans ?_ (.mono rfl (Mach.modAx_frame ..))
      exact .refl
    · dsimp only
      split
      · refine .trans ?_ (Mach.adcrEnd_frame (fun _ => ?_))
        · exact .refl
        · intro _
          refine .trans ?_ (.mono rfl (Mach.resume_frame ..))
          exact .refl
      · exact .refl

theorem execGuardPositionSample_frame (axis adc : Nat) (st st' : State) (h : execGuardPositionSample axis adc st = .next st') : Frame
    [.dev, .regs, .mem, .eng, .sems, .flt, .grp, .qmg, .dram, .emt, .grd, .saf, .port, .pool] st.m st'.m := by
  refine State.run_frame (fun _ => ?_) h
  refine .ite ?_ ?_
  · refine .grd ?_
    exact .refl
  · refine .trans ?_ (.mono rfl (Mach.grdShow_frame ..))
    refine .trans ?_ (.foldl (fun _ _ => ?_) _)
    · refine .grd ?_
      exact .refl
    · refine .trans ?_ (Frame.when (fun _ => ?_))
      · refine .trans ?_ (.mono rfl (Mach.modHead_frame ..))
        refine .trans ?_ (.mono rfl (Mach.modHead_frame ..))
        exact .refl
      · refine .trans ?_ (.mono rfl (Mach.stallNow_frame ..))
        exact .refl

theorem execEqualiserPresetStep_frame (l : Nat) (st st' : State) (h : execEqualiserPresetStep l st = .next st') : Frame [.regs] st.m st'.m
    := by
  refine State.run_frame (fun _ => ?_) h
  refine .trans ?_ (.mono rfl (Mach.setFld_frame ..))
  exact .refl

theorem execFbHighTimeout_frame (p : Nat) (st st' : State) (h : execFbHighTimeout p st = .next st') : Frame [.dev, .regs, .mem, .eng,
    .sems, .flt, .grp, .qmg, .dram, .emt, .saf, .port, .pool] st.m st'.m := by
  refine State.run_frame (fun _ => ?_) h
  refine .trans ?_ (Mach.safCmd_frame (fun _ => ?_))
  · exact .refl
  · refine .ite ?_ ?_
    · refine .trans ?_ (.mono rfl (Mach.fbSeen_frame ..))
      exact .refl
    · refine .ite ?_ ?_
      · refine .trans ?_ (.mono rfl (Mach.fbFails_frame ..))
        refine .trans ?_ (.mono rfl (Mach.fbSeen_frame ..))
        exact .refl
      · refine .ite ?_ ?_
        · refine .trans ?_ (.mono rfl (Mach.fbFails_frame ..))
          refine .trans ?_ (.mono rfl (Mach.fbSeen_frame ..))
          exact .refl
        · refine .trans ?_ (.mono rfl (Mach.fbSeen_frame ..))
          exact .refl

end Sys2Proof.Machine
end

