-- ==== Sys2Proof/Laws/Faults.lean ====
section
/-!
SUPPORT. What reports, OASIS and faults leave of an engine, and what an engine fault makes of the engine that takes it.
-/
namespace Sys2Proof.Machine

/-- Parts outside a footprint, read off one by one. -/
theorem Touches.e {l : List Part} {a b : Mach} (h : Touches l a b) (k : Nat) (hn : l.contains .eng = false := by rfl) : b.e k = a.e k := by
  have h1 : b.eng = a.eng := h.same .eng (fun hm => by simp_all)
  unfold Mach.e; rw [h1]

theorem Touches.cyc_eq {l : List Part} {a b : Mach} (h : Touches l a b) (hn : l.contains .cyc = false := by rfl) : b.cyc = a.cyc :=
  h.same .cyc (fun hm => by simp_all)

/-- An engine that OASIS does not halt: no sequencer, or one that is not active. -/
def Mach.spared (m : Mach) (k : Nat) : Prop := k < 256 ∨ 272 ≤ k ∨ (m.e k).active = false

theorem Mach.e_haltEngine (m : Mach) (e : Nat) (st : EngState) (c : Nat) (k : Nat) :
    (m.haltEngine e st c).e k = if k = e then { (m.e e).enter m.cyc st with stopCause := c, openq := none, recbuf := [], stopping := none }
      else m.e k := by
  unfold Mach.haltEngine
  have h1 := fun k => (m.leaveQueues_frame e).toTouches.e k
  rw [Mach.e_modE]
  split
  · rw [h1]
  · rw [h1]

theorem Mach.e_haltSeqAs (m : Mach) (n : Nat) (st : EngState) (c : Nat) (k : Nat) :
    (m.haltSeqAs n st c).e k = if k = 256 + n then { (m.e (256 + n)).enter m.cyc st with stopCause := c, openq := none, recbuf := [], stopping := none }
      else m.e k := by
  unfold Mach.haltSeqAs
  dsimp only
  rw [(Mach.closeOwned_frame _ n).toTouches.e k, Mach.e_haltEngine, (Mach.showWalks_frame _).toTouches.e, (Mach.showWalks_frame _).toTouches.e,
    (Mach.showWalks_frame _).toTouches.cyc_eq]
  rfl

theorem Mach.e_haltSeq (m : Mach) (n k : Nat) (h : m.spared k) (hn : n < 16) : (m.haltSeq n).e k = m.e k := by
  unfold Mach.haltSeq
  split
  · rename_i ha
    have hk : k ≠ 256 + n := by
      rintro rfl
      rcases h with h | h | h
      · omega
      · omega
      · rw [h] at ha; cases ha
    rw [Mach.e_haltSeqAs, if_neg hk]
  · rfl

theorem Mach.e_haltSeqs (m : Mach) (k : Nat) (h : m.spared k) (l : List Nat) (hl : ∀ n ∈ l, n < 16) :
    (l.foldl Mach.haltSeq m).e k = m.e k := by
  induction l generalizing m with
  | nil => rfl
  | cons n t ih =>
    have h1 := m.e_haltSeq n k h (hl n (by simp))
    rw [List.foldl_cons, ih _ (by unfold Mach.spared at *; rwa [h1]) (fun x hx => hl x (by simp [hx])), h1]

/-- OASIS leaves every engine but active sequencers alone. -/
theorem Mach.e_enterOasis (m : Mach) (c : OasisCause) (k : Nat) (h : m.spared k) : (m.enterOasis c).e k = m.e k := by
  unfold Mach.enterOasis
  split
  · rfl
  · dsimp only
    have hw : ∀ k, (m.when c.byFault (fun m => m.setFld aFLT_STAT fFLT_STAT_OASIS_F 1)).e k = m.e k :=
      fun k => (Frame.when (l := [.regs]) (fun _ => Mach.setFld_frame ..)).toTouches.e k
    split
    · exact hw k
    · rw [(Mach.goto_frame _ _).toTouches.e k, (Mach.setFld_frame _ _ _ _).toTouches.e k, (Mach.ossdOffAll_frame _ _).toTouches.e k,
        (Mach.emtOff_frame _).toTouches.e k, Mach.e_haltSeqs _ _ _ _ (by simp)]
      · exact hw k
      · show (_ ∨ _ ∨ (Mach.e _ k).active = false)
        have : ∀ d, Mach.e { m.when c.byFault (fun m => m.setFld aFLT_STAT fFLT_STAT_OASIS_F 1) with dev := d } k = m.e k := fun _ => hw k
        rw [this]; exact h

theorem Mach.e_reportAs (m : Mach) (src root code act : Nat) (inj : Bool) (k : Nat) (h : m.spared k) :
    (m.reportAs src root code act inj).e k = m.e k := by
  unfold Mach.reportAs
  dsimp only
  have h1 : ∀ a b, ((m.record src root code a inj).when b (fun m => m.freezeAll fQ_ON_FAULT 2)).e k = m.e k := by
    intro a b
    rw [(Frame.when (l := [.regs, .mem, .grp, .qmg]) (fun _ => .mono rfl (Mach.freezeAll_frame ..))).toTouches.e k, (Mach.record_frame ..).toTouches.e k]
  cases hm : ((m.fld aFLT_OASISMASK fFLT_OASISMASK_MASK).testBit (src / 2 ^ 11)) with
  | false => rw [Mach.when_false]; exact h1 _ _
  | true =>
    rw [Mach.when_true, Mach.e_enterOasis _ _ _ (by unfold Mach.spared at *; rwa [h1])]
    exact h1 _ _

/-- A report leaves every engine but active sequencers alone. -/
theorem Mach.e_report (m : Mach) (src root code act : Nat) (k : Nat) (h : m.spared k) : (m.report src root code act).e k = m.e k :=
  m.e_reportAs _ _ _ _ _ k h

theorem Mach.spared_of_eq {m n : Mach} {k : Nat} (h : m.spared k) (he : n.e k = m.e k) : n.spared k := by
  unfold Mach.spared at *; rwa [he]

theorem Mach.e_safetyFault (m : Mach) (c k : Nat) (h : m.spared k) : (m.safetyFault c).e k = m.e k := by
  unfold Mach.safetyFault
  dsimp only
  generalize hx : Mach.safetyEvent _ = x
  have h1 : x.e k = m.e k := by
    rw [← hx, (Mach.safetyEvent_frame _).toTouches.e k, (Mach.ossdTo_frame ..).toTouches.e k, (Mach.ossdTo_frame ..).toTouches.e k,
      (Mach.setFld_frame ..).toTouches.e k]
    exact (Frame.when (l := [.regs]) (fun _ => Mach.setFld_frame ..)).toTouches.e k
  have h2 := Mach.e_report x (srcId 0x10 0) (srcId 0x10 0) (safFaultCode c) 3 k (Mach.spared_of_eq h h1)
  rw [Mach.e_enterOasis _ _ _ (Mach.spared_of_eq h (h2.trans h1)), h2, h1]

theorem Mach.e_supervisorDown (m : Mach) (n k : Nat) (h : m.spared k) : (m.supervisorDown n).e k = m.e k := by
  unfold Mach.supervisorDown Mach.when
  split
  · exact m.e_safetyFault 7 k h
  · rfl

/-- What an engine fault leaves of a faulted engine. -/
def Engine.faulted (x y : Engine) : Prop :=
  y.st = .faulted ∧ y.stopCause = 3 ∧ y.wait = .none ∧ y.openq = none ∧ y.recbuf = [] ∧ y.stopping = none
    ∧ y.g = x.g ∧ y.p = x.p ∧ y.pc = x.pc ∧ y.calls = x.calls ∧ y.loops = x.loops

theorem Engine.faulted.inactive {x y : Engine} (h : x.faulted y) : y.active = false := by
  unfold Engine.active; rw [h.1]; rfl

theorem Mach.faulted_halt (m : Mach) (e : Nat) : (m.e e).faulted ((m.haltEngine e .faulted 3).e e) := by
  rw [Mach.e_haltEngine, if_pos rfl]
  have hs : ∀ x : Engine, ∀ c, (x.settle c).g = x.g ∧ (x.settle c).p = x.p ∧ (x.settle c).pc = x.pc ∧ (x.settle c).calls = x.calls
      ∧ (x.settle c).loops = x.loops := by
    intro x c; unfold Engine.settle; split <;> exact ⟨rfl, rfl, rfl, rfl, rfl⟩
  obtain ⟨a1, a2, a3, a4, a5⟩ := hs (m.e e) m.cyc
  exact ⟨rfl, rfl, rfl, rfl, rfl, rfl, a1, a2, a3, a4, a5⟩

/-- A halted range engine that loses its handle holds no handle and no look, and is otherwise as it was. -/
theorem Mach.e_loseHandle (m : Mach) (e : Nat) (h : (m.e e).active = false) :
    (m.loseHandle e).e e = { m.e e with look := none, held := none } := by
  unfold Mach.loseHandle
  dsimp only
  have h0 : (m.modE e (fun x => { x with look := none })).e e = { m.e e with look := none } := Mach.e_modE_same ..
  generalize m.modE e (fun x => { x with look := none }) = n at h0 ⊢
  split
  · next hn =>
    rw [(Mach.showHold_frame n e).toTouches.e e, h0]
    rw [h0] at hn
    rw [show ({ m.e e with look := none, held := none } : Engine) = { m.e e with look := none, held := (m.e e).held } by rw [hn]]
  · next k hk =>
    have h1 : (((((n.modE e (fun x => { x with held := none })).setBankSt k.bank 3).satInc (aRNG_LOSS e) fRNG_LOSS_LOST).showHold e).e e)
        = { m.e e with look := none, held := none } := by
      rw [(Mach.showHold_frame _ e).toTouches.e e, (Mach.satInc_frame ..).toTouches.e e, (Mach.setBankSt_frame ..).toTouches.e e,
        Mach.e_modE_same, h0]
    split
    · rw [Mach.e_report _ _ _ _ _ e (.inr (.inr ?_)), (Mach.satInc_frame ..).toTouches.e e, (Mach.modPool_frame ..).toTouches.e e, h1]
      rw [(Mach.satInc_frame ..).toTouches.e e, (Mach.modPool_frame ..).toTouches.e e, h1]; exact h
    · rw [(Mach.satInc_frame ..).toTouches.e e, (Mach.modPool_frame ..).toTouches.e e, h1]

theorem Mach.faulted_loseHandle (m : Mach) (e : Nat) (x : Engine) (h : x.faulted (m.e e)) : x.faulted ((m.loseHandle e).e e) := by
  rw [Mach.e_loseHandle _ _ h.inactive]; exact h

/-- A fault that no trap takes leaves its engine FAULTED. -/
theorem Mach.engFault_stops (m : Mach) (e code : Nat) (h : m.trapsTo e code = false) : (m.e e).faulted ((m.engFault e code).e e) := by
  unfold Mach.engFault
  have h' : (m.satInc (engPage e + 0x18) ⟨15, 0⟩).trapsTo e code = false := h
  dsimp only
  rw [if_neg (by rw [h']; decide)]
  generalize Mach.failoverAction _ e = act
  have h1 : (m.e e).faulted ((((m.satInc (engPage e + 0x18) ⟨15, 0⟩).faultRecord e code).haltEngine e .faulted 3).e e) := by
    have := Mach.faulted_halt ((m.satInc (engPage e + 0x18) ⟨15, 0⟩).faultRecord e code) e
    rwa [(Mach.faultRecord_frame ..).toTouches.e e] at this
  generalize ((m.satInc (engPage e + 0x18) ⟨15, 0⟩).faultRecord e code).haltEngine e .faulted 3 = n at h1 ⊢
  have h2 : (m.e e).faulted ((n.report (engSrc e) (engSrc e) code act).e e) := by
    rw [Mach.e_report _ _ _ _ _ _ (.inr (.inr h1.inactive))]; exact h1
  generalize n.report (engSrc e) (engSrc e) code act = n at h2 ⊢
  split
  · exact Mach.faulted_loseHandle _ _ _ h2
  · rw [(Mach.closeOwned_frame _ _).toTouches.e e, (Mach.showWalks_frame _).toTouches.e e, (Mach.withdrawShots_frame _ _).toTouches.e e]; exact h2
  · exact h2
  · rw [Mach.e_supervisorDown _ _ _ (.inr (.inr h2.inactive))]; exact h2

/-- A fault that a supervisor's trap takes. -/
theorem Mach.engFault_traps (m : Mach) (e code : Nat) (h : m.trapsTo e code = true) (he : e < 282) :
    (m.engFault e code).e e = { m.e e with epc := (m.e e).pc, cause := code, inTrap := true, pc := (m.e e).tvec % 2 ^ 18 / 4 * 4 } := by
  unfold Mach.engFault
  have h' : (m.satInc (engPage e + 0x18) ⟨15, 0⟩).trapsTo e code = true := h
  dsimp only
  rw [if_pos h', Mach.e_report, Mach.e_modE_same]; rfl
  have hc : engClass e = .sv := by
    simp only [Mach.trapsTo, Bool.and_eq_true, beq_iff_eq] at h; exact h.1.1.1
  right; left
  unfold engClass at hc
  split at hc
  · cases hc
  · split at hc
    · cases hc
    · omega

end Sys2Proof.Machine
end

