-- ==== Sys2Proof/Laws/Oasis.lean ====
section
/-!
SUPPORT. Which registers a fault report and the entry to OASIS leave alone.
-/
namespace Sys2Proof.Machine

/-- A register that a report or the entry to OASIS may write: GLB_STATE, FLT_STAT, the perturbation enables, EMT_STAT and EMT_STR_STAT, the OSSD
registers, ERG_PSTAT, RNG_DQ, QMG_NSTAT and the queue descriptors. -/
def OasisReg (a : Nat) : Prop :=
  a = aGLB_STATE ∨ a = aFLT_STAT ∨ a = aTST_PERT0 ∨ a = aTST_PERT1 ∨ a = aTST_PERT2 ∨ (0x1100000 ≤ a ∧ a < 0x1101000)
    ∨ (0xA000020 ≤ a ∧ a < 0xA000030) ∨ (0x3000100 ≤ a ∧ a < 0x3000280) ∨ (0x5002080 ≤ a ∧ a < 0x50020A0)
    ∨ (0x8100030 ≤ a ∧ a < 0x8100050) ∨ (0x8200000 ≤ a ∧ a < 0x8400000)

/-- Every register a report cannot write is as before. -/
def RegsKept (m m' : Mach) : Prop := ∀ a, ¬ OasisReg a → m'.reg a = m.reg a

namespace RegsKept

theorem refl (m : Mach) : RegsKept m m := fun _ _ => rfl
theorem trans {a b c : Mach} (h : RegsKept a b) (k : RegsKept b c) : RegsKept a c := fun x hx => (k x hx).trans (h x hx)
theorem of_regs {m m' : Mach} (h : m'.regs = m.regs) : RegsKept m m' := fun a _ => by unfold Mach.reg; rw [h]
theorem setReg (m : Mach) {a : Nat} (w : Word) (h : OasisReg a) : RegsKept m (m.setReg a w) := fun _ hb =>
  Mach.reg_setReg_ne m w (fun e => hb (e ▸ h))
theorem setFld (m : Mach) {a : Nat} (f : Fld) (v : Nat) (h : OasisReg a) : RegsKept m (m.setFld a f v) := setReg m _ h
theorem when {m : Mach} {c : Bool} {f : Mach → Mach} (h : ∀ m, RegsKept m (f m)) : RegsKept m (m.when c f) := by
  unfold Mach.when; split; exact h m; exact refl m
theorem foldl {α : Type} {f : Mach → α → Mach} (xs : List α) (h : ∀ x ∈ xs, ∀ m, RegsKept m (f m x)) {m : Mach} : RegsKept m (xs.foldl f m) := by
  induction xs generalizing m with
  | nil => exact refl m
  | cons x t ih => exact trans (h x (by simp) m) (ih (fun y hy => h y (by simp [hy])))

end RegsKept

open RegsKept

theorem modE_kept (m : Mach) (e : Nat) (f : Engine → Engine) : RegsKept m (m.modE e f) := fun _ _ => rfl
theorem modP_kept (m : Mach) (e : Nat) (f : Port → Port) : RegsKept m (m.modP e f) := fun _ _ => rfl
theorem modQ_kept (m : Mach) (e : Nat) (f : QState → QState) : RegsKept m (m.modQ e f) := fun _ _ => rfl
theorem modOssd_kept (m : Mach) (e : Nat) (f : Ossd → Ossd) : RegsKept m (m.modOssd e f) := fun _ _ => rfl
theorem dev_kept (m : Mach) (d : Dev) : RegsKept m { m with dev := d } := fun _ _ => rfl
theorem emt_kept (m : Mach) (d : Emt) : RegsKept m { m with emt := d } := fun _ _ => rfl

theorem oasisReg_qdesc {q : Nat} (k : Nat) (h : q < 0x8000) (hk : k < 16) : OasisReg (qdesc q k) := by
  unfold OasisReg qdesc; omega
theorem oasisReg_nstat {c : Nat} (h : c < 8) : OasisReg (aQMG_NSTAT c) := by unfold OasisReg aQMG_NSTAT; omega

theorem raise_kept (m : Mach) (c k : Nat) (p : List Byte) (h : c < 8) : RegsKept m (m.raise c k p) := by
  unfold Mach.raise
  extract_lets causes m1
  have h1 : RegsKept m m1 := setFld _ _ _ (oasisReg_nstat h)
  split
  · exact refl m
  · split
    · exact h1.trans (of_regs rfl)
    · exact h1

theorem raiseAll_kept (m : Mach) (k : Nat) (p : List Byte) : RegsKept m (m.raiseAll k p) :=
  RegsKept.foldl _ (fun c hc m => raise_kept m c k p (by simpa using hc))

theorem queuesOn_lt {m : Mach} {q : Nat} (h : q ∈ m.queuesOn) : q < 0x8000 := by
  unfold Mach.queuesOn at h
  rw [List.mem_filterMap] at h
  obtain ⟨⟨a, w⟩, -, h⟩ := h
  dsimp only at h
  split at h
  · rename_i h1; simp at h1; simp at h; omega
  · cases h

theorem regs_setBytes (l : List Byte) : ∀ (m : Mach) (a : Nat), (m.setBytes a l).regs = m.regs := by
  induction l with
  | nil => intro m a; rfl
  | cons b t ih => intro m a; exact (ih _ _).trans rfl

theorem writeHeader_kept (m : Mach) (q : Nat) : RegsKept m (m.writeHeader q) := of_regs (regs_setBytes _ m _)

theorem frozen_kept (m : Mach) (q : Nat) (h : q < 0x8000) : RegsKept m (m.frozen q) := by
  unfold Mach.frozen
  exact (((setFld _ _ _ (oasisReg_qdesc 9 h (by decide))).trans (setFld _ _ _ (oasisReg_qdesc 9 h (by decide)))).trans (writeHeader_kept _ _)).trans
    (raise_kept _ _ _ _ (by omega))

theorem freeze_kept (m : Mach) (q k : Nat) (h : q < 0x8000) : RegsKept m (m.freeze q k) := by
  unfold Mach.freeze
  split
  · split
    · exact setFld _ _ _ (oasisReg_qdesc 9 h (by decide))
    · exact refl m
  · extract_lets m1 st m2 m3
    have h1 : RegsKept m m1 := (setFld _ _ _ (oasisReg_qdesc 9 h (by decide))).trans (setFld _ _ _ (oasisReg_qdesc 9 h (by decide)))
    have h2 : RegsKept m1 m2 := RegsKept.foldl _ (fun i hi m => setReg _ _ (oasisReg_qdesc _ h (by simp at hi; omega)))
    have h3 : RegsKept m2 m3 := of_regs rfl
    exact ((h1.trans h2).trans h3).trans (RegsKept.when (fun m => frozen_kept m q h))

theorem freezeAll_kept (m : Mach) (on : Fld) (k : Nat) : RegsKept m (m.freezeAll on k) :=
  RegsKept.foldl _ (fun q hq m => by split; exact freeze_kept m q k (queuesOn_lt hq); exact refl m)

theorem record_kept (m : Mach) (src root code action : Nat) (inj : Bool) : RegsKept m (m.record src root code action inj) := by
  unfold Mach.record
  exact RegsKept.trans (of_regs rfl) (setFld _ _ _ (by simp [OasisReg]))

theorem modPool_kept (m : Mach) (p : Nat) (f : Pool → Pool) (h : p < 8) : RegsKept m (m.modPool p f) := by
  unfold Mach.modPool
  extract_lets m1 a d m2
  have ha : OasisReg a := by unfold OasisReg a aRNG_DQ; omega
  exact (((of_regs rfl : RegsKept m m1).trans (setFld _ _ _ ha)).trans (setFld _ _ _ ha)).trans (setFld _ _ _ ha)

theorem leaveQueues_kept (m : Mach) (e : Nat) : RegsKept m (m.leaveQueues e) := by
  unfold Mach.leaveQueues
  split
  · exact of_regs rfl
  · exact of_regs rfl
  · exact of_regs rfl
  · refine modPool_kept _ _ _ ?_
    unfold Mach.poolOf Mach.fld
    exact Nat.lt_of_lt_of_le (Nat.mod_lt _ (by decide)) (by decide)
  · exact refl m

theorem pstat_kept (m : Mach) (p : Nat) (h : p < 96) : RegsKept m (m.pstat p) := by
  unfold Mach.pstat
  extract_lets a banks c m1 m2 m3
  have ha : OasisReg a := by unfold OasisReg a aERG_PSTAT; omega
  exact (((setFld _ _ _ ha).trans (setFld _ _ _ ha)).trans (setFld _ _ _ ha)).trans (setFld _ _ _ ha)

theorem closeOwned_kept (m : Mach) (n : Nat) : RegsKept m (m.closeOwned n) :=
  RegsKept.foldl _ (fun p hp m => by
    have hp : p < 96 := by simp [Mach.ownedBy] at hp; exact hp.1
    unfold Mach.closeCell
    split
    · exact refl m
    · exact (of_regs rfl : RegsKept m (m.modP _ _)).trans (pstat_kept _ _ hp))

theorem showWalks_kept (m : Mach) : RegsKept m m.showWalks :=
  RegsKept.foldl _ (fun i hi m => setFld _ _ _ (by simp at hi; unfold OasisReg aEMT_STR_STAT; omega))

theorem haltEngine_kept (m : Mach) (e : Nat) (s : EngState) (c : Nat) : RegsKept m (m.haltEngine e s c) :=
  (leaveQueues_kept m e).trans (modE_kept _ _ _)

theorem haltSeq_kept (m : Mach) (n : Nat) : RegsKept m (m.haltSeq n) := by
  unfold Mach.haltSeq
  split
  · unfold Mach.haltSeqAs
    exact (((emt_kept m _).trans (showWalks_kept _)).trans (haltEngine_kept _ _ _ _)).trans (closeOwned_kept _ _)
  · exact refl m

theorem ossdTo_kept (m : Mach) (p s c : Nat) (h : p < 2) : RegsKept m (m.ossdTo p s c) := by
  have ho : OasisReg (aSAF_OSSD p) := by unfold OasisReg aSAF_OSSD; omega
  have hv : OasisReg (aSAF_VIOL p) := by unfold OasisReg aSAF_VIOL; omega
  unfold Mach.ossdTo
  exact ((((((RegsKept.setFld _ _ _ ho).trans (RegsKept.setFld _ _ _ ho)).trans (RegsKept.setFld _ _ _ ho)).trans
    (RegsKept.when (fun m => RegsKept.setFld m _ _ ho))).trans (RegsKept.when (fun m => RegsKept.setFld m _ _ hv))).trans (modOssd_kept _ _ _)).trans
    (RegsKept.setFld _ _ _ ho)

theorem ossdOff_kept (m : Mach) (p : Nat) (h : p < 2) : RegsKept m (m.ossdOff p 5) := by
  unfold Mach.ossdOff
  extract_lets was
  split
  · have e : (was == 3 && (5 : Nat) != 5) = false := by simp
    rw [e]
    exact ossdTo_kept m p 0 5 h
  · exact RegsKept.setFld _ _ _ (by unfold OasisReg aSAF_OSSD; omega)

theorem portsCancel_kept (m : Mach) : RegsKept m m.portsCancel := fun _ _ => rfl

theorem emtOff_kept (m : Mach) : RegsKept m m.emtOff := by
  unfold Mach.emtOff
  exact (((emt_kept m _).trans (showWalks_kept _)).trans (portsCancel_kept _)).trans (RegsKept.setFld _ _ _ (by unfold OasisReg aEMT_STAT; omega))

theorem goto_kept (m : Mach) (s : DevState) : RegsKept m (m.goto s) := by
  have hg : OasisReg aGLB_STATE := by simp [OasisReg]
  have hp (m : Mach) : RegsKept m (((m.setFld aTST_PERT0 fTST_PERT0_EN 0).setFld aTST_PERT1 fTST_PERT1_EN 0).setFld aTST_PERT2 fTST_PERT2_EN 0) :=
    ((RegsKept.setFld _ _ _ (by simp [OasisReg])).trans (RegsKept.setFld _ _ _ (by simp [OasisReg]))).trans (RegsKept.setFld _ _ _ (by simp [OasisReg]))
  unfold Mach.goto
  exact ((((RegsKept.setFld _ _ _ hg).trans (RegsKept.setFld _ _ _ hg)).trans (dev_kept _ _)).trans (RegsKept.when hp)).trans (raiseAll_kept _ _ _)

/-- The entry to OASIS writes no register but the listed ones. -/
theorem Mach.enterOasis_kept (m : Mach) (c : OasisCause) : RegsKept m (m.enterOasis c) := by
  have hf : OasisReg aFLT_STAT := by simp [OasisReg]
  have hg : OasisReg aGLB_STATE := by simp [OasisReg]
  unfold Mach.enterOasis
  split
  · exact refl m
  · have h1 : RegsKept m (m.when c.byFault (fun m => m.setFld aFLT_STAT fFLT_STAT_OASIS_F 1)) := RegsKept.when (fun m => RegsKept.setFld m _ _ hf)
    refine h1.trans ?_
    generalize (m.when c.byFault (fun m => m.setFld aFLT_STAT fFLT_STAT_OASIS_F 1)) = m1
    dsimp only
    split
    · exact dev_kept _ _
    · exact (((dev_kept m1 _).trans (RegsKept.foldl _ (fun n _ m => haltSeq_kept m n))).trans
        ((emtOff_kept _).trans ((ossdOff_kept _ 0 (by decide)).trans (ossdOff_kept _ 1 (by decide))))).trans
        ((RegsKept.setFld _ _ _ hg).trans (goto_kept _ _))

/-- A report writes no register but the listed ones. -/
theorem Mach.reportAs_kept (m : Mach) (src root code action : Nat) (inj : Bool) : RegsKept m (m.reportAs src root code action inj) := by
  unfold Mach.reportAs
  exact ((record_kept m src root code _ inj).trans (RegsKept.when (fun m => freezeAll_kept m _ _))).trans
    (RegsKept.when (fun m => m.enterOasis_kept _))

theorem Mach.report_kept (m : Mach) (src root code action : Nat) : RegsKept m (m.report src root code action) :=
  Mach.reportAs_kept m src root code action false

/-- A lost arming condition writes no register but the listed ones. -/
theorem Mach.lostArming_kept (m : Mach) : RegsKept m m.lostArming := RegsKept.when (fun m => m.enterOasis_kept _)

/-! ## Engines other than sequencers -/

theorem Mach.leaveQueues_eng (m : Mach) (e : Nat) : (m.leaveQueues e).eng = m.eng := by
  unfold Mach.leaveQueues
  split <;> rfl

theorem Mach.haltSeq_other (m : Mach) {n e : Nat} (h : e ≠ 256 + n) : (m.haltSeq n).e e = m.e e := by
  unfold Mach.haltSeq
  split
  · unfold Mach.haltSeqAs
    have hc (M : Mach) : (M.closeOwned n).eng = M.eng := by
      unfold Mach.closeOwned
      induction M.ownedBy n generalizing M with
      | nil => rfl
      | cons p t ih =>
        refine (ih _).trans ?_
        unfold Mach.closeCell
        split <;> rfl
    have hs (M : Mach) : M.showWalks.eng = M.eng := by
      unfold Mach.showWalks
      generalize List.range 16 = l
      induction l generalizing M with
      | nil => rfl
      | cons p t ih => exact ih _
    have e_eng {a b : Mach} (h : a.eng = b.eng) : a.e e = b.e e := by unfold Mach.e; rw [h]
    refine (e_eng (hc _)).trans ?_
    unfold Mach.haltEngine Mach.modE Mach.setE
    refine (mapGet_mapPut_ne _ _ _ h).trans ?_
    show Mach.e (Mach.leaveQueues _ _) e = _
    exact (e_eng (Mach.leaveQueues_eng _ _)).trans ((e_eng (hs _)).trans rfl)
  · rfl

/-- The entry to OASIS changes no engine but sequencers. -/
theorem Mach.enterOasis_other (m : Mach) (c : OasisCause) {e : Nat} (h : e < 256 ∨ 272 ≤ e) : (m.enterOasis c).e e = m.e e := by
  have e_eng {a b : Mach} (h : a.eng = b.eng) : a.e e = b.e e := by unfold Mach.e; rw [h]
  unfold Mach.enterOasis
  split
  · rfl
  · have h1 : (m.when c.byFault (fun m => m.setFld aFLT_STAT fFLT_STAT_OASIS_F 1)).e e = m.e e := by
      unfold Mach.when; split <;> rfl
    refine Eq.trans ?_ h1
    generalize (m.when c.byFault (fun m => m.setFld aFLT_STAT fFLT_STAT_OASIS_F 1)) = m1
    dsimp only
    split
    · rfl
    · have hf (l : List Nat) : ∀ M : Mach, (∀ n ∈ l, n < 16) → (l.foldl Mach.haltSeq M).e e = M.e e := by
        induction l with
        | nil => intro M _; rfl
        | cons n t ih => intro M hl; exact (ih _ (fun k hk => hl k (by simp [hk]))).trans (M.haltSeq_other (by have := hl n (by simp); omega))
      have he (M : Mach) : M.emtOff.eng = M.eng := (Mach.emtOff_frame M).same .eng (by decide)
      have ho (M : Mach) : (M.ossdOffAll 5).eng = M.eng := (Mach.ossdOffAll_frame M 5).same .eng (by decide)
      have hg (M : Mach) (s : DevState) : (M.goto s).eng = M.eng := (Mach.goto_frame M s).same .eng (by decide)
      refine (e_eng (hg _ _)).trans ?_
      show Mach.e (Mach.ossdOffAll _ 5) e = _
      refine (e_eng (ho _)).trans ?_
      refine (e_eng (he _)).trans ?_
      exact (hf _ _ (fun n hn => by simpa using hn)).trans rfl

end Sys2Proof.Machine
end

