-- ==== Sys2Proof/Laws/Reads.lean ====
section
/-!
SUPPORT. What an operation leaves readable as before, read off its footprint; and what fields read after a field has been written.
-/
namespace Sys2Proof.Machine

/-! ## Reads outside a footprint -/

theorem Touches.reg {l : List Part} {a b : Mach} (h : Touches l a b) (x : Nat) (hn : l.contains .regs = false := by rfl) :
    b.reg x = a.reg x := by
  have h1 : b.regs = a.regs := h.same .regs (fun hm => by simp_all)
  unfold Mach.reg; rw [h1]

theorem Touches.fld {l : List Part} {a b : Mach} (h : Touches l a b) (x : Nat) (f : Fld) (hn : l.contains .regs = false := by rfl) :
    b.fld x f = a.fld x f := by
  have h1 : b.regs = a.regs := h.same .regs (fun hm => by simp_all)
  unfold Mach.fld Mach.reg; rw [h1]

theorem Touches.flag {l : List Part} {a b : Mach} (h : Touches l a b) (x : Nat) (f : Fld) (hn : l.contains .regs = false := by rfl) :
    b.flag x f = a.flag x f := by
  have h1 : b.regs = a.regs := h.same .regs (fun hm => by simp_all)
  unfold Mach.flag Mach.fld Mach.reg; rw [h1]

theorem Touches.sfld {l : List Part} {a b : Mach} (h : Touches l a b) (x : Nat) (f : Fld) (hn : l.contains .regs = false := by rfl) :
    b.sfld x f = a.sfld x f := by
  have h1 : b.regs = a.regs := h.same .regs (fun hm => by simp_all)
  unfold Mach.sfld Mach.fld Mach.reg; rw [h1]

theorem Touches.shadowReg {l : List Part} {a b : Mach} (h : Touches l a b) (x : Nat) (hn : l.contains .shadow = false := by rfl) :
    b.shadowReg x = a.shadowReg x := by
  have h1 : b.shadow = a.shadow := h.same .shadow (fun hm => by simp_all)
  unfold Mach.shadowReg; rw [h1]

theorem Touches.sem {l : List Part} {a b : Mach} (h : Touches l a b) (x : Nat) (hn : l.contains .sems = false := by rfl) :
    b.sem x = a.sem x := by
  have h1 : b.sems = a.sems := h.same .sems (fun hm => by simp_all)
  unfold Mach.sem; rw [h1]

theorem Touches.g {l : List Part} {a b : Mach} (h : Touches l a b) (x : Nat) (hn : l.contains .grp = false := by rfl) :
    b.g x = a.g x := by
  have h1 : b.grp = a.grp := h.same .grp (fun hm => by simp_all)
  unfold Mach.g; rw [h1]

theorem Touches.l {l : List Part} {a b : Mach} (h : Touches l a b) (x : Nat) (hn : l.contains .lane = false := by rfl) :
    b.l x = a.l x := by
  have h1 : b.lane = a.lane := h.same .lane (fun hm => by simp_all)
  unfold Mach.l; rw [h1]

theorem Touches.q {l : List Part} {a b : Mach} (h : Touches l a b) (x : Nat) (hn : l.contains .qmg = false := by rfl) :
    b.q x = a.q x := by
  have h1 : b.qmg = a.qmg := h.same .qmg (fun hm => by simp_all)
  unfold Mach.q; rw [h1]

theorem Touches.trig {l : List Part} {a b : Mach} (h : Touches l a b) (x : Nat) (hn : l.contains .time = false := by rfl) :
    b.trig x = a.trig x := by
  have h1 : b.time = a.time := h.same .time (fun hm => by simp_all)
  unfold Mach.trig; rw [h1]

theorem Touches.byte {l : List Part} {a b : Mach} (h : Touches l a b) (x : Nat) (hn : l.contains .mem = false := by rfl) :
    b.byte x = a.byte x := by
  have h1 : b.mem = a.mem := h.same .mem (fun hm => by simp_all)
  unfold Mach.byte; rw [h1]

theorem Touches.p {l : List Part} {a b : Mach} (h : Touches l a b) (x : Nat) (hn : l.contains .port = false := by rfl) :
    b.p x = a.p x := by
  have h1 : b.port = a.port := h.same .port (fun hm => by simp_all)
  unfold Mach.p; rw [h1]

theorem Touches.ax {l : List Part} {a b : Mach} (h : Touches l a b) (x : Nat) (hn : l.contains .axis = false := by rfl) :
    b.ax x = a.ax x := by
  have h1 : b.axis = a.axis := h.same .axis (fun hm => by simp_all)
  unfold Mach.ax; rw [h1]

theorem Touches.ossd {l : List Part} {a b : Mach} (h : Touches l a b) (x : Nat) (hn : l.contains .saf = false := by rfl) :
    b.ossd x = a.ossd x := by
  have h1 : b.saf = a.saf := h.same .saf (fun hm => by simp_all)
  unfold Mach.ossd; rw [h1]

theorem Touches.tile {l : List Part} {a b : Mach} (h : Touches l a b) (x : Nat) (hn : l.contains .tdc = false := by rfl) :
    b.tile x = a.tile x := by
  have h1 : b.tdc = a.tdc := h.same .tdc (fun hm => by simp_all)
  unfold Mach.tile; rw [h1]

theorem Touches.free_eq {l : List Part} {a b : Mach} (h : Touches l a b) (hn : l.contains .free = false := by rfl) : b.free = a.free :=
  h.same .free (fun hm => by simp_all)

theorem Touches.status_eq {l : List Part} {a b : Mach} (h : Touches l a b) (hn : l.contains .status = false := by rfl) : b.status = a.status :=
  h.same .status (fun hm => by simp_all)

theorem Touches.dev_eq {l : List Part} {a b : Mach} (h : Touches l a b) (hn : l.contains .dev = false := by rfl) : b.dev = a.dev :=
  h.same .dev (fun hm => by simp_all)

theorem Touches.tap_eq {l : List Part} {a b : Mach} (h : Touches l a b) (hn : l.contains .tap = false := by rfl) : b.tap = a.tap :=
  h.same .tap (fun hm => by simp_all)

theorem Touches.regs_eq {l : List Part} {a b : Mach} (h : Touches l a b) (hn : l.contains .regs = false := by rfl) : b.regs = a.regs :=
  h.same .regs (fun hm => by simp_all)

theorem Touches.shadow_eq {l : List Part} {a b : Mach} (h : Touches l a b) (hn : l.contains .shadow = false := by rfl) : b.shadow = a.shadow :=
  h.same .shadow (fun hm => by simp_all)

theorem Touches.mem_eq {l : List Part} {a b : Mach} (h : Touches l a b) (hn : l.contains .mem = false := by rfl) : b.mem = a.mem :=
  h.same .mem (fun hm => by simp_all)

theorem Touches.commits_eq {l : List Part} {a b : Mach} (h : Touches l a b) (hn : l.contains .commits = false := by rfl) : b.commits = a.commits :=
  h.same .commits (fun hm => by simp_all)

theorem Touches.eng_eq {l : List Part} {a b : Mach} (h : Touches l a b) (hn : l.contains .eng = false := by rfl) : b.eng = a.eng :=
  h.same .eng (fun hm => by simp_all)

theorem Touches.sems_eq {l : List Part} {a b : Mach} (h : Touches l a b) (hn : l.contains .sems = false := by rfl) : b.sems = a.sems :=
  h.same .sems (fun hm => by simp_all)

theorem Touches.time_eq {l : List Part} {a b : Mach} (h : Touches l a b) (hn : l.contains .time = false := by rfl) : b.time = a.time :=
  h.same .time (fun hm => by simp_all)

theorem Touches.flt_eq {l : List Part} {a b : Mach} (h : Touches l a b) (hn : l.contains .flt = false := by rfl) : b.flt = a.flt :=
  h.same .flt (fun hm => by simp_all)

theorem Touches.grp_eq {l : List Part} {a b : Mach} (h : Touches l a b) (hn : l.contains .grp = false := by rfl) : b.grp = a.grp :=
  h.same .grp (fun hm => by simp_all)

theorem Touches.lane_eq {l : List Part} {a b : Mach} (h : Touches l a b) (hn : l.contains .lane = false := by rfl) : b.lane = a.lane :=
  h.same .lane (fun hm => by simp_all)

theorem Touches.qmg_eq {l : List Part} {a b : Mach} (h : Touches l a b) (hn : l.contains .qmg = false := by rfl) : b.qmg = a.qmg :=
  h.same .qmg (fun hm => by simp_all)

theorem Touches.dram_eq {l : List Part} {a b : Mach} (h : Touches l a b) (hn : l.contains .dram = false := by rfl) : b.dram = a.dram :=
  h.same .dram (fun hm => by simp_all)

theorem Touches.emt_eq {l : List Part} {a b : Mach} (h : Touches l a b) (hn : l.contains .emt = false := by rfl) : b.emt = a.emt :=
  h.same .emt (fun hm => by simp_all)

theorem Touches.grd_eq {l : List Part} {a b : Mach} (h : Touches l a b) (hn : l.contains .grd = false := by rfl) : b.grd = a.grd :=
  h.same .grd (fun hm => by simp_all)

theorem Touches.saf_eq {l : List Part} {a b : Mach} (h : Touches l a b) (hn : l.contains .saf = false := by rfl) : b.saf = a.saf :=
  h.same .saf (fun hm => by simp_all)

theorem Touches.axis_eq {l : List Part} {a b : Mach} (h : Touches l a b) (hn : l.contains .axis = false := by rfl) : b.axis = a.axis :=
  h.same .axis (fun hm => by simp_all)

theorem Touches.port_eq {l : List Part} {a b : Mach} (h : Touches l a b) (hn : l.contains .port = false := by rfl) : b.port = a.port :=
  h.same .port (fun hm => by simp_all)

theorem Touches.tdc_eq {l : List Part} {a b : Mach} (h : Touches l a b) (hn : l.contains .tdc = false := by rfl) : b.tdc = a.tdc :=
  h.same .tdc (fun hm => by simp_all)

theorem Touches.pool_eq {l : List Part} {a b : Mach} (h : Touches l a b) (hn : l.contains .pool = false := by rfl) : b.pool = a.pool :=
  h.same .pool (fun hm => by simp_all)

theorem Touches.rej_eq {l : List Part} {a b : Mach} (h : Touches l a b) (hn : l.contains .rej = false := by rfl) : b.rej = a.rej :=
  h.same .rej (fun hm => by simp_all)

theorem Touches.cam_eq {l : List Part} {a b : Mach} (h : Touches l a b) (hn : l.contains .cam = false := by rfl) : b.cam = a.cam :=
  h.same .cam (fun hm => by simp_all)

theorem Touches.pts_eq {l : List Part} {a b : Mach} (h : Touches l a b) (hn : l.contains .pts = false := by rfl) : b.pts = a.pts :=
  h.same .pts (fun hm => by simp_all)

theorem Touches.hk_eq {l : List Part} {a b : Mach} (h : Touches l a b) (hn : l.contains .hk = false := by rfl) : b.hk = a.hk :=
  h.same .hk (fun hm => by simp_all)

theorem Touches.thm_eq {l : List Part} {a b : Mach} (h : Touches l a b) (hn : l.contains .thm = false := by rfl) : b.thm = a.thm :=
  h.same .thm (fun hm => by simp_all)

theorem Touches.probe_eq {l : List Part} {a b : Mach} (h : Touches l a b) (hn : l.contains .probe = false := by rfl) : b.probe = a.probe :=
  h.same .probe (fun hm => by simp_all)

theorem Touches.fusJob_eq {l : List Part} {a b : Mach} (h : Touches l a b) (hn : l.contains .fusJob = false := by rfl) : b.fusJob = a.fusJob :=
  h.same .fusJob (fun hm => by simp_all)

/-! ## Fields -/

/-- What a field reads after a field has been written. -/
theorem Mach.fld_setFld (m : Mach) (a b : Nat) (f g : Fld) (v : Nat) :
    (m.setFld a f v).fld b g = if b = a then g.get (f.set (m.reg a) v) else m.fld b g := by
  unfold Mach.fld; rw [Mach.reg_setFld]; split <;> rfl

theorem Mach.flag_setFld (m : Mach) (a b : Nat) (f g : Fld) (v : Nat) :
    (m.setFld a f v).flag b g = if b = a then g.get (f.set (m.reg a) v) != 0 else m.flag b g := by
  unfold Mach.flag; rw [Mach.fld_setFld]; split <;> rfl

theorem Mach.flag_setReg (m : Mach) (a b : Nat) (w : Word) (g : Fld) :
    (m.setReg a w).flag b g = if b = a then g.get w != 0 else m.flag b g := by
  unfold Mach.flag; rw [Mach.fld_setReg]; split <;> rfl

/-- A field of a word depends on its own bits only. -/
theorem Fld.get_congr (f : Fld) (hf : f.ok = true) (a b : Word) (h : ∀ i, f.lo ≤ i → i ≤ f.hi → a.getLsbD i = b.getLsbD i) :
    f.get a = f.get b := by
  apply Nat.eq_of_testBit_eq
  intro i
  rw [Fld.testBit_get, Fld.testBit_get]
  simp only [Fld.ok, Bool.and_eq_true, decide_eq_true_eq] at hf
  by_cases hi : i < f.width
  · have hi' := hi
    simp only [Fld.width] at hi'
    rw [h _ (by omega) (by omega)]
  · simp [hi]

/-- The words of queue descriptors lie apart. -/
theorem qdesc_eq {q a b : Nat} : (qdesc q a = qdesc q b) = (a = b) := by unfold qdesc; apply propext; omega

end Sys2Proof.Machine
end

