-- ==== Sys2Proof/Tests/Slice0.lean ====
section
/-!
SUPPORT. Small tests: commands that `wellFormed` refuses, one step of a few commands, and for each statement a state and operands
that meet its hypotheses.
-/
namespace Sys2Proof.Tests
open Sys2Proof Sys2Proof.Machine

-- One theorem after another: the checks of many at once would each hold a thread.
set_option Elab.async false

/-! ## Operands and states -/

def fa : FA := { rd := 1, rs := 2, rt := 3, ps := false, pd := 0, cond := 0, resv := 0 }
def fi : FI := { rd := 1, rs := 2, resv := 0, imm := 1 }
def fm : FM := { rd := 1, rs := 2, rt := 3, imm := 4 }
def fb : FB := { resv := 0, sense := false, pd := 0, off := 1 }
def fs : FS := { rd := 0, rs := 0, rt := 0, imm := 0 }
def fw : FW := { rd := 1, rs := 2, rt := 3, func := 0 }
/-- An instruction of format X with an xi field. -/
def fx (xi : BitVec 10) : FX := { rd := 1, rs := 2, rt := 0, xi := xi }
def hdr : ReqHdr := { ctx := 0, addr := 0, nw := 1 }
def train : TrainPkt :=
  { group := 0, lane := 0, locked := false, aligned := false, fresh := true, rung := 0, maxRung := 0, nextSeq := 0, inverted := false }

/-- The machine after reset. -/
def m0 : Mach := State.reset.m
/-- The state with a machine. -/
def st (m : Mach) : State := { State.reset with m := m }
/-- A machine in a device state. -/
def inState (d : DevState) (m : Mach) : Mach := { m with dev := { m.dev with st := d } }
/-- Engine `e` runs with two registers set. -/
def runs (e : Nat) (g2 g3 : Word) (m : Mach) : Mach :=
  m.modE e (fun x => { x with st := .running, g := [(2, g2), (3, g3)] })
/-- Engine `e` waits. -/
def waiting (e : Nat) (w : Wait) (m : Mach) : Mach := m.modE e (fun x => { x with st := .waiting, wait := w, wrd := 1 })

/-! ## Commands that are not well formed -/


/-- The emitter driver holds a shot. -/
def fires (x : Shot) (m : Mach) : Mach := { m with emt := { m.emt with shots := [x] } }
theorem test_illFormed1 : (([
  .registerWrite (.eng 282) 0 0, .registerWrite (.link 0 0) (2^32) 0, .registerWrite (.link 0 0) 2 0,
  .commitRequest (.link 0 0) ⟨16, 0⟩ 0, .commitCancel (.eng 282) ⟨0, 0⟩ 0, .idleCommitApply ⟨16, 0⟩, .dramRestore 16,
  .supplyMonitorTrip 512, .supplyMonitorRelease 9, .clockMonitorWindow 65536 false, .requestLinked 8 0, .requestLinked 0 65536,
  .requestLoaded 8 0, .requestArmed 0 65536, .requestRunning 8 0, .requestOasis 0 65536, .hostReset 8 0, .start (.link 0 0) 282 0,
  .stop (.link 0 0) 282 0, .verify (.eng 282) 0 0, .verifyDone 282, .mbclr (.eng 282) 0 0, .mboxIn (.link 0 0) 282 0,
  .programMemoryWrite (.link 0 0) 0 (2^18) 0, .programMemoryWrite (.link 0 0) 0 2 0, .dataMemoryWrite (.eng 282) 0 0 0,
  .semaphoreWrite (.link 0 0) 1024 0, .add 282 fa, .sub 282 fa, .and 282 fa, .or 282 fa, .xor 282 fa, .shl 282 fa, .shr 282 fa,
  .sra 282 fa, .mul 282 fa, .mulh 282 fa, .adds 282 fa, .subs 282 fa, .min 282 fa] : List Instr).all (fun c => !wellFormed c)) = true := by decide +kernel

theorem test_illFormed2 : (([
  .max 282 fa, .abs 282 fa, .addImm 282 fi, .andImm 282 fi, .orImm 282 fi, .xorImm 282 fi, .shlImm 282 fi, .shrImm 282 fi,
  .sraImm 282 fi, .mulImm 282 fi, .addsImm 282 fi, .minImm 282 fi, .maxImm 282 fi, .li 282 fi, .lui 282 fi, .ldW 282 fm, .ldH 282 fm,
  .ldHu 282 fm, .ldB 282 fm, .ldBu 282 fm, .stW 282 fm, .stH 282 fm, .stB 282 fm, .ldx 282 fm, .stx 282 fm,
  .ldxStxCompletion 0 none (4096 + 1), .rdcsControl 282 fm, .wrcsControl 282 fm, .controlSpaceCompletion 282, .rdcsLocal 282 fi,
  .wrcsLocal 282 fi, .b 282 fb, .bc 282 fb, .call 282 fb, .ret 282 fs, .loop 282 fi, .nop 282 fs, .halt 282 fs, .fault 282 .ecc,
  .watchdog 282] : List Instr).all (fun c => !wellFormed c)) = true := by decide +kernel

theorem test_illFormed3 : (([
  .lockstepMismatch 2, .trap 282 (fx 0), .eret 282 (fx 0), .wait 282 fw, .waitTimeout 282, .sig 282 fi, .wtime 282 fi, .wtimeTimeout 282,
  .msnd 282 fw, .mailboxWordArrival 282 0, .mrcv 282 fw, .mrcvTimeout 282, .emit 282 fm, .emitTimeout 282, .fire 282 (fx 0),
  .guardDecision 16 false, .opticalStart 16 0, .noStart 16, .proof 0 (fx 1), .proofWalk 0 (fx 0), .walkShot 16, .proofLate 16,
  .arm 0 (fx 512), .armClose 0 (fx 0), .wangle 282 (fx 0), .wangleEvaluation 282, .code 0 (fx 1), .codeOff 282 (fx 0), .pat 282 (fx 0),
  .zoom 0 (fx 8), .zoomOff 0 (fx 0), .sequencerHandover 16, .macs 282 (fx 0), .lim 282 (fx 0), .ferr 282 (fx 0), .xfade 282 (fx 0),
  .pub 282 (fx 0), .dacw 282 (fx 0), .adcr 282 (fx 0), .encoderEdge 4 false false] : List Instr).all (fun c => !wellFormed c)) = true := by decide +kernel

theorem test_illFormed4 : (([
  .encoderIndex 4, .stall 2, .coefficientWrite (.link 0 0) 0 4 0 false 0, .coefficientWrite (.link 0 0) 0 0 32 false 0,
  .pubRead (.eng 282) 0, .feTripClear (.link 0 0) 4, .guardStagingWrite (.link 0 0) 0x40000 0, .requestRecordWrite 0 2 0 0,
  .requestRecordWrite 0 0 128 0, .moduleStale 4, .listenOpen 96, .listenClose 96, .comparatorEdge 0 4 false 0, .overloadTrip 96 0,
  .overloadRelease 96 0, .blankPin 4 false 0, .ibiasReading 0 (2^32) false, .dllLockRequest (.eng 282), .dllLock 25 0, .dllLock 0 2,
  .dllLockLoss 25 0, .dllSwap 25, .channelCalibrationDone (408 + 16 + 288) false 0 0, .channelCalibrationDone 0 false 256 0,
  .channelCalibrationDone 0 false 0 (-32769), .channelCalibrationDone 0 false 0 32768, .rotationHandover (24 + 96) 0,
  .testEdge (408 + 16 + 288) 0, .spareTakeover 24, .shotSettle 96, .cellSwap 96, .bankAssign (.link 0 0) 192 0, .flush (.eng 282),
  .ergWindowWrite (.link 0 0) 0 65536 0, .ergEccError 192, .take 0 (fx 1), .takeLook 282 (fx 0), .takeTimeout 282, .handleDispatch 8,
  .rel 282 (fx 0)] : List Instr).all (fun c => !wellFormed c)) = true := by decide +kernel

theorem test_illFormed5 : (([
  .bgest 282 (fx 0), .bscan 282 (fx 0), .corr 282 (fx 0), .fit 282 (fx 0), .wfpk 282 (fx 0), .poly 282 (fx 0), .cls 282 (fx 0),
  .poolWrite (.link 0 0) 256 0, .portPoolWrite (.link 0 0) 12 0, .groupAccept 264, .mapLineFetch 96, .mirageEntryAge 4096,
  .mirageClear (.eng 282), .frameRequest (.eng 282), .frameBoundary 4, .timeTriggerFire 16, .edgeCapture 3 false false,
  .captureRead (.link 0 0) 3, .timeNowRead (.eng 282), .busLine [], .busLine (List.replicate 4097 0), .busLine [65536], .idle 2,
  .markerTimer 8, .packetDiscard 2 .crc, .ack 0 65536, .nak 2 0, .ackTimer 2, .replayTimeout 2, .train 0 ({ train with lane := 4 }),
  .groupBond 0 16, .bondTimeout 0 16, .trainingTimeout 2, .rateChangeRequest (.link 0 0) 2 0, .rate 0 false 8, .laneLoss 8 .clock,
  .rebond 0 false 16, .laneRetrain 8, .laneRejoin 8, .read 0 ({ hdr with ctx := 8 }) []] : List Instr).all (fun c => !wellFormed c)) = true := by decide +kernel

theorem test_illFormed6 : (([
  .read 0 hdr [(1024, false)], .write 0 hdr (List.replicate 1025 0), .badtype 0 0 256, .credit 0 0 (.one 32768 0 false),
  .tsync 0 0 0 false false 16, .egressGrant 0 16, .queueGroupChange 32768, .rolesWrite (.eng 282) 0, .descriptorWrite (.link 0 0) 0 16 0,
  .blockedRecordAccept 32768, .hostFreeze (.eng 282) 0, .recorderFrozen 32768, .ringHeaderRewrite 32768, .frozenResume (.link 0 0) 32768,
  .dramInit (.eng 282), .dramReady 16, .dramBurstGrant 4, .dramChannelFail 4, .patrolScrub 4 false false, .refresh 4,
  .mr4Read 0 (64 + 1), .dramStarve 5, .queueStarve 32768, .safetyStagingWrite (.link 0 0) 2 0, .safetyRecordWrite 0 0 2 0,
  .bconfWrite (.eng 282) 0, .bresWrite (.link 0 0) 2 0, .blatDeadline 2, .inputLevel 0 false 4, .discrepancyExpiry 8, .twoHandTimeout 8,
  .evaluatorDisagree 8, .testPulse 2, .testPulseJudge 0 65536, .switchOn 2, .fbCheck 2 false, .offpTest 2, .offtTestEnd 2 false,
  .safe 0 0 [] [], .safe 0 0 (List.replicate 6 0) (List.replicate 4097 0)] : List Instr).all (fun c => !wellFormed c)) = true := by decide +kernel

theorem test_illFormed7 : (([
  .safeCopyTimeout 2, .hkRefEn (.eng 282) false, .hkGo (.eng 282), .hkSync (.eng 282), .hkEntryDone (List.replicate 4097 0),
  .outputWord 16, .fixedPairResult 4 0 false, .dieSensorRead [], .faultRecordClose 65536, .captureGo (.eng 282) 0,
  .captureStop (.eng 282), .inject (.eng 282) 0, .programSlot (.eng 282) 0, .revokeSlot (.eng 282) 0, .raiseGminver (.eng 282) 0,
  .raiseSminver (.eng 282) 0, .bypass 256, .waveformSample 0 false 0 1024, .positionConverterSample 0 (-32769) false,
  .positionConverterSample 0 32768 false, .positionAverageReady 4, .guardPositionSample 0 4096, .equaliserPresetStep 8, .fbHighTimeout 2] : List Instr).all (fun c => !wellFormed c)) = true := by decide +kernel

theorem test_illFormedParts : (([.registerWrite (.link 8 0) 0 0, .registerWrite (.link 0 2) 0 0, .idleCommitApply ⟨28, 0⟩,
  .read 0 { hdr with nw := 0 } [], .read 0 { hdr with nw := 1025 } [], .read 0 { hdr with addr := 2 ^ 40 } [],
  .credit 0 0 (.one 0 (2 ^ 32) false), .credit 0 0 (.list [(32768, 0)]), .credit 0 0 (.list [(0, 2 ^ 17)]),
  .credit 0 0 (.list (List.replicate 1025 (0, 0))), .train 0 { train with group := 2 }, .train 0 { train with rung := 8 },
  .train 0 { train with maxRung := 8 }, .train 0 { train with nextSeq := 65536 }] : List Instr).all (fun c => !wellFormed c)) = true := by
  decide +kernel

theorem test_illFormed_is_refused : exec (.add 282 fa) State.reset = .refused .illFormed := rfl

/-! ## Hypotheses that are met -/

theorem witness_StepRunsTheFrontCommand : State.reset.pending = [] := rfl
theorem witness_EveryWellFormedCommandCompletes :
    wellFormed (.add 281 fa) = true ∧ wellFormed (.add 282 fa) = false ∧ (∀ ok, Instr.add 281 fa ≠ .fuseProgramDone ok) :=
  ⟨rfl, rfl, nofun⟩
theorem witness_EveryCommandTouchesOnlyItsParts : ∃ t, exec (.add 0 fa) (st (runs 0 3 4 m0)) = .next t := ⟨_, rfl⟩
theorem witness_EveryStepKeepsBlownFuses :
    ∃ t, step { st m0 with pending := [.fuseProgramDone true], otp := { State.reset.otp with revoked := 5, gminver := 2 } } = .next t := ⟨_, rfl⟩

/-- An engine about to issue at the last word of its program memory. -/
theorem witness_ThreeRegisterFormsCompute :
    ((runs 0 3 4 m0).modE 0 (fun x => { x with pc := 0xFFFC })).canIssue 0 ∧ (runs 281 3 4 m0).canIssue 281
    ∧ (fa.resv = 0 ∧ (if fa.ps then fa.cond ≠ 7 else fa.pd = 0 ∧ fa.cond = 0))
    ∧ (let i := { fa with ps := true, cond := 6, pd := 3, rt := 0 }; (i.resv = 0 ∧ (if i.ps then i.cond ≠ 7 else i.pd = 0 ∧ i.cond = 0)) ∧ i.rt = 0)
    ∧ ¬ (let i := { fa with ps := true, cond := 7 }; (i.resv = 0 ∧ (if i.ps then i.cond ≠ 7 else i.pd = 0 ∧ i.cond = 0)))
    ∧ fa.rt ≠ 0 := by unfold Mach.canIssue; decide +kernel

theorem witness_ImmediateFormsCompute :
    (runs 255 3 4 m0).canIssue 255 ∧ ({ fi with resv := 1 } : FI).resv ≠ 0 ∧ 32 ≤ ({ fi with imm := 32 } : FI).imm.toNat ∧ fi.rs ≠ 0
    ∧ fi.resv = 0 ∧ ({ fi with imm := 31 } : FI).imm.toNat < 32 ∧ ({ fi with rs := 0 } : FI).rs = 0 := by
  unfold Mach.canIssue; decide +kernel

/-- DRAM ready on one channel of 1 GB. -/
def mDram : Mach := (m0.setFld aMEM_STAT fMEM_STAT_READY 1).setFld aMEM_CFG fMEM_CFG_CHEN 1
def ldm (imm : BitVec 14) : FM := { rd := 1, rs := 2, rt := 0, imm := imm }
def stm (imm : BitVec 14) : FM := { rd := 0, rs := 2, rt := 3, imm := imm }
/-- Engine 0 holds bank 3, or a look of it. -/
def holds (m : Mach) : Mach := m.modE 0 (fun x => { x with held := some { bank := 3, gen := 0, red := 0, at_ := 0 } })
def looks (m : Mach) : Mach := m.modE 0 (fun x => { x with look := some { port := 0, bank := 3, gen := 0, moved := false } })

theorem witness_LoadsAndStoresMoveBytes :
    -- loads: misaligned; the last word of data memory, the first of the held and of the looked bank; outside every memory
    (runs 0 2 0 m0).canIssue 0 ∧ ((2 : Int) + (ldm 0).imm.toInt) % 4 ≠ 0
    ∧ LocalHolds (runs 0 0x7FFC 0 m0) 0 0x7FFC 4 0
    ∧ LocalHolds (holds (runs 0 0x10000 0 m0)) 0 0x10000 4 0 ∧ LocalHolds (looks (runs 0 0x20000 0 m0)) 0 0x20000 4 0
    ∧ (∀ v, ¬ LocalHolds (runs 0 0x8000 0 m0) 0 0x8000 4 v)
    -- stores: the last word of data memory; a supervisor's image; the held bank, its reserved part; outside
    ∧ (let a : Int := 0x7FFC; a % 4 = 0 ∧ 0 ≤ a ∧ a + 4 ≤ dataBytes 0)
    ∧ engClass 281 = .sv ∧ (0 : Int) < 4 * ((runs 281 0 7 m0).setFld (engPage 281 + 0xC) ⟨18, 2⟩ 1).engLen 281
    ∧ engClass 0 = .re ∧ ((holds m0).e 0).held.isSome = true ∧ bankResv 0x12FC = false ∧ bankResv 0x1300 = true
    ∧ ¬ ((0x8000 : Int) + 4 ≤ dataBytes 0) := by
  refine ⟨by unfold Mach.canIssue; decide +kernel, by decide, .inl (by decide +kernel), .inr (.inl ⟨by decide, by decide, by decide, _, rfl, by decide +kernel⟩),
    .inr (.inr ⟨by decide, by decide, by decide, _, rfl, by decide +kernel⟩), ?_, by decide, by decide, by decide +kernel, by decide, by decide,
    by decide, by decide, by decide⟩
  rintro v (⟨-, h, -⟩ | ⟨-, h, -⟩ | ⟨-, h, -⟩) <;> revert h <;> decide

theorem witness_DramTransfersCopyBytes :
    -- the longest transfer, from the first byte of DRAM to the last of data memory
    (let m := runs 0 0 0x7000 mDram
     let x := m.e 0
     let i : FM := { rd := 1, rs := 2, rt := 3, imm := 4096 }
     let len := i.imm.toNat
     let far := 2 ^ 32 * x.xhi + (x.gr i.rs).toNat
     let loc := (x.gr i.rt).toNat
     m.canIssue 0 ∧ 0 < len ∧ len ≤ 4096 ∧ len % 4 = 0 ∧ far % 4 = 0 ∧ loc % 4 = 0 ∧ loc + len ≤ dataBytes 0 ∧ dramBase ≤ far
      ∧ far + len ≤ dramBase + m.dramReach ∧ x.openq = none ∧ m.dramStatus (far - dramBase) len = 0
      ∧ (m.setFld aMEM_STAT fMEM_STAT_FAILED 1).dramStatus (far - dramBase) len ≠ 0)
    ∧ (let m := waiting 0 (.dram true 0x8000000000 0 4096) mDram
       wellFormed (.ldxStxCompletion 0 none 256) = true ∧ (m.e 0).wait = .dram true 0x8000000000 0 4096 ∧ (none : Option Nat) = none
        ∧ (m.dramChans 0 4096).any m.chanFailed = false
        ∧ ((m.setFld aMEM_STAT fMEM_STAT_FAILED 1).dramChans 0 4096).any (m.setFld aMEM_STAT fMEM_STAT_FAILED 1).chanFailed = true) := by
  unfold Mach.canIssue; decide +kernel

def sOne : FS := { rd := 0, rs := 0, rt := 0, imm := 0x10 }
/-- A supervisor that takes traps. -/
def traps (m : Mach) : Mach := m.modE 281 (fun x => { x with tvec := 0x101 })
def inTrap (m : Mach) : Mach := m.modE 281 (fun x => { x with inTrap := true })

theorem witness_ControlFlowMovesThePc :
    (runs 0 2 4 m0).canIssue 0 ∧ plainB { fb with pd := 0 } = true ∧ ((runs 0 2 4 m0).e 0).calls.length < callDepth 0
    ∧ callDepth 0 ≤ (((runs 0 2 4 m0).modE 0 (fun x => { x with calls := List.replicate 16 0 })).e 0).calls.length
    ∧ fb.resv = 0 ∧ ((runs 0 2 4 m0).e 0).pred fb.pd.toNat = fb.sense ∧ ((runs 0 2 4 m0).e 0).pred fb.pd.toNat ≠ true ∧ plainS fs = true
    -- loop: a body that ends in a branch; a sound one, with a count of 0, a count of 2, and four levels open
    ∧ (let i : FI := { rd := 0, rs := 2, resv := 0, imm := 1 }
       let m := runs 0 2 4 m0
       i.resv = 0 ∧ i.rd = 0 ∧ i.imm ≠ 0 ∧ ¬ isFlow (m.mword (m.progBase 0 + 4)) = true
        ∧ isFlow ((m.setMword (m.progBase 0 + 4) 0x70000000).mword (m.progBase 0 + 4)) = true
        ∧ ((runs 0 0 4 m0).e 0).gr 2 = 0 ∧ (m.e 0).gr 2 ≠ 0 ∧ (m.e 0).loops.length < 4)
    ∧ ((holds (runs 0 2 4 m0)).e 0).held.isSome = true ∧ ((runs 0 2 4 m0).e 0).held = none ∧ ((runs 0 2 4 m0).e 0).openq = none := by
  unfold Mach.canIssue; decide +kernel

theorem witness_FaultsStopOrTrapTheEngine :
    (runs 281 0 0 m0).canIssue 281 ∧ fs.imm.toNat < 0x10 ∧ (0x10 ≤ sOne.imm.toNat ∧ sOne.rd = 0 ∧ sOne.rs = 0 ∧ sOne.rt = 0)
    ∧ (traps (runs 281 0 0 m0)).trapsTo 281 0x10 = true ∧ (runs 281 0 0 m0).trapsTo 281 0x10 = false
    ∧ opClass ((0 : Word).toNat / 2 ^ 26) = none ∧ (runs 281 0 0 m0).trapsTo 281 1 = false ∧ (traps m0).trapsTo 281 1 = true
    ∧ (let m := (runs 0 0 0 m0).modE 0 (fun x => { x with pc := 0x10000 })
       (m.e 0).st = .running ∧ (m.e 0).stopping = none ∧ progBytes 0 ≤ (m.e 0).pc ∧ m.trapsTo 0 4 = false)
    ∧ ((runs 281 0 0 m0).e 281).active = true ∧ (m0.setFld (engPage 0 + 0x14) ⟨23, 0⟩ 1).fld (engPage 0 + 0x14) ⟨23, 0⟩ ≠ 0
    ∧ (281 = 280 + 1 ∧ m0.dev.st = .boot) := by
  unfold Mach.canIssue; decide +kernel

theorem witness_TrapAndEretEnterAndLeaveTheHandler :
    (traps (runs 281 0 0 m0)).canIssue 281 ∧ engClass 281 = .sv
    ∧ (let i := { fx 255 with rd := 0, rs := 0 }; noRegsX i = true ∧ i.xi.toNat < 256)
    ∧ ((traps (runs 281 0 0 m0)).e 281).inTrap = false ∧ ((traps (runs 281 0 0 m0)).e 281).tvec % 2 = 1
    ∧ ((inTrap (traps m0)).e 281).inTrap = true ∧ (m0.e 281).tvec % 2 = 0 ∧ noRegsX (fx 0) = false ∧ 256 ≤ (fx 256).xi.toNat
    ∧ (let i := { fx 0 with rd := 0, rs := 0 }; noRegsX i = true ∧ i.xi = 0) ∧ (fx 1).xi ≠ 0 ∧ engClass 279 ≠ .sv
    ∧ (runs 279 0 0 m0).canIssue 279 := by
  unfold Mach.canIssue; decide +kernel

theorem witness_LocalRegistersReadAndWrite :
    (runs 281 0 0 m0).canIssue 281 ∧ (runs 279 0 0 m0).canIssue 279 ∧ fi.resv = 0 ∧ ({ fi with rs := 0 } : FI).rs = 0 ∧ ({ fi with rd := 0 } : FI).rd = 0
    ∧ engClass 281 = .sv ∧ ¬ engClass 279 = .sv ∧ (0x0A : BitVec 16).toNat = 0x0A ∧ 0x0A < (0x0B : BitVec 16).toNat := by
  unfold Mach.canIssue; decide +kernel

/-- The Owner's packets on group 0. -/
def own : Src := .link 0 0
def fwn : FW := fw
/-- Semaphore 1023 with a count and waiters. -/
def semQ (c : Nat) (l : List Nat) (m : Mach) : Mach := m.setSem 1023 { count := c, ovf := false, queue := l }

theorem witness_SemaphoresAndMailboxesPass :
    -- wait and sig
    (runs 0 1023 5 m0).canIssue 0 ∧ fw.func = 0 ∧ 1023 < ((runs 0 1024 5 m0).gn 0 2) ∧ (runs 0 1023 5 m0).gn 0 2 ≤ 1023
    ∧ 0 < ((semQ 1 [] m0).sem 1023).count ∧ (m0.sem 1023).count = 0 ∧ ((runs 0 1023 0 m0).e 0).gr fw.rt = 0
    ∧ ((runs 0 1023 5 m0).e 0).gr fw.rt ≠ 0 ∧ ((waiting 7 (.sem 1023) m0).e 7).wait = .sem 1023
    ∧ (let i : FI := { rd := 0, rs := 2, resv := 0, imm := 0xFFFF }; i.resv = 0 ∧ i.rd = 0 ∧ i.imm ≠ 0)
    ∧ 0 ∉ ((semQ 0xFFFF [7, 8] m0).sem 1023).queue ∧ ((semQ 0xFFFF [7, 8] m0).sem 1023).queue = 7 :: [8] ∧ 7 ≠ 0 ∧ 7 ∉ [8]
    ∧ wfSemaphoreWrite own 1023 0xFFFF = true ∧ (inState .linked m0).mayWrite own .glb 0 (0x1000 + 4 * 1023) = 0
    -- wtime
    ∧ ({ fi with imm := 15 } : FI).imm.toNat < 16
    ∧ (let m := (waiting 7 (.trig 15) m0).modE 7 (fun x => { x with limit := 1 }); (m.e 7).wait = .trig 15 ∧ (m.e 7).limit ≠ 0)
    -- msnd to no engine, to a full and to an empty mailbox, and the arrival of the word
    ∧ 281 < (runs 0 282 5 m0).gn 0 2 ∧ (runs 0 281 5 m0).gn 0 2 ≤ 281
    ∧ 16 ≤ ((m0.modE 281 (fun x => { x with mbox := List.replicate 16 (0, 0) })).e 281).mbox.length ∧ (m0.e 281).mbox.length + (m0.e 281).inflight.length < 16
    ∧ (let l : List (Word × Nat) := [(3, 2), (4, 1), (5, 1)]; ((m0.modE 281 (fun x => { x with inflight := l })).e 281).inflight = [(3, 2)] ++ (4, 1) :: [(5, 1)]
        ∧ ∀ y, y ∈ ([(3, 2)] : List (Word × Nat)) → y.2 ≠ 1)
    ∧ (let m := waiting 281 (.mbox 3) m0; (m.e 281).wait = .mbox 3 ∧ (m.e 281).mbox = [])
    -- mrcv with a word present, with none and no time, with none and time
    ∧ (let i : FW := { rd := 1, rs := 2, rt := 0, func := 0x1800 }; i.rt = 0 ∧ i.func &&& 0x27FF = 0)
    ∧ ((m0.modE 0 (fun x => { x with mbox := [(9, 1)] })).e 0).mbox = (9, 1) :: [] ∧ ((runs 0 0 0 m0).e 0).gr 2 = 0 ∧ ((runs 0 1 0 m0).e 0).gr 2 ≠ 0
    -- the host's words and MBCLR
    ∧ wfMboxIn own 281 5 = true ∧ m0.mayWrite own (engClass 281).blk (engInst 281) 0x28 = 0
    ∧ wfMbclr own 281 0x10 = true ∧ m0.mayWrite own (engClass 281).blk (engInst 281) 0 = 0 := by
  unfold Mach.canIssue; decide +kernel

theorem witness_MailboxWordArrival_elsewhere : ∀ pd, (m0.e 281).wait ≠ .mbox pd := nofun

theorem witness_EnginesAccessControlSpace :
    (runs 281 0x200 5 m0).canIssue 281 ∧ (runs 281 0x1FE 5 m0).localAddr 281 (ldm 4) % 4 ≠ 0
    ∧ (runs 281 0 5 m0).localAddr 281 (ldm 0x3FFC) < 0
    ∧ 1 < ((runs 0 0x0 5 m0).fetch 0).ctlStatus State.reset.otp 0 ((runs 0 0 5 m0).localAddr 0 (stm 4)).toNat (some 5)
    ∧ ((runs 281 0 5 m0).fetch 281).ctlStatus State.reset.otp 281 ((runs 281 0 5 m0).localAddr 281 (ldm 4)).toNat none ≤ 1
    ∧ (let m := waiting 281 (.ctl false 4 0) m0; (m.e 281).wait = .ctl false 4 0 ∧ (m.readAt State.reset.otp (.eng 281) 4).2.status ≤ 1)
    ∧ (let m := waiting 281 (.ctl true aMEM_REF 0) m0; (m.e 281).wait = .ctl true aMEM_REF 0 ∧ (m.writeAt State.reset.otp (.eng 281) aMEM_REF 0).status ≤ 1
        ∧ ((m.writeAt State.reset.otp (.eng 281) aMEM_REF 0).e 281).wait = .ctl true aMEM_REF 0) := by
  unfold Mach.canIssue; decide +kernel

/-- Engine `e` enabled, verified, with an image of two words entered at its last. -/
def ready (e : Nat) (m : Mach) : Mach :=
  ((m.setFld (engPage e + 8) ⟨17, 2⟩ 1).setFld (engPage e + 0xC) ⟨18, 2⟩ 2).modE e (fun x => { x with verified := true })

theorem witness_StartAndStopOfEngines :
    own.wf = true ∧ (inState .armed m0).mayWrite own (engClass 256).blk (engInst 256) 0 = 0
    ∧ (∀ k, k ∈ [6, 7, 3] → (1 : Word).getLsbD k = false) ∧ (1 : Word).getLsbD 0 = true ∧ (0 : Word).getLsbD 0 = false ∧ (4 : Word).getLsbD 2 = true
    -- START: the state allows it, or does not; the image entered at its last word, or past it
    ∧ (inState .armed m0).hot = true ∧ ((inState .oasis m0).dev.st = .oasis ∧ engClass 281 ≠ .sq) ∧ m0.dev.st = .boot ∧ m0.hot = false
    ∧ ((ready 256 m0).e 256).verified = true ∧ ((ready 256 m0).e 256).active = false
    ∧ (ready 256 m0).fld (engPage 256 + 8) ⟨17, 2⟩ < (ready 256 m0).fld (engPage 256 + 0xC) ⟨18, 2⟩
    ∧ (m0.e 256).verified = false ∧ ((runs 256 0 0 (ready 256 m0)).e 256).verified = true ∧ ((runs 256 0 0 m0).e 256).active = true
    ∧ m0.fld (engPage 256 + 0xC) ⟨18, 2⟩ ≤ m0.fld (engPage 256 + 8) ⟨17, 2⟩
    -- STOP: a range engine, a sequencer without shots, a sequencer with a granted edge
    ∧ engClass 0 ≠ .sq ∧ engClass 256 = .sq ∧ m0.emt.shots = []
    ∧ (fires { Shot.blank with stage := .granted } m0).edgesLeft (engInst 256) ≠ 0 := by
  decide +kernel

theorem witness_EngineMemoriesAreWrittenAndVerified :
    (∀ k, k ∈ [2, 3, 7] → (0x40 : Word).getLsbD k = false)
    ∧ (281 ∈ m0.imageOf 281 ∧ ((runs 281 0 0 m0).e 281).active = true) ∧ (∀ n, n ∈ m0.imageOf 281 → (m0.e n).active = false)
    ∧ ((m0.modE 281 (fun x => { x with verifyDue := some 5 })).e 281).verifyDue = some 5
    -- the last word of program memory and past it, a supervisor's image and past it
    ∧ m0.programAt 256 0x7FFC ≠ none ∧ engClass 256 ≠ .sv ∧ (m0.setFld (engPage 281 + 0xC) ⟨18, 2⟩ 2).programAt 281 4 ≠ none
    ∧ 4 < 4 * (m0.setFld (engPage 281 + 0xC) ⟨18, 2⟩ 2).fld (engPage 281 + 0xC) ⟨18, 2⟩ ∧ m0.programAt 256 0x8000 = none
    ∧ m0.mayProgram (.link 1 0) 256 = false ∧ m0.mayProgram own 256 = true ∧ (∀ n, n ∈ m0.imageOf 256 → (m0.e n).active = false)
    ∧ (256 ∈ m0.imageOf 256 ∧ ((runs 256 0 0 m0).e 256).active = true)
    -- the last word of data memory and past it; the Owner, another context, the engine itself and a supervisor
    ∧ dataBytes 256 ≤ 0x2000 ∧ 0x1FFC < dataBytes 256 ∧ ¬ (engClass 256 = .sv)
    ∧ (m0.ctxOn 0 = true ∧ 0 = m0.owner ∧ m0.dev.st ≠ .shutdown) ∧ ¬ m0.ctxOn 1 = true ∧ engClass 280 = .sv := by
  decide +kernel

/-- Queue 0, enabled by word 0, with 4 kB of link SRAM. -/
def queue (w : Word) (m : Mach) : Mach :=
  (((m.setReg (qdesc 0 0) w).setReg (qdesc 0 1) 0x81FF000).setFld (qdesc 0 3) fQ_ALL 64).setReg (engPage 0 + 0x30) 0
/-- An offer of engine 7 waits at queue 0. -/
def offered (m : Mach) : Mach := m.modQ 0 (fun x => { x with waiters := [{ by_ := .eng 7, bytes := [1], cyc := 0 }] })
def em (imm : BitVec 14) : FM := { rd := 1, rs := 2, rt := 3, imm := imm }

theorem witness_EmitOffersRecords :
    ((queue 0x80000000 m0).qStart 0 ≤ 4095 ∧ 4095 < (queue 0x80000000 m0).qSize 0 ∧ (List.replicate 4096 (7 : Byte)).length ≤ (queue 0x80000000 m0).qSize 0)
    ∧ (let m := runs 0 0x7000 0 (queue 0x80000000 m0)
       m.canIssue 0 ∧ (em 4096).imm.toNat % 2 ^ 13 = 4096 ∧ (em 4).imm.toNat % 2 ^ 13 = 4
        -- misaligned, outside, at the end of data memory; a queue outside the window, one not enabled
        ∧ ((runs 0 0x7002 0 m0).e 0).gr 2 % 4 ≠ 0 ∧ inData 0 0x7004 4096 = false ∧ inData 0 0x7000 4096 = true ∧ (m.e 0).openq = none
        ∧ m.fld (engPage 0 + 0x30) ⟨14, 0⟩ < 1 ∧ m0.qOn 0 = false
        ∧ ¬ (0 < m.fld (engPage 0 + 0x30) ⟨30, 16⟩ ∨ m.fld (engPage 0 + 0x30) ⟨14, 0⟩ < 0 ∨ m.qOn 0 = false)
        -- a record too long, a part with MORE, one that fits, one that does not, a queue that is shut, one that blocks
        ∧ 4096 < (List.replicate 4 (0 : Byte) ++ m.bytes (dataBase 0 + 0x7000) 4096).length
        ∧ (em 0x2004).imm.getLsbD 13 = true ∧ (em 4).imm.getLsbD 13 = false
        ∧ (m.qFits 0 4 = true ∧ m.qPert 0 = false ∧ m.qShut 0 = false ∧ m.fld (qdesc 0 0) fQ_POLICY = 0)
        ∧ ¬ (m.qFits 0 4096 = true) ∧ (m.setFld (qdesc 0 9) fQ_FROZEN 1).qShut 0 = true
        ∧ (queue 0xA0000000 m0).fld (qdesc 0 0) fQ_POLICY = 1 ∧ ((queue 0xA0000000 m0).q 0).waiters = []
        ∧ ((m.modE 0 (fun x => { x with emitTmo := 1 })).e 0).emitTmo ≠ 0)
    ∧ ((waiting 0 (.queue 0) m0).e 0).wait = .queue 0
    ∧ (wfBlockedRecordAccept 0 = true ∧ ((offered (queue 0xA0000000 m0)).q 0).waiters = { by_ := .eng 7, bytes := [1], cyc := 0 } :: []
        ∧ (queue 0xA0000000 m0).qShut 0 = false ∧ (queue 0xA0000000 m0).qFits 0 1 = true ∧ (queue 0xA0000000 m0).qPert 0 = false) := by
  unfold Mach.canIssue; decide +kernel

theorem witness_QueueDescriptorsAndRoles :
    wfDescriptorWrite own 32767 15 0 = true ∧ m0.mayWrite own .qdesc 32767 60 = 0 ∧ m0.qFull own = true
    ∧ (queue 0x80000000 m0).qOn 0 = true ∧ m0.qOn 0 = false
    ∧ ((queue 0x80000000 m0).reg (qdesc 0 1) ^^^ 0x81FF040) &&& 0xFFFFFFC0 ≠ 0 ∧ ((queue 0x80000000 m0).reg (qdesc 0 1) ^^^ 0x81FF001) &&& 0xFFFFFFC0 = 0
    -- word 0: a fixed field, a buffer that is not usable, one that is, disabling
    ∧ ((queue 0x80000000 m0).reg (qdesc 0 0) ^^^ 0x80000001) &&& 0x7C000FFF ≠ 0 ∧ ((queue 0x80000000 m0).reg (qdesc 0 0) ^^^ 0) &&& 0x7C000FFF = 0
    ∧ m0.qBufferOk 0 = false ∧ (fQ_POLICY.get 0xC0000000 = 2 ∧ fQ_RECORDER.get 0xC0000000 = 0)
    ∧ (queue 0 m0).qBufferOk 0 = true ∧ (queue 0 m0).qOn 0 = false ∧ fQ_POLICY.get 0x80000000 ≠ 2 ∧ fQ_RECORDER.get 0xD0000000 = 1
    ∧ (0x80000000 : Word).getLsbD 31 = true ∧ (0 : Word).getLsbD 31 = false ∧ ((queue 0x80000000 m0).q 0).waiters = []
    -- the roles
    ∧ wfRolesWrite own 0 = true ∧ m0.mayWrite own .qmg 0 0 = 0
    ∧ (let v := fQMG_ROLES_SAFETY.set (fQMG_ROLES_KEY.set 0 0x5A17) 1
       let m := m0.setFld (aQMG_CTX 1) fQMG_CTX_EN 1
       fQMG_ROLES_KEY.get v = 0x5A17 ∧ m.ctxOn (fQMG_ROLES_OWNER.get v) = true ∧ m.ctxOn (fQMG_ROLES_SAFETY.get v) = true
        ∧ m.flag aSAF_STAT fSAF_STAT_ACTIVE = false ∧ m.hot = false ∧ ¬ m0.ctxOn (fQMG_ROLES_SAFETY.get v) = true) := by
  decide +kernel

/-- Queue 0 as a recorder ring that freezes on the host's request. -/
def ring (m : Mach) : Mach := (queue 0xD0000000 m).setFld (qdesc 0 9) fQ_ON_HOST 1

theorem witness_RecorderRingsFreezeAndResume :
    wfHostFreeze own 0 = true ∧ m0.mayWrite own .qmg 0 0x50 = 0 ∧ fQMG_FREEZE_KEY.get 0 ≠ 0x5A17
    ∧ (let v := fQMG_FREEZE_KEY.set 0 0x5A17; fQMG_FREEZE_KEY.get v = 0x5A17 ∧ fQMG_FREEZE_GO.get v = 0 ∧ fQMG_FREEZE_GO.get (fQMG_FREEZE_GO.set v 1) = 1)
    ∧ (let m := ring m0
       m.queuesOn = [0] ∧ m.qRing 0 = true ∧ m.flag (qdesc 0 9) fQ_ON_HOST = true ∧ m.flag (qdesc 0 9) fQ_FROZEN = false
        ∧ m.flag (qdesc 0 9) fQ_FREEZING = false ∧ m.qOn 0 = true)
    ∧ (let m := (ring m0).setFld (qdesc 0 9) fQ_FREEZING 1
       wfRecorderFrozen 0 = true ∧ m.flag (qdesc 0 9) fQ_FREEZING = true ∧ (m.q 0).postLeft = 0 ∧ (m.q 0).waiters = [])
    ∧ (wfRingHeaderRewrite 0 = true ∧ m0.qOn 0 = false)
    ∧ (wfFrozenResume own 0 = true ∧ m0.mayWrite own .qdesc 0 0x24 = 0 ∧ ((ring m0).setFld (qdesc 0 9) fQ_FROZEN 1).flag (qdesc 0 9) fQ_FROZEN = true) := by
  decide +kernel

/-- Group `g` BONDED on lanes 0 to 3. -/
def bond (g : Nat) (m : Mach) : Mach := (m.setFld (aLNK_GSTAT g) fLNK_GSTAT_STATE 2).setFld (aLNK_GSTAT g) fLNK_GSTAT_ACTIVE 15
def pkt (ty seq : Nat) : Pkt := { ty := ty, ctx := 0, queue := 0, seq := seq, spec := [], payload := [] }
/-- Group 0 keeps the packets 65535 and 0, sent `n` times. -/
def keeps (n : Nat) (m : Mach) : Mach := m.modG 0 (fun x => { x with
  kept := [{ pkt := pkt 0x12 65535, sent := n, stamp := Stamp.zero }, { pkt := pkt 0x12 0, sent := n, stamp := Stamp.zero }], tries := n })

theorem witness_LinkAcknowledgesAndReplays :
    m0.linkUp 0 = false ∧ (bond 1 m0).linkUp 1 = true
    ∧ (let x := (keeps 4 (bond 0 m0)).g 0
       -- an ACK of 65535 releases one packet, of 0 both, of 65534 none
       ((x.kept.dropWhile (fun k => decide ((65535 + 65536 - k.pkt.seq) % 65536 < 32768))).length = 1)
        ∧ ((x.kept.dropWhile (fun k => decide ((0 + 65536 - k.pkt.seq) % 65536 < 32768))).length = 0)
        ∧ ((x.kept.dropWhile (fun k => decide ((65534 + 65536 - k.pkt.seq) % 65536 < 32768))).length = x.kept.length) ∧ 4 ≤ x.tries ∧ x.kept ≠ [])
    ∧ ((keeps 3 m0).g 0).tries < 4
    ∧ ((m0.modG 0 (fun x => { x with ackDue := some 7 })).g 0).ackDue = some 7
    ∧ Discard.marker 3 ≠ .duplicate ∧ (m0.g 0).nakSent = false ∧ (m0.g 0).discards + 1 ≤ m0.fld (aLNK_GCFG 0) fLNK_GCFG_ERR_LIM
    ∧ (m0.setFld (aLNK_GCFG 0) fLNK_GCFG_ERR_LIM 0).fld (aLNK_GCFG 0) fLNK_GCFG_ERR_LIM = 0 := by
  decide +kernel

/-- Group 1 trains with its lanes in a state. -/
def trains (v : Nat) (m : Mach) : Mach := (((m.setLState 4 v).setLState 5 v).setLState 6 v).setLState 7 v
def rateWord (go t : Nat) : Word := fLNK_RATE_GO.set (fLNK_RATE_TARGET.set 0 t) go
/-- A far end that reaches rung 4. -/
def farMax (g : Nat) (m : Mach) : Mach := m.setFld (aLNK_GSTAT g) fLNK_GSTAT_FAR_MAX 4

theorem witness_LanesTrainAndBond :
    wfTrain 7 train = true ∧ m0.training 1 = true ∧ (m0.laneMask 1).testBit 3 = true ∧ (m0.l 7).barred = false ∧ m0.dev.st = .boot
    ∧ ({ m0 with dev := { m0.dev with bist := some true } } : Mach).dev.bist ≠ none ∧ (inState .linked m0).dev.st ≠ .boot
    ∧ train.group ≠ 1 ∧ ({ train with group := 1 } : TrainPkt).group = 7 / 4 ∧ (m0.l 7).valid < 8
    ∧ (let m := (m0.modL 7 (fun x => { x with valid := 8, locked := 7 })).setLState 7 1; (m.l 7).valid = 8 ∧ m.lState 7 = 1)
    -- all lanes ALIGNED
    ∧ (let m := (trains 2 m0).modG 1 (fun x => { x with alignCyc := some 3 })
       m.training 1 = true ∧ m.aligned 1 ≠ 0 ∧ m.aligned 1 = ofBits ((bitsOf 4 (m.laneMask 1)).filter (fun i => !(m.l (4 * 1 + i)).barred))
        ∧ (m.g 1).alignCyc = some 3)
    -- rate changes: no GO, beyond the rungs, running, not bonded, alone while hot, allowed
    ∧ wfRateChangeRequest own 1 0 = true ∧ m0.mayWrite own .lnk 0 (4 + 0x40 * 1) = 0 ∧ fLNK_RATE_GO.get (rateWord 0 4) = 0
    ∧ (let t := fLNK_RATE_TARGET.get (rateWord 1 4)
       let m := farMax 1 (bond 1 m0)
       fLNK_RATE_GO.get (rateWord 1 4) = 1 ∧ m0.fld (aLNK_GSTAT 1) fLNK_GSTAT_FAR_MAX < t ∧ t ≤ m.maxRung 1 ∧ t ≤ m.fld (aLNK_GSTAT 1) fLNK_GSTAT_FAR_MAX
        ∧ (m.g 1).rateTo = none ∧ m.bonded 1 = true ∧ m.hot = false ∧ (farMax 1 m0).bonded 1 = false
        ∧ ((inState .armed m).hot = true ∧ (inState .armed m).bonded 0 = false)
        ∧ ((m.modG 1 (fun x => { x with rateTo := some 4 })).g 1).rateTo ≠ none)
    -- RATE from the far end
    ∧ (bond 1 m0).linkUp 1 = true ∧ ((m0.modG 1 (fun x => { x with rateTo := some 4 })).g 1).rateTo = some 4 ∧ m0.maxRung 1 < 7 ∧ 4 ≤ m0.maxRung 1 := by
  decide +kernel

theorem witness_LanesAreLostAndRejoin :
    m0.laneServes 7 = false
    -- the last lane, and one of four
    ∧ (let m := (bond 1 m0).setFld (aLNK_GSTAT 1) fLNK_GSTAT_ACTIVE 8
       m.laneServes 7 = true ∧ (((m.g 1).rebond.getD (m.gActive 1)) - 2 ^ 3) &&& m.laneMask 1 = 0)
    ∧ ((bond 1 m0).laneServes 7 = true ∧ ((((bond 1 m0).g 1).rebond.getD ((bond 1 m0).gActive 1)) - 2 ^ 3) &&& (bond 1 m0).laneMask 1 ≠ 0)
    -- a rebond on its own, and one that the far end asks for
    ∧ (let m := ((bond 1 m0).setFld (aLNK_GSTAT 1) fLNK_GSTAT_STATE 4).modG 1 (fun x => { x with rebond := some 7 })
       (m.g 1).rebond = some 7 ∧ m.gState 1 = 4 ∧ 7 &&& 8 = 0 ∧ 7 &&& 15 < 16 ∧ (m.g 1).tries < 4)
    ∧ ((bond 1 m0).gState 1 = 2 ∧ ((bond 1 m0).g 1).rebond.getD ((bond 1 m0).received 1) &&& 15 = 15)
    -- lane 7 outside the bonded group, and back
    ∧ (let m := ((bond 0 (bond 1 m0)).setFld (aLNK_GSTAT 1) fLNK_GSTAT_ACTIVE 7).setLState 7 2
       m.gState 1 = 2 ∧ (m.gActive 1).testBit 3 = false ∧ (m.laneMask 1).testBit 3 = true ∧ m.lState 7 = 2
        ∧ (m.setFld (aLNK_GCFG 1) fLNK_GCFG_REJOIN_EN 1).flag (aLNK_GCFG 1) fLNK_GCFG_REJOIN_EN = true ∧ m.bonded 0 = true ∧ (m.g 0).rateTo = none ∧ m.hot = false)
    ∧ (m0.l 7).eqGoal < 16 ∧ m0.training 1 = true := by
  decide +kernel

/-- A queue with a record of 4 bytes, ready for group 0. -/
def loaded (m : Mach) : Mach := (queue 0x80000000 (bond 0 m)).offer 0 .cam false [1, 2, 3, 4] |>.1 |>.setFld (qdesc 0 7) fQ_ALL 1 |>.qMarkAll

theorem witness_EgressSendsInOrder :
    ((m0.modG 0 (fun x => { x with linkq := [pkt 1 0] })).g 0).linkq = pkt 1 0 :: [] ∧ (pkt 1 0).ty ≠ 5 ∧ (bond 0 m0).linkUp 0 = true
    ∧ (m0.g 0).linkq = [] ∧ m0.linkUp 0 = false
    ∧ (let x := ((keeps 1 m0).modG 0 (fun x => { x with replay := 1 })).g 0; x.replay ≠ 0 ∧ x.kept[x.kept.length - x.replay]? ≠ none)
    ∧ (let m := m0.modG 0 (fun x => { x with safeq := [pkt 0x14 0], respq := [pkt 0x12 0] })
       (m.g 0).replay = 0 ∧ (m.g 0).safeq = pkt 0x14 0 :: [] ∧ (m.g 0).respq = pkt 0x12 0 :: [] ∧ m.mayKeep 0 (pkt 0x14 0).size = true)
    ∧ (m0.modG 0 (fun x => { x with kept := List.replicate 256 { pkt := pkt 0x12 0, sent := 1, stamp := Stamp.zero } })).mayKeep 0 16 = false
    ∧ ((bond 0 m0).qWinner 0 = none ∧ ((bond 0 m0).g 0).safeq = [] ∧ ((bond 0 m0).g 0).respq = [])
    ∧ ((loaded m0).qWinner 0 = some 0 ∧ (loaded m0).mayKeep 0 ((loaded m0).dataPacket 0).size = true ∧ (loaded m0).linkUp 0 = true)
    ∧ (let m := queue 0x88000000 (bond 1 m0); wfQueueGroupChange 0 = true ∧ m.qOn 0 = true ∧ 2 ≤ m.fld (qdesc 0 0) fQ_GROUP ∧ m.bonded (m.qGroup 0) = false
        ∧ m.bonded (1 - m.qGroup 0) = true)
    ∧ (wfQueueStarve 0 = true ∧ ((loaded m0).q 0).eligible = some 0) := by
  decide +kernel

theorem witness_RequestsAreAnswered :
    (bond 1 m0).linkUp 1 = true
    ∧ wfRead 1 { hdr with nw := 1024 } [] = true ∧ ((bond 1 m0).accept 1).ctxOn 1 = false ∧ ((bond 1 m0).accept 1).ctxOn 0 = true
    ∧ ({ hdr with addr := 2 } : ReqHdr).addr % 4 ≠ 0 ∧ wfWrite 1 { hdr with addr := aTIME_LAT 0 } [5] = true
    ∧ ([] : List Word).length ≠ hdr.nw ∧ ([5] : List Word).length = hdr.nw ∧ aTIME_LAT 0 % 4 = 0 ∧ aTIME_LAT 0 ≠ aQMG_ROLES
    ∧ wfBadtype 1 7 0x10 = true ∧ wfBadtype 1 0 0x13 = true ∧ wfBadtype 1 7 0x19 = true ∧ ((bond 1 m0).accept 1).dev.st ≠ .shutdown
    ∧ wfCredit 1 0 (.one 32767 0xFFFFFFFF true) = true ∧ (bond 1 m0).owner = 0
    ∧ (((bond 1 m0).setFld (aQMG_CTX 1) fQMG_CTX_EN 1).accept 1).ctxOn 1 = true ∧ 4096 / 4096 = 1 ∧ 4095 / 4096 ≠ 1
    ∧ wfTsync 1 0 7 false true 15 = true := by
  decide +kernel

theorem witness_ResetsReturnToReset :
    (inState .off m0).dev.st = .off ∧ m0.dev.st ≠ .off ∧ m0.dev.st ≠ .shutdown ∧ (inState .shutdown m0).dev.st = .shutdown
    ∧ wfSupplyMonitorTrip 0x100 = true ∧ 0x100 &&& (0x1FF ^^^ (m0.dev.low &&& 0x1FF)) &&& 0x10B ≠ 0
    ∧ (let m := { mDram with dev := { mDram.dev with resetDue := some (8000, true, true) } }
       m.dev.resetDue = some (8000, true, true) ∧ m.flag aMEM_STAT fMEM_STAT_READY = true) := by decide +kernel

/-- RESET, with the root PLL locked or not. -/
def resetting (l : Bool) : Mach := { m0 with dev := { m0.dev with st := .reset, pllLocked := l } }

theorem witness_StartupReachesBootAndTraining :
    ((resetting false).dev.st = .reset ∧ (resetting false).dev.porstLow = false ∧ (resetting false).tap.extest = false
      ∧ (resetting false).dev.pllLocked = false ∧ (resetting true).dev.pllLocked = true ∧ (resetting true).dev.low &&& 0x10B = 0)
    ∧ (m0.dev.st = .boot ∧ m0.dev.bist = none ∧ ({ m0.dev with dramKept := true } : Dev).dramKept = true)
    ∧ (let v := fPWR_RESET_REQ_GO.set (fPWR_RESET_REQ_KEY.set 0 0x5A17) 1
       wfHostReset 7 v = true ∧ m0.ctxOn 7 = false ∧ (m0.setFld (aQMG_CTX 7) fQMG_CTX_EN 1).ctxOn 7 = true ∧ 7 ≠ m0.owner ∧ 0 = m0.owner ∧ m0.ctxOn 0 = true
        ∧ m0.dev.st ≠ .shutdown ∧ fPWR_RESET_REQ_KEY.get v = 0x5A17 ∧ fPWR_RESET_REQ_GO.get v = 1 ∧ fPWR_RESET_REQ_KEY.get 0 ≠ 0x5A17)
    ∧ (m0.dev.st ≠ .off ∧ m0.dev.st ≠ .reset)
    ∧ ({ m0.hk with refDue := some 9 } : Hk).refDue = some 9
    ∧ (let d := { m0.dev with low := 0x100 }; d.low < 0x200 ∧ d.low.testBit 8 = true) := by decide +kernel

theorem witness_StateRequestsFollowTheTransitions :
    m0.ctxOn 0 = true ∧ (m0.setFld (aQMG_CTX 7) fQMG_CTX_EN 1).ctxOn 7 = true ∧ 7 ≠ m0.owner ∧ 7 ≠ m0.safetyCtx ∧ 0 = m0.owner
    ∧ transitionOk m0.dev.st .loaded m0.dev.loadedOnce = false ∧ (inState .linked m0).dev.st = .linked
    ∧ transitionOk .oasis .linked false = true ∧ ([.bist] : List OasisCause).all m0.cleared = false ∧ ([.host] : List OasisCause).all m0.cleared = true
    ∧ (inState .loaded m0).armable = false ∧ (m0.setFld aCLK_STAT fCLK_STAT_GOSC_OK 0).flag aCLK_STAT fCLK_STAT_GOSC_OK = false
    ∧ (let m := (((m0.setFld aGRD_STAT fGRD_STAT_ACTIVE 1).setFld aSAF_STAT fSAF_STAT_ACTIVE 1).setFld aTDC_DLLSTAT fTDC_DLLSTAT_ALL_LOCK 1).setFld
        aHK_CTRL fHK_CTRL_HKREF_OK 1
       m.armable = true ∧ m.flag aCLK_STAT fCLK_STAT_GOSC_OK = true)
    ∧ m0.dev.st ≠ .off ∧ m0.dev.st ≠ .oasis ∧ m0.flag aSAF_STAT fSAF_STAT_ACTIVE = false ∧ (runs 272 1 2 m0).flag aSAF_STAT fSAF_STAT_ACTIVE = false
    ∧ ((runs 272 1 2 m0).e 272).active = true ∧ ((runs 272 1 2 m0).e 0).active = false ∧ ({ m0.dev with loadedOnce := true } : Dev).loadedOnce = true
    ∧ (inState .armed m0).hot = true ∧ (inState .running m0).hot = true
    ∧ (∀ e, e < 282 → (inState .linked m0).loadOk e = true)
    ∧ (281 < 282 ∧ ((inState .linked m0).setFld (engPage 281) ⟨0, 0⟩ 1).loadOk 281 = false) := by decide +kernel

/-- A commit of a group of a page is pending. -/
def pend (page g : Nat) (m : Mach) : Mach := { m with commits := [{ page := page, grp := g, trig := none, req := 0 }] }

theorem witness_CommitsMoveShadowToActive :
    (let a := aPRT_THR01 95
     wfRegisterWrite own a 5 = true ∧ blkOf a = some .prt ∧ (Blk.locate .prt a).1 < Blk.count .prt ∧ (Blk.locate .prt a).2 < 0x7EC
      ∧ Blk.page .prt (Blk.locate .prt a).1 + (Blk.locate .prt a).2 = a ∧ (regAt a).map (fun x => x.1.groupOf x.2) = some (some 0)
      ∧ m0.mayWrite own .prt 95 (Blk.locate .prt a).2 = 0 ∧ (pend (Blk.page .prt 95) 0 m0).isPending (Blk.page .prt 95) 0 = true
      ∧ m0.isPending (Blk.page .prt 95) 0 = false)
    ∧ (let a := aPRT_STAT 95; (regAt a).map (fun x => x.1.groupOf x.2) = some none ∧ (Blk.locate .prt a).2 < 0x7EC)
    ∧ (blkOf 0x0800000 = none ∧ wfRegisterWrite own 0x0800000 5 = true)
    ∧ (let p : Page := ⟨12, 95⟩; p.wf = true ∧ Page.block p = .prt ∧ m0.mayCommit own .prt 95 = 0 ∧ m0.mayCommit (.link 1 0) .prt 95 ≠ 0
        ∧ m0.mayWrite own .prt 95 0x7EC = 0 ∧ groupCount .prt 95 = 4 ∧ (15 : Word).getLsbD 3 = true ∧ (0 : Word).getLsbD 3 = false)
    ∧ (let p : Page := ⟨15, 0⟩; p.wf = true ∧ Page.block p = .erg ∧ (∀ g, g < groupCount .erg 0 → m0.ready (Blk.page .erg 0) g = false)
        ∧ (7 < groupCount .erg 0 ∧ (pend (Blk.page .erg 0) 7 m0).ready (Blk.page .erg 0) 7 = true)) := by
  decide +kernel

def dreq (left : Nat) : DReq := { cls := 4, who := 7, ch := 0, cyc := 0, left := left }
def wants (x : DReq) (m : Mach) : Mach := { m with dram := { m.dram with reqs := [x] } }

theorem witness_DramServesAndFails :
    (own.wf = true ∧ m0.mayWrite own .mem 0 4 = 0 ∧ mDram.flag aMEM_STAT fMEM_STAT_READY = true ∧ m0.flag aMEM_STAT fMEM_STAT_READY = false)
    ∧ m0.dram.initDue = none ∧ ({ m0.dram with initDue := some 4000000 } : Dram).initDue = some 4000000
    ∧ (let m := mDram.setFld aMEM_CFG fMEM_CFG_CHEN 8
       3 ∈ m.dramCh ∧ (m.setFld aMEM_STAT fMEM_STAT_FAILED 8).chanFailed 3 = true ∧ m.chanFailed 3 = false ∧ m.queuesOn = []
        ∧ m.flag aREJ_SUNCFG fREJ_SUNCFG_MAP_EN = false ∧ (m.setFld aFLT_OASISMASK fFLT_OASISMASK_MASK 0).fld aFLT_OASISMASK fFLT_OASISMASK_MASK = 0
        ∧ (m.setFld aMEM_CFG fMEM_CFG_ECC 1).flag aMEM_CFG fMEM_CFG_ECC = true ∧ (m.setFld aMEM_REF fMEM_REF_SCRUB 1).fld aMEM_REF fMEM_REF_SCRUB ≠ 0
        ∧ 0 < m.dramC / 8 * 7 / 8)
    ∧ m0.dramPick 0 = none ∧ (wants (dreq 256) m0).dramPick 0 = some (dreq 256) ∧ (wants (dreq 257) m0).dramPick 0 = some (dreq 257)
    ∧ (wants (dreq 257) m0).dram.reqs.find? (fun r => r.cls == 4) = some (dreq 257) := by
  decide +kernel

/-- Sequencer 0 is engine 256. -/
def sq0 (g2 g3 : Word) (m : Mach) : Mach := runs 256 g2 g3 m
/-- Sequencer 0 holds ports 0 and 95, and its port set 0 names port 95. -/
def ports (m : Mach) : Mach := ((m.setReg (aEMT_PORTOWN 0) 0x10).setReg (aEMT_PORTOWN 15) 0x20000000).setReg (aSEQ_PSET 0 0 2) 0x80000000
def shadowing (m : Mach) : Mach := m.setFld (aSEQ_STBY 0) fSEQ_STBY_EN 1
def armed (m : Mach) : Mach := m.modE 256 (fun x => { x with seq := { x.seq with armset := [0, 95] } })

theorem witness_SequencersSelectCodesPortsAndWindows :
    (sq0 16383 64 m0).canIssue 256 ∧ engClass 256 = .sq ∧ (fx 0).xi = 0
    ∧ (16383 < (16384 : Word).toNat ∧ (7 : Word).toNat < 8 ∧ 64 < (65 : Word).toNat)
    ∧ ((16383 : Word).toNat ≤ 16383 ∧ 8 ≤ (64 : Word).toNat ∧ (64 : Word).toNat ≤ 64 ∧ m0.codeAllowed 16383 = true)
    ∧ (m0.setFld aREJ_PLAN fREJ_PLAN_LOCK 1).codeAllowed 16383 = false
    ∧ (let i := { fx 1 with rs := 0 }; i.xi = 1 ∧ i.rs = 0 ∧ i.rt = 0)
    -- zoom: in shadow, a port outside the set, port 95, too far
    ∧ (15 < 16 ∧ (fx 8).xi.getLsbD 3 = true ∧ (fx 0).xi.getLsbD 3 = false ∧ (shadowing m0).inShadow 0 = true ∧ m0.inShadow 0 = false
        ∧ (sq0 0 95 m0).zoomPorts 256 { fx 0 with rt := 3 } = none ∧ (armed (sq0 0 95 m0)).zoomPorts 256 { fx 0 with rt := 3 } = some [95]
        ∧ (armed (sq0 0 95 m0)).zoomPorts 256 (fx 4) = some [0, 95] ∧ 2 ^ 18 ≤ (262144 : Word).toNat ∧ (262143 : Word).toNat < 2 ^ 18)
    -- arm and its close
    ∧ (m0.flag (aSEQ_STBY 0) fSEQ_STBY_LIVE = false ∧ (fx 63).xi.getLsbD 9 = false ∧ (fx 512).xi.getLsbD 9 = true ∧ (fx 512).xi &&& 0x1FF = 0
        ∧ 15 < (16 : Word).toNat ∧ ((sq0 0 0 m0).e 256).seq.coding = false ∧ (ports m0).pset 0 0 = [95] ∧ (ports m0).ownerOf 95 = some 0) := by
  unfold Mach.canIssue; decide +kernel

theorem witness_ShotsAreRequestedAndDecided :
    (sq0 0 0 m0).canIssue 256 ∧ engClass 256 = .sq ∧ (fx 3).xi.toNat < 4
    ∧ 2 ≤ ({ m0 with emt := { m0.emt with shots := [{ Shot.blank with stage := .granted }, { Shot.blank with id := 1, stage := .granted }] } } : Mach).edgesLeft 0
    ∧ m0.edgesLeft 0 < 2 ∧ m0.ready (engPage 256) 0 = false ∧ (shadowing m0).inShadow 0 = true ∧ m0.inShadow 0 = false
    ∧ (m0.emt.walks.any (fun w => w.str == 0) = false ∧ bitsOf 16 (m0.populated 0 &&& (0xFFFF - m0.hold 0)) ≠ [])
    ∧ ([{ str := 0, sq := 0, todo := [1], all := 2, newly := 0, seen := 0, final := false, due := 0, done := none }] : List Walk).any (fun w => w.str == 0) = true
    ∧ m0.nextAsk = none ∧ (fires { Shot.blank with issue := 7 } m0).nextAsk = some 7
    -- a decision on a fire of sequencer 15: refused before, and one the guard denies
    ∧ (let x := { Shot.blank with sq := 15, stage := .reserved }
       let m := waiting 271 .fire (fires x m0)
       wfGuardDecision 15 false = true ∧ m.emt.shots.find? (fun x => x.sq == 15 && x.stage == .reserved) = some x ∧ x.walk = 0 ∧ (m.sq 15).stopping = none
        ∧ (m.sq 15).wait = .fire ∧ x.pre = 0 ∧ ((m.advanceTo (x.issue + 160)).guardDecide x false).1 ≠ 0 ∧ ({ x with pre := 4 } : Shot).pre ≠ 0)
    -- the standby of sequencer 0 is sequencer 1
    ∧ m0.standbyOf 0 = none ∧ (runs 257 0 0 (m0.setFld (aSEQ_STBY 1) fSEQ_STBY_EN 1)).standbyOf 0 = some 1 ∧ (m0.sq 0).active = false := by
  unfold Mach.canIssue; decide +kernel

/-- A configured guard that lets string 0's emitter 0 fire into sector 0: no module, energy 1 per unit, budgets of 2. -/
def guarded (m : Mach) : Mach :=
  (((((((inState .armed m).setFld aGRD_STAT fGRD_STAT_ACTIVE 1).setMword (grdImg + 0x100) 0xFFFF).setMword (grdImg + 0x1100) 100).setMword (grdImg + 0x1200) 100).setMword
    (grdImg + 0x1204) 100).setMword (grdImg + 0x1208) 100)
/-- A shot of emitter 0 of string 0 with charge 10 and width 1. -/
def oneShot : Shot := { Shot.blank with stage := .granted, emit := 1, charge := 10, width := 1, edge := 64, slot := 1 }
def strays (x : Shot) (m : Mach) : Mach := fires { x with stage := .left } m

theorem witness_EdgesLeaveAndStartsAreJudged :
    leastShot (fun x => x.slot) (m0.emt.shots.filter (fun x => x.stage == .granted)) = none
    ∧ leastShot (fun x => x.slot) ((fires oneShot m0).emt.shots.filter (fun x => x.stage == .granted && !x.framed)) = some oneShot
    ∧ (let x := { oneShot with framed := true }
       leastShot (fun x => x.edge) ((fires x m0).emt.shots.filter (fun x => x.stage == .granted)) = some x ∧ x.framed = true ∧ (m0.sq x.sq).stopping = none
        ∧ (m0.sq x.sq).seq.stall = none ∧ x.walk = 0 ∧ x.proof = false ∧ m0.gateOpen = false ∧ (m0.setFld aGRD_STAT fGRD_STAT_GATE 1).gateOpen = true)
    ∧ (let m := strays oneShot m0
       let dly (t : Nat) : Int := ((t + 32) / 64 : Nat) - ((64 : Nat) : Int)
       let off (t : Nat) := (dly t - (m.fld (aEMT_STR_CFG0 0) fEMT_STR_CFG0_OST_DLY : Int)).natAbs
       let win := m.fld (aEMT_STR_CFG0 0) fEMT_STR_CFG0_OST_WIN
       m0.awaited 0 = none ∧ m.awaited 0 = some { oneShot with stage := .left } ∧ wfOpticalStart 0 100000 = true ∧ win + 256 < off 10000000
        ∧ (m.setFld aTDC_STSTAT fTDC_STSTAT_FAIL 0).startOk 0 = m0.startOk 0
        ∧ off (64 * (64 + m.fld (aEMT_STR_CFG0 0) fEMT_STR_CFG0_OST_DLY)) ≤ win + 256
        ∧ ({ m with tdc := { m.tdc with startLock := 1 } } : Mach).startOk 0 = true
        ∧ (∀ j ∈ m.diagKeys { oneShot with stage := .left }, mapGet 0 m.emt.nostart j = 0))
    ∧ (let w : Walk := { str := 15, sq := 0, todo := [1], all := 2, newly := 0, seen := 0, final := false, due := 5, done := none }
       m0.emt.walks.find? (fun w => w.str == 15) = none ∧ ([w] : List Walk).find? (fun w => w.str == 15) = some w ∧ w.final = false ∧ w.todo = 1 :: [])
    ∧ (([(15, 9)] : List (Nat × Nat)).find? (fun x => x.1 == 15) = some (15, 9)
        ∧ (m0.setFld aFLT_OASISMASK fFLT_OASISMASK_MASK 0).fld aFLT_OASISMASK fFLT_OASISMASK_MASK = 0) := by
  decide +kernel

/-- Axis 3 runs: enabled, its primary (engine 278) active and holding drive, published. -/
def axis (m : Mach) : Mach := (runs 278 5 7 (m.setFld (aAXS_CFG 3) fAXS_CFG_EN 1)).modAx 3 (fun x => { x with published := true, start := some 0 })

theorem witness_AxisProfileComputes :
    (axis m0).canIssue 278 ∧ engClass 278 = .ae ∧ (let i := { fx 127 with rd := 0 }; i.rd = 0 ∧ i.rt = 0 ∧ i.xi.toNat < 128) ∧ (fx 31).xi.toNat < 32
    -- xfade by the drive holder: to the current bank, to another, while a fade runs; by the other engine
    ∧ ((axis m0).axHolds 278 = true ∧ (axis m0).axHolds 279 = false ∧ (axis m0).flag (aAXS_ASTAT 3) fAXS_ASTAT_FADING = false
        ∧ (axis m0).fld (aAXS_ASTAT 3) fAXS_ASTAT_TO = 0 ∧ (axis m0).fld (aAXS_ASTAT 3) fAXS_ASTAT_TO ≠ 3
        ∧ ((axis m0).setFld (aAXS_ASTAT 3) fAXS_ASTAT_FADING 1).flag (aAXS_ASTAT 3) fAXS_ASTAT_FADING = true)
    -- pub and dacw on a running axis and on one that is off
    ∧ ((!(axis m0).axOn 3 || (axis m0).axTrip 3 || (axis m0).axFailed 3) = false ∧ (!m0.axOn 3 || m0.axTrip 3 || m0.axFailed 3) = true
        ∧ ((axis m0).ax 3).start = some 0)
    -- adcr
    ∧ (let i := { fx 28 with rs := 0 }; i.rs = 0 ∧ i.rt = 0 ∧ i.xi.toNat < 32 ∧ i.xi.toNat % 4 = 0)
    ∧ (((axis m0).ax 3).start ≠ none ∧ ((axis m0).ax 3).avgReady = false
        ∧ (((axis m0).modAx 3 (fun x => { x with avgReady := true, samples := [(5, false)] })).ax 3).avgReady = true
        ∧ (((axis m0).modAx 3 (fun x => { x with samples := [(5, false)] })).ax 3).samples = (5, false) :: []) := by
  unfold Mach.canIssue; decide +kernel

theorem witness_AxisPositionsAndAngleWaits :
    ((-32768 : Int) ≤ -32768 ∧ (32767 : Int) < 32768)
    ∧ ((m0.ax 3).start = none ∧ ((axis m0).ax 3).start ≠ none ∧ (28 : Nat) % 4 = 0 ∧ ((waiting 279 (.adcr 28) (axis m0)).e (axEngine 3 1)).wait = .adcr 28)
    -- levels 0: unchanged, illegal, a step
    ∧ ((m0.ax 3).encAb = bit false + 2 * bit false ∧ (m0.ax 3).encAb < 4 ∧ (m0.ax 3).encAb ^^^ (bit true + 2 * bit true) = 3
        ∧ (m0.ax 3).encAb ≠ bit true + 2 * bit false ∧ (m0.ax 3).encAb ^^^ (bit true + 2 * bit false) ≠ 3)
    -- coefficients: not permitted, the bank in use, another
    ∧ (wfCoefficientWrite own 3 3 31 true 0 = true ∧ m0.mayWrite (.link 1 0) .axs 6 0x1000 ≠ 0 ∧ m0.mayWrite own .axs 6 0x1300 = 0
        ∧ m0.bankUsed 3 0 = true ∧ m0.bankUsed 3 3 = false)
    ∧ (m0.mayRead (.link 1 0) .axs 0x230 ≠ 0 ∧ m0.mayRead own .axs 0x230 = 0 ∧ m0.mayWrite own .axs 6 0x220 = 0 ∧ m0.axTrip 3 = false
        ∧ (m0.setFld (aAXS_ASTAT 3) fAXS_ASTAT_FE_TRIP 1).axTrip 3 = true)
    -- wangle
    ∧ ((sq0 0 0 m0).canIssue 256 ∧ (fx 255).xi.toNat < 256 ∧ (fx 255).xi.toNat % 4 = 3 ∧ m0.axRun 3 = false ∧ (axis m0).axRun 3 = true)
    ∧ (let x (limit : Nat) := (((waiting 256 (.wangle 3 0 false false 0 false false (-5)) m0).modE 256 (fun y => { y with limit := limit })).e 256)
       (x 0).wait = .wangle 3 0 false false 0 false false (-5) ∧ ((x 8).limit ≠ 0 ∧ (x 8).issue + (x 8).limit ≤ 8)
        -- crossed now, or not: at the target, and short of it
        ∧ (((false || (decide ((-5 : Int) < 0) && decide ((0 : Int) ≤ 0))) && (!false || false)) = true)
        ∧ (((false || (decide ((-5 : Int) < 0) && decide ((0 : Int) ≤ -1))) && (!false || false)) = false)
        ∧ m0.offTarget 3 8 0 = 0 ∧ m0.offTarget 3 8 1 = -1
        -- a publication 800 cycles older than allowed, and one of now
        ∧ ((800 * max 1 (m0.fld (aSEQ_FIRECFG 0) fSEQ_FIRECFG_STALE) : Nat) : Int) < signed 32 (10000000 + 2 ^ 32 - (m0.ax 3).pubT % 2 ^ 32)
        ∧ ¬ (((800 * max 1 (m0.fld (aSEQ_FIRECFG 0) fSEQ_FIRECFG_STALE) : Nat) : Int) < signed 32 (8 + 2 ^ 32 - (m0.ax 3).pubT % 2 ^ 32))) := by
  unfold Mach.canIssue; decide +kernel

theorem witness_GuardGrantsWithinBudget :
    ((guarded m0).guardDecide oneShot false).1 = 0 ∧ mapGet none ((guarded m0).shotEnergy oneShot) 0 = some 9
    ∧ mapGet none ((guarded m0).shotEnergy oneShot) 1 = none
    ∧ ((guarded m0).guardDecide oneShot true).1 = 11 ∧ (m0.guardDecide oneShot false).1 = 1
    ∧ ((guarded m0).guardDecide { oneShot with charge := 200 } false).1 = 7 := by decide +kernel

theorem witness_GuardImagesAreVerified :
    (wfGuardStagingWrite own 0x311FC 5 = true ∧ m0.mayWrite (.link 1 0) .grd 0 (0x40000 + 0x311FC) ≠ 0 ∧ m0.mayWrite own .grd 0 (0x40000 + 0x311FC) = 0
        ∧ (pend grdPage 0 m0).isPending grdPage 0 = true ∧ m0.isPending grdPage 0 = false)
    ∧ (wfRequestRecordWrite 7 1 124 5 = true ∧ m0.ctxOn 7 = false ∧ (m0.setFld (aQMG_CTX 7) fQMG_CTX_EN 1).ctxOn 7 = true ∧ 7 ≠ m0.safetyCtx
        ∧ m0.ctxOn 0 = true ∧ 0 = m0.safetyCtx ∧ m0.dev.st ≠ .shutdown ∧ (inState .shutdown m0).dev.st = .shutdown)
    ∧ m0.grd.verifyDue = none ∧ ({ m0.grd with verifyDue := some 4000000 } : Grd).verifyDue = some 4000000
    ∧ (m0.grd.firstAct = true ∧ (m0.mnat (grdStage + 0x10) 4).testBit 1 = false) := by decide +kernel

theorem witness_GuardImageChecks : ([true, true, true, true, true, true] : List Bool).all id = true ∧ ([true, false] : List Bool).all id = false := by decide

/-- The guard is configured for a head 1 that turns: encoder of axis 0, or the position of axis 0. -/
def turning (src : Nat) (m : Mach) : Mach :=
  (((m.setFld aGRD_STAT fGRD_STAT_ACTIVE 1).setMword (grdImg + 0x7C) 5).setMword (grdImg + 0x60) (word (2 ^ 30 * src + 2 ^ 8))).setMword (grdImg + 0x6C) 0x100100
def oasisOff (m : Mach) : Mach := m.setFld aFLT_OASISMASK fFLT_OASISMASK_MASK 0

theorem witness_GuardStallsAndFaults :
    m0.grdOn = false ∧ (turning 1 m0).motionOk 1 = false
    ∧ (let m := (turning 1 (oasisOff m0)).modHead 1 (fun x => { x with known := true, resume := 1, lastEdge := some 3 })
       m.grdOn = true ∧ m.motionOk 1 = true ∧ m.fld aFLT_OASISMASK fFLT_OASISMASK_MASK = 0 ∧ m.azSrc 1 = 1 ∧ 0 < m.resumeN 1 ∧ (m.head 1).lastEdge = some 3)
    ∧ (let m := (turning 2 (oasisOff m0)).modHead 1 (fun x => { x with moving := true })
       m.grdOn = true ∧ m.motionOk 1 = true ∧ m.azSrc 1 ≠ 1 ∧ m.posAxes 1 ≠ [])
    ∧ ((turning 2 { m0 with grd := { m0.grd with pos := [(0, [0, 0])] } }).spansOk 1 = false ∧ m0.spansOk 1 = true ∧ m0.azSrc 1 ≠ 1)
    ∧ (m0.grd.temp.find? (fun t => t.1 == 3) = none ∧ ([(3, ((5 : Int), 7))] : List (Nat × (Int × Nat))).find? (fun t => t.1 == 3) = some (3, 5, 7))
    ∧ (∀ h, h < 2 → ((turning 1 m0).setMword (grdImg + 0x40) 0x40000000).motionOk h = false)
    ∧ ((inState .reset m0).dev.st = .reset ∧ m0.dev.st ≠ .off ∧ m0.dev.st ≠ .reset ∧ m0.dev.st ≠ .shutdown) := by decide +kernel

/-- A shot of a cell whose interval is not open yet. -/
def pshot : PShot :=
  { id := 5, bank := 3, status := none, str := 0, edge := 6400, d := 0, covloss := false, gain := 0, base := [], ofs := 0, disk := false, mapAt := none,
    settle := 0, iv := none }
/-- An interval open since 4352. -/
def interval : Interval :=
  { opened := 4352, start := none, startAt := 0, stamp := Stamp.zero, thrChg := false, dllErr := false, uncal := false, chFail := 0, wfSkip := false,
    settled := false, edges := [], samples := [], own := [], tile := [], closed := none }
def listens (v : Interval) : PShot := { pshot with iv := some v }
/-- Port 95 with its shots. -/
def port95 (l : List PShot) (m : Mach) : Mach := m.modP 95 (fun y => { y with shots := l })
def early : Edge := { c := 3, lead := 0, trail := none }

theorem witness_PortsCollectEvidence :
    -- an interval opens, with and without one still open; it closes
    (m0.p 95).shots.find? (fun x => x.status.isNone && x.iv.isNone) = none
    ∧ ((port95 [listens interval, pshot] m0).p 95).shots.find? (fun x => x.status.isNone && x.iv.isNone) = some pshot
    ∧ ((port95 [listens interval, pshot] m0).p 95).listening = some (listens interval) ∧ (m0.p 95).listening = none
    ∧ ((listens interval).status ≠ some 3 ∧ interval.start = none ∧ ({ interval with start := some 0 } : Interval).start ≠ none
        ∧ ({ listens interval with status := some 3 } : PShot).status = some 3)
    -- comparator 3: off, dead, unheard, blanked, heard, with a full interval
    ∧ (let m := (port95 [listens interval] m0).setFld (aPRT_FE 95) fPRT_FE_COMP_EN 15
       let dead (m : Mach) (t : Nat) := match (m.p 95).lead.find? (fun l => l.1 == 3) with | some (_, l) => decide ((t : Int) - l < 4096) | none => false
       (m0.setFld (aPRT_FE 95) fPRT_FE_COMP_EN 0).compOn 95 3 = false ∧ m.compOn 95 3 = true ∧ dead m 9999 = false
        ∧ dead (m.modP 95 (fun y => { y with lead := [(3, 0)] })) 4095 = true ∧ dead (m.modP 95 (fun y => { y with lead := [(3, 0)] })) 4096 = false
        ∧ ¬ ((m.p 95).listening = none ∨ m.tdc.bad.contains (m.physComp 95 3) = true) ∧ m.blanked 95 9999 = false
        ∧ (({ m with tdc := { m.tdc with pins := [(0, [(0, true)])] } } : Mach).setFld (aPRT_BLKSEL 95) fPRT_BLKSEL_PINMASK 1).blanked 95 16384 = true
        ∧ 8 ≤ ((List.replicate 8 early).filter (fun e => e.c == 3)).length)
    -- overloads; an input current of 50 nA
    ∧ ((m0.p 95).ovl = none ∧ ((m0.modP 95 (fun y => { y with ovl := some 3 })).p 95).ovl ≠ none ∧ 94 / 4 = 95 / 4 ∧ 94 ≠ 95)
    ∧ ((50000 : Nat) < 2 ^ 32 ∧ (oasisOff m0).fld aFLT_OASISMASK fFLT_OASISMASK_MASK = 0) := by decide +kernel

def lockReq (m : Mach) : Mach := { m with tdc := { m.tdc with req := true } }
/-- Tile 23 in its rotation. -/
def rotating (phase slot shots : Nat) (m : Mach) : Mach :=
  (m.setFld aTDC_ROT fTDC_ROT_ROT_EN 1).modTile 23 (fun x => { x with phase := phase, slot := slot, shots := shots })

theorem witness_TimingChannelsStayInService :
    (own.wf = true ∧ m0.mayWrite own .tdc 0 0 = 0 ∧ m0.mayWrite (.link 1 0) .tdc 0 0 ≠ 0)
    ∧ (m0.dllSel 24 < 2 ∧ m0.dllSel 23 < 2 ∧ m0.tdc.req = false ∧ (lockReq m0).tdc.req = true ∧ m0.dllLocked 23 1 = false
        ∧ (m0.setDllLock 23 1 true).dllLocked 23 1 = true ∧ m0.tileOpen 23 = false)
    ∧ (wfChannelCalibrationDone 407 true 0 0 = true ∧ wfChannelCalibrationDone 423 false 0 0 = true ∧ wfChannelCalibrationDone 711 true 0 0 = true
        ∧ m0.time.now.ns < 10 ^ 9)
    ∧ (m0.physServes (406 / 17) (406 % 17) = true ∧ m0.physServes (407 / 17) (407 % 17) = false ∧ (!(m0.fld aTDC_STSTAT fTDC_STSTAT_FAIL).testBit 15) = true
        ∧ 0 ≤ m0.fld aTDC_ROT fTDC_ROT_TEST_TOL ∧ 423 ∉ m0.tdc.bad ∧ 423 ∈ ({ m0.tdc with bad := [423] } : Tdc).bad)
    ∧ (let m := m0.modTile 23 (fun x => { x with takeover := [15] })
       m.spareFree 23 = true ∧ (m.tile 23).takeover = [15] ∧ (m.tile 23).swapDue = false ∧ ∀ j, j < 4 → (m.p (4 * 23 + j)).sliceDue = [])
    -- a handover that is due, in either overlap, at the last slot and at another
    ∧ (let due (m : Mach) := m.rotates 23 = true ∧ (m.tile 23).swapDue = false ∧ (m.tile 23).takeover = [] ∧ m.hoShots ≤ (m.tile 23).shots
       due (rotating 1 0 64 m0) ∧ due (rotating 3 15 64 m0) ∧ ((rotating 3 15 64 m0).tile 23).slot = 15 ∧ ((rotating 1 0 64 m0).tile 23).phase = 1
        ∧ ((rotating 1 0 64 m0).tile 23).mis = 0 ∧ (m0.setFld aTDC_ROT fTDC_ROT_ROT_EN 0).rotates 23 = false) := by decide +kernel

/-- An open cell of bank 191 with one shot counted. -/
def cell : Cell :=
  { bank := 191, seq := 0, hctx := 0, n := 1, coded := false, code := 0, k := 0, log2nb := 0, narrowExcl := false, preEn := false, w := [], gate := 0,
    astart := 0, alen := 0, counted := 1, done := 0, closed := false, acc := 0, wf := 0, subs := [], flags := 0, t0 := none, cnt := [], peak := none,
    wins := [], last := 0 }
def celled (c : Cell) (m : Mach) : Mach := m.modP 95 (fun y => { y with cells := [c], shots := [{ pshot with bank := 191, status := some 1, settle := 7 }] })

theorem witness_CellsSettleAndSwap :
    -- a shot settles denied, or with its interval closed
    ((m0.p 95).shots = [] ∧ pshot.ready = none ∧ ({ pshot with bank := 191, status := some 1, settle := 7 } : PShot).ready = some (1, 7)
      ∧ (listens { interval with start := some 0, settled := true, closed := some 9 }).ready = some (0, 9)
      ∧ ((celled cell m0).p 95).cells.find? (fun c => c.bank == 191) = some cell)
    -- a cell swaps when it is closed and settled
    ∧ ((m0.p 95).cells = [] ∧ cell.closed = false ∧ cell.done ≠ cell.counted ∧ cell.bank < 192 ∧ m0.pertActs = false
        ∧ (let c := { cell with closed := true, done := 1 }; c.closed = true ∧ c.done = c.counted))
    -- banks: the same assignment, a bank in use, a port that does not exist, a new assignment
    ∧ (m0.mayWrite (.link 1 0) .erg 0 (0x400 + 4 * 191) ≠ 0 ∧ m0.mayWrite own .erg 0 (0x400 + 4 * 191) = 0
        ∧ (let v := fERG_BANK_EN.set (fERG_BANK_PORT.set 0 95) 1
           ¬ (fERG_BANK_EN.get v = m0.fld (aERG_BANK 191) fERG_BANK_EN ∧ fERG_BANK_PORT.get v = m0.bankPort 191) ∧ m0.bankSt 191 ≤ 1 ∧ fERG_BANK_PORT.get v ≤ 95)
        ∧ (m0.bankSt 191 ≠ 5 ∧ 1 < (m0.setBankSt 191 2).bankSt 191 ∧ (m0.setBankSt 191 5).bankSt 191 = 5) ∧ 95 < fERG_BANK_PORT.get (fERG_BANK_PORT.set 0 96)
        ∧ (fERG_BANK_EN.get 0 = m0.fld (aERG_BANK 191) fERG_BANK_EN))
    -- FLUSH, the erg window, ECC errors
    ∧ ((inState .loaded m0).dev.st = .loaded ∧ (m0.setBankSt 191 3).bankSt 191 = 3 ∧ m0.bankSt 190 ≠ 3)
    ∧ (wfErgWindowWrite own 191 0xFFFC 5 = true ∧ bankResv 0x4000 = false ∧ bankResv 0x12FC = false ∧ bankResv 0x1300 = true)
    ∧ ((m0.setBankSt 191 1).bankSt 191 = 1 ∧ (m0.setBankSt 191 4).bankSt 191 = 4 ∧ ¬ (m0.byte (bankBase 191 + 0xF)).getLsbD 0 = true ∧ m0.bankSt 191 ≠ 1) := by
  decide +kernel

def handle (b : Nat) : Handle := { bank := b, gen := 1, red := 0, at_ := 0 }
/-- Pool `k` with one handle and one waiter. -/
def pooled (k : Nat) (m : Mach) : Mach := m.modPool k (fun x => { x with queue := [handle 191], waiters := [255] })

theorem witness_HandlesPassThroughPools :
    (runs 255 0 0 m0).canIssue 255 ∧ engClass 255 = .re ∧ ({ fx 0 with rt := 0 } : FX).rt = 0
    -- take: with a handle or an open record held, with a handle to take, with none
    ∧ ((runs 255 0 0 m0).e 255).held = none ∧ ((runs 255 0 0 m0).e 255).openq = none ∧ ((holds m0).e 0).held ≠ none
    ∧ (let m := m0.modPool (m0.poolOf 255) (fun x => { x with queue := [handle 191] })
       m.firstHandle (m.poolOf 255) = some (handle 191) ∧ (handle 191).bank < 192 ∧ (m.pl (m.poolOf 255)).waiters = [])
    ∧ (m0.firstHandle 0 = none ∧ ((runs 255 0 0 m0).e 255).gr 2 = 0 ∧ ((runs 255 1 0 m0).e 255).gr 2 ≠ 0)
    -- take LOOK: no such port, a port of another pool, a port without and with an active bank
    ∧ (95 < 96 ∧ (m0.setFld (aRNG_PORTPOOL 0) ⟨2, 0⟩ 5).portPool 0 ≠ m0.poolOf 255 ∧ m0.portPool 95 = m0.poolOf 255
        ∧ (m0.setFld (aERG_PSTAT 95) fERG_PSTAT_ACTIVE 0xFF).fld (aERG_PSTAT 95) fERG_PSTAT_ACTIVE = 0xFF
        ∧ (m0.setFld (aERG_PSTAT 95) fERG_PSTAT_ACTIVE 191).fld (aERG_PSTAT 95) fERG_PSTAT_ACTIVE ≠ 0xFF)
    -- rel: 9 returns, misaligned, outside, not its handle, 8 returns at the end of data memory
    ∧ (8 < (9 * 2 ^ 18) / 2 ^ 18 % 16 ∧ (8 * 2 ^ 18 + 8) % 2 ^ 18 % 16 ≠ 0 ∧ dataBytes 255 < 0x7F90 + 16 * 8 ∧ 0x7F80 + 16 * 8 ≤ dataBytes 255
        ∧ ((holds m0).e 0).held = some { bank := 3, gen := 0, red := 0, at_ := 0 } ∧ ({ bank := 3, gen := 0, red := 0, at_ := 0 } : Handle).word = 3)
    ∧ ((waiting 255 .take m0).e 255).wait = .take
    -- dispatch
    ∧ ((m0.pl 7).queue = [] ∧ ((pooled 7 m0).pl 7).queue = handle 191 :: [] ∧ ((pooled 7 m0).pl 7).waiters = 255 :: [] ∧ m0.dev.st ≠ .oasis)
    -- acceptance
    ∧ (m0.pts.blocked = [] ∧ ({ m0.pts with blocked := [0] } : Pts).blocked ≠ [] ∧ m0.streamsOn = []
        ∧ (let m := (waiting 255 (.rel 0 8) m0).modE 255 (fun x => { x with held := some (handle 191) })
           (m.e 255).wait = .rel 0 8 ∧ (m.e 255).held = some (handle 191)) ∧ (m0.e 255).held = none)
    -- pools
    ∧ (wfPoolWrite own 255 7 = true ∧ m0.mayWrite own .rng 255 0x200 = 0 ∧ m0.mayWrite (.link 1 0) .rng 255 0x200 ≠ 0 ∧ (m0.e 255).active = false
        ∧ ((runs 255 0 0 m0).e 255).active = true ∧ fRNG_POOL_POOL.get 0 ≠ m0.poolOf 255 ∧ fRNG_POOL_POOL.get 7 = m0.poolOf 255)
    ∧ (wfPortPoolWrite own 11 0x77777777 = true ∧ m0.mayWrite own .rng 0 (0x2000 + 4 * 11) = 0 ∧ m0.mayWrite (.link 1 0) .rng 0 (0x2000 + 4 * 11) ≠ 0
        ∧ (let l : Look := { port := 0, bank := 3, gen := 0, moved := false }; ((looks m0).e 0).look = some l)) := by
  unfold Mach.canIssue; decide +kernel

/-- A vector of 4 words at the end of data memory; one of 16 accumulator words of the held bank; one of the looked bank. -/
def vData : Word := 4 * 2 ^ 18 + 0x7FF0
def vAcc : Word := 16 * 2 ^ 18 + 0x14000
def vLook : Word := 16 * 2 ^ 18 + 0x24000

theorem witness_HistogramInstructionsCompute :
    (runs 0 vData 0x100 m0).canIssue 0 ∧ engClass 0 = .re ∧ 15 < 16
    ∧ lowestCode [m0.vecErr 0 vData, blockErr 0 0x100 16 16] = 0 ∧ lowestCode [m0.vecErr 0 (4 * 2 ^ 18 + 0x7FF2), blockErr 0 0x8000 16 16] = 3
    ∧ (m0.vec 0 vData).stale = false ∧ lowestCode [(looks m0).vecErr 0 vLook, blockErr 0 0x100 16 16] = 0
    ∧ (((looks m0).modE 0 (fun x => { x with look := some { port := 0, bank := 3, gen := 1, moved := true } })).vec 0 vLook).stale = true
    -- bscan: nothing found; a dune with its block inside and outside data memory
    ∧ (bscanOf (m0.vec 0 vData).vals (2 ^ 30) 1 0 = [] ∧ inData 0 (0x7FF0 + 16) 12 = false ∧ inData 0 (0x7FE0 + 16) 12 = true
        ∧ (bscanOf [0, 0, 100, 100, 0, 0] 0 1 0) ≠ [] ∧ blockErr 0 (0x7FF0 + 16) 12 4 ≠ 0 ∧ blockErr 0 (0x7FE0 + 16) 12 4 = 0)
    -- corr with taps, fit, wfpk on accumulator words and on data
    ∧ lowestCode [m0.vecErr 0 vData, blockErr 0 0x200 16 4, 0, blockErr 0 0x300 8 4] = 0
    ∧ lowestCode [m0.vecErr 0 vData, blockErr 0 0x100 16 4] = 0
    ∧ lowestCode [(holds m0).vecErr 0 vAcc, if ((holds m0).vec 0 vAcc).kind = .acc then 0 else 4, blockErr 0 0x100 8 4] = 0
    ∧ lowestCode [m0.vecErr 0 vData, if (m0.vec 0 vData).kind = .acc then 0 else 4, blockErr 0 0x100 8 4] = 4
    ∧ ((wfpkOf [0, 99, 0] [false, false, false] false 1).2 ≠ none ∧ (wfpkOf [0, 9, 0] [false, false, false] false 0).2 = none)
    ∧ ([5, -3] : List Int) ≠ [] := by
  unfold Mach.canIssue; decide +kernel

theorem witness_ReturnsAreCorrectedAndClassed :
    (runs 255 0 0x7FC0 m0).canIssue 255 ∧ (fx 0).xi = 0
    ∧ lowestCode [blockErr 255 0x7FC0 64 64, if 0x7FC0 / 2 ^ 18 % 4 ≠ 0 then 4 else 0] = 0 ∧ lowestCode [blockErr 255 0x7FC4 64 64, 0] ≠ 0
    ∧ (2 : Nat) % 4 ≠ 0 ∧ blockErr 255 0x7FF0 16 4 = 0
    -- rules at 0: the first matches; none of sixteen; END in the first
    ∧ (∀ j, j ≤ 15 → blockErr 255 (36 * j) 36 4 = 0)
    ∧ clsMatch 0 (List.replicate 8 0) (List.replicate 8 0) = true ∧ clsMatch 0x10000 (List.replicate 8 1) (List.replicate 8 0) = false
    ∧ (0x80010000 : Nat).testBit 31 = true ∧ (0x10000 : Nat).testBit 31 = false := by
  unfold Mach.canIssue; decide +kernel

def mapWant : MapWant := { port := 95, row := 0, line := 31 }
def mapLine (d : Bool) : MapLine := { row := 1, line := 0, ents := List.replicate 32 7, dirty := d, bumped := [] }
/-- The sun map in use, with two lines of port 95 cached and a third wanted. -/
def mapped (m : Mach) : Mach :=
  { ((m.setFld aREJ_SUNCFG fREJ_SUNCFG_MAP_EN 1).setFld aREJ_SUNCFG fREJ_SUNCFG_VALID 1) with
    rej := { m.rej with wants := [mapWant], lines := [(95, [mapLine false, mapLine true])] } }
def obs : MirObs := { head := 1, az := 1023, slot := 15, sec := 9, amp := 5, port := 95 }
/-- An observation waits; entry 4095 of the table names the same head, slot and azimuth. -/
def observed (m : Mach) : Mach := { m with rej := { m.rej with obs := [obs] } }
def entry (m : Mach) : Mach := m.setMword (mirAddr 4095) (word (2 ^ 23 + 2 ^ 21 + 15 * 2 ^ 17 + 1023 * 2 ^ 7))

theorem witness_RejectionUnitLearns :
    (m0.rej.wants.find? (fun w => w.port == 95) = none ∧ (mapped mDram).rej.wants.find? (fun w => w.port == 95) = some mapWant)
    ∧ ((mapped mDram).mapOn = true ∧ (mapped mDram).dramStatus ((mapped mDram).mapAddr 95 0 31 - dramBase) 64 = 0 ∧ m0.mapOn = false
        ∧ (mapped mDram).mapLines 95 = [mapLine false, mapLine true] ∧ (mapLine true).dirty = true)
    -- haboob: no HOLD time runs; one of head 0 runs out later
    ∧ (let m := { m0 with rej := { m0.rej with heads := [(0, { on := none, off := none }), (1, { on := none, off := none })] } }
       [(m.hbHead 0).on, (m.hbHead 1).on, (m.hbHead 0).off, (m.hbHead 1).off].filterMap (fun o => o.map (fun c => c + m.hbHold)) = [])
    ∧ (let m := { m0 with rej := { m0.rej with heads := [(0, { on := some 0, off := none })] } }
       m.hbHold ∈ [(m.hbHead 0).on, (m.hbHead 1).on, (m.hbHead 0).off, (m.hbHead 1).off].filterMap (fun o => o.map (fun c => c + m.hbHold)) ∧ m.cyc < m.hbHold)
    -- observations: none; a match; a free entry
    ∧ (m0.rej.obs = [] ∧ (observed m0).rej.obs = obs :: [] ∧ 0x8180000 ≤ ((queue 0x80000000 m0).qBase 0))
    ∧ ((entry m0).mirMatch obs = some 4095 ∧ m0.mirMatch obs = none ∧ (List.range 4096).find? (fun i => !m0.mirValid i) = some 0)
    -- ageing and CLR
    ∧ ((entry m0).mirValid 4095 = true ∧ m0.mirValid 4095 = false
        ∧ (let m := { entry m0 with time := { m0.time with now := { m0.time.now with sec := 2 ^ 20 } } }
           (max 1 (m.fld aREJ_MIRCFG fREJ_MIRCFG_AGE) : Int) < signed 32 (m.time.now.sec % 2 ^ 32 + 2 ^ 32 - m.mir 4095 2)))
    ∧ (m0.mayWrite own .rej 0 0x114 = 0 ∧ m0.mayWrite (.link 1 0) .rej 0 0x114 ≠ 0) := by
  decide +kernel

/-- Trigger 15 runs, not late, with a period or without. -/
def trig15 (per : Nat) (m : Mach) : Mach :=
  ((inState .linked m).setFld (aTIME_TRIG_STAT 15) fTIME_TRIG_STAT_RUN 1 |>.setFld (aTIME_TRIG_PER_NS 15) fTIME_TRIG_PER_NS_PER_NS per).setTrig 15
    { Trig.reset with ns := 100, armed := true }

theorem witness_TimeBaseAndTriggers :
    ¬ (m0.trigRun 15 = true)
    ∧ (let m := trig15 1000 m0
       m.timeRuns = true ∧ m.trigRun 15 = true ∧ (m.trig 15).armed = true ∧ (m.trig 15).lateAt = none ∧ m.trigPeriod 15 ≠ 0
        ∧ m.fld (aTIME_TRIG_CTRL 15) fTIME_TRIG_CTRL_COUNT = 0 ∧ m.commits = [] ∧ ∀ a, a < 4 → (m.setFld (aAXS_CFG a) fAXS_CFG_CC_TRIG 0).fld (aAXS_CFG a) fAXS_CFG_CC_TRIG ≠ 15)
    ∧ (∀ a, a < 4 → m0.fld (aAXS_CFG a) fAXS_CFG_CC_TRIG ≠ 15) ∧ (trig15 0 m0).trigPeriod 15 = 0
    ∧ (let m := waiting 281 (.trig 15) (trig15 1000 { m0 with cyc := 9 }); (m.e 281).st = .waiting ∧ (m.e 281).wait = .trig 15 ∧ (m.e 281).issue < 9)
    ∧ ((inState .reset m0).timeRuns = false ∧ m0.timeRuns = true ∧ 0 < m0.inc ∧ m0.inc ≤ 2 ^ 33 ∧ m0.time.now.ns < 1000000000 ∧ m0.time.now.frac < 2 ^ 32)
    ∧ (m0.time.ppsEnd = none ∧ ({ m0.time with ppsEnd := some 7 } : TimeBase).ppsEnd = some 7)
    -- captures: an edge that is not active, one that is, with the capture off, free and taken
    ∧ (let c := aTIME_CAP_CTRL 2
       let m := (m0.setFld c fTIME_CAP_CTRL_EDGE 1).setFld c fTIME_CAP_CTRL_EN 1
       (m.fld c fTIME_CAP_CTRL_EDGE).testBit 0 = true ∧ (m.fld c fTIME_CAP_CTRL_EDGE).testBit 1 = false ∧ m.flag c fTIME_CAP_CTRL_EN = true
        ∧ m0.flag c fTIME_CAP_CTRL_EN = false ∧ m.flag c fTIME_CAP_CTRL_VALID = false
        ∧ (m.setFld c fTIME_CAP_CTRL_VALID 1).flag c fTIME_CAP_CTRL_VALID = true)
    ∧ (m0.mayRead (.link 7 0) .time 0x7C ≠ 0 ∧ m0.mayRead own .time 0x7C = 0 ∧ m0.mayRead own .time 0 = 0 ∧ m0.mayRead (.link 7 0) .time 0 ≠ 0
        ∧ m0.time.now.sec < 2 ^ 48) := by
  decide +kernel

/-- Stream 7 is enabled and its queue is queue 0; frames follow head 0, whose azimuth is that of axis 3. -/
def streams (m : Mach) : Mach := (m.setFld (aPTS_SCFG 7) fPTS_SCFG_EN 1).setFld (aPTS_SQ 7) fPTS_SQ_QUEUE 0
def turns (w : Word) (m : Mach) : Mach :=
  ((streams (axis m)).modAx 3 (fun x => { x with pubW := w })).setFld (aAXS_CFG 3) fAXS_CFG_ROLE 1 |>.setFld (aAXS_CFG 3) fAXS_CFG_HEAD 0

theorem witness_FramesAndSlicesEnd :
    (m0.mayWrite own .pts 0 0xC = 0 ∧ m0.mayWrite (.link 1 0) .pts 0 0xC ≠ 0 ∧ m0.streamsOn = [] ∧ (streams m0).streamsOn = [7])
    ∧ ((m0.setFld aPTS_FRAMECFG fPTS_FRAMECFG_FSRC 1).fld aPTS_FRAMECFG fPTS_FRAMECFG_FSRC ≠ 0 ∧ m0.frameAxis = none ∧ m0.commits = []
        ∧ (m0.setFld aPTS_FRAMECFG fPTS_FRAMECFG_FSRC 0).fld aPTS_FRAMECFG fPTS_FRAMECFG_FSRC = 0)
    -- a queue that refuses the header, and one with room for 48 bytes
    ∧ (m0.qOn 0 = false ∧ (let m := streams (queue 0x80000000 m0); m.qOn 0 = true ∧ m.qShut 0 = false ∧ (m.q 0).waiters = [] ∧ m.qFits 0 48 = true
        ∧ m.qPert 0 = false ∧ m.strmQ 7 = 0))
    -- an axis that turns, and one that stands; the first of two slice crossings, and no crossing
    ∧ ((turns 0x1000000 m0).frameAxis = some 3 ∧ (turns 0x1000000 m0).crossAt 3 0x2000000 = some 512 ∧ (turns 0 m0).crossAt 3 0x2000000 = none
        ∧ (turns 0 m0).frameAxis = some 3)
    ∧ (let m := (turns 0x1000000 m0).setFld aPTS_FRAMECFG fPTS_FRAMECFG_NSLICE 2
       let cross (k : Nat) := m.crossAt 3 (k * 2 ^ 32 / 2)
       m.fld aPTS_FRAMECFG fPTS_FRAMECFG_NSLICE = 2 ∧ cross 1 ≠ none ∧ (cross 1).getD 0 ≤ (cross 0).getD 0)
    ∧ ((2, 5) ∈ [(2, 5)] ∧ m0.pts.reqs = []) := by
  decide +kernel

def frame : CamFrame :=
  { seq := 1, time := m0.time.now, stamp := Stamp.zero, cyc := 0, setid := 0, lines := 0, exps := [], rows := [], out := [], long := false,
    lineErr := false, late := false, nack := false, sent := [], lost := [], zones := [], hist := [], satcnt := 0 }
def filming (f : CamFrame) (m : Mach) : Mach := { m with cam := { m.cam with frame := some f } }
def transfer : I2cRun := { buf := 0, setid := 3, delay := 2, frame := 1, on := true }

theorem witness_CameraFramesLinesAndSets :
    (m0.commits = [] ∧ m0.cam.frame = none ∧ m0.flag aCAM_CTRL fCAM_CTRL_EN = false ∧ (m0.setFld aCAM_CTRL fCAM_CTRL_EN 1).flag aCAM_CTRL fCAM_CTRL_EN = true
        ∧ (filming frame m0).cam.frame = some frame ∧ (filming frame m0).cam.next = none)
    -- bus lines: too many; the last exposure of the first and of a later line; not the last
    ∧ (wfBusLine (List.replicate 4096 1) = true ∧ wfBusLine (List.replicate 4095 4095) = true)
    ∧ (let m := ((m0.setFld aCAM_SIZE fCAM_SIZE_HEIGHT 4).setFld aCAM_SIZE fCAM_SIZE_WIDTH 8).setFld aCAM_CTRL fCAM_CTRL_NEXP 1
       m.camBusLines = 4 ∧ m.camBusLines ≤ ({ frame with lines := 4 } : CamFrame).lines ∧ ({ frame with lines := 3 } : CamFrame).lines < m.camBusLines
        ∧ (frame.exps.length + 1 == m.camNexp) = true ∧ (frame.exps.length + 1 == (m.setFld aCAM_CTRL fCAM_CTRL_NEXP 2).camNexp) = false
        ∧ 1 ≤ 1 / m.camNexp ∧ 1 / m.camNexp + 1 ≠ m.camH ∧ m.cam.colBad = false ∧ frame.sent = [] ∧ 1 % (m.setFld aCAM_CTRL fCAM_CTRL_DS 0).camD = 0
        ∧ 3 + 1 = m.camBusLines)
    ∧ (m0.cam.i2c = none ∧ ({ m0.cam with i2c := some transfer } : Cam).i2c = some transfer)
    ∧ (m0.cam.trigDue = none ∧ m0.cam.trigOn = false ∧ ({ m0.cam with trigDue := some 5 } : Cam).trigDue = some 5
        ∧ (let c := { m0.cam with trigOn := true }; c.trigOn = true ∧ c.trigDue = none))
    ∧ ([(7, 3)] = [(7, 3)] ∧ 7 ≤ 7 ∧ m0.cam.sets = []) := by
  decide +kernel

/-- A safety configuration is in force from cycle 0 on, its words zero but for those of the named offsets. -/
def safe (m : Mach) : Mach := { m with saf := { m.saf with periodCyc := some 0 } }

theorem witness_SafetyImagesAreVerified :
    (wfSafetyStagingWrite own 0x3FFFC 5 = true ∧ m0.mayWrite (.link 1 0) .saf 0 (0x40000 + 0x3FFFC) ≠ 0 ∧ m0.mayWrite own .saf 0 (0x40000 + 0x3FFFC) = 0
        ∧ (pend safPage 0 m0).isPending safPage 0 = true ∧ m0.isPending safPage 0 = false)
    ∧ (wfSafetyRecordWrite 7 1 124 5 = true ∧ m0.ctxOn 7 = false ∧ m0.ctxOn 0 = true ∧ 0 = m0.safetyCtx ∧ m0.dev.st ≠ .shutdown)
    ∧ (m0.saf.verifyDue = none ∧ ({ m0.saf with verifyDue := some 9 } : Saf).verifyDue = some 9)
    -- channel B confirms: not a supervisor, another word, the word
    ∧ m0.mayWrite own .saf 0 0x14 ≠ 0 ∧ m0.mayWrite (.eng (280 + m0.safBsv)) .saf 0 0x14 = 0
    ∧ m0.mayWrite (.eng 0) .saf 0 0x14 ≠ 0
    ∧ (m0.saf.confDue = none ∧ ({ m0.saf with confDue := some 800000 } : Saf).confDue.isSome = true ∧ 0 = m0.reg aSAF_ICRC ∧ 5 ≠ m0.reg aSAF_ICRC) := by
  decide +kernel

theorem witness_FieldsAndPeriodsAreJudged :
    (([0, 0, 5, 0] : List Byte).length % 2 = 0 ∧ firstViolated (fun _ => 0) (fun _ => 0) 1 7 [0, 0, 5, 0] = some (true, 8)
      ∧ firstViolated (fun _ => 1) (fun _ => 0) 1 7 [0, 0, 5, 0] = none ∧ firstViolated (fun _ => 1) (fun _ => 1) 1 7 [0, 0, 5, 0] = some (false, 8))
    ∧ (m0.saf.periodCyc = none ∧ (safe m0).saf.periodCyc = some 0)
    -- the end of a period: verdicts that differ often enough, and not; a set that awaits it
    ∧ (let m := (safe m0).setFld (aSAF_OSSD 0) fSAF_OSSD_VA 1
       let m' := { m with saf := { m.saf with ossd := [(0, { (m0.ossd 0) with bSeen := true })] } }
       (m'.ossd 0).bSeen = true ∧ m'.fld (aSAF_OSSD 0) fSAF_OSSD_VA ≠ m'.fld (aSAF_OSSD 0) fSAF_OSSD_VB
        ∧ (m'.setMword (safImgA + 0x18) 0x10000).safCmpn = (m'.ossd 0).differ + 1 ∧ (m'.setMword (safImgA + 0x18) 0x20000).safCmpn = 2
        ∧ m'.codeHeld = false ∧ m'.ossdSt 0 = 0 ∧ m'.ossdSt 1 = 0 ∧ (bond 1 m').bonded 1 = true
        ∧ (m.setFld aSAF_FIELD fSAF_FIELD_PEND 1).flag aSAF_FIELD fSAF_FIELD_PEND = true ∧ m.flag aSAF_FIELD fSAF_FIELD_PEND = false)
    -- channel B's verdict: for the period last ended, in time and late; for another
    ∧ (let m := (safe m0).setFld aSAF_PERIOD fSAF_PERIOD_PERIOD 1
       m.mayWrite (.eng (280 + m.safBsv)) .saf 0 (0x30 + 4 * 1) = 0 ∧ m.saf.periodCyc.isSome = true ∧ m.fld aSAF_PERIOD fSAF_PERIOD_PERIOD ≠ 0
        ∧ fSAF_BRES_PERIOD.get 0 = (1 - 1) % 2 ^ 20 ∧ fSAF_BRES_PERIOD.get 0x1000 ≠ (1 - 1) % 2 ^ 20 ∧ m.cyc ≤ 0 + m.safTblat
        ∧ 0 + m.safTblat < ({ m with cyc := 1 } : Mach).cyc)
    ∧ (let m := { safe m0 with saf := { (safe m0).saf with ossd := [(1, { (m0.ossd 1) with bDue := some (0, 800) })] } }
       m.safRuns = true ∧ (m.ossd 1).bDue = some (0, 800))
    ∧ (m0.safRuns = false ∧ (m0.ossd 1).bDue = none) := by
  decide +kernel

/-- Input 0 has a type, both pairs in its mask, test pulses; input 1 pairs with it. -/
def input (ty : Nat) (m : Mach) : Mach := (safe m).setMword (safImgA + 0x40) (word (ty + 32 + 256 * 3))
def inState0 (v : Nat) (m : Mach) : Mach := (m.setFld (aSAF_IN 0) fSAF_IN_STATE_A v).setFld (aSAF_IN 0) fSAF_IN_STATE_B v
def withSaf (f : Saf → Saf) (m : Mach) : Mach := { m with saf := f m.saf }

theorem witness_SafetyInputsAreEvaluated :
    -- a level: evaluators named, a configuration in force or not, types 1, 4 and 5, a demand
    ((3 : Nat).testBit 1 = true ∧ m0.safRuns = false ∧ (input 1 m0).safRuns = true ∧ (input 1 m0).safInType 0 = 1 ∧ (input 5 m0).safInType 0 = 5
      ∧ (input 4 m0).safInType 0 = 4 ∧ (inState0 4 (input 1 m0)).inSt 0 0 ≤ 4 ∧ (inState0 2 (input 1 m0)).inSt 0 0 = 2
      ∧ ((input 1 m0).safInMask 0).testBit 1 = true ∧ 0 / 2 ≠ 7 / 2)
    -- DISC of evaluator 0 alone; a two-hand function in ONE in evaluator 1
    ∧ (let m := (input 1 m0).modSafIn 0 0 (fun x => { x with dis := true, since := 5 })
       (m.safIn 0 0).dis = true ∧ (m.safIn 1 0).dis = false ∧ 1 ≤ m.safInType 0 ∧ m.safInType 0 ≤ 4)
    ∧ (let m := (input 3 m0).setFld (aSAF_IN 0) fSAF_IN_STATE_B 7; m.safInType 0 = 3 ∧ m.inSt 1 0 = 7 ∧ m.inSt 0 0 ≠ 7)
    ∧ ((withSaf (fun x => { x with diffCyc := [(7, 5)] }) (safe m0)).saf.diffCyc.find? (fun x => x.1 == 7) = some (7, 5)
        ∧ m0.saf.diffCyc.find? (fun x => x.1 == 7) = none)
    -- pulses
    ∧ ((withSaf (fun x => { x with tpDue := [(1, 5)], tpCyc := [(1, 3)] }) (safe m0)).saf.tpDue.find? (fun x => x.1 == 1) = some (1, 5)
        ∧ (withSaf (fun x => { x with tpDue := [(1, 5)], tpCyc := [(1, 3)] }) (safe m0)).saf.tpCyc.find? (fun x => x.1 == 1) = some (1, 3)
        ∧ m0.saf.tpDue.find? (fun x => x.1 == 1) = none ∧ m0.saf.tpCyc.find? (fun x => x.1 == 1) = none)
    ∧ (let m := withSaf (fun x => { x with tpFail := [(1, 1)] }) ((input 1 m0).modSafIn 0 0 (fun x => { x with ch := 3 }))
       1 < 16 ∧ 1 % 2 = 1 ∧ m.tpFed 1 = true ∧ m.tpFed 0 = true ∧ 0 % 2 ≠ 1 ∧ (2 : Nat).testBit 1 = true ∧ (0 : Nat).testBit 1 = false
        ∧ m.saf.tpCross.contains 1 = false ∧ 1 ≤ mapGet 0 m.saf.tpFail 1)
    ∧ (m0.codeHeld = false ∧ m0.saf.noCode = none ∧ (withSaf (fun x => { x with noCode := some 9 }) (safe m0)).saf.noCode = some 9
        ∧ (withSaf (fun x => { x with noCode := some 9 }) (safe m0)).codeHeld = false
        ∧ ((withSaf (fun x => { x with noCode := some 9 }) (safe m0)).advanceTo 9).codeHeld = false
        ∧ (let m := (withSaf (fun x => { x with noCode := some 1600000 }) (safe m0)).setFld aSAF_FIELD fSAF_FIELD_CVALID 1
           m.codeHeld = false ∧ m.safRuns = true ∧ (m.advanceTo (1600000 + m.safFswT)).codeHeld = true)) := by
  decide +kernel

/-- RUNNING with an active configuration that heard its heartbeat, a valid set, and channel B's gate open: pair 1 may be on. -/
def mayBeOn (m : Mach) : Mach :=
  withSaf (fun x => { x with setOn := true, ossd := [(0, { (m.ossd 0) with bEn := true, offA := false, needRst := false }), (1, { (m.ossd 1) with bEn := true, offA := false, needRst := false })] })
    ((((safe (inState .running m)).setFld aSAF_STAT fSAF_STAT_ACTIVE 1).setFld aSAF_STAT fSAF_STAT_HEART 1).setFld aGRD_STAT fGRD_STAT_ACTIVE 1)
def pairIn (v : Nat) (m : Mach) : Mach := m.setFld (aSAF_OSSD 1) fSAF_OSSD_STATE v
def pairTests (t seen : Bool) (m : Mach) : Mach :=
  withSaf (fun x => { x with ossd := mapPut Ossd.reset x.ossd 1 { (mapGet Ossd.reset x.ossd 1) with testing := t, seen := seen } }) m

theorem witness_OssdPairsSwitch :
    -- a switch-on, and a pair that waits for a RESTART
    ((mayBeOn m0).codeHeld = false ∧ (mayBeOn m0).ossdSt 1 = 0 ∧ (mayBeOn m0).ossdWhy 1 = 0 ∧ ((mayBeOn m0).ossd 1).needRst = false
      ∧ m0.ossdWhy 1 ≠ 0 ∧ m0.codeHeld = false)
    -- its steps
    ∧ (∀ v, v ∈ [1, 2, 3] → (pairIn v (mayBeOn m0)).ossdSt 1 = v ∧ (pairIn v (mayBeOn m0)).ossdWhy 1 = 0)
    -- the periodic test
    ∧ (let m := pairTests true true (pairIn 3 (mayBeOn m0)); (m.ossd 1).testing = true ∧ (m.ossd 1).seen = true ∧ m.ossdWhy 1 = 0)
    ∧ (let m := pairTests true false (pairIn 3 (mayBeOn m0)); (m.ossd 1).testing = true ∧ (m.ossd 1).seen = false ∧ m.ossdWhy 1 = 0)
    ∧ ((pairIn 3 (mayBeOn m0)).ossd 1).testing = false
    -- feedback that stays high
    ∧ ((mayBeOn m0).safRuns = true ∧ (mayBeOn m0).fld (aSAF_OSSD 1) fSAF_OSSD_HS = 0 ∧ (mayBeOn m0).fld (aSAF_OSSD 1) fSAF_OSSD_LS = 0 ∧ m0.safRuns = false) := by
  decide +kernel

theorem witness_OssdPairsSwitch_period : (safe m0).saf.periodCyc ≠ none ∧ (∃ t, exec .periodEnd (st (safe m0)) = .next t) := ⟨by decide, ⟨_, rfl⟩⟩

/-- A message of a kind, and a configuration in force that takes it. -/
def body (msn kind : Nat) (args : List Byte) : List Byte := leBytes 4 msn ++ leBytes 4 kind ++ args ++ leBytes 4 0
def payload (msn kind : Nat) (args : List Byte) : List Byte := body msn kind args ++ leBytes 4 (crc32c (leBytes 4 0 ++ body msn kind args))
def spec (msn kind : Nat) : List Byte := leBytes 4 msn ++ leBytes 1 kind ++ leBytes 1 0
def noArgs : List Byte := List.replicate 16 0
def copy (g : Nat) : SafMsg := { grp := g, msn := 1, kind := 1, bytes := payload 1 1 noArgs, cyc := 0 }
def heldCopies (l : List SafMsg) (m : Mach) : Mach := withSaf (fun x => { x with held := l }) (safe (bond 1 m))
def matchedOf (k : Nat) (m : Mach) : Mach := withSaf (fun x => { x with matched := [{ copy 0 with kind := k }] }) (safe m)

theorem witness_SafeMessagesMatchAndExecute :
    wfSafe 1 0 (spec 1 1) (payload 1 1 noArgs) = true ∧ m0.linkUp 1 = false ∧ (bond 1 m0).linkUp 1 = true ∧ m0.ctxOn 7 = false ∧ m0.ctxOn 0 = true
    ∧ 0 = m0.safetyCtx ∧ (m0.setFld (aQMG_CTX 7) fQMG_CTX_EN 1).ctxOn 7 = true ∧ 7 ≠ m0.safetyCtx ∧ m0.dev.st ≠ .shutdown
    -- the check passes and fails; a kind from 1 to 5 and one above
    ∧ (heldCopies [] m0).safMsgOk (spec 1 5) (payload 1 5 noArgs) = true ∧ (heldCopies [] m0).safMsgOk (spec 2 5) (payload 1 5 noArgs) = false
    ∧ safFormed (spec 1 5) (payload 1 5 noArgs) = true ∧ safFormed (spec 1 6) (payload 1 6 noArgs) = true ∧ safFormed (spec 1 5) [] = false
    ∧ (heldCopies [] m0).safMsgOk (spec 1 6) (payload 1 6 noArgs) = true ∧ leNat (recPart (payload 1 6 noArgs) 4 4) = 6
    -- a first copy with room and without; a twin over the same group, over the other, with other bytes, newer and not
    ∧ ((heldCopies [] m0).saf.held.find? (fun h => h.msn == 1) = none ∧ (List.replicate 4 (copy 0)).length = 4)
    ∧ ((heldCopies [copy 0] m0).saf.held.find? (fun h => h.msn == 1) = some (copy 0) ∧ (copy 1).grp = 1 ∧ (copy 0).grp ≠ 1
        ∧ (copy 0).bytes = payload 1 1 noArgs ∧ (copy 0).bytes ≠ payload 1 2 noArgs
        ∧ 0 < signed 32 (1 + 2 ^ 32 - (heldCopies [copy 0] m0).fld aSAF_MSG fSAF_MSG_LASTMSN)
        ∧ ¬ 0 < signed 32 (1 + 2 ^ 32 - ((heldCopies [copy 0] m0).setFld aSAF_MSG fSAF_MSG_LASTMSN 1).fld aSAF_MSG fSAF_MSG_LASTMSN))
    ∧ ((heldCopies [copy 1] m0).saf.held.find? (fun h => h.grp == 1) = some (copy 1) ∧ (heldCopies [] m0).saf.held.find? (fun h => h.grp == 1) = none)
    -- execution
    ∧ (∀ k, k ∈ [1, 2, 3, 4, 5] → (matchedOf k m0).saf.matched.find? (fun y => y.kind == k) = some { copy 0 with kind := k })
    ∧ (∀ k, k ∈ [1, 2, 3, 4, 5] → m0.saf.matched.find? (fun y => y.kind == k) = none)
    ∧ ((matchedOf 3 m0).codeHeld = false ∧ m0.ossdSt 1 = 0 ∧ (m0.setFld (aSAF_OSSD 1) fSAF_OSSD_STATE 4).ossdSt 1 = 4
        ∧ (m0.setFld (aSAF_OSSD 1) fSAF_OSSD_FB 1).flag (aSAF_OSSD 1) fSAF_OSSD_FB = true ∧ m0.flag (aSAF_OSSD 1) fSAF_OSSD_FB = false
        ∧ (2 : Nat).testBit 1 = true ∧ (1 : Nat).testBit 1 = false ∧ m0.dev.st ≠ .off)
    ∧ (m0.safMsgTmo = 0 ∧ ((safe m0).setMword (safImgA + 0x24) 0x10001).safMsgTmo ≠ 0 ∧ (safe m0).safRuns = true) := by
  decide +kernel

def withHk (f : Hk → Hk) (m : Mach) : Mach := { m with hk := f m.hk }
/-- The reference is settled: conversions are not held, and no block is due. -/
def measures (m : Mach) : Mach := withHk (fun h => { h with fixDue := 4000000, calLast := 0 }) (m.setFld aHK_STAT fHK_STAT_HELD 0)
/-- The sequence is on in a mode, its last entry 0. -/
def sequenced (mode : Nat) (m : Mach) : Mach := ((measures m).setFld aHK_SEQCFG fHK_SEQCFG_EN 1).setFld aHK_SEQCFG fHK_SEQCFG_MODE mode
/-- Entry `e` comes next; its output words go to queue 0 or not. -/
def atEntry (e : Nat) (m : Mach) : Mach := withHk (fun h => { h with pos := some e }) (sequenced 0 (oasisOff m))
def outWord : HkWord := { entry := 15, word := 7, due := 1600, stamp := m0.stamp }
def hasWord (m : Mach) : Mach := withHk (fun h => { h with words := [outWord] }) m
def queues (m : Mach) : Mach := m.setFld (aHK_ENTF 15) fHK_ENTF_QEN 1

theorem witness_HousekeepingMeasures :
    -- the actions
    (own.wf = true ∧ (Src.link 1 0).wf = true ∧ m0.mayWrite own .hk 0 0 = 0 ∧ m0.mayWrite (.link 1 0) .hk 0 0 ≠ 0
      ∧ m0.flag aHK_CTRL fHK_CTRL_REF_EN = false ∧ (m0.setFld aHK_CTRL fHK_CTRL_REF_EN 1).flag aHK_CTRL fHK_CTRL_REF_EN = true
      ∧ m0.hot = false ∧ (inState .armed m0).hot = true)
    ∧ ((sequenced 2 m0).hkOn = true ∧ (sequenced 2 m0).hkMode = 2 ∧ (sequenced 2 m0).hk.pos = none ∧ (sequenced 2 m0).hk.req = none
        ∧ m0.hkOn = false ∧ (sequenced 3 m0).hkMode = 0)
    -- a pass: free running, by request, held
    ∧ ((sequenced 0 m0).hkHeld = false ∧ (sequenced 0 m0).hkMode = 0 ∧ (sequenced 0 m0).hk.pos = none
        ∧ (withHk (fun h => { h with req := some 5 }) (sequenced 1 m0)).hk.req = some 5 ∧ (sequenced 1 m0).hk.req = none ∧ m0.hkHeld = true)
    -- an entry: the last and not the last, valid and not, held, of the wrong length, driven open
    ∧ (let m := atEntry 15 m0
       let m' := (m.setFld (aHK_ENTA 15) fHK_ENTA_NEG_AG 1).setFld (aHK_ENTB 15) fHK_ENTB_NCONVM1 0
       m.hk.pos = some 15 ∧ m.hkHeld = false ∧ m.hk.fixRun = none ∧ m.blockDue m.hk.freeAt = false ∧ m.commits = []
        ∧ m.fld aFLT_OASISMASK fFLT_OASISMASK_MASK = 0 ∧ (m'.setFld (aHK_ENTA 15) fHK_ENTA_NEG_AG 0).entryOk 15 = false ∧ m'.entryOk 15 = true ∧ m'.entryN 15 = ([100] : List Int).length
        ∧ m'.hkOrd 15 = 0 ∧ m'.hkMed 15 = 0 ∧ 15 ≠ m.fld aHK_SEQCFG fHK_SEQCFG_LAST ∧ (atEntry 0 m0).fld aHK_SEQCFG fHK_SEQCFG_LAST = 0
        ∧ (atEntry 0 m0).hk.pos = some 0 ∧ (m'.setFld (aHK_ENTF 15) fHK_ENTF_ORD 4).hkOrd 15 = 4
        ∧ (m'.hkEnt 15).n + 1 = 1 ∧ 1 % ((m'.setFld (aHK_ENTF 15) fHK_ENTF_ORD 4).setFld (aHK_ENTF 15) fHK_ENTF_RM1 1).hkR 15 ≠ 0
        ∧ (entryMean [137626] true 0).open_ = true ∧ (entryMean [137626] false 0).open_ = false ∧ m.blockDue 4000000 = true)
    := by decide +kernel

theorem witness_HousekeepingMeasures_words :
    -- an output word: to no queue, to one that is off, to one that is on
    ((hasWord m0).hk.words.find? (fun w => w.entry == 15) = some outWord ∧ m0.hk.words.find? (fun w => w.entry == 15) = none
        ∧ m0.flag (aHK_ENTF 15) fHK_ENTF_QEN = false ∧ (queues m0).flag (aHK_ENTF 15) fHK_ENTF_QEN = true
        ∧ m0.qOn (m0.fld aHK_QCFG fHK_QCFG_QUEUE) = false
        ∧ (let m := hasWord (queues (Tests.queue 0x80000000 m0))
           m.fld aHK_QCFG fHK_QCFG_QUEUE = 0 ∧ m.qOn 0 = true ∧ m.qShut 0 = false ∧ m.qFits 0 20 = true ∧ m.qPert 0 = false))
    -- blocks, pairs, calibration slots
    ∧ (m0.blockStart m0.hk.fixDue = none ∧ (measures m0).blockStart (measures m0).hk.fixDue = some 4000000)
    ∧ ((withHk (fun h => { h with fixRun := some (0, 3) }) m0).hk.fixRun = some (0, 3) ∧ m0.hk.fixRun ≠ some (0, 3))
    ∧ (let m := (withHk (fun h => { h with fixDue := 900000000 }) (measures m0)).setFld aCAL_CFG fCAL_CFG_HKCAL_S 1
       m.calSlotDue.bind m.blockStart = some 800000000 ∧ 800000000 < m.hk.fixDue ∧ m.time.now.ns < 1000000000
        ∧ (m0.setFld aCAL_CFG fCAL_CFG_HKCAL_S 0).calSlotDue = none
        ∧ ((measures m0).setFld aCAL_CFG fCAL_CFG_HKCAL_S 1).calSlotDue.bind ((measures m0).setFld aCAL_CFG fCAL_CFG_HKCAL_S 1).blockStart = some 800000000
        ∧ (measures m0).hk.fixDue ≤ 800000000) := by
  decide +kernel

/-- Set `q` is valid with two points. -/
def calibrated (q src : Nat) (m : Mach) : Mach :=
  ((m.setMword (calSet q) (word (2 ^ 31 + 2 ^ 24 + src))).setMword (calSet q + 4) 0x00000005).setMword (calSet q + 8) 0x0080000A
def temps (v : Int) : List Int := v :: List.replicate 23 3000
def record (root : Nat) : FaultRec := { root := root, src := root, code := 1, action := 0, inj := false, ovfl := false, count := 1, first := m0.stamp, last := m0.stamp, due := 8000 }
def recorded (n : Nat) (m : Mach) : Mach := { m with flt := { m.flt with recs := [record 65535], recseq := n } }

theorem witness_TemperaturesSetsAndFaultLog :
    -- a reading: every sensor fine, one out of range, a far one failed already
    ((temps 3000).length = 24 ∧ (temps 20481).length = 24 ∧ 20480 < (temps 20481).getD 0 0 ∧ (oasisOff m0).dev.st = .boot
      ∧ m0.dev.st ≠ .off ∧ m0.dev.st ≠ .reset ∧ m0.dev.st ≠ .shutdown ∧ (oasisOff m0).fld aFLT_OASISMASK fFLT_OASISMASK_MASK = 0
      ∧ (∀ t, t ∈ [(-5761 : Int), 3000, 20480] → ∀ u, u < 24 → (oasisOff m0).dieFailed u = false ∧ -7680 ≤ (temps 3000).getD u 0 ∧ (temps 3000).getD u 0 ≤ 20480
          ∧ -6400 ≤ 2 * (temps 3000).getD u 0 - twiceMedian (temps 3000) ∧ 2 * (temps 3000).getD u 0 - twiceMedian (temps 3000) ≤ 6400)
      ∧ (∀ u, u < 24 → (temps 3000).getD 5 0 ≤ (temps 3000).getD u 0 ∧ (temps 3000).getD u 0 ≤ (temps 3000).getD 5 0))
    -- the bands of the extremes
    ∧ ((List.replicate 24 (-5761 : Int)).getD 0 0 < -5760 ∧ -5120 < (temps 3000).getD 5 0 ∧ twiceMedian (List.replicate 24 (-5761 : Int)) = -11522
        ∧ twiceMedian (List.replicate 24 (17920 : Int)) = 35840 ∧ (128 * (min 140 (max 100 (m0.fld aTHM_CFG fTHM_CFG_SD_T)) : Nat) : Int) ≤ 17920
        ∧ m0.thm.hot = 0 ∧ 1 ≤ ({ m0.thm with hot := 1 } : Thm).hot ∧ ({ m0.thm with hiArmed := true, loArmed := true } : Thm).hiArmed = true)
    -- sets: valid and rising, below the first point and above; valid and not rising; not valid; a source without a temperature
    ∧ (∀ q, q ∈ [0, 399, 400, 511] →
       let m := calibrated q 0 m0
       (m.mnat (calSet q) 4).testBit 31 = true ∧ m.calPoints q (m.mnat (calSet q) 4) = [(0, 5), (128, 10)] ∧ (m.calSource (m.mnat (calSet q) 4)).isSome = true
        ∧ (m0.mnat (calSet q) 4).testBit 31 = false ∧ risesStrictly [((0 : Int), (5 : Int)), (128, 10)] = true ∧ risesStrictly [((0 : Int), (5 : Int)), (0, 10)] = false
        ∧ (m.setMword (calSet q + 8) 0x0000000A).calPoints q (m.mnat (calSet q) 4) = [(0, 5), (0, 10)] ∧ m.calSource (24) = none)
    ∧ (64 : Int) < 128 ∧ interpolate 64 [(0, 5), (128, 10)] = 8 ∧ interpolate (-64) [(0, 5), (128, 10)] = 2
    -- records: none, one; a log that wraps over an unread record
    ∧ ((recorded 1024 m0).flt.recs.find? (fun r => r.root == 65535) = some (record 65535) ∧ m0.flt.recs.find? (fun r => r.root == 65535) = none
        ∧ (recorded 1024 m0).fltUnread 0 = true ∧ ((recorded 1024 m0).setFld aFLT_LOG fFLT_LOG_RD 1).fltUnread 0 = false) := by
  decide +kernel

/-- A capture in a state that is due a sample. -/
def capturing (v : Nat) (x : Probe) (m : Mach) : Mach := { m.setFld aPRB_STAT fPRB_STAT_STATE v with probe := x }
def noArm : ProbeArm := { rise := false, fall := false, match_ := false }
def taken : Probe := { idx := 3, n := 3, left := 0, due := 10, pre := 2, post := 4, cap := 16384, conds := List.replicate 4 noArm }
def injectWord (go src : Nat) : Word := fTST_INJECT_GO.set (fTST_INJECT_SRC.set (fTST_INJECT_CODE.set 0 1) src) go

theorem witness_ProbesCaptureAndReportsInject :
    -- GO and STOP: not allowed, running, pending, free
    (own.wf = true ∧ (Src.link 1 0).wf = true ∧ m0.mayWrite (.link 1 0) .tstfus 0 0 ≠ 0 ∧ m0.mayWrite own .tstfus 0 0 = 0
      ∧ (capturing 1 taken m0).prbState = 1 ∧ (capturing 2 taken m0).prbState = 2 ∧ m0.prbState = 0 ∧ (pend 0x700000 0 m0).isPending 0x700000 0 = true
      ∧ m0.isPending 0x700000 0 = false ∧ fPRB_CTRL_STOP.get (fPRB_CTRL_STOP.set 0 1) = 1 ∧ fPRB_CTRL_STOP.get 0 ≠ 1)
    -- a sample: before the trigger and after, the last one taken; a buffer without room, a DRAM that is not there
    ∧ (¬ ((capturing 1 taken m0).prbState = 2 ∧ taken.left = 0) ∧ ((capturing 2 taken m0).prbState = 2 ∧ taken.left = 0) ∧ taken.cap ≠ 0 ∧ m0.prbDram = false
        ∧ ({ taken with cap := 0 } : Probe).cap = 0 ∧ ({ taken with left := 4 } : Probe).left ≠ 0)
    -- conditions that fire: 0 and 3; none
    ∧ (let m := capturing 1 { taken with conds := List.replicate 4 { noArm with match_ := true } } m0
       (List.range 4).filter (fun k => ((m.advanceTo 10).condSees ((m.advanceTo 10).probeSample) k (m.probe.conds.getD k noArm)).2) = [])
    ∧ (let m := ((capturing 1 { taken with conds := List.replicate 4 { noArm with match_ := true } } m0).setReg (aPRB_TRIG 0)
          (fPRB_TRIG_EN.set (fPRB_TRIG_KIND.set 0 3) 1)).setReg (aPRB_TRIG 3) (fPRB_TRIG_EN.set (fPRB_TRIG_KIND.set 0 3) 1)
       (List.range 4).filter (fun k => ((m.advanceTo 10).condSees ((m.advanceTo 10).probeSample) k (m.probe.conds.getD k noArm)).2) = [0, 3])
    -- injection
    ∧ (fTST_INJECT_GO.get (injectWord 1 0) = 1 ∧ fTST_INJECT_GO.get (injectWord 0 0) ≠ 1 ∧ fTST_INJECT_SRC.get (injectWord 1 (2048 * 20 + 3)) = 2048 * 20 + 3
        ∧ m0.mayWrite own .tstfus 0 0x10C = 0 ∧ m0.mayWrite (.link 1 0) .tstfus 0 0x10C ≠ 0 ∧ (inState .linked (oasisOff m0)).pertActs = true
        ∧ m0.pertActs = false ∧ (oasisOff m0).fld aFLT_OASISMASK fFLT_OASISMASK_MASK = 0 ∧ 0 / 2048 ∉ [4, 7, 9, 10, 12, 20, 21]
        ∧ m0.flt.recs = [] ∧ 2 ∈ m0.dramCh ∧ m0.chanFailed 2 = false) := by
  decide +kernel

def otp0 : Otp := State.reset.otp
def progWord (op arg key : Nat) : Word := fFUS_PROG_KEY.set (fFUS_PROG_ARG.set (fFUS_PROG_OP.set 0 op) arg) key

theorem witness_FusesBlowAndTheTestPortHolds :
    (otp0.slotOn 3 = false ∧ ({ otp0 with slots := [(3, [])] } : Otp).slotOn 3 = true ∧ otp0.gminver ≤ 64)
    ∧ (m0.mayWrite own .tstfus 0 0x204 = 0 ∧ m0.mayWrite (.link 1 0) .tstfus 0 0x204 ≠ 0 ∧ fFUS_PROG_KEY.get (progWord 1 3 0x5A17) = 0x5A17
        ∧ fFUS_PROG_KEY.get (progWord 1 3 0) ≠ 0x5A17 ∧ (inState .linked m0).dev.st = .linked ∧ m0.dev.st ≠ .linked ∧ m0.dev.st ≠ .loaded
        ∧ m0.fusJob.isSome = false ∧ otp0.bitsToBlow 1 3 (List.replicate 64 1) = some 64 ∧ otp0.bitsToBlow 1 4 [] = none
        ∧ otp0.bitsToBlow 3 64 [] = some 64 ∧ otp0.bitsToBlow 4 0 [] = none)
    ∧ (({ m0 with fusJob := some { op := 3, arg := 64, data := [], due := 9 } } : Mach).fusJob = some { op := 3, arg := 64, data := [], due := 9 } ∧ m0.fusJob = none)
    ∧ ((inState .off m0).dev.st = .off ∧ m0.dev.st ≠ .off ∧ m0.dev.st ≠ .reset ∧ ({ otp0 with tapClosed := false } : Otp).tapClosed = false ∧ otp0.tapClosed = true ∧ (0x80 ≤ 0x8F ∧ 0x8F < 0x90) ∧ ¬ 0x90 < 0x90) := by
  decide +kernel

theorem witness_EveryStepKeepsMemoryCanonical : (∃ t, step { State.reset with pending := [.stW 0 (stm 8)] } = .next t) ∧ Memory.wf State.reset.m.mem = true :=
  ⟨⟨_, rfl⟩, by decide⟩

end Sys2Proof.Tests
end

section
namespace Sys2Proof.Machine

/-! ## What an instruction answers when it is not legal -/

/-- A form with a set reserved field, of any class's profile or its own, is an illegal instruction (R69). -/
theorem EngFaults.of_illegal {s : State} {e : Nat} {prof : Option EngClass} {legal : Bool} {f : Mach → Mach} {c : Instr} (h : s.m.canIssue e)
    (hp : prof = none ∨ prof = some (engClass e)) (hl : legal = false)
    (hc : exec c s = s.run (decide (e < 282)) (fun _ m => m.issue e prof legal f)) : EngFaults c s e 1 := by
  unfold EngFaults RunsTo
  rw [hc, show decide (e < 282) = true by simp [h.1], hl, State.run_of_wf, Mach.issue_illegal _ _ _ _ h hp]

/-- The same for an instruction of every class. -/
theorem EngFaults.of_illegal_common {s : State} {e : Nat} (h : s.m.canIssue e) {legal : Bool} {f : Mach → Mach} {c : Instr}
    (hl : legal = false) (hc : exec c s = s.run (decide (e < 282)) (fun _ m => m.issue e none legal f)) : EngFaults c s e 1 :=
  EngFaults.of_illegal h (.inl rfl) hl hc

/-- An instruction of another class's profile is a profile mismatch, whatever its fields (R73). -/
theorem EngFaults.of_mismatch {s : State} {e : Nat} {p : EngClass} {legal : Bool} {f : Mach → Mach} {c : Instr} (h : s.m.canIssue e)
    (hp : engClass e ≠ p) (hc : exec c s = s.run (decide (e < 282)) (fun _ m => m.issue e (some p) legal f)) : EngFaults c s e 2 := by
  unfold EngFaults RunsTo
  rw [hc, show decide (e < 282) = true by simp [h.1], State.run_of_wf, Mach.issue_mismatch _ _ _ _ _ h (Ne.symm hp)]

/-! ## Integers as words (R74) -/

theorem wordOfInt_add (a b : Word) : wordOfInt (a.toInt + b.toInt) = a + b := by
  simp [wordOfInt, BitVec.ofInt_add]

theorem wordOfInt_sub (a b : Word) : wordOfInt (a.toInt - b.toInt) = a - b :=
  BitVec.eq_of_toInt_eq (by rw [wordOfInt, BitVec.toInt_ofInt, BitVec.toInt_sub])

theorem wordOfInt_mul (a b : Word) : wordOfInt (a.toInt * b.toInt) = a * b := by
  simp [wordOfInt, BitVec.ofInt_mul]

/-- Only the magnitude of the least word leaves the signed range. -/
theorem fits32_abs (a : Word) : fits32 (if a.toInt < 0 then -a.toInt else a.toInt) = !(a == 0x80000000) := by
  have hmin : a = 0x80000000 ↔ a.toInt = -2147483648 := by
    rw [← BitVec.toInt_inj]; rfl
  have hlo : -2147483648 ≤ a.toInt := BitVec.le_toInt a
  have hhi : a.toInt < 2147483648 := BitVec.toInt_lt (x := a)
  by_cases h : a = 0x80000000
  · subst h; decide
  · have hne : a.toInt ≠ -2147483648 := fun h' => h (hmin.mpr h')
    have hb : (a == 0x80000000) = false := by simpa using h
    rw [hb]
    simp only [fits32, Bool.not_false, Bool.and_eq_true, decide_eq_true_eq]
    split <;> omega

theorem clip32_of_fits {v : Int} (h : fits32 v = true) : clip32 v = v := by
  simp only [fits32, Bool.and_eq_true, decide_eq_true_eq] at h
  unfold clip32 clampInt
  rw [if_neg (by omega), if_neg (by omega)]

/-- The value abs writes (R74). -/
theorem aluAbs_val (a b : Word) :
    (aluAbs a b).val = if a = 0x80000000 then 0x7FFFFFFF else wordOfInt (if a.toInt < 0 then -a.toInt else a.toInt) := by
  by_cases h : a = 0x80000000
  · subst h; rfl
  · rw [if_neg h]
    exact congrArg wordOfInt (clip32_of_fits (by rw [fits32_abs]; simpa using h))

theorem aluAbs_sat (a b : Word) : (aluAbs a b).sat = (a == 0x80000000) := by
  show (!fits32 _) = _
  rw [fits32_abs, Bool.not_not]

/-! ## An ALU result written (R74, R75, R78) -/

theorem predCond_iff (c : Nat) (a : Alu) : predCond c a = true ↔ CondHolds c a.r a.ru a.val := by
  match c with
  | 0 | 1 | 2 | 3 | 4 | 5 => simp [predCond, CondHolds]
  | _ + 6 => rfl

section
variable (x : Engine) (rd : BitVec 4) (a : Alu) (ps : Bool) (pd cond : Nat)

theorem Engine.putAlu_frame : x.putAlu rd a ps pd cond =
    { x with g := (x.putAlu rd a ps pd cond).g, p := (x.putAlu rd a ps pd cond).p, sat := x.sat || a.sat, ovf := x.ovf || a.ovf } := by
  unfold Engine.putAlu Engine.ovfIf Engine.satIf Engine.setPred
  rw [Engine.setGr_frame]
  split <;> rfl

theorem Engine.gr_putAlu (r : BitVec 4) : (x.putAlu rd a ps pd cond).gr r = if r = rd ∧ r ≠ 0 then a.val else x.gr r := by
  rw [← Engine.gr_setGr]
  unfold Engine.putAlu
  split <;> rfl

theorem Engine.p_putAlu_false : (x.putAlu rd a false pd cond).p = x.p := by
  show ((x.setGr rd a.val).ovfIf a.ovf |>.satIf a.sat).p = x.p
  unfold Engine.ovfIf Engine.satIf
  rw [Engine.setGr_frame]

/-- Under PS the predicate named takes the condition, and no other changes; without PS none does. -/
theorem Engine.pred_putAlu {k : Nat} (hd : pd < 4) (hk : k < 4) :
    (x.putAlu rd a ps pd cond).pred k = if ps = true ∧ pd = k then predCond cond a else x.pred k := by
  cases ps with
  | false => simp only [Engine.pred, Engine.p_putAlu_false, Bool.false_eq_true, false_and, if_false]
  | true =>
    have hx : (((x.setGr rd a.val).ovfIf a.ovf).satIf a.sat).pred k = x.pred k :=
      congrArg (Nat.testBit · k) (x.p_putAlu_false rd a pd cond)
    show (Engine.setPred _ pd (predCond cond a)).pred k = _
    rw [Engine.pred_setPred _ _ hd hk, hx]
    by_cases h : pd = k
    · simp [h]
    · simp [h, Ne.symm h]

end

theorem aLegal_iff (i : FA) : aLegal i = true ↔ i.resv = 0 ∧ (if i.ps then i.cond ≠ 7 else i.pd = 0 ∧ i.cond = 0) := by
  unfold aLegal
  cases i.ps <;> simp

theorem Mach.e_aluA (m : Mach) (e : Nat) (i : FA) (op : Word → Word → Alu) :
    (m.aluA e i op).e e = ((m.e e).putAlu i.rd (op (m.g' e i.rs) (m.g' e i.rt)) i.ps i.pd.toNat i.cond.toNat).next := by
  unfold Mach.aluA; rw [Mach.e_retire, Mach.e_modE_same]

theorem Mach.aluA_onlyEng (m : Mach) (e : Nat) (i : FA) (op : Word → Word → Alu) : m.onlyEng (m.aluA e i op) e :=
  Mach.onlyEng_trans (Mach.modE_onlyEng _ _ _) (Mach.retire_onlyEng _ _)

/-- A three-register operation that executes does what its ALU result says, and no more (R74, R75). -/
theorem AluRuns.of_aluA {s : State} {e : Nat} {i : FA} {op : Word → Word → Alu} {c : Instr} (hc : RunsTo c s ((s.m.fetch e).aluA e i op)) :
    AluRuns c s e i (op ((s.m.e e).gr i.rs) ((s.m.e e).gr i.rt)).val (op ((s.m.e e).gr i.rs) ((s.m.e e).gr i.rt)).r
      (op ((s.m.e e).gr i.rs) ((s.m.e e).gr i.rt)).ru (op ((s.m.e e).gr i.rs) ((s.m.e e).gr i.rt)).ovf
      (op ((s.m.e e).gr i.rs) ((s.m.e e).gr i.rt)).sat := by
  have he := (s.m.fetch e).e_aluA e i op
  rw [Mach.g'_fetch, Mach.g'_fetch, Mach.e_fetch] at he
  generalize op ((s.m.e e).gr i.rs) ((s.m.e e).gr i.rt) = a at he ⊢
  generalize ((s.m.fetch e).e e).ibuf = b at he
  have hf := Engine.putAlu_frame { s.m.e e with ibuf := b } i.rd a i.ps i.pd.toNat i.cond.toNat
  have hp {k : Nat} (hk : k < 4) := Engine.pred_putAlu { s.m.e e with ibuf := b } i.rd a i.ps i.pd.toNat i.cond.toNat i.pd.isLt hk
  refine ⟨_, hc, Mach.onlyEng_trans (Mach.fetch_onlyEng _ _) (Mach.aluA_onlyEng _ _ _ _), ?_, fun r => ?_, ?_, ?_, ?_, fun k hk hps hpd => ?_,
    fun k hk hn => ?_⟩
  all_goals rw [he]
  · unfold Engine.onlyAlu Engine.next; rw [hf]
  · exact Engine.gr_putAlu _ _ _ _ _ _ r
  · unfold Engine.wentOn Engine.next; rw [hf]
  · unfold Engine.next; rw [hf]
  · unfold Engine.next; rw [hf]
  · rw [← predCond_iff]
    exact Iff.of_eq (congrArg (· = true) ((hp hk).trans (if_pos ⟨hps, hpd⟩)))
  · exact (hp hk).trans (if_neg hn)

/-- Settles O6: every form is one ALU operation (`AluRuns.of_aluA`), and its value is the wrapped, clipped or plain result. -/
theorem threeRegisterFormsCompute : Obligations.ThreeRegisterFormsCompute := by
  unfold Obligations.ThreeRegisterFormsCompute
  intro s e i h
  have ill {legal f c} := @EngFaults.of_illegal_common s e h legal f c
  refine ⟨fun hn => ?_, fun hrt => ?_, fun hl => ?_⟩
  · have hl : aLegal i = false := Bool.eq_false_iff.mpr (fun h' => hn ((aLegal_iff i).mp h'))
    have habs : (aLegal i && i.rt == 0) = false := by rw [hl, Bool.false_and]
    simp only [List.forall_mem_cons]
    exact ⟨ill hl rfl, ill hl rfl, ill hl rfl, ill hl rfl, ill hl rfl, ill hl rfl, ill hl rfl, ill hl rfl, ill hl rfl, ill hl rfl, ill hl rfl,
      ill hl rfl, ill hl rfl, ill hl rfl, ill habs rfl, fun _ hc => absurd hc List.not_mem_nil⟩
  · exact ill (Bool.and_eq_false_imp.mpr (fun _ => beq_false_of_ne hrt)) rfl
  · have hl : aLegal i = true := (aLegal_iff i).mpr hl
    have run {c : Instr} (op : Word → Word → Alu)
        (hc : exec c s = s.run (decide (e < 282)) (fun _ m => m.issue e none (aLegal i) (fun m => m.aluA e i op))) :=
      AluRuns.of_aluA (exec_issue s e _ _ h hl c hc)
    extract_lets a b n sum dif pro mag pl
    refine ⟨?add, ?sub, ?mul, run aluAdds rfl, run aluSubs rfl, fun hrt => ?abs, run aluMulh rfl, run aluAnd rfl, run aluOr rfl, run aluXor rfl,
      run aluShl rfl, run aluShr rfl, run aluSra rfl, run aluMin rfl, run aluMax rfl⟩
    case add => rw [← wordOfInt_add]; exact run aluAdd rfl
    case sub => rw [← wordOfInt_sub]; exact run aluSub rfl
    case mul => rw [← wordOfInt_mul]; exact run aluMul rfl
    case abs =>
      have := AluRuns.of_aluA (exec_issue s e (aLegal i && i.rt == 0) (fun m => m.aluA e i aluAbs) h (by rw [hl, hrt]; rfl) (.abs e i) rfl)
      rwa [aluAbs_val, aluAbs_sat] at this

end Sys2Proof.Machine
end

section
namespace Sys2Proof.Machine

/-! ## Immediate forms, li and lui (R76, R77) -/

/-- An ALU result written without PS, followed by the next instruction, is an immediate operation. -/
theorem ImmRuns.of_putAlu {s : State} {e : Nat} {rd : BitVec 4} {a : Alu} {pd cond : Nat} {m' : Mach} {c : Instr} (hc : RunsTo c s m')
    (ho : s.m.onlyEng m' e) (he : m'.e e = (((s.m.fetch e).e e).putAlu rd a false pd cond).next) :
    ImmRuns c s e rd a.val a.ovf a.sat := by
  rw [Mach.e_fetch] at he
  generalize ((s.m.fetch e).e e).ibuf = b at he
  have hf := Engine.putAlu_frame { s.m.e e with ibuf := b } rd a false pd cond
  refine ⟨m', hc, ho, ?_, ?_, fun r => ?_, ?_, ?_, ?_⟩
  all_goals rw [he]
  · unfold Engine.onlyAlu Engine.next; rw [hf]
  · exact Engine.p_putAlu_false _ rd a pd cond
  · exact Engine.gr_putAlu _ _ _ _ _ _ r
  · unfold Engine.wentOn Engine.next; rw [hf]
  · unfold Engine.next; rw [hf]
  · unfold Engine.next; rw [hf]

theorem Mach.e_aluI (m : Mach) (e : Nat) (i : FI) (imm : Word) (op : Word → Word → Alu) :
    (m.aluI e i imm op).e e = ((m.e e).putAlu i.rd (op ((m.e e).gr i.rs) imm) false 0 0).next := by
  unfold Mach.aluI; rw [Mach.e_retire, Mach.e_modE_same]

theorem Mach.aluI_onlyEng (m : Mach) (e : Nat) (i : FI) (imm : Word) (op : Word → Word → Alu) : m.onlyEng (m.aluI e i imm op) e :=
  Mach.onlyEng_trans (Mach.modE_onlyEng _ _ _) (Mach.retire_onlyEng _ _)

theorem ImmRuns.of_aluI {s : State} {e : Nat} {i : FI} {imm : Word} {op : Word → Word → Alu} {c : Instr}
    (hc : RunsTo c s ((s.m.fetch e).aluI e i imm op)) :
    ImmRuns c s e i.rd (op ((s.m.e e).gr i.rs) imm).val (op ((s.m.e e).gr i.rs) imm).ovf (op ((s.m.e e).gr i.rs) imm).sat := by
  have he := (s.m.fetch e).e_aluI e i imm op
  rw [Mach.gr_fetch] at he
  exact .of_putAlu hc (Mach.onlyEng_trans (Mach.fetch_onlyEng _ _) (Mach.aluI_onlyEng _ _ _ _ _)) he

/-- A result that sets no flag is an ALU result whose R is its 32-bit value. -/
theorem Engine.putAlu_plain (x : Engine) (rd : BitVec 4) (v : Word) : x.putAlu rd (.plain v) false 0 0 = x.setGr rd v := by
  rw [Engine.putAlu_frame, Engine.p_putAlu_false, Engine.setGr_frame x]
  simp only [Alu.plain, Bool.or_false]
  rfl

theorem ImmRuns.of_result {s : State} {e : Nat} {rd : BitVec 4} {v : Word} {c : Instr} (hc : RunsTo c s ((s.m.fetch e).result e rd v)) :
    ImmRuns c s e rd v false false :=
  .of_putAlu (a := .plain v) hc (Mach.onlyEng_trans (Mach.fetch_onlyEng _ _) (Mach.result_onlyEng _ _ _ _))
    (by rw [Engine.putAlu_plain, Mach.e_result])

/-- A legal shift amount is its own low five bits (R76). -/
theorem zext16_mod (i : FI) (h : i.imm.toNat < 32) : (zext16 i).toNat % 32 = i.imm.toNat := by
  have : (zext16 i).toNat = i.imm.toNat % 2 ^ 32 := BitVec.toNat_setWidth ..
  omega

/-- Settles O7: every form is one ALU operation on the extended immediate (`ImmRuns.of_aluI`), li and lui a result alone. -/
theorem immediateFormsCompute : Obligations.ImmediateFormsCompute := by
  unfold Obligations.ImmediateFormsCompute
  intro s e i h
  have ill {legal f c} := @EngFaults.of_illegal_common s e h legal f c
  refine ⟨fun hn => ?_, fun hn => ?_, fun hn => ?_, fun hl => ?_⟩
  · have hl : (i.resv == 0) = false := beq_false_of_ne hn
    have hs : shiftOk i = false := by unfold shiftOk; rw [hl, Bool.false_and]
    have hli : (i.resv == 0 && i.rs == 0) = false := by rw [hl, Bool.false_and]
    simp only [List.forall_mem_cons]
    exact ⟨ill hl rfl, ill hl rfl, ill hl rfl, ill hl rfl, ill hs rfl, ill hs rfl, ill hs rfl, ill hl rfl, ill hl rfl, ill hl rfl, ill hl rfl,
      ill hli rfl, ill hli rfl, fun _ hc => absurd hc List.not_mem_nil⟩
  · have hs : shiftOk i = false := Bool.and_eq_false_imp.mpr (fun _ => decide_eq_false (Nat.not_lt.mpr hn))
    exact ⟨ill hs rfl, ill hs rfl, ill hs rfl⟩
  · have hli : (i.resv == 0 && i.rs == 0) = false := Bool.and_eq_false_imp.mpr (fun _ => beq_false_of_ne hn)
    exact ⟨ill hli rfl, ill hli rfl⟩
  · have hr : (i.resv == 0) = true := beq_iff_eq.mpr hl
    have run {c : Instr} {legal : Bool} (imm : Word) (op : Word → Word → Alu) (hl : legal = true)
        (hc : exec c s = s.run (decide (e < 282)) (fun _ m => m.issue e none legal (fun m => m.aluI e i imm op))) :=
      ImmRuns.of_aluI (exec_issue s e _ _ h hl c hc)
    extract_lets a z x n sum pro pl
    refine ⟨?add, ?mul, run x aluAdds hr rfl, run z aluAnd hr rfl, run z aluOr hr rfl, run z aluXor hr rfl, fun hn => ?shifts,
      run x aluMin hr rfl, run x aluMax hr rfl, fun hs => ?li, fun hs => ?lui⟩
    case add => rw [← wordOfInt_add]; exact run x aluAdd hr rfl
    case mul => rw [← wordOfInt_mul]; exact run x aluMul hr rfl
    case shifts =>
      have hs : shiftOk i = true := by unfold shiftOk; rw [hr, decide_eq_true hn, Bool.and_self]
      have hz : n = z.toNat % 32 := (zext16_mod i hn).symm
      rw [hz]
      exact ⟨run z aluShl hs rfl, run z aluShr hs rfl, run z aluSra hs rfl⟩
    case li =>
      exact ImmRuns.of_result (exec_issue s e (i.resv == 0 && i.rs == 0) (fun m => m.result e i.rd x) h (by rw [hl, hs]; rfl) _ rfl)
    case lui =>
      have := exec_issue s e (i.resv == 0 && i.rs == 0) (fun m => m.result e i.rd ((z <<< 16) ||| (m.g' e i.rd &&& 0xFFFF))) h
        (by rw [hl, hs]; rfl) (.lui e i) rfl
      rw [Mach.g'_fetch] at this
      exact ImmRuns.of_result this

end Sys2Proof.Machine
end

section
namespace Sys2Proof.Machine

/-! ## What fetching leaves of an engine (R96) -/

section
variable (m : Mach) (e : Nat)

@[simp] theorem Mach.pc_fetch : ((m.fetch e).e e).pc = (m.e e).pc := by rw [Mach.e_fetch]
@[simp] theorem Mach.calls_fetch : ((m.fetch e).e e).calls = (m.e e).calls := by rw [Mach.e_fetch]
@[simp] theorem Mach.loops_fetch : ((m.fetch e).e e).loops = (m.e e).loops := by rw [Mach.e_fetch]
@[simp] theorem Mach.held_fetch : ((m.fetch e).e e).held = (m.e e).held := by rw [Mach.e_fetch]
@[simp] theorem Mach.openq_fetch : ((m.fetch e).e e).openq = (m.e e).openq := by rw [Mach.e_fetch]
@[simp] theorem Mach.pred_fetch (k : Nat) : ((m.fetch e).e e).pred k = (m.e e).pred k := by rw [Mach.e_fetch]; rfl

@[simp] theorem Mach.mword_fetch (a : Nat) : (m.fetch e).mword a = m.mword a := by
  unfold Mach.mword; rw [Mach.mnat_of_mem (m.mem_fetch e)]

@[simp] theorem Mach.progBase_fetch : (m.fetch e).progBase e = m.progBase e := by
  unfold Mach.progBase Mach.poolOf Mach.fld; simp only [Mach.reg_fetch]

@[simp] theorem Mach.target_fetch (i : FB) : (m.fetch e).target e i = toField 32 ((m.e e).pc + 4 * i.off.toInt) := by
  unfold Mach.target; rw [Mach.pc_fetch]

end

/-! ## Going elsewhere (R81 to R83) -/

section
variable {s : State} {e : Nat} {c : Instr}

/-- A command that leaves engine `e` as `y`, but for the instruction buffer, and everything else as it was. -/
theorem Runs.of_engine (y : Engine) {m' : Mach} (hc : RunsTo c s m') (ho : (s.m.fetch e).onlyEng m' e)
    (he : ∃ b, m'.e e = { y with ibuf := b }) : Runs c s (fun m' => s.m.onlyEng m' e ∧ m'.e e = { y with ibuf := (m'.e e).ibuf }) := by
  obtain ⟨b, hb⟩ := he
  exact ⟨m', hc, Mach.onlyEng_trans (Mach.fetch_onlyEng _ _) ho, by rw [hb]⟩

/-- A jump to `t` after a change of the call stack or the loop levels leaves everything else as it was. -/
theorem Runs.of_jump {t : Nat} {loops : List LoopLevel} {calls : List Nat} {m' : Mach} (hc : RunsTo c s m')
    (ho : (s.m.fetch e).onlyEng m' e) (he : m'.e e = { (s.m.fetch e).e e with pc := t, loops := loops, calls := calls }) :
    Runs c s (fun m' => s.m.onlyEng m' e
      ∧ m'.e e = { s.m.e e with pc := t, loops := loops, calls := calls, ibuf := (m'.e e).ibuf }) :=
  Runs.of_engine { s.m.e e with pc := t, loops := loops, calls := calls } hc ho ⟨((s.m.fetch e).e e).ibuf, by rw [he, Mach.e_fetch]⟩

/-- A taken branch or return goes to `t` and pops the levels it leaves. -/
theorem Runs.of_leave {t : Nat} {m : Mach} {calls : List Nat} (hc : RunsTo c s (m.leave e t)) (ho : (s.m.fetch e).onlyEng m e)
    (he : m.e e = { (s.m.fetch e).e e with calls := calls }) :
    Runs c s (fun m' => s.m.onlyEng m' e
      ∧ m'.e e = { s.m.e e with pc := t, loops := leaveLoops (s.m.e e).pc t (s.m.e e).loops, calls := calls, ibuf := (m'.e e).ibuf }) :=
  Runs.of_jump hc (Mach.onlyEng_trans ho (Mach.leave_onlyEng _ _ _)) (by rw [Mach.e_leave, he, Mach.pc_fetch, Mach.loops_fetch])

/-- An instruction without an effect of its own goes on to the next one. -/
theorem Runs.of_retire (hc : RunsTo c s ((s.m.fetch e).retire e)) :
    Runs c s (fun m' => s.m.onlyEng m' e
      ∧ m'.e e = { s.m.e e with pc := (loopStep (s.m.e e).pc (s.m.e e).loops).1, loops := (loopStep (s.m.e e).pc (s.m.e e).loops).2
                                calls := (s.m.e e).calls, ibuf := (m'.e e).ibuf }) :=
  Runs.of_jump hc (Mach.retire_onlyEng _ _) (by
    rw [Mach.e_retire, Engine.next, Mach.pc_fetch, Mach.loops_fetch, ← Mach.calls_fetch s.m e])

end

/-! ## halt (R81, R85, R92) -/

theorem engNumber_of_sq {e : Nat} (h : engClass e = .sq) : 256 + engInst e = e := by
  unfold engClass at h
  unfold engInst
  grind

/-- What halting makes of an engine: a wait ends without its status, an open record and a pending stop are gone (R99, R105). -/
def Engine.haltedAt (x : Engine) (c : Nat) (st : EngState) (cause : Nat) : Engine :=
  { x.enter c st with stopCause := cause, openq := none, recbuf := [], stopping := none }

/-- Engine `e` halts as its class does: a sequencer closes the open cells of its ports with it (R269). -/
def Mach.haltByClass (m : Mach) (e : Nat) (st : EngState) (cause : Nat) : Mach :=
  match engClass e with
  | .sq => m.haltSeqAs (engInst e) st cause
  | _ => m.haltEngine e st cause

theorem Mach.e_haltByClass (m : Mach) (e : Nat) (st : EngState) (cause k : Nat) :
    (m.haltByClass e st cause).e k = if k = e then (m.e e).haltedAt m.cyc st cause else m.e k := by
  unfold Mach.haltByClass
  split
  · next hc => rw [Mach.e_haltSeqAs, engNumber_of_sq hc]; rfl
  · exact Mach.e_haltEngine _ _ _ _ _

/-- halt stops its engine with STOP_CAUSE 2, unless it holds a handle or an open record. -/
theorem runsTo_halt {s : State} {e : Nat} {i : FS} (h : s.m.canIssue e) (hl : plainS i = true) :
    RunsTo (.halt e i) s (if (s.m.e e).held.isSome || (s.m.e e).openq.isSome then (s.m.fetch e).engFault e 5
      else (s.m.fetch e).haltByClass e .halted 2) := by
  have := exec_issue s e _ _ h hl (.halt e i) rfl
  rw [Mach.held_fetch, Mach.openq_fetch] at this
  exact this

theorem halt_halts {s : State} {e : Nat} {i : FS} (h : s.m.canIssue e) (hl : plainS i = true) (hh : (s.m.e e).held = none)
    (ho : (s.m.e e).openq = none) :
    Runs (.halt e i) s (fun m' => (m'.e e).st = .halted ∧ (m'.e e).stopCause = 2 ∧ (m'.e e).wait = .none
      ∧ (m'.e e).g = (s.m.e e).g ∧ (m'.e e).pc = (s.m.e e).pc ∧ (∀ k, k ≠ e → m'.e k = s.m.e k)) := by
  have hr := runsTo_halt h hl
  rw [hh, ho, if_neg (by decide)] at hr
  have he := (s.m.fetch e).e_haltByClass e .halted 2
  have hx := he e
  rw [if_pos rfl, Mach.e_fetch] at hx
  exact ⟨_, hr, congrArg Engine.st hx, congrArg Engine.stopCause hx, congrArg Engine.wait hx, (congrArg Engine.g hx).trans rfl,
    (congrArg Engine.pc hx).trans rfl, fun k hk => by rw [he k, if_neg hk, Mach.e_fetch_ne _ hk]⟩

/-- Settles O10: each instruction is a jump, a branch that pops levels, or the next instruction (`Runs.of_jump`, `Runs.of_leave`,
`Runs.of_retire`), a fault, or a halt. -/
theorem controlFlowMovesThePc : Obligations.ControlFlowMovesThePc := by
  unfold Obligations.ControlFlowMovesThePc
  refine ⟨fun s e h => ?_, fun s e i h hl => ⟨fun hh ho => halt_halts h hl hh ho, fun hho => ?_⟩⟩
  · have leaves {t : Nat} {c : Instr} (hc : RunsTo c s ((s.m.fetch e).leave e t)) :=
      Runs.of_leave hc (calls := (s.m.e e).calls) ⟨rfl, fun _ _ => rfl⟩ (by rw [← Mach.calls_fetch s.m e])
    refine ⟨fun i => ⟨fun hl => ?b, fun hl hroom => ?call, fun hl hfull => ?callFull, fun hl htaken => ?bcTaken, fun hl hnot => ?bcNot⟩,
      fun i hl => ⟨?nop, fun t rest hcalls => ?ret, fun hcalls => ?retEmpty⟩, fun i hresv hrd himm => ?loop⟩
    case b =>
      have := exec_issue s e _ _ h hl (.b e i) rfl
      rw [Mach.target_fetch] at this
      exact leaves this
    case call =>
      have := exec_issue s e _ _ h hl (.call e i) rfl
      rw [Mach.calls_fetch, if_neg (Nat.not_le.mpr hroom), Mach.target_fetch] at this
      exact Runs.of_jump this (Mach.onlyEng_trans (Mach.modE_onlyEng _ _ _) (Mach.jump_onlyEng _ _ _))
        (by rw [Mach.e_jump, Mach.e_modE_same, Mach.pc_fetch, Mach.calls_fetch, ← Mach.loops_fetch s.m e])
    case callFull =>
      have := exec_issue s e _ _ h hl (.call e i) rfl
      rwa [Mach.calls_fetch, if_pos hfull] at this
    case bcTaken =>
      have := exec_issue s e _ _ h (beq_iff_eq.mpr hl) (.bc e i) rfl
      rw [Mach.pred_fetch, if_pos htaken, Mach.target_fetch] at this
      exact leaves this
    case bcNot =>
      have := exec_issue s e _ _ h (beq_iff_eq.mpr hl) (.bc e i) rfl
      rw [Mach.pred_fetch, if_neg hnot] at this
      exact Runs.of_retire this
    case nop => exact Runs.of_retire (exec_issue s e _ _ h hl (.nop e i) rfl)
    case ret =>
      have := exec_issue s e _ _ h hl (.ret e i) rfl
      rw [Mach.calls_fetch, hcalls] at this
      exact Runs.of_leave this (Mach.modE_onlyEng _ _ _) (Mach.e_modE_same _ _ _)
    case retEmpty =>
      have := exec_issue s e _ _ h hl (.ret e i) rfl
      rwa [Mach.calls_fetch, hcalls] at this
    case loop =>
      have hl : (i.resv == 0 && i.rd == 0 && i.imm != 0) = true := by rw [hresv, hrd, bne_iff_ne.mpr himm]; rfl
      have hc := exec_issue s e _ _ h hl (.loop e i) rfl
      simp only [Mach.pc_fetch, Mach.progBase_fetch, Mach.mword_fetch, Mach.gn_fetch, Mach.loops_fetch] at hc
      extract_lets last n bad
      refine ⟨fun hb => ?_, fun hb hn => ?_, fun hb hn hlev => ?_, fun hb hn hlev => ?_⟩
      · rwa [if_pos hb] at hc
      · rw [if_neg hb, if_pos hn] at hc
        exact Runs.of_jump hc (Mach.jump_onlyEng _ _ _) (by rw [Mach.e_jump, ← Mach.loops_fetch s.m e, ← Mach.calls_fetch s.m e])
      · rw [if_neg hb, if_neg hn, if_neg (Nat.not_le.mpr hlev)] at hc
        exact Runs.of_jump hc (Mach.modE_onlyEng _ _ _) (by rw [Mach.e_modE_same, Mach.loops_fetch, ← Mach.calls_fetch s.m e])
      · rwa [if_neg hb, if_neg hn, if_pos hlev] at hc
  · have hr := runsTo_halt h hl
    rwa [if_pos (by simpa using hho)] at hr

end Sys2Proof.Machine
end

section
namespace Sys2Proof.Machine

/-! ## Supervisor traps (R100) -/

@[simp] theorem Mach.inTrap_fetch (m : Mach) (e : Nat) : ((m.fetch e).e e).inTrap = (m.e e).inTrap := by rw [Mach.e_fetch]

@[simp] theorem Mach.tvec_fetch (m : Mach) (e : Nat) : ((m.fetch e).e e).tvec = (m.e e).tvec := by rw [Mach.e_fetch]

section
variable {s : State} {e : Nat} {i : FX}

/-- What a legal trap of a supervisor answers. -/
theorem runsTo_trap (h : s.m.canIssue e) (hsv : engClass e = .sv) (hl : noRegsX i = true) (hx : i.xi.toNat < 256) :
    RunsTo (.trap e i) s (if (s.m.e e).inTrap || (s.m.e e).tvec % 2 == 0 then (s.m.fetch e).engFault e 1
      else (s.m.fetch e).modE e (fun x =>
        { x with epc := x.pc + 4, cause := 0x100 + i.xi.toNat, inTrap := true, pc := x.tvec % 2 ^ 18 / 4 * 4 })) := by
  rw [← s.m.inTrap_fetch e, ← s.m.tvec_fetch e]
  exact exec_issue_profile s e .sv (noRegsX i && decide (i.xi.toNat < 256)) _ h hsv (by simp [hl, hx]) (.trap e i) rfl

/-- What a legal eret of a supervisor answers. -/
theorem runsTo_eret (h : s.m.canIssue e) (hsv : engClass e = .sv) (hl : noRegsX i = true) (hx : i.xi = 0) :
    RunsTo (.eret e i) s (if (s.m.e e).inTrap then (s.m.fetch e).modE e (fun x => { x with pc := x.epc, inTrap := false })
      else (s.m.fetch e).engFault e 1) := by
  rw [← s.m.inTrap_fetch e]
  exact exec_issue_profile s e .sv (noRegsX i && i.xi == 0) _ h hsv (by rw [hl, hx]; rfl) (.eret e i) rfl

end

/-- Settles O12: an illegal form and another class's engine fault at issue; a legal one enters or leaves the handler, or faults where it may
not. -/
theorem trapAndEretEnterAndLeaveTheHandler : Obligations.TrapAndEretEnterAndLeaveTheHandler := by
  unfold Obligations.TrapAndEretEnterAndLeaveTheHandler
  intro s e i h
  refine ⟨fun hsv hl hx hin htv => ?_, fun hsv hl hx hno => ?_, fun hsv hbad => ?_, fun hsv hbad => ?_, fun hsv hl hx hin => ?_,
    fun hsv hl hx hin => ?_, fun hsv => ?_⟩
  · have hr := runsTo_trap h hsv hl hx
    rw [if_neg (by simp [hin, htv])] at hr
    exact Runs.of_engine { s.m.e e with epc := (s.m.e e).pc + 4, cause := 0x100 + i.xi.toNat, inTrap := true
                                        pc := (s.m.e e).tvec % 2 ^ 18 / 4 * 4 }
      hr (Mach.modE_onlyEng _ _ _) ⟨_, by rw [Mach.e_modE_same, Mach.e_fetch]⟩
  · have hr := runsTo_trap h hsv hl hx
    rwa [if_pos (by simpa using hno)] at hr
  · have hl : (noRegsX i && decide (i.xi.toNat < 256)) = false := by
      rcases hbad with hb | hb
      · rw [hb, Bool.false_and]
      · rw [decide_eq_false (Nat.not_lt.mpr hb), Bool.and_false]
    exact EngFaults.of_illegal h (.inr (by rw [hsv])) hl rfl
  · have hl : (noRegsX i && i.xi == 0) = false := by
      rcases hbad with hb | hb
      · rw [hb, Bool.false_and]
      · rw [beq_false_of_ne hb, Bool.and_false]
    exact EngFaults.of_illegal h (.inr (by rw [hsv])) hl rfl
  · have hr := runsTo_eret h hsv hl hx
    rw [if_pos hin] at hr
    exact Runs.of_engine { s.m.e e with pc := (s.m.e e).epc, inTrap := false } hr (Mach.modE_onlyEng _ _ _)
      ⟨_, by rw [Mach.e_modE_same, Mach.e_fetch]⟩
  · have hr := runsTo_eret h hsv hl hx
    rwa [if_neg (by rw [hin]; decide)] at hr
  · exact ⟨EngFaults.of_mismatch h hsv rfl, EngFaults.of_mismatch h hsv rfl⟩

end Sys2Proof.Machine
end

section
namespace Sys2Proof.Machine

/-! ## Engine faults (R84, R97 to R101) -/

theorem Mach.trapsTo_fetch (m : Mach) (e code : Nat) : (m.fetch e).trapsTo e code = m.trapsTo e code := by
  unfold Mach.trapsTo; rw [Mach.inTrap_fetch, Mach.tvec_fetch]

/-- A well-formed command answers the state with what its meaning makes of the machine. -/
theorem Runs.of_run {c : Instr} {s : State} (o : Host.Outcome State Fault Refusal) {ok : Bool} {f : Otp → Mach → Mach} {P : Mach → Prop}
    (hc : exec c s = o) (ho : o = s.run ok f) (hok : ok = true) (hP : P (f s.otp s.m)) : Runs c s P :=
  ⟨_, by rw [hc, ho, hok, State.run_of_wf], hP⟩

section
variable {s : State} {e code : Nat} {c : Instr}

/-- A fault that no trap takes leaves its engine FAULTED, its registers and its PC kept (R97, R99). -/
theorem Runs.faulted_of_engFaults (hc : EngFaults c s e code) (ht : s.m.trapsTo e code = false) :
    Runs c s (fun m' => (s.m.e e).faulted (m'.e e)) := by
  have hf := Mach.engFault_stops (s.m.fetch e) e code (by rw [Mach.trapsTo_fetch, ht])
  rw [Mach.e_fetch] at hf
  exact ⟨_, hc, hf⟩

/-- A fault that a trap takes goes to the handler, with epc, cause and IN_TRAP set (R101). -/
theorem Runs.trapped_of_engFaults (hc : EngFaults c s e code) (ht : s.m.trapsTo e code = true) (he : e < 282) : Runs c s (fun m' =>
    (m'.e e).st = (s.m.e e).st ∧ (m'.e e).epc = (s.m.e e).pc ∧ (m'.e e).cause = code ∧ (m'.e e).inTrap = true
      ∧ (m'.e e).pc = (s.m.e e).tvec % 2 ^ 18 / 4 * 4 ∧ (m'.e e).g = (s.m.e e).g) := by
  have hx := Mach.engFault_traps (s.m.fetch e) e code (by rw [Mach.trapsTo_fetch, ht]) he
  rw [Mach.e_fetch] at hx
  refine ⟨_, hc, ?_⟩
  simp only [hx, true_and]

/-- Codes 7 and 8 trap nowhere (R101). -/
theorem Mach.trapsTo_of_late (m : Mach) (h : 7 ≤ code) (h' : code < 0x10) : m.trapsTo e code = false := by
  simp [Mach.trapsTo, Nat.not_le.mpr h, Nat.not_le.mpr h']

end

/-- A lockstep mismatch stops the pair whatever tvec says, and neither its report nor the entry to OASIS changes the engine (R101). -/
theorem lockstep_faults {s : State} {n : Nat} (hn : n < 2)
    (hst : s.m.dev.st = .boot ∨ s.m.dev.st = .linked ∨ s.m.dev.st = .loaded ∨ s.m.hot = true ∨ s.m.dev.st = .oasis) :
    Runs (.lockstepMismatch n) s (fun m' => (s.m.e (280 + n)).faulted (m'.e (280 + n))) := by
  have hlive : ¬ (s.m.dev.st = .off ∨ s.m.dev.st = .reset ∨ s.m.dev.st = .shutdown) := by
    unfold Mach.hot at hst
    rintro (h | h | h) <;> simp [h] at hst
  have hs (m : Mach) : m.spared (280 + n) := .inr (.inl (by omega))
  refine Runs.of_run (execLockstepMismatch n s) rfl rfl (decide_eq_true hn) ?_
  rw [if_neg hlive]
  have h1 := Mach.faulted_halt ((s.m.satInc (engPage (280 + n) + 0x18) ⟨15, 0⟩).faultRecord (280 + n) 0x28) (280 + n)
  rw [(Mach.faultRecord_frame ..).toTouches.e] at h1
  rw [Mach.e_enterOasis _ _ _ (hs _), Mach.e_supervisorDown _ _ _ (hs _), Mach.e_report _ _ _ _ _ _ (hs _)]
  exact h1

/-- Settles O11: each event is one engine fault, which traps or leaves the engine FAULTED (`Mach.engFault_traps`, `Mach.engFault_stops`); a
lockstep mismatch halts the engine itself. -/
theorem faultsStopOrTrapTheEngine : Obligations.FaultsStopOrTrapTheEngine := by
  unfold Obligations.FaultsStopOrTrapTheEngine
  intro s e he
  have hwf : decide (e < 282) = true := decide_eq_true he
  refine ⟨fun i h hbad => ?illegal, fun i h hrd hrs hrt hcode => ?program, fun w h hw => ?badWord, fun hst hstop hpc ht => ?fetch,
    fun ha => ?ecc, fun ha hlim => ?watchdog, fun n hn hst => ?lockstep⟩
  case illegal =>
    refine EngFaults.of_illegal_common h (decide_eq_false ?_) rfl
    rintro ⟨hrd, hrs, hrt, hcode⟩
    rcases hbad with hb | hb | hb | hb
    · exact hb hrd
    · exact hb hrs
    · exact hb hrt
    · omega
  case program =>
    have hf : EngFaults (.fault e (.program i)) s e i.imm.toNat :=
      exec_issue s e (decide (i.rd = 0 ∧ i.rs = 0 ∧ i.rt = 0 ∧ 0x10 ≤ i.imm.toNat)) (fun m => m.engFault e i.imm.toNat) h
        (decide_eq_true ⟨hrd, hrs, hrt, hcode⟩) _ rfl
    exact ⟨fun ht => Runs.faulted_of_engFaults hf ht, fun ht => Runs.trapped_of_engFaults hf ht he⟩
  case badWord =>
    have hf : EngFaults (.fault e (.badWord w)) s e 1 := EngFaults.of_illegal h (.inl hw) rfl rfl
    exact ⟨fun ht => Runs.faulted_of_engFaults hf ht, fun ht => Runs.trapped_of_engFaults hf ht he⟩
  case fetch =>
    refine Runs.of_run (execFault e .fetch s) rfl rfl hwf ?_
    have hi : s.m.issue e none true (fun m => m) = s.m.engFault e 4 := by simp [Mach.issue, hst, hstop, hpc]
    dsimp only
    rw [if_pos hpc, hi]
    exact Mach.engFault_stops _ _ _ ht
  case ecc =>
    refine Runs.of_run (execFault e .ecc s) rfl rfl hwf ?_
    dsimp only
    rw [if_pos ha]
    exact Mach.engFault_stops _ _ _ (Mach.trapsTo_of_late _ (by decide) (by decide))
  case watchdog =>
    refine Runs.of_run (execWatchdog e s) rfl rfl hwf ?_
    dsimp only
    rw [if_pos ⟨ha, hlim⟩]
    exact Mach.engFault_stops (s.m.advanceTo _) _ _ (Mach.trapsTo_of_late _ (by decide) (by decide))
  case lockstep =>
    subst hn
    exact lockstep_faults (by omega) hst

end Sys2Proof.Machine
end

section
namespace Sys2Proof.Machine

/-! ## Writes of CTRL (R66, R104 to R106) -/

theorem getLsbD_or_clear (v : Word) {w : Word} {k : Nat} (h : w.getLsbD k = false) : (v ||| w).getLsbD k = v.getLsbD k := by
  rw [BitVec.getLsbD_or, h, Bool.or_false]

theorem getLsbD_or_set (v : Word) {w : Word} {k : Nat} (h : w.getLsbD k = true) : (v ||| w).getLsbD k = true := by
  rw [BitVec.getLsbD_or, h, Bool.or_true]

/-- What every accepted write of CTRL does first: ENABLE takes its bit. -/
def Mach.ctrlEnable (m : Mach) (e : Nat) (v : Word) : Mach := (m.done 0).setFld (engPage e) ⟨0, 0⟩ (bit (v.getLsbD 0))

section
variable (m : Mach) (e : Nat) (v : Word)

theorem Mach.ctrlEnable_frame : Frame [.status, .regs, .eng] m (m.ctrlEnable e v) :=
  Frame.trans (.mono rfl (Mach.done_frame m 0)) (.mono rfl (Mach.setFld_frame ..))

@[simp] theorem Mach.e_ctrlEnable (k : Nat) : (m.ctrlEnable e v).e k = m.e k := rfl

theorem Mach.fld_ctrlEnable_ne {a : Nat} (f : Fld) (h : a ≠ engPage e) : (m.ctrlEnable e v).fld a f = m.fld a f :=
  Mach.fld_setFld_ne _ _ _ _ h

theorem Mach.fld_ctrlEnable : (m.ctrlEnable e v).fld (engPage e) ⟨0, 0⟩ = bit (v.getLsbD 0) := by
  unfold Mach.ctrlEnable
  rw [Mach.fld_setFld_same _ _ _ rfl]
  cases v.getLsbD 0 <;> rfl

/-- A request that changes one field of its engine changes nothing else but ENABLE (R104). -/
theorem Mach.ctrlEnable_modE (f : Engine → Engine) :
    let m' := (m.ctrlEnable e v).modE e f
    m'.e e = f (m.e e) ∧ m.othersKept m' e ∧ m'.fld (engPage e) ⟨0, 0⟩ = bit (v.getLsbD 0)
      ∧ m.regsBut m' [engPage e] ∧ Touches [.status, .regs, .eng] m m' :=
  ⟨Mach.e_modE_same .., fun j hj => by rw [Mach.e_modE, if_neg hj, Mach.e_ctrlEnable], m.fld_ctrlEnable e v,
    fun _ ha => Mach.reg_setFld_ne (m.done 0) _ _ (by simpa using ha),
    ((m.ctrlEnable_frame e v).trans (.mono rfl (Mach.modE_frame ..))).toTouches⟩

/-- REQ_ERR of a START written with ENABLE: the lowest code that applies (R104). -/
theorem Mach.startErr_ctrlEnable : (m.ctrlEnable e v).startErr e =
    if !(m.dev.st == .loaded || m.hot || (m.dev.st == .oasis && engClass e != .sq)) then 1
    else if !v.getLsbD 0 then 2
    else if !(m.e e).verified then 3
    else if (m.e e).active then 4
    else if m.fld (engPage e + 0xC) ⟨18, 2⟩ ≤ m.fld (engPage e + 8) ⟨17, 2⟩ then 6 else 0 := by
  have hon : (m.ctrlEnable e v).flag (engPage e) ⟨0, 0⟩ = v.getLsbD 0 := by
    unfold Mach.flag
    rw [Mach.fld_ctrlEnable]
    cases v.getLsbD 0 <;> rfl
  unfold Mach.startErr
  rw [hon, Mach.fld_ctrlEnable_ne _ _ _ _ (by omega), Mach.fld_ctrlEnable_ne _ _ _ _ (by omega)]
  rfl

section
variable (h6 : v.getLsbD 6 = false) (h7 : v.getLsbD 7 = false)
include h6 h7

/-- A write of CTRL that asks for STOP or START, but for neither MBCLR nor VERIFY. -/
theorem Mach.ctrlWrite_request (w : Word) (hw0 : w.getLsbD 0 = false) (hw6 : w.getLsbD 6 = false) (hw7 : w.getLsbD 7 = false) :
    m.ctrlWrite e (v ||| w) =
      if (v ||| w).getLsbD 3 then
        ((m.ctrlEnable e v).stopEngine e 1).modE e (fun x => { x with reqErr := if (v ||| w).getLsbD 2 then 5 else 0 })
      else if (v ||| w).getLsbD 2 then
        if (m.ctrlEnable e v).startErr e = 0 then (m.ctrlEnable e v).startEngine e
        else (m.ctrlEnable e v).modE e (fun x => { x with reqErr := (m.ctrlEnable e v).startErr e })
      else m.ctrlEnable e v := by
  have hen : (m.done 0).setFld (engPage e) ⟨0, 0⟩ (bit (v.getLsbD 0)) = m.ctrlEnable e v := rfl
  unfold Mach.ctrlWrite
  rw [getLsbD_or_clear v hw0, getLsbD_or_clear v hw6, getLsbD_or_clear v hw7, h6, h7, hen]
  simp only [Mach.when_false]
  cases (m.ctrlEnable e v).startErr e <;> rfl

/-- START alone starts the engine or records why not (R104). -/
theorem Mach.ctrlWrite_start (h3 : v.getLsbD 3 = false) : m.ctrlWrite e (v ||| 4) =
    if (m.ctrlEnable e v).startErr e = 0 then (m.ctrlEnable e v).startEngine e
    else (m.ctrlEnable e v).modE e (fun x => { x with reqErr := (m.ctrlEnable e v).startErr e }) := by
  rw [Mach.ctrlWrite_request m e v h6 h7 4 rfl rfl rfl, getLsbD_or_clear v (k := 3) rfl, h3, getLsbD_or_set v (k := 2) rfl]
  rfl

/-- STOP, with or without START (the order is the model's own, log entry 40). -/
theorem Mach.ctrlWrite_stop :
    m.ctrlWrite e (v ||| 8) = ((m.ctrlEnable e v).stopEngine e 1).modE e (fun x => { x with reqErr := if v.getLsbD 2 then 5 else 0 }) := by
  rw [Mach.ctrlWrite_request m e v h6 h7 8 rfl rfl rfl, getLsbD_or_set v (k := 3) rfl, getLsbD_or_clear v (k := 2) rfl]
  rfl

end

end

/-! ## An accepted START (R66) -/

theorem Mach.e_startEngine (m : Mach) (e k : Nat) :
    (m.startEngine e).e k = if k = e then (m.e e).started m.cyc (m.engEntry e) else m.e k := by
  rw [← Mach.e_modE m e k (fun x => x.started m.cyc (m.engEntry e))]
  unfold Mach.startEngine
  dsimp only
  split
  · rw [(Mach.showSeq_frame ..).toTouches.e, (Mach.setFld_frame ..).toTouches.e]
  · rw [(Mach.showHold_frame ..).toTouches.e]
  · rfl

/-- An accepted START gives its engine the state of R66 and leaves every other engine as it was. -/
theorem Mach.ctrlEnable_startEngine (m : Mach) (e : Nat) (v : Word) :
    let m' := (m.ctrlEnable e v).startEngine e
    m'.e e = (m.e e).started m.cyc (m.engEntry e) ∧ m.othersKept m' e ∧ Touches [.status, .regs, .eng] m m' := by
  refine ⟨?_, fun k hk => by rw [Mach.e_startEngine, if_neg hk, Mach.e_ctrlEnable],
    ((m.ctrlEnable_frame e v).trans (.mono rfl (Mach.startEngine_frame _ e))).toTouches⟩
  rw [Mach.e_startEngine, if_pos rfl, Mach.engEntry, Mach.fld_ctrlEnable_ne _ _ _ _ (by omega)]
  rfl

/-! ## An accepted STOP (R105, R106) -/

/-- No shot of sequencer `n` is asked for, reserved or granted. -/
def Mach.shotsDone (m : Mach) (n : Nat) : Prop :=
  ∀ z, z ∈ m.emt.shots → z.sq = n → z.stage ≠ .asked ∧ z.stage ≠ .reserved ∧ z.stage ≠ .granted

theorem Mach.edgesLeft_of_shotsDone {m : Mach} {n : Nat} (h : m.shotsDone n) : m.edgesLeft n = 0 := by
  unfold Mach.edgesLeft
  rw [List.length_eq_zero_iff, List.filter_eq_nil_iff]
  intro z hz hg
  simp only [Bool.and_eq_true, beq_iff_eq] at hg
  exact (h z hz hg.1).2.2 hg.2

theorem Mach.noneOpen_of_shotsDone {m : Mach} {n : Nat} (h : m.shotsDone n) :
    m.emt.shots.all (fun z => !(z.sq == n && (z.stage == .asked || z.stage == .reserved))) = true := by
  rw [List.all_eq_true]
  intro z hz
  by_cases hn : z.sq = n
  · obtain ⟨hask, hres, -⟩ := h z hz hn
    simp [hask, hres]
  · simp [hn]

/-- A sequencer without an open request or a granted edge stops at once. -/
theorem Mach.stopSeq_of_shotsDone {m : Mach} {n cause : Nat} (ha : (m.e (256 + n)).active = true) (h : m.shotsDone n) :
    m.stopSeq n cause = m.haltSeqAs n .stopped cause := by
  unfold Mach.stopSeq
  rw [if_pos ha, if_pos ⟨Mach.edgesLeft_of_shotsDone h, Mach.noneOpen_of_shotsDone h⟩]

/-- A sequencer with granted edges is only marked to stop (R106). -/
theorem Mach.stopEngine_of_edgesLeft {m : Mach} {e cause : Nat} (ha : (m.e e).active = true) (hc : engClass e = .sq)
    (h : m.edgesLeft (engInst e) ≠ 0) : m.stopEngine e cause = m.modE e (fun x => { x with stopping := some cause }) := by
  unfold Mach.stopEngine
  rw [ha, hc]
  show m.stopSeq (engInst e) cause = _
  unfold Mach.stopSeq
  rw [engNumber_of_sq hc, if_pos ha, if_neg (fun h' => h h'.1)]

theorem Mach.stopEngine_idle {m : Mach} {e cause : Nat} (ha : (m.e e).active = false) : m.stopEngine e cause = m := by
  unfold Mach.stopEngine
  rw [ha, if_pos Bool.not_false]

/-- A stop halts an active engine that need not wait for granted edges; a range engine loses its handle and its look. -/
theorem Mach.e_stopEngine {m : Mach} {e cause : Nat} (ha : (m.e e).active = true) (h : engClass e ≠ .sq ∨ m.shotsDone (engInst e)) :
    (m.stopEngine e cause).e e = if engClass e = .re then { (m.e e).haltedAt m.cyc .stopped cause with look := none, held := none }
      else (m.e e).haltedAt m.cyc .stopped cause := by
  have hh : (m.haltEngine e .stopped cause).e e = (m.e e).haltedAt m.cyc .stopped cause := by
    rw [Mach.e_haltEngine, if_pos rfl]; rfl
  have hi : ((m.haltEngine e .stopped cause).e e).active = false := by rw [hh]; rfl
  unfold Mach.stopEngine
  rw [ha]
  cases hc : engClass e with
  | sq =>
    have hn := engNumber_of_sq hc
    show (m.stopSeq (engInst e) cause).e e = _
    rw [Mach.stopSeq_of_shotsDone (by rwa [hn]) (h.resolve_left (fun h' => h' hc)), Mach.e_haltSeqAs, hn, if_pos rfl]
    rfl
  | re =>
    show ((m.haltEngine e .stopped cause).loseHandle e).e e = _
    rw [Mach.e_loseHandle _ _ hi, hh]
    rfl
  | ae => exact hh
  | sv =>
    show ((m.haltEngine e .stopped cause).supervisorDown (engInst e)).e e = _
    rw [Mach.e_supervisorDown _ _ _ (.inr (.inr hi))]
    exact hh

/-! ## START and STOP -/

section
variable {s : State} {src : Src} {e : Nat} {v : Word}

theorem Mach.ctrlBy_of_mayWrite {m : Mach} (h : m.mayWrite src (engClass e).blk (engInst e) 0 = 0) : m.ctrlBy src e v = m.ctrlWrite e v := by
  unfold Mach.ctrlBy Mach.asWriter
  rw [h]
  rfl

variable (hsrc : src.wf = true) (he : e < 282) (hmay : s.m.mayWrite src (engClass e).blk (engInst e) 0 = 0)
  (h6 : v.getLsbD 6 = false) (h7 : v.getLsbD 7 = false)
include hsrc he hmay h6 h7

/-- START writes CTRL (R104). -/
theorem Runs.of_start {P : Mach → Prop} (h3 : v.getLsbD 3 = false)
    (hP : P (if (s.m.ctrlEnable e v).startErr e = 0 then (s.m.ctrlEnable e v).startEngine e
      else (s.m.ctrlEnable e v).modE e (fun x => { x with reqErr := (s.m.ctrlEnable e v).startErr e }))) : Runs (.start src e v) s P := by
  have hwf : wfStart src e v = true := by simp [wfStart, hsrc, he]
  refine Runs.of_run (execStart src e v s) rfl rfl hwf ?_
  rwa [Mach.ctrlBy_of_mayWrite hmay, Mach.ctrlWrite_start _ _ _ h6 h7 h3]

/-- STOP writes CTRL (R105). -/
theorem Runs.of_stop {P : Mach → Prop} (hP : P (((s.m.ctrlEnable e v).stopEngine e 1).modE e
      (fun x => { x with reqErr := if v.getLsbD 2 then 5 else 0 }))) : Runs (.stop src e v) s P := by
  have hwf : wfStop src e v = true := by simp [wfStop, hsrc, he]
  refine Runs.of_run (execStop src e v s) rfl rfl hwf ?_
  rwa [Mach.ctrlBy_of_mayWrite hmay, Mach.ctrlWrite_stop _ _ _ h6 h7]

end

/-- Settles O16: a START answers the state of R66 or REQ_ERR (`Mach.startErr_ctrlEnable`), a STOP halts the engine at once
(`Mach.e_stopEngine`) or after its granted edges (`Mach.stopEngine_of_edgesLeft`). -/
theorem startAndStopOfEngines : Obligations.StartAndStopOfEngines := by
  unfold Obligations.StartAndStopOfEngines
  intro s src e v hsrc he hmay h6 h7
  have herr := s.m.startErr_ctrlEnable e v
  have hstate : (s.m.dev.st == .loaded || s.m.hot || (s.m.dev.st == .oasis && engClass e != .sq)) = true
      ↔ (s.m.dev.st = .loaded ∨ s.m.hot = true ∨ (s.m.dev.st = .oasis ∧ engClass e ≠ .sq)) := by
    simp [or_assoc]
  extract_lets x okState entry len errs
  refine ⟨fun h3 => ?start, ?stop⟩
  case start =>
    have refused {k : Nat} (hk : (s.m.ctrlEnable e v).startErr e = k) (h0 : k ≠ 0) : errs (.start src e v) k := by
      refine Runs.of_start hsrc he hmay h6 h7 h3 ?_
      rw [hk, if_neg h0]
      exact s.m.ctrlEnable_modE e v _
    refine ⟨fun hok hen hver hact hlen => ?ok, fun hok => refused ?_ (by decide), fun hok hen => refused ?_ (by decide),
      fun hok hen hver => refused ?_ (by decide), fun hok hen hver hact => refused ?_ (by decide),
      fun hok hen hver hact hlen => refused ?_ (by decide)⟩
    case ok =>
      have h0 : (s.m.ctrlEnable e v).startErr e = 0 := by
        rw [herr, hstate.mpr hok, hen, hver, hact, if_neg (Nat.not_le.mpr hlen)]; rfl
      refine Runs.of_start hsrc he hmay h6 h7 h3 ?_
      obtain ⟨hy, hothers, ht⟩ := s.m.ctrlEnable_startEngine e v
      dsimp only
      rw [if_pos h0, hy]
      exact ⟨rfl, rfl, rfl, fun r => ite_self _, rfl, rfl, rfl, rfl, rfl, rfl, rfl, rfl, rfl, rfl, rfl, rfl, rfl, rfl, hothers, ht⟩
    · rw [herr, Bool.eq_false_iff.mpr (fun h => hok (hstate.mp h))]; rfl
    · rw [herr, hstate.mpr hok, hen]; rfl
    · rw [herr, hstate.mpr hok, hen, hver]; rfl
    · rw [herr, hstate.mpr hok, hen, hver, hact]; rfl
    · rw [herr, hstate.mpr hok, hen, hver, hact, if_pos hlen]; rfl
  case stop =>
    refine ⟨fun hact => ?inactive, fun hact hnow => ?now, fun hact hsq hedges => ?later⟩
    case inactive =>
      refine Runs.of_stop hsrc he hmay h6 h7 ?_
      rw [Mach.stopEngine_idle (m := s.m.ctrlEnable e v) hact]
      exact s.m.ctrlEnable_modE e v _
    case now =>
      refine Runs.of_stop hsrc he hmay h6 h7 ?_
      dsimp only
      rw [Mach.e_modE_same, Mach.e_stopEngine (m := s.m.ctrlEnable e v) hact hnow]
      split
      · exact ⟨rfl, rfl, rfl, rfl, rfl, rfl, rfl, rfl, rfl, rfl, rfl, fun _ => rfl⟩
      · next hne => exact ⟨rfl, rfl, rfl, rfl, rfl, rfl, rfl, rfl, rfl, rfl, rfl, fun h => absurd h hne⟩
    case later =>
      refine Runs.of_stop hsrc he hmay h6 h7 ?_
      rw [Mach.stopEngine_of_edgesLeft (m := s.m.ctrlEnable e v) hact hsq hedges]
      have ht (f g : Engine → Engine) : Frame [.status, .regs, .eng] s.m (((s.m.ctrlEnable e v).modE e f).modE e g) :=
        ((s.m.ctrlEnable_frame e v).trans (.mono rfl (Mach.modE_frame ..))).trans (.mono rfl (Mach.modE_frame ..))
      exact ⟨by rw [Mach.e_modE_same, Mach.e_modE_same]; rfl, fun k hk => by rw [Mach.e_modE, if_neg hk, Mach.e_modE, if_neg hk]; rfl,
        (ht _ _).toTouches⟩

end Sys2Proof.Machine
end

section
namespace Sys2Proof.Machine

/-! ## Commands answered by a known machine -/

/-- A well-formed command answers the machine its meaning makes. -/
theorem RunsTo.of_run {c : Instr} {s : State} (o : Host.Outcome State Fault Refusal) {ok : Bool} {f : Otp → Mach → Mach} {m' : Mach}
    (hc : exec c s = o) (ho : o = s.run ok f) (hok : ok = true) (hm : f s.otp s.m = m') : RunsTo c s m' := by
  unfold RunsTo
  rw [hc, ho, hok, State.run_of_wf, hm]

/-! ## Device time (R109) -/

/-- Device time as the counters hold it: each part below its modulus. -/
def DTime.counted (t : DTime) : Prop := t.sec < 2 ^ 48 ∧ t.ns < 1000000000 ∧ t.frac < 2 ^ 32

theorem DTime.counted_after (t : DTime) (inc n : Nat) : (t.after inc n).counted :=
  ⟨Nat.mod_lt _ (by decide), Nat.mod_lt _ (by decide), Nat.mod_lt _ (by decide)⟩

theorem DTime.total_eq (t : DTime) : t.total = t.nanos * 2 ^ 32 + t.frac := rfl

theorem DTime.total_ofTotal (v : Nat) : (DTime.ofTotal (v : Int)).total = v % timePeriod := by
  have hv : ((v : Int) % timePeriod).toNat = v % timePeriod := by rw [← Int.natCast_emod, Int.toNat_natCast]
  unfold DTime.ofTotal DTime.total
  rw [hv]
  generalize v % timePeriod = n
  dsimp only
  omega

/-- `n` cycles at increment `inc` are `inc * n` units of 2^-32 ns, modulo the period of SEC. -/
theorem DTime.total_after (t : DTime) (inc n : Nat) : (t.after inc n).total % timePeriod = (t.total + inc * n) % timePeriod := by
  unfold DTime.after DTime.total timePeriod
  generalize inc * n = d
  dsimp only
  omega

/-- The cycles to the next carry of NS into SEC (R109). -/
def DTime.toCarry (t : DTime) (inc : Nat) : Nat := divCeil (1000000000 * 2 ^ 32 - (t.ns * 2 ^ 32 + t.frac)) inc

theorem divCeil_mul_ge {a b : Nat} (hb : 0 < b) : a ≤ divCeil a b * b := by
  unfold divCeil
  rw [if_neg (Nat.ne_of_gt hb), Nat.mul_comm]
  have hm := Nat.div_add_mod (a + b - 1) b
  have hl := Nat.mod_lt (a + b - 1) hb
  omega

theorem divCeil_mul_lt {a b : Nat} (hb : 0 < b) : divCeil a b * b < a + b := by
  unfold divCeil
  rw [if_neg (Nat.ne_of_gt hb)]
  have := Nat.div_mul_le_self (a + b - 1) b
  omega

/-- The carry comes in the first cycle at whose end NS has reached a second, and leaves less than one increment in NS and FRAC. -/
theorem DTime.after_toCarry {t : DTime} {inc : Nat} (h0 : 0 < inc) (hi : inc ≤ 2 ^ 33) (hns : t.ns < 1000000000) (hfrac : t.frac < 2 ^ 32) :
    0 < t.toCarry inc ∧ (t.after inc (t.toCarry inc)).sec = (t.sec + 1) % 2 ^ 48
      ∧ (t.after inc (t.toCarry inc)).ns * 2 ^ 32 + (t.after inc (t.toCarry inc)).frac < inc := by
  have hge := divCeil_mul_ge (a := 1000000000 * 2 ^ 32 - (t.ns * 2 ^ 32 + t.frac)) h0
  have hlt := divCeil_mul_lt (a := 1000000000 * 2 ^ 32 - (t.ns * 2 ^ 32 + t.frac)) h0
  unfold DTime.toCarry
  generalize divCeil _ inc = n at hge hlt ⊢
  have hn : 0 < n := by
    rcases Nat.eq_zero_or_pos n with rfl | h
    · omega
    · exact h
  unfold DTime.after
  dsimp only
  rw [Nat.mul_comm n inc] at hge hlt
  generalize inc * n = d at hge hlt ⊢
  exact ⟨hn, by omega, by omega⟩

/-! ## Time passing (R110) -/

section
variable (m : Mach)

theorem Mach.time_advance {m : Mach} (h : m.timeRuns = true) (n : Nat) :
    (m.advance n).time = { m.time with now := m.time.now.after m.inc n } := by
  unfold Mach.advance
  exact if_pos h

@[simp] theorem Mach.trigs_advance (n : Nat) : (m.advance n).time.trigs = m.time.trigs := by
  unfold Mach.advance
  dsimp only
  split <;> rfl

@[simp] theorem Mach.ppsEnd_advance (n : Nat) : (m.advance n).time.ppsEnd = m.time.ppsEnd := by
  unfold Mach.advance
  dsimp only
  split <;> rfl

@[simp] theorem Mach.trig_advanceTo (c t : Nat) : (m.advanceTo c).trig t = m.trig t := congrArg (mapGet _ · t) (m.trigs_advance _)

@[simp] theorem Mach.fld_advanceTo (c a : Nat) (f : Fld) : (m.advanceTo c).fld a f = m.fld a f := rfl

@[simp] theorem Mach.cyc_advanceTo (c : Nat) : (m.advanceTo c).cyc = max m.cyc c := by
  show m.cyc + (c - m.cyc) = _
  omega

theorem Mach.counted_advanceTo {m : Mach} (h : m.timeRuns = true) (c : Nat) : (m.advanceTo c).time.now.counted := by
  unfold Mach.advanceTo
  rw [Mach.time_advance h]
  exact DTime.counted_after _ _ _

end

/-! ## Counters -/

theorem Mach.fld_wrapInc_same (m : Mach) (a : Nat) (f : Fld) (hf : f.ok = true) : (m.wrapInc a f).fld a f = (m.fld a f + 1) % 2 ^ f.width :=
  Mach.fld_setFld_same _ _ _ hf _

theorem Mach.fld_satAdd_same (m : Mach) (a : Nat) (f : Fld) (k : Nat) (hf : f.ok = true) :
    (m.satAdd a f k).fld a f = min (2 ^ f.width - 1) (m.fld a f + k) := by
  unfold Mach.satAdd
  rw [Mach.fld_setFld_same _ _ _ hf, satN, Nat.min_comm, Nat.mod_eq_of_lt]
  have := Nat.two_pow_pos f.width
  omega

/-! ## Second carries and PPS_OUT (R109, R125) -/

section
variable (m : Mach) (src : Nat)

theorem Mach.ppsEnd_ppsStart : (m.ppsStart src).time.ppsEnd =
    if m.flag aTIME_PPSO fTIME_PPSO_EN && m.fld aTIME_PPSO fTIME_PPSO_SRC == src
      then some (m.cyc + 800000 * max 1 (m.fld aTIME_PPSO fTIME_PPSO_WIDTH)) else m.time.ppsEnd := by
  unfold Mach.ppsStart
  split <;> rfl

@[simp] theorem Mach.now_ppsStart : (m.ppsStart src).time.now = m.time.now := by
  unfold Mach.ppsStart
  split <;> rfl

@[simp] theorem Mach.trigs_ppsStart : (m.ppsStart src).time.trigs = m.time.trigs := by
  unfold Mach.ppsStart
  split <;> rfl

end

/-- The machine after the next second carry. -/
def Mach.secondCarried (m : Mach) : Mach := (m.advance (m.time.now.toCarry m.inc)).ppsStart 0

theorem Mach.now_secondCarried {m : Mach} (h : m.timeRuns = true) :
    m.secondCarried.time.now = m.time.now.after m.inc (m.time.now.toCarry m.inc) := by
  unfold Mach.secondCarried
  rw [Mach.now_ppsStart, Mach.time_advance h]

theorem Mach.cyc_secondCarried (m : Mach) : m.secondCarried.cyc = m.cyc + m.time.now.toCarry m.inc :=
  (Mach.ppsStart_frame _ 0).toTouches.cyc_eq

theorem Mach.ppsEnd_secondCarried (m : Mach) : m.secondCarried.time.ppsEnd =
    if m.flag aTIME_PPSO fTIME_PPSO_EN && m.fld aTIME_PPSO fTIME_PPSO_SRC == 0
      then some (m.secondCarried.cyc + 800000 * max 1 (m.fld aTIME_PPSO fTIME_PPSO_WIDTH)) else m.time.ppsEnd := by
  rw [Mach.cyc_secondCarried, Mach.secondCarried, Mach.ppsEnd_ppsStart, Mach.ppsEnd_advance]
  rfl

theorem Mach.trigs_secondCarried (m : Mach) : m.secondCarried.time.trigs = m.time.trigs := by
  unfold Mach.secondCarried
  rw [Mach.trigs_ppsStart, Mach.trigs_advance]

theorem Mach.secondCarried_frame (m : Mach) : Frame [.cyc, .time] m m.secondCarried :=
  .trans (.mono rfl (Mach.advance_frame ..)) (.mono rfl (Mach.ppsStart_frame ..))

theorem runsTo_secondCarry {s : State} (h : s.m.timeRuns = true) : RunsTo .secondCarry s s.m.secondCarried :=
  RunsTo.of_run (execSecondCarry s) rfl rfl rfl (by dsimp only; rw [h]; rfl)

theorem runsTo_secondCarry_stopped {s : State} (h : s.m.timeRuns = false) : RunsTo .secondCarry s s.m :=
  RunsTo.of_run (execSecondCarry s) rfl rfl rfl (by dsimp only; rw [h]; rfl)

theorem runsTo_ppsOutPulseEnd {s : State} {c : Nat} (h : s.m.time.ppsEnd = some c) :
    RunsTo .ppsOutPulseEnd s { s.m.advanceTo c with time := { (s.m.advanceTo c).time with ppsEnd := none } } :=
  RunsTo.of_run (execPpsOutPulseEnd s) rfl rfl rfl (by dsimp only; rw [h])

theorem runsTo_ppsOutPulseEnd_none {s : State} (h : s.m.time.ppsEnd = none) : RunsTo .ppsOutPulseEnd s s.m :=
  RunsTo.of_run (execPpsOutPulseEnd s) rfl rfl rfl (by dsimp only; rw [h])

end Sys2Proof.Machine
end

section
namespace Sys2Proof.Machine

/-! ## Captures (R117) -/

/-- What an active edge of input `n` stamped `t` does to the capture (R117). -/
def Mach.captured (m : Mach) (n : Nat) (t : DTime) : Mach :=
  let c := aTIME_CAP_CTRL n
  if !m.flag c fTIME_CAP_CTRL_EN then m
  else if m.flag c fTIME_CAP_CTRL_VALID then m.satInc c fTIME_CAP_CTRL_MISSED
  else
    let m := (m.setFld c fTIME_CAP_CTRL_VALID 1).setFld c fTIME_CAP_CTRL_STEPSEQ (m.fld aTIME_STAT fTIME_STAT_STEPSEQ)
    let m := (m.setFld (aTIME_CAP_SEC_LO n) fTIME_CAP_SEC_LO_SEC_LO t.sec).setFld (aTIME_CAP_SEC_HI n) fTIME_CAP_SEC_HI_SEC_HI (t.sec / 2 ^ 32)
    m.setFld (aTIME_CAP_NS n) fTIME_CAP_NS_NS t.ns

/-- The triggers under an edge of SYNC_IN stamped `t` (R124). -/
def Mach.realigned (m : Mach) (t : DTime) : Mach := (List.range 16).foldl (fun m k => m.realign t k) m

section
variable {m : Mach} {n : Nat} {t : DTime}

theorem Mach.captured_frame (m : Mach) (n : Nat) (t : DTime) : Frame [.regs] m (m.captured n t) :=
  .ite .refl (.ite (m.satInc_frame ..) (.trans (.trans (.trans (.trans (Mach.setFld_frame ..) (Mach.setFld_frame ..)) (Mach.setFld_frame ..))
    (Mach.setFld_frame ..)) (Mach.setFld_frame ..)))

theorem Mach.captured_off (hen : m.flag (aTIME_CAP_CTRL n) fTIME_CAP_CTRL_EN = false) : m.captured n t = m := by
  unfold Mach.captured
  dsimp only
  rw [hen]
  rfl

theorem Mach.captured_missed (hen : m.flag (aTIME_CAP_CTRL n) fTIME_CAP_CTRL_EN = true)
    (hv : m.flag (aTIME_CAP_CTRL n) fTIME_CAP_CTRL_VALID = true) : m.captured n t = m.satInc (aTIME_CAP_CTRL n) fTIME_CAP_CTRL_MISSED := by
  unfold Mach.captured
  dsimp only
  rw [hen, hv]
  rfl

/-- An edge writes no registers but those of its capture. -/
theorem Mach.captured_regsBut (m : Mach) (n : Nat) (t : DTime) :
    m.regsBut (m.captured n t) [aTIME_CAP_CTRL n, aTIME_CAP_SEC_LO n, aTIME_CAP_SEC_HI n, aTIME_CAP_NS n] := by
  intro a ha
  simp only [List.mem_cons, List.not_mem_nil, or_false, not_or] at ha
  obtain ⟨hctrl, hlo, hhi, hns⟩ := ha
  unfold Mach.captured
  dsimp only
  split
  · rfl
  · split
    · exact Mach.reg_setFld_ne _ _ _ hctrl
    · rw [Mach.reg_setFld_ne _ _ _ hns, Mach.reg_setFld_ne _ _ _ hhi, Mach.reg_setFld_ne _ _ _ hlo, Mach.reg_setFld_ne _ _ _ hctrl,
        Mach.reg_setFld_ne _ _ _ hctrl]

/-- A free capture takes the stamp and STEPSEQ. -/
theorem Mach.captured_takes (hen : m.flag (aTIME_CAP_CTRL n) fTIME_CAP_CTRL_EN = true)
    (hv : m.flag (aTIME_CAP_CTRL n) fTIME_CAP_CTRL_VALID = false) (ht : t.counted) :
    (m.captured n t).fld (aTIME_CAP_CTRL n) fTIME_CAP_CTRL_VALID = 1
      ∧ (m.captured n t).fld (aTIME_CAP_CTRL n) fTIME_CAP_CTRL_STEPSEQ = m.fld aTIME_STAT fTIME_STAT_STEPSEQ
      ∧ (m.captured n t).fld (aTIME_CAP_SEC_LO n) fTIME_CAP_SEC_LO_SEC_LO
          + 2 ^ 32 * (m.captured n t).fld (aTIME_CAP_SEC_HI n) fTIME_CAP_SEC_HI_SEC_HI = t.sec
      ∧ (m.captured n t).fld (aTIME_CAP_NS n) fTIME_CAP_NS_NS = t.ns := by
  obtain ⟨hsec, hns, -⟩ := ht
  have hstep : m.fld aTIME_STAT fTIME_STAT_STEPSEQ < 2 ^ 4 := Fld.get_lt _ _
  have hlo : aTIME_CAP_SEC_LO n = aTIME_CAP_CTRL n + 4 := by unfold aTIME_CAP_SEC_LO aTIME_CAP_CTRL; omega
  have hhi : aTIME_CAP_SEC_HI n = aTIME_CAP_CTRL n + 8 := by unfold aTIME_CAP_SEC_HI aTIME_CAP_CTRL; omega
  have hcns : aTIME_CAP_NS n = aTIME_CAP_CTRL n + 12 := by unfold aTIME_CAP_NS aTIME_CAP_CTRL; omega
  unfold Mach.captured
  dsimp only
  rw [hen, hv, hlo, hhi, hcns]
  generalize aTIME_CAP_CTRL n = c
  simp only [Bool.not_true, Bool.false_eq_true, if_false]
  refine ⟨?valid, ?stepseq, ?sec, ?ns⟩
  case valid =>
    rw [Mach.fld_setFld_ne _ _ _ _ (by omega), Mach.fld_setFld_ne _ _ _ _ (by omega), Mach.fld_setFld_ne _ _ _ _ (by omega),
      Mach.fld_setFld_apart _ _ _ _ _ _ rfl rfl, Mach.fld_setFld_same _ _ _ rfl]
    rfl
  case stepseq =>
    rw [Mach.fld_setFld_ne _ _ _ _ (by omega), Mach.fld_setFld_ne _ _ _ _ (by omega), Mach.fld_setFld_ne _ _ _ _ (by omega),
      Mach.fld_setFld_same _ _ _ rfl]
    exact Nat.mod_eq_of_lt hstep
  case sec =>
    rw [Mach.fld_setFld_ne _ _ _ _ (by omega), Mach.fld_setFld_ne _ _ _ _ (by omega), Mach.fld_setFld_same _ _ _ rfl,
      Mach.fld_setFld_ne _ _ _ _ (by omega), Mach.fld_setFld_same _ _ _ rfl]
    show t.sec % 2 ^ 32 + 2 ^ 32 * (t.sec / 2 ^ 32 % 2 ^ 16) = t.sec
    omega
  case ns =>
    rw [Mach.fld_setFld_same _ _ _ rfl]
    exact Nat.mod_eq_of_lt (show t.ns < 2 ^ 30 by omega)

/-! ## Realignment (R124) -/

/-- Trigger `k` under an edge of SYNC_IN stamped `t`. -/
def Mach.trigRealigned (m : Mach) (t : DTime) (k : Nat) : Trig :=
  if m.trigRun k = true ∧ m.flag (aTIME_TRIG_CTRL k) fTIME_TRIG_CTRL_MODE = true then
    { (m.trig k).at (DTime.ofTotal ((t.total + 2 ^ 32 * m.fld (aTIME_TRIG_NS k) fTIME_TRIG_NS_NS : Nat) : Int)) with
      armed := true, lateAt := none }
  else m.trig k

theorem Mach.trig_realign (m : Mach) (t : DTime) (n k : Nat) : (m.realign t n).trig k = if k = n then m.trigRealigned t n else m.trig k := by
  unfold Mach.realign Mach.trigRealigned
  by_cases h : m.trigRun n = true ∧ m.flag (aTIME_TRIG_CTRL n) fTIME_TRIG_CTRL_MODE = true
  · rw [if_pos h, h.1, h.2]
    exact Mach.trig_setTrig _ _ _ _
  · have hidle : (!m.trigRun n || !m.flag (aTIME_TRIG_CTRL n) fTIME_TRIG_CTRL_MODE) = true := by
      rw [← Bool.not_and, Bool.not_eq_true']
      exact Bool.eq_false_iff.mpr (mt Bool.and_eq_true_iff.mp h)
    rw [if_neg h, if_pos hidle]
    split
    · next e => rw [e]
    · rfl

theorem Mach.trigRealigned_realign {m : Mach} {t : DTime} {n k : Nat} (h : k ≠ n) : (m.realign t n).trigRealigned t k = m.trigRealigned t k := by
  have hf := (m.realign_frame t n).toTouches
  have hrun : (m.realign t n).trigRun k = m.trigRun k := hf.flag _ _
  unfold Mach.trigRealigned
  rw [hrun, hf.flag, hf.fld, Mach.trig_realign, if_neg h]

/-- Realigning triggers one after another realigns each of them from the state before. -/
theorem Mach.trig_foldl_realign (t : DTime) (k : Nat) (l : List Nat) (hl : l.Nodup) (m : Mach) :
    (l.foldl (fun m j => m.realign t j) m).trig k = if k ∈ l then m.trigRealigned t k else m.trig k := by
  induction l generalizing m with
  | nil => rfl
  | cons j l ih =>
    obtain ⟨hj, hl⟩ := List.nodup_cons.mp hl
    rw [List.foldl_cons, ih hl]
    by_cases hk : k = j
    · subst hk
      rw [if_neg hj, if_pos List.mem_cons_self, Mach.trig_realign, if_pos rfl]
    · rw [Mach.trigRealigned_realign hk, Mach.trig_realign, if_neg hk]
      simp [hk]

theorem Mach.trig_realigned {k : Nat} (hk : k < 16) : (m.realigned t).trig k = m.trigRealigned t k := by
  unfold Mach.realigned
  rw [Mach.trig_foldl_realign t k _ List.nodup_range, if_pos (List.mem_range.mpr hk)]

theorem Mach.realigned_frame (m : Mach) (t : DTime) : Frame [.time] m (m.realigned t) := .foldl (fun m k => m.realign_frame t k) _

@[simp] theorem Mach.now_setTrig (m : Mach) (n : Nat) (x : Trig) : (m.setTrig n x).time.now = m.time.now := rfl

theorem Mach.now_realign (m : Mach) (t : DTime) (n : Nat) : (m.realign t n).time.now = m.time.now := by
  unfold Mach.realign
  split
  · rfl
  · exact Mach.now_setTrig _ _ _

theorem Mach.now_realigned (m : Mach) (t : DTime) : (m.realigned t).time.now = m.time.now := by
  unfold Mach.realigned
  generalize List.range 16 = l
  induction l generalizing m with
  | nil => rfl
  | cons k l ih => exact (ih _).trans (m.now_realign t k)

/-- A capture changes nothing that a realignment reads. -/
theorem Mach.trigRealigned_captured (m : Mach) (n : Nat) (t : DTime) (k : Nat) (hn : n < 3) :
    (m.captured n t).trigRealigned t k = m.trigRealigned t k := by
  have hreg {a : Nat} (ha : 0x200100 ≤ a) : (m.captured n t).reg a = m.reg a := by
    refine m.captured_regsBut n t a ?_
    simp only [List.mem_cons, List.not_mem_nil, or_false, not_or]
    unfold aTIME_CAP_CTRL aTIME_CAP_SEC_LO aTIME_CAP_SEC_HI aTIME_CAP_NS
    omega
  have hstat : (m.captured n t).reg (aTIME_TRIG_STAT k) = m.reg (aTIME_TRIG_STAT k) := hreg (by unfold aTIME_TRIG_STAT; omega)
  have hctrl : (m.captured n t).reg (aTIME_TRIG_CTRL k) = m.reg (aTIME_TRIG_CTRL k) := hreg (by unfold aTIME_TRIG_CTRL; omega)
  have hns : (m.captured n t).reg (aTIME_TRIG_NS k) = m.reg (aTIME_TRIG_NS k) := hreg (by unfold aTIME_TRIG_NS; omega)
  unfold Mach.trigRealigned Mach.trigRun Mach.flag Mach.fld
  rw [hstat, hctrl, hns, (m.captured_frame n t).toTouches.trig]

/-! ## Edges -/

/-- The machine after an active edge of input `n` stamped `t`. -/
def Mach.edged (m : Mach) (n : Nat) (t : DTime) : Mach := (m.captured n t).when (n == 1) (fun m => m.realigned t)

theorem Mach.edged_frame (m : Mach) (n : Nat) (t : DTime) : Frame [.regs, .time] m (m.edged n t) :=
  .trans (.mono rfl (m.captured_frame n t)) (.when (fun m => .mono rfl (m.realigned_frame t)))

theorem Mach.regs_edged (m : Mach) (n : Nat) (t : DTime) : (m.edged n t).regs = (m.captured n t).regs :=
  (Frame.when (l := [.time]) (fun m => m.realigned_frame t)).toTouches.regs_eq

theorem Mach.now_edged (m : Mach) (n : Nat) (t : DTime) : (m.edged n t).time.now = m.time.now := by
  have hcap : (m.captured n t).time = m.time := (m.captured_frame n t).toTouches.time_eq
  unfold Mach.edged
  cases n == 1
  · exact congrArg TimeBase.now hcap
  · exact ((m.captured n t).now_realigned t).trans (congrArg TimeBase.now hcap)

theorem Mach.trig_edged (m : Mach) {n k : Nat} (t : DTime) (hn : n < 3) (hk : k < 16) :
    (m.edged n t).trig k = if n = 1 then m.trigRealigned t k else m.trig k := by
  unfold Mach.edged
  by_cases h : n = 1
  · rw [if_pos h, beq_iff_eq.mpr h, Mach.when_true, Mach.trig_realigned hk, Mach.trigRealigned_captured _ _ _ _ hn]
  · rw [if_neg h, beq_false_of_ne h, Mach.when_false, (m.captured_frame n t).toTouches.trig]

end

section
variable {s : State} {n : Nat} {rising half : Bool} (hn : n < 3)
include hn

theorem runsTo_edgeCapture_idle
    (h : s.m.timeRuns = false ∨ (s.m.fld (aTIME_CAP_CTRL n) fTIME_CAP_CTRL_EDGE).testBit (if rising then 0 else 1) = false) :
    RunsTo (.edgeCapture n rising half) s s.m :=
  RunsTo.of_run (execEdgeCapture n rising half s) rfl rfl (decide_eq_true hn) (if_pos (by simpa using h))

theorem runsTo_edgeCapture (hrun : s.m.timeRuns = true)
    (hactive : (s.m.fld (aTIME_CAP_CTRL n) fTIME_CAP_CTRL_EDGE).testBit (if rising then 0 else 1) = true) :
    RunsTo (.edgeCapture n rising half) s (s.m.edged n (s.m.time.now.after (if half then s.m.inc / 2 else 0) 1)) :=
  RunsTo.of_run (execEdgeCapture n rising half s) rfl rfl (decide_eq_true hn) (if_neg (by simp [hrun, hactive]))

end

/-! ## Reads of a capture and of the present time (R117, R118) -/

theorem runsTo_captureRead {s : State} {src : Src} {n : Nat} (hsrc : src.wf = true) (hn : n < 3) :
    RunsTo (.captureRead src n) s (if s.m.mayRead src .time (0x5C + 0x10 * n) = 0 then (s.m.done 0).capRead n
      else s.m.done (s.m.mayRead src .time (0x5C + 0x10 * n))) := by
  refine RunsTo.of_run (execCaptureRead src n s) rfl rfl (by simp [wfCaptureRead, hsrc, hn]) ?_
  cases s.m.mayRead src .time (0x5C + 0x10 * n) <;> rfl

theorem runsTo_timeNowRead {s : State} {src : Src} (hsrc : src.wf = true) :
    RunsTo (.timeNowRead src) s (if s.m.mayRead src .time 0 = 0 then (s.m.done 0).latchNow else s.m.done (s.m.mayRead src .time 0)) := by
  refine RunsTo.of_run (execTimeNowRead src s) rfl rfl hsrc ?_
  cases s.m.mayRead src .time 0 <;> rfl

/-- A read of TIME_NOW_NS shows NS and latches SEC and FRAC of the present time. -/
theorem Mach.latchNow_latches {m : Mach} (ht : m.time.now.counted) :
    m.latchNow.fld aTIME_NOW_NS fTIME_NOW_NS_NS = m.time.now.ns
      ∧ m.latchNow.fld aTIME_NOW_SEC_LO fTIME_NOW_SEC_LO_SEC_LO + 2 ^ 32 * m.latchNow.fld aTIME_NOW_SEC_HI fTIME_NOW_SEC_HI_SEC_HI
          = m.time.now.sec
      ∧ m.latchNow.fld aTIME_NOW_FRAC fTIME_NOW_FRAC_FRAC = m.time.now.frac
      ∧ m.regsBut m.latchNow [aTIME_NOW_NS, aTIME_NOW_SEC_LO, aTIME_NOW_SEC_HI, aTIME_NOW_FRAC] := by
  obtain ⟨hsec, hns, hfrac⟩ := ht
  unfold Mach.latchNow Mach.showNow
  refine ⟨?ns, ?sec, ?frac, fun a ha => ?others⟩
  case ns =>
    rw [Mach.fld_setFld_ne _ _ _ _ (by decide), Mach.fld_setFld_ne _ _ _ _ (by decide), Mach.fld_setFld_ne _ _ _ _ (by decide),
      Mach.fld_setFld_same _ _ _ rfl]
    exact Nat.mod_eq_of_lt (show m.time.now.ns < 2 ^ 30 by omega)
  case sec =>
    rw [Mach.fld_setFld_ne _ _ _ _ (by decide), Mach.fld_setFld_ne _ _ _ _ (by decide), Mach.fld_setFld_same _ _ _ rfl,
      Mach.fld_setFld_ne _ _ _ _ (by decide), Mach.fld_setFld_same _ _ _ rfl]
    show m.time.now.sec % 2 ^ 32 + 2 ^ 32 * (m.time.now.sec / 2 ^ 32 % 2 ^ 16) = m.time.now.sec
    omega
  case frac =>
    rw [Mach.fld_setFld_same _ _ _ rfl]
    exact Nat.mod_eq_of_lt hfrac
  case others =>
    simp only [List.mem_cons, List.not_mem_nil, or_false, not_or] at ha
    obtain ⟨h0, h4, h8, h12⟩ := ha
    rw [Mach.reg_setFld_ne _ _ _ h12, Mach.reg_setFld_ne _ _ _ h8, Mach.reg_setFld_ne _ _ _ h4, Mach.reg_setFld_ne _ _ _ h0]

end Sys2Proof.Machine
end

section
namespace Sys2Proof.Machine

/-! ## The trigger's own state (R119 to R122) -/

/-- What a firing of trigger `n` counts: FIRED, and LATE when it comes late. -/
def Mach.trigCounted (m : Mach) (n : Nat) : Mach :=
  (m.wrapInc (aTIME_TRIG_STAT n) fTIME_TRIG_STAT_FIRED).when (m.trig n).lateAt.isSome
    (fun m => m.setFld (aTIME_TRIG_STAT n) fTIME_TRIG_STAT_LATE 1)

/-- This firing of trigger `n` is its last: it has no period, or COUNT is reached. -/
def Mach.trigEnds (m : Mach) (n : Nat) : Prop :=
  m.trigPeriod n = 0 ∨ m.fld (aTIME_TRIG_CTRL n) fTIME_TRIG_CTRL_COUNT ≠ 0
    ∧ m.fld (aTIME_TRIG_CTRL n) fTIME_TRIG_CTRL_COUNT ≤ (m.fld (aTIME_TRIG_STAT n) fTIME_TRIG_STAT_FIRED + 1) % 2 ^ 16

section
variable (m : Mach) (n : Nat)

theorem Mach.trigCounted_frame : Frame [.regs] m (m.trigCounted n) := .trans (m.wrapInc_frame ..) (.when (fun m => m.setFld_frame ..))

theorem Mach.reg_trigCounted_ne {m : Mach} {n a : Nat} (h : a ≠ aTIME_TRIG_STAT n) : (m.trigCounted n).reg a = m.reg a := by
  have hinc : (m.wrapInc (aTIME_TRIG_STAT n) fTIME_TRIG_STAT_FIRED).reg a = m.reg a := Mach.reg_setFld_ne _ _ _ h
  unfold Mach.trigCounted
  cases (m.trig n).lateAt.isSome
  · exact hinc
  · exact (Mach.reg_setFld_ne _ _ _ h).trans hinc

/-- A field of the status register that a firing does not count. -/
theorem Mach.fld_trigCounted_apart {m : Mach} {n : Nat} (a : Nat) {g : Fld} (hg : g.ok = true) (hf : fTIME_TRIG_STAT_FIRED.apart g = true)
    (hl : fTIME_TRIG_STAT_LATE.apart g = true) : (m.trigCounted n).fld a g = m.fld a g := by
  have hinc : (m.wrapInc (aTIME_TRIG_STAT n) fTIME_TRIG_STAT_FIRED).fld a g = m.fld a g := Mach.fld_setFld_apart _ _ _ _ _ _ hf hg
  unfold Mach.trigCounted
  cases (m.trig n).lateAt.isSome
  · exact hinc
  · exact (Mach.fld_setFld_apart _ _ _ _ _ _ hl hg).trans hinc

theorem Mach.fired_trigCounted : (m.trigCounted n).fld (aTIME_TRIG_STAT n) fTIME_TRIG_STAT_FIRED
    = (m.fld (aTIME_TRIG_STAT n) fTIME_TRIG_STAT_FIRED + 1) % 2 ^ 16 := by
  have hinc := m.fld_wrapInc_same (aTIME_TRIG_STAT n) fTIME_TRIG_STAT_FIRED rfl
  unfold Mach.trigCounted
  cases (m.trig n).lateAt.isSome
  · exact hinc
  · exact (Mach.fld_setFld_apart _ _ _ _ _ _ rfl rfl).trans hinc

theorem Mach.late_trigCounted : (m.trigCounted n).fld (aTIME_TRIG_STAT n) fTIME_TRIG_STAT_LATE
    = if (m.trig n).lateAt.isSome then 1 else m.fld (aTIME_TRIG_STAT n) fTIME_TRIG_STAT_LATE := by
  unfold Mach.trigCounted
  cases (m.trig n).lateAt.isSome
  · exact Mach.fld_setFld_apart _ _ _ _ _ _ rfl rfl
  · exact Mach.fld_setFld_same _ _ _ rfl _

theorem Mach.trigPeriod_trigCounted : (m.trigCounted n).trigPeriod n = m.trigPeriod n := by
  unfold Mach.trigPeriod Mach.fld
  rw [Mach.reg_trigCounted_ne (a := aTIME_TRIG_PER_NS n) (by unfold aTIME_TRIG_PER_NS aTIME_TRIG_STAT; omega),
    Mach.reg_trigCounted_ne (a := aTIME_TRIG_PER_FRAC n) (by unfold aTIME_TRIG_PER_FRAC aTIME_TRIG_STAT; omega)]

theorem Mach.trigEnds_trigCounted : ((m.trigCounted n).trigPeriod n = 0 ∨ (m.trigCounted n).fld (aTIME_TRIG_CTRL n) fTIME_TRIG_CTRL_COUNT ≠ 0
    ∧ (m.trigCounted n).fld (aTIME_TRIG_CTRL n) fTIME_TRIG_CTRL_COUNT ≤ (m.trigCounted n).fld (aTIME_TRIG_STAT n) fTIME_TRIG_STAT_FIRED)
      ↔ m.trigEnds n := by
  have hcount : (m.trigCounted n).fld (aTIME_TRIG_CTRL n) fTIME_TRIG_CTRL_COUNT = m.fld (aTIME_TRIG_CTRL n) fTIME_TRIG_CTRL_COUNT :=
    congrArg fTIME_TRIG_CTRL_COUNT.get (Mach.reg_trigCounted_ne (by unfold aTIME_TRIG_CTRL aTIME_TRIG_STAT; omega))
  rw [Mach.trigPeriod_trigCounted, hcount, Mach.fired_trigCounted]
  rfl

theorem Mach.trigSteps_trigCounted (c : Option Nat) (per : Nat) :
    (m.trigCounted n).trigSteps { m.trig n with last := c } per = m.trigSteps (m.trig n) per := by
  unfold Mach.trigSteps
  rw [(m.trigCounted_frame n).toTouches.time_eq]
  rfl

/-- A trigger after its last firing, in cycle `c`. -/
def Trig.stopped (x : Trig) (c : Nat) : Trig := { x with last := some c, armed := false, lateAt := none }

/-- A trigger after a firing in cycle `c` that is not its last, with its next compare time. -/
def Trig.movedTo (x : Trig) (c : Nat) (t : DTime) : Trig := { x.at t with last := some c, lateAt := none }

theorem Trig.time_movedTo (x : Trig) (c : Nat) (t : DTime) : (x.movedTo c t).time = t := rfl

theorem Trig.armed_movedTo (x : Trig) (c : Nat) (t : DTime) : (x.movedTo c t).armed = x.armed := rfl

/-- The compare time after the one at which trigger `n` fires. -/
def Mach.trigNext (m : Mach) (n : Nat) : DTime :=
  DTime.ofTotal (((m.trig n).time.total + m.trigSteps (m.trig n) (m.trigPeriod n) * m.trigPeriod n : Nat) : Int)

variable {m n}

theorem Mach.trigFired_of_ends (h : m.trigEnds n) : m.trigFired n =
    ((m.trigCounted n).setFld (aTIME_TRIG_STAT n) fTIME_TRIG_STAT_RUN 0).setTrig n ((m.trig n).stopped m.cyc) := by
  rw [← (m.trigCounted_frame n).toTouches.cyc_eq]
  exact if_pos ((m.trigEnds_trigCounted n).mpr h)

theorem Mach.trigFired_of_goesOn (h : ¬ m.trigEnds n) : m.trigFired n =
    ((m.trigCounted n).satAdd (aTIME_TRIG_STAT n) fTIME_TRIG_STAT_MISSED (m.trigSteps (m.trig n) (m.trigPeriod n) - 1)).setTrig n
      ((m.trig n).movedTo m.cyc (m.trigNext n)) := by
  rw [Mach.trigNext, ← m.trigSteps_trigCounted n (some m.cyc), ← m.trigPeriod_trigCounted, ← (m.trigCounted_frame n).toTouches.cyc_eq]
  unfold Mach.trigFired Trig.movedTo
  exact if_neg (mt (m.trigEnds_trigCounted n).mp h)

theorem Mach.trig_trigFired_ne {k : Nat} (hk : k ≠ n) : (m.trigFired n).trig k = m.trig k := by
  have hcount : (m.trigCounted n).trig k = m.trig k := (m.trigCounted_frame n).toTouches.trig k
  by_cases h : m.trigEnds n
  · rw [Mach.trigFired_of_ends h, Mach.trig_setTrig, if_neg hk]
    exact hcount
  · rw [Mach.trigFired_of_goesOn h, Mach.trig_setTrig, if_neg hk]
    exact hcount

/-- A field of the status register that the end of a firing does not write. -/
theorem Mach.fld_trigFired {g : Fld} (hg : g.ok = true) (hr : fTIME_TRIG_STAT_RUN.apart g = true)
    (hm : fTIME_TRIG_STAT_MISSED.apart g = true) :
    (m.trigFired n).fld (aTIME_TRIG_STAT n) g = (m.trigCounted n).fld (aTIME_TRIG_STAT n) g := by
  by_cases h : m.trigEnds n
  · rw [Mach.trigFired_of_ends h, Mach.fld_setTrig, Mach.fld_setFld_apart _ _ _ _ _ _ hr hg]
  · rw [Mach.trigFired_of_goesOn h, Mach.fld_setTrig, Mach.satAdd, Mach.fld_setFld_apart _ _ _ _ _ _ hm hg]

theorem Mach.reg_trigFired_ne {a : Nat} (ha : a ≠ aTIME_TRIG_STAT n) : (m.trigFired n).reg a = m.reg a := by
  by_cases h : m.trigEnds n
  · rw [Mach.trigFired_of_ends h, Mach.reg_setTrig, Mach.reg_setFld_ne _ _ _ ha, Mach.reg_trigCounted_ne ha]
  · rw [Mach.trigFired_of_goesOn h, Mach.reg_setTrig, Mach.satAdd, Mach.reg_setFld_ne _ _ _ ha, Mach.reg_trigCounted_ne ha]

theorem Mach.now_trigFired : (m.trigFired n).time.now = m.time.now := by
  have hcount : (m.trigCounted n).time = m.time := (m.trigCounted_frame n).toTouches.time_eq
  by_cases h : m.trigEnds n
  · rw [Mach.trigFired_of_ends h, Mach.now_setTrig, Mach.time_setFld, hcount]
  · rw [Mach.trigFired_of_goesOn h, Mach.now_setTrig, Mach.time_satAdd, hcount]

@[simp] theorem Mach.ppsEnd_setTrig (k : Nat) (x : Trig) : (m.setTrig k x).time.ppsEnd = m.time.ppsEnd := rfl

theorem Mach.ppsEnd_trigFired : (m.trigFired n).time.ppsEnd = m.time.ppsEnd := by
  have hcount : (m.trigCounted n).time = m.time := (m.trigCounted_frame n).toTouches.time_eq
  by_cases h : m.trigEnds n
  · rw [Mach.trigFired_of_ends h, Mach.ppsEnd_setTrig, Mach.time_setFld, hcount]
  · rw [Mach.trigFired_of_goesOn h, Mach.ppsEnd_setTrig, Mach.time_satAdd, hcount]

/-- What every firing leaves: it is counted, and its cycle is noted. -/
theorem Mach.trigFired_counts : (m.trigFired n).fld (aTIME_TRIG_STAT n) fTIME_TRIG_STAT_FIRED
      = (m.fld (aTIME_TRIG_STAT n) fTIME_TRIG_STAT_FIRED + 1) % 2 ^ 16
    ∧ (m.trigFired n).fld (aTIME_TRIG_STAT n) fTIME_TRIG_STAT_LATE
      = (if (m.trig n).lateAt.isSome then 1 else m.fld (aTIME_TRIG_STAT n) fTIME_TRIG_STAT_LATE)
    ∧ ((m.trigFired n).trig n).last = some m.cyc ∧ ((m.trigFired n).trig n).lateAt = none := by
  refine ⟨(Mach.fld_trigFired rfl rfl rfl).trans (m.fired_trigCounted n), (Mach.fld_trigFired rfl rfl rfl).trans (m.late_trigCounted n), ?_⟩
  by_cases h : m.trigEnds n
  · rw [Mach.trigFired_of_ends h, Mach.trig_setTrig_same]
    exact ⟨rfl, rfl⟩
  · rw [Mach.trigFired_of_goesOn h, Mach.trig_setTrig_same]
    exact ⟨rfl, rfl⟩

/-- The last firing stops its trigger. -/
theorem Mach.trigFired_stops (h : m.trigEnds n) : (m.trigFired n).trigRun n = false ∧ ((m.trigFired n).trig n).armed = false
    ∧ ((m.trigFired n).trig n).time = (m.trig n).time := by
  rw [Mach.trigFired_of_ends h, Mach.trig_setTrig_same]
  refine ⟨?_, rfl, rfl⟩
  rw [Mach.trigRun, Mach.flag_setTrig, Mach.flag, Mach.fld_setFld_same _ _ _ rfl]
  rfl

/-- Any other firing leaves its trigger running towards a later compare time, and counts the periods left out. -/
theorem Mach.trigFired_goesOn (h : ¬ m.trigEnds n) : (m.trigFired n).trigRun n = m.trigRun n
    ∧ ((m.trigFired n).trig n).armed = (m.trig n).armed
    ∧ ((m.trigFired n).trig n).time.total
      = ((m.trig n).time.total + m.trigSteps (m.trig n) (m.trigPeriod n) * m.trigPeriod n) % timePeriod
    ∧ (m.trigFired n).fld (aTIME_TRIG_STAT n) fTIME_TRIG_STAT_MISSED = min 0xFF (m.fld (aTIME_TRIG_STAT n) fTIME_TRIG_STAT_MISSED
      + (m.trigSteps (m.trig n) (m.trigPeriod n) - 1)) := by
  rw [Mach.trigFired_of_goesOn h, Mach.trig_setTrig_same, Trig.time_movedTo, Trig.armed_movedTo, Mach.trigNext, DTime.total_ofTotal]
  refine ⟨?run, rfl, rfl, ?missed⟩
  case run =>
    unfold Mach.trigRun Mach.flag
    rw [Mach.fld_setTrig, Mach.satAdd, Mach.fld_setFld_apart _ _ _ _ _ _ rfl rfl, Mach.fld_trigCounted_apart _ rfl rfl rfl]
  case missed =>
    rw [Mach.fld_setTrig, Mach.fld_satAdd_same _ _ _ _ rfl, Mach.fld_trigCounted_apart _ rfl rfl rfl]
    rfl

end

/-! ## Late firings (R122) -/

theorem Mach.trigSteps_of_onTime {m : Mach} {x : Trig} (h : x.lateAt = none) (per : Nat) : m.trigSteps x per = 1 := by
  unfold Mach.trigSteps
  rw [h]
  rfl

theorem Mach.trigSteps_pos (m : Mach) (x : Trig) (per : Nat) : 1 ≤ m.trigSteps x per := by
  unfold Mach.trigSteps
  split
  · exact Nat.le_refl 1
  · exact Nat.le_max_left ..

theorem DTime.nanos_lt {t : DTime} (hsec : t.sec < 2 ^ 48) (hns : t.ns < 1000000000) : t.nanos < timePeriod / 2 ^ 32 := by
  have hperiod : timePeriod / 2 ^ 32 = 2 ^ 48 * 1000000000 := rfl
  rw [hperiod, DTime.nanos]
  omega

theorem toNat_sub_emod {a b p : Nat} (h : b ≤ a) (ha : a < p) : (((a : Int) - b) % (p : Nat)).toNat = a - b := by
  rw [Int.emod_eq_of_lt (by omega) (by omega)]
  omega

/-- After a late firing the compare time moves past the present, and by no more periods than that takes. -/
theorem Mach.trigSteps_of_late {m : Mach} {x : Trig} {per : Nat} (hlate : x.lateAt ≠ none) (hnow : m.time.now.counted) (hper : 0 < per)
    (hle : x.time.total ≤ m.time.now.total) : m.time.now.total < x.time.total + m.trigSteps x per * per
      ∧ (m.trigSteps x per ≠ 1 → x.time.total + (m.trigSteps x per - 1) * per < (m.time.now.nanos + 1) * 2 ^ 32) := by
  obtain ⟨hsec, hns, hfrac⟩ := hnow
  have hx : x.time.total = x.time.nanos * 2 ^ 32 + x.frac := rfl
  have hpresent := m.time.now.total_eq
  have hnanos : m.time.now.nanos < timePeriod / 2 ^ 32 := DTime.nanos_lt hsec hns
  have hbehind := toNat_sub_emod (show x.time.nanos ≤ m.time.now.nanos by omega) hnanos
  have hleft : (m.time.now.nanos - x.time.nanos + 1) * 2 ^ 32 - x.frac = (m.time.now.nanos + 1) * 2 ^ 32 - x.time.total := by omega
  have hk : m.trigSteps x per = max 1 (divCeil ((m.time.now.nanos + 1) * 2 ^ 32 - x.time.total) per) := by
    unfold Mach.trigSteps
    rw [Option.isNone_eq_false_iff.mpr (Option.isSome_iff_ne_none.mpr hlate)]
    dsimp only
    rw [hbehind, hleft, if_neg Bool.false_ne_true]
  have hge := divCeil_mul_ge (a := (m.time.now.nanos + 1) * 2 ^ 32 - x.time.total) hper
  have hlt := divCeil_mul_lt (a := (m.time.now.nanos + 1) * 2 ^ 32 - x.time.total) hper
  rw [hk]
  generalize divCeil _ per = k at hge hlt ⊢
  have hmax := Nat.mul_le_mul_right per (Nat.le_max_right 1 k)
  refine ⟨by omega, fun h1 => ?_⟩
  have hmaxk : max 1 k = k := by omega
  rw [hmaxk, Nat.sub_one_mul]
  omega

end Sys2Proof.Machine
end

section
namespace Sys2Proof.Machine

/-! ## Who sees a firing (R120) -/

/-- The engines see a firing of trigger `t`. -/
def Mach.enginesSee (m : Mach) (t : Nat) : Mach := (m.eng.map (fun p => p.1)).foldl (fun m e => m.engTrigger t e) m

/-- The axes, the camera, the point assembler and housekeeping see a firing of trigger `t`. -/
def Mach.unitsSee (m : Mach) (t : Nat) : Mach := (((m.ccTrigger t).camTrigger t).frameTrigger t).hkTrigger t

section
variable {m : Mach} {t e : Nat}

/-- An engine that does not wait, or waits only from this cycle on, does not see a firing. -/
theorem Mach.engTrigger_of_blind (h : (m.e e).st ≠ .waiting ∨ m.cyc ≤ (m.e e).issue) : m.engTrigger t e = m := if_pos h

theorem Mach.engTrigger_of_waiting (hst : (m.e e).st = .waiting) (hw : (m.e e).wait = .trig t) (hi : (m.e e).issue < m.cyc) :
    m.engTrigger t e = m.resume e 0 := by
  unfold Mach.engTrigger
  rw [if_neg (by simp [hst, hi]), hw]
  exact if_pos rfl

theorem Mach.engTrigger_onlyEng (m : Mach) (t e : Nat) : m.onlyEng (m.engTrigger t e) e := by
  unfold Mach.engTrigger
  split
  · exact ⟨rfl, fun _ _ => rfl⟩
  · split
    · split
      · exact m.resume_onlyEng e 0
      · exact ⟨rfl, fun _ _ => rfl⟩
    · split
      · exact m.modE_onlyEng e _
      · exact ⟨rfl, fun _ _ => rfl⟩
    · exact ⟨rfl, fun _ _ => rfl⟩

theorem Mach.cyc_engTrigger (m : Mach) (t e : Nat) : (m.engTrigger t e).cyc = m.cyc := (m.engTrigger_frame t e).toTouches.cyc_eq

theorem Mach.e_foldl_engTrigger_of_blind (l : List Nat) (h : (m.e e).st ≠ .waiting ∨ m.cyc ≤ (m.e e).issue) :
    (l.foldl (fun m k => m.engTrigger t k) m).e e = m.e e := by
  induction l generalizing m with
  | nil => rfl
  | cons k l ih =>
    have hk : (m.engTrigger t k).e e = m.e e := by
      by_cases hke : e = k
      · rw [← hke, Mach.engTrigger_of_blind h]
      · exact (m.engTrigger_onlyEng t k).2 e hke
    rw [List.foldl_cons, ih (by rwa [hk, Mach.cyc_engTrigger]), hk]

/-- Of the engines asked in turn, one that waits for the trigger goes on with 0, once. -/
theorem Mach.e_foldl_engTrigger_of_waiting (l : List Nat) (he : e ∈ l) (hst : (m.e e).st = .waiting) (hw : (m.e e).wait = .trig t)
    (hi : (m.e e).issue < m.cyc) : (m.e e).resumed ((l.foldl (fun m k => m.engTrigger t k) m).e e) 0 := by
  induction l generalizing m with
  | nil => cases he
  | cons k l ih =>
    rw [List.foldl_cons]
    by_cases hke : e = k
    · subst hke
      have hres := m.resume_resumed e 0
      have hrun : ((m.resume e 0).e e).st ≠ .waiting := by
        rw [hres.1]
        decide
      rwa [Mach.engTrigger_of_waiting hst hw hi, Mach.e_foldl_engTrigger_of_blind l (.inl hrun)]
    · have hk : (m.engTrigger t k).e e = m.e e := (m.engTrigger_onlyEng t k).2 e hke
      have := ih (m := m.engTrigger t k) ((List.mem_cons.mp he).resolve_left hke) (by rwa [hk]) (by rwa [hk]) (by rwa [hk, Mach.cyc_engTrigger])
      rwa [hk] at this

theorem mem_keys_of_mapGet_ne {β : Type} {d : β} {l : List (Nat × β)} {k : Nat} (h : mapGet d l k ≠ d) : k ∈ l.map (fun p => p.1) := by
  induction l with
  | nil => exact absurd rfl h
  | cons p l ih =>
    obtain ⟨j, v⟩ := p
    by_cases hk : k = j
    · exact hk ▸ List.mem_cons_self
    · exact List.mem_cons_of_mem _ (ih (by rwa [mapGet, if_neg hk] at h))

/-- An engine that waits is listed, since an engine after reset does not. -/
theorem Mach.mem_eng_of_waiting (h : (m.e e).st = .waiting) : e ∈ m.eng.map (fun p => p.1) := by
  refine mem_keys_of_mapGet_ne (d := Engine.reset) (fun h' => ?_)
  have hst : Engine.reset.st = .waiting := h' ▸ h
  cases hst

theorem Mach.enginesSee_of_blind (h : (m.e e).st ≠ .waiting ∨ m.cyc ≤ (m.e e).issue) : (m.enginesSee t).e e = m.e e :=
  Mach.e_foldl_engTrigger_of_blind _ h

theorem Mach.enginesSee_of_waiting (hst : (m.e e).st = .waiting) (hw : (m.e e).wait = .trig t) (hi : (m.e e).issue < m.cyc) :
    (m.e e).resumed ((m.enginesSee t).e e) 0 :=
  Mach.e_foldl_engTrigger_of_waiting _ (Mach.mem_eng_of_waiting hst) hst hw hi

theorem Mach.enginesSee_frame (m : Mach) (t : Nat) : Frame [.eng] m (m.enginesSee t) := .foldl (fun m e => m.engTrigger_frame t e) _

/-- A trigger that paces no axis starts no control cycle. -/
theorem Mach.ccTrigger_of_unpaced (h : ∀ a, a < 4 → m.fld (aAXS_CFG a) fAXS_CFG_CC_TRIG ≠ t) : m.ccTrigger t = m := by
  have hfold (l : List Nat) (hl : ∀ a ∈ l, a < 4) :
      l.foldl (fun m a => if m.fld (aAXS_CFG a) fAXS_CFG_CC_TRIG = t then m.ccFire a else m) m = m := by
    induction l with
    | nil => rfl
    | cons a l ih =>
      rw [List.foldl_cons, if_neg (h a (hl a List.mem_cons_self))]
      exact ih (fun b hb => hl b (List.mem_cons_of_mem _ hb))
  exact hfold _ (fun a ha => List.mem_range.mp ha)

theorem Mach.unitsSee_frame (h : ∀ a, a < 4 → m.fld (aAXS_CFG a) fAXS_CFG_CC_TRIG ≠ t) : Frame [.regs, .cam, .pts, .hk] m (m.unitsSee t) := by
  unfold Mach.unitsSee
  rw [Mach.ccTrigger_of_unpaced h]
  exact .trans (.trans (.mono rfl (m.camTrigger_frame t)) (.mono rfl (Mach.frameTrigger_frame _ t))) (.mono rfl (Mach.hkTrigger_frame _ t))

theorem Mach.reg_hkTrigger_ne (m : Mach) (t : Nat) {a : Nat} (ha : a ≠ aHK_STAT) : (m.hkTrigger t).reg a = m.reg a := by
  unfold Mach.hkTrigger
  split
  · rfl
  · split
    · exact Mach.reg_setFld_ne _ _ _ ha
    · split <;> rfl

/-- The only register they write is HK_STAT, which counts a pass that comes too early (R463). -/
theorem Mach.reg_unitsSee_ne (h : ∀ a, a < 4 → m.fld (aAXS_CFG a) fAXS_CFG_CC_TRIG ≠ t) {a : Nat} (ha : a ≠ aHK_STAT) :
    (m.unitsSee t).reg a = m.reg a := by
  unfold Mach.unitsSee
  rw [Mach.ccTrigger_of_unpaced h, Mach.reg_hkTrigger_ne _ _ ha, (Mach.frameTrigger_frame _ t).toTouches.reg,
    (m.camTrigger_frame t).toTouches.reg]

/-- With nothing committed a firing releases nothing. -/
theorem Mach.releaseCommits_of_nil (h : m.commits = []) : m.releaseCommits t = m := by
  unfold Mach.releaseCommits
  rw [h]
  show { m with commits := [] } = m
  rw [← h]

end

/-! ## TIME_TRIGGER_FIRE -/

/-- The machine after trigger `t` has come to its cycle and fired, before anyone sees it. -/
def Mach.firedAt (m : Mach) (t : Nat) : Mach := (m.advanceTo (m.trigDue (m.trig t))).trigFired t

/-- The machine after trigger `t` has fired and everyone has seen it, with nothing committed. -/
def Mach.fires (m : Mach) (t : Nat) : Mach := (((m.firedAt t).enginesSee t).unitsSee t).when (t == 15) (fun m => m.ppsStart 1)

theorem runsTo_timeTriggerFire_idle {s : State} {t : Nat} (ht : t < 16) (h : ¬ (s.m.timeRuns = true ∧ s.m.trigRun t = true
    ∧ ((s.m.trig t).armed = true ∨ (s.m.trig t).lateAt ≠ none))) : RunsTo (.timeTriggerFire t) s s.m := by
  refine RunsTo.of_run (execTimeTriggerFire t s) rfl rfl (decide_eq_true ht) (if_pos ?_)
  cases hrun : s.m.timeRuns
  · rfl
  · cases htrig : s.m.trigRun t
    · rfl
    · simpa [hrun, htrig] using h

section
variable (m : Mach) (t : Nat)

theorem Mach.firedAt_frame : Frame [.cyc, .regs, .time] m (m.firedAt t) :=
  .trans (.mono rfl (m.advanceTo_frame _)) (.mono rfl (Mach.trigFired_frame _ t))

theorem Mach.cyc_firedAt : (m.firedAt t).cyc = max m.cyc (m.trigDue (m.trig t)) :=
  (Mach.trigFired_frame _ t).toTouches.cyc_eq.trans (m.cyc_advanceTo _)

theorem Mach.ppsEnd_firedAt : (m.firedAt t).time.ppsEnd = m.time.ppsEnd := Mach.ppsEnd_trigFired.trans (m.ppsEnd_advance _)

theorem Mach.counted_firedAt {m : Mach} (h : m.timeRuns = true) (t : Nat) : (m.firedAt t).time.now.counted := by
  rw [Mach.firedAt, Mach.now_trigFired]
  exact Mach.counted_advanceTo h _

theorem Mach.trigSteps_congr {a b : Mach} (h : b.time.now = a.time.now) (x : Trig) (per : Nat) : b.trigSteps x per = a.trigSteps x per := by
  unfold Mach.trigSteps
  rw [h]

theorem Mach.firedAt_counts : (m.firedAt t).fld (aTIME_TRIG_STAT t) fTIME_TRIG_STAT_FIRED
      = (m.fld (aTIME_TRIG_STAT t) fTIME_TRIG_STAT_FIRED + 1) % 2 ^ 16
    ∧ (m.firedAt t).fld (aTIME_TRIG_STAT t) fTIME_TRIG_STAT_LATE
      = (if (m.trig t).lateAt.isSome then 1 else m.fld (aTIME_TRIG_STAT t) fTIME_TRIG_STAT_LATE)
    ∧ ((m.firedAt t).trig t).last = some (m.firedAt t).cyc ∧ ((m.firedAt t).trig t).lateAt = none := by
  have h := Mach.trigFired_counts (m := m.advanceTo (m.trigDue (m.trig t))) (n := t)
  rwa [Mach.trig_advanceTo, Mach.fld_advanceTo, Mach.fld_advanceTo, ← (Mach.trigFired_frame _ t).toTouches.cyc_eq] at h

variable {m t}

theorem Mach.firedAt_stops (h : m.trigEnds t) : (m.firedAt t).trigRun t = false ∧ ((m.firedAt t).trig t).armed = false
    ∧ ((m.firedAt t).trig t).time = (m.trig t).time := by
  have h := Mach.trigFired_stops (m := m.advanceTo (m.trigDue (m.trig t))) (n := t) h
  rwa [Mach.trig_advanceTo] at h

/-- The periods between two compare times count from the present time of the firing. -/
theorem Mach.firedAt_goesOn (h : ¬ m.trigEnds t) : (m.firedAt t).trigRun t = m.trigRun t
    ∧ ((m.firedAt t).trig t).armed = (m.trig t).armed
    ∧ ((m.firedAt t).trig t).time.total
      = ((m.trig t).time.total + (m.firedAt t).trigSteps (m.trig t) (m.trigPeriod t) * m.trigPeriod t) % timePeriod
    ∧ (m.firedAt t).fld (aTIME_TRIG_STAT t) fTIME_TRIG_STAT_MISSED = min 0xFF (m.fld (aTIME_TRIG_STAT t) fTIME_TRIG_STAT_MISSED
      + ((m.firedAt t).trigSteps (m.trig t) (m.trigPeriod t) - 1)) := by
  have h := Mach.trigFired_goesOn (m := m.advanceTo (m.trigDue (m.trig t))) (n := t) h
  rwa [Mach.trig_advanceTo, Mach.fld_advanceTo, ← Mach.trigSteps_congr Mach.now_trigFired] at h

theorem Mach.trig_firedAt_ne {k : Nat} (hk : k ≠ t) : (m.firedAt t).trig k = m.trig k :=
  (Mach.trig_trigFired_ne hk).trans (m.trig_advanceTo _ k)

theorem Mach.reg_firedAt_ne {a : Nat} (ha : a ≠ aTIME_TRIG_STAT t) : (m.firedAt t).reg a = m.reg a := Mach.reg_trigFired_ne ha

end

theorem runsTo_timeTriggerFire {s : State} {t : Nat} (ht : t < 16) (hrun : s.m.timeRuns = true) (htrig : s.m.trigRun t = true)
    (harm : (s.m.trig t).armed = true ∨ (s.m.trig t).lateAt ≠ none) (hc : s.m.commits = []) : RunsTo (.timeTriggerFire t) s (s.m.fires t) := by
  have hcommits : (s.m.firedAt t).commits = [] := (s.m.firedAt_frame t).toTouches.commits_eq.trans hc
  refine RunsTo.of_run (execTimeTriggerFire t s) rfl rfl (decide_eq_true ht) ((if_neg ?_).trans ?_)
  · simpa [hrun, htrig, Classical.or_iff_not_imp_left] using harm
  · show ((((s.m.firedAt t).releaseCommits t).enginesSee t).unitsSee t).when (t == 15) (fun m => m.ppsStart 1) = s.m.fires t
    rw [Mach.releaseCommits_of_nil hcommits]
    rfl

/-! ## What a firing leaves -/

section
variable {m : Mach} {t : Nat} (hcc : ∀ a, a < 4 → m.fld (aAXS_CFG a) fAXS_CFG_CC_TRIG ≠ t)
include hcc

theorem Mach.unpaced_firedAt (a : Nat) (ha : a < 4) : ((m.firedAt t).enginesSee t).fld (aAXS_CFG a) fAXS_CFG_CC_TRIG ≠ t := by
  have hreg : (m.firedAt t).reg (aAXS_CFG a) = m.reg (aAXS_CFG a) := Mach.reg_firedAt_ne (by unfold aAXS_CFG aTIME_TRIG_STAT; omega)
  rw [((m.firedAt t).enginesSee_frame t).toTouches.fld, Mach.fld, hreg]
  exact hcc a ha

theorem Mach.unitsSee_firedAt_frame : Frame [.regs, .eng, .cam, .pts, .hk] (m.firedAt t) (((m.firedAt t).enginesSee t).unitsSee t) :=
  .trans (.mono rfl (Mach.enginesSee_frame _ t)) (.mono rfl (Mach.unitsSee_frame (Mach.unpaced_firedAt hcc)))

theorem Mach.fires_frame : Frame [.regs, .eng, .time, .cam, .pts, .hk] (m.firedAt t) (m.fires t) :=
  .trans (.mono rfl (Mach.unitsSee_firedAt_frame hcc)) (.when (fun m => .mono rfl (m.ppsStart_frame 1)))

theorem Mach.trigs_fires : (m.fires t).time.trigs = (m.firedAt t).time.trigs := by
  rw [← (Mach.unitsSee_firedAt_frame hcc).toTouches.time_eq, Mach.fires]
  cases t == 15
  · rfl
  · exact Mach.trigs_ppsStart _ _

theorem Mach.trig_fires (k : Nat) : (m.fires t).trig k = (m.firedAt t).trig k := congrArg (mapGet _ · k) (Mach.trigs_fires hcc)

theorem Mach.now_fires : (m.fires t).time.now = (m.firedAt t).time.now := by
  rw [← (Mach.unitsSee_firedAt_frame hcc).toTouches.time_eq, Mach.fires]
  cases t == 15
  · rfl
  · exact Mach.now_ppsStart _ _

theorem Mach.cyc_fires : (m.fires t).cyc = (m.firedAt t).cyc := (Mach.fires_frame hcc).toTouches.cyc_eq

theorem Mach.fires_touches : Touches [.cyc, .regs, .eng, .time, .cam, .pts, .hk] m (m.fires t) :=
  (Frame.trans (.mono rfl (m.firedAt_frame t)) (.mono rfl (Mach.fires_frame hcc))).toTouches

theorem Mach.e_fires (e : Nat) : (m.fires t).e e = ((m.firedAt t).enginesSee t).e e :=
  ((Frame.when (l := [.time]) (fun m => m.ppsStart_frame 1)).toTouches.e e).trans
    ((Mach.unitsSee_frame (Mach.unpaced_firedAt hcc)).toTouches.e e)

/-- An engine that waits for the trigger since before its cycle goes on with 0. -/
theorem Mach.e_fires_of_waiting {e : Nat} (hst : (m.e e).st = .waiting) (hw : (m.e e).wait = .trig t) (hi : (m.e e).issue < (m.fires t).cyc) :
    (m.e e).resumed ((m.fires t).e e) 0 := by
  have heng : (m.firedAt t).e e = m.e e := (m.firedAt_frame t).toTouches.e e
  rw [Mach.e_fires hcc, ← heng]
  rw [← heng] at hst hw hi
  exact Mach.enginesSee_of_waiting hst hw (Mach.cyc_fires hcc ▸ hi)

theorem Mach.e_fires_of_blind {e : Nat} (h : (m.e e).st ≠ .waiting ∨ (m.fires t).cyc ≤ (m.e e).issue) : (m.fires t).e e = m.e e := by
  have heng : (m.firedAt t).e e = m.e e := (m.firedAt_frame t).toTouches.e e
  rw [Mach.e_fires hcc, ← heng]
  rw [← heng, Mach.cyc_fires hcc] at h
  exact Mach.enginesSee_of_blind h

/-- A register other than HK_STAT, which housekeeping counts in. -/
theorem Mach.reg_fires_ne {a : Nat} (ha : a ≠ aHK_STAT) : (m.fires t).reg a = (m.firedAt t).reg a := by
  have hpps : (m.fires t).reg a = (((m.firedAt t).enginesSee t).unitsSee t).reg a :=
    (Frame.when (l := [.time]) (fun m => m.ppsStart_frame 1)).toTouches.reg a
  rw [hpps, Mach.reg_unitsSee_ne (Mach.unpaced_firedAt hcc) ha, (Mach.enginesSee_frame _ t).toTouches.reg]

theorem Mach.fld_stat_fires (f : Fld) : (m.fires t).fld (aTIME_TRIG_STAT t) f = (m.firedAt t).fld (aTIME_TRIG_STAT t) f :=
  congrArg f.get (Mach.reg_fires_ne hcc (by unfold aTIME_TRIG_STAT aHK_STAT; omega))

theorem Mach.trigRun_fires : (m.fires t).trigRun t = (m.firedAt t).trigRun t := congrArg (· != 0) (Mach.fld_stat_fires hcc _)

/-- Trigger 15 starts a pulse of PPS_OUT when SRC is 1 (R125). -/
theorem Mach.ppsEnd_fires_of_src (ht : t = 15) (hen : m.flag aTIME_PPSO fTIME_PPSO_EN = true) (hsrc : m.fld aTIME_PPSO fTIME_PPSO_SRC = 1) :
    (m.fires t).time.ppsEnd = some ((m.fires t).cyc + 800000 * max 1 (m.fld aTIME_PPSO fTIME_PPSO_WIDTH)) := by
  have hreg : (((m.firedAt t).enginesSee t).unitsSee t).reg aTIME_PPSO = m.reg aTIME_PPSO := by
    rw [Mach.reg_unitsSee_ne (Mach.unpaced_firedAt hcc) (by decide), (Mach.enginesSee_frame _ t).toTouches.reg,
      Mach.reg_firedAt_ne (by unfold aTIME_PPSO aTIME_TRIG_STAT; omega)]
  have hfld (f : Fld) : (((m.firedAt t).enginesSee t).unitsSee t).fld aTIME_PPSO f = m.fld aTIME_PPSO f := congrArg f.get hreg
  have hflag : (((m.firedAt t).enginesSee t).unitsSee t).flag aTIME_PPSO fTIME_PPSO_EN = true := (congrArg (· != 0) (hfld _)).trans hen
  rw [Mach.cyc_fires hcc, ← (Mach.unitsSee_firedAt_frame hcc).toTouches.cyc_eq, Mach.fires, beq_iff_eq.mpr ht,
    Mach.when_true, Mach.ppsEnd_ppsStart, hflag, hfld, hfld, hsrc]
  rfl

theorem Mach.ppsEnd_fires_of_ne (ht : t ≠ 15) : (m.fires t).time.ppsEnd = m.time.ppsEnd := by
  rw [Mach.fires, beq_false_of_ne ht, Mach.when_false, (Mach.unitsSee_firedAt_frame hcc).toTouches.time_eq, Mach.ppsEnd_firedAt]

end

end Sys2Proof.Machine
end

section
namespace Sys2Proof.Machine

/-- Settles O47: a firing is counted and its trigger stops or moves past the present (`Mach.firedAt_stops`, `Mach.firedAt_goesOn`,
`Mach.trigSteps_of_late`) before the engines see it; a carry leaves less than an increment (`DTime.after_toCarry`); an edge is captured
(`Mach.captured_takes`) and realigns each trigger once (`Mach.trig_foldl_realign`). -/
theorem timeBaseAndTriggers : Obligations.TimeBaseAndTriggers := by
  unfold Obligations.TimeBaseAndTriggers
  intro s
  extract_lets m
  refine ⟨fun t ht => ?trigger, runsTo_secondCarry_stopped, fun hrun h0 hi hns hfrac => ?carry, runsTo_ppsOutPulseEnd_none, fun c hc => ?pulseEnd,
    fun n rising half hn => ?edge, fun src n hsrc hn => ?capRead, fun src hsrc hsec hns hfrac => ?nowRead⟩
  case trigger =>
    extract_lets x st runs late per count fired ends
    refine ⟨runsTo_timeTriggerFire_idle ht, fun ⟨hrun, htrig, harm⟩ hc hcc => ?fires⟩
    have hsame (k : Nat) : (m.fires t).trig k = (m.firedAt t).trig k := Mach.trig_fires hcc k
    have hkept := Mach.fires_touches hcc
    obtain ⟨hfired, hlate, hlast, hnone⟩ := m.firedAt_counts t
    refine ⟨m.fires t, runsTo_timeTriggerFire ht hrun htrig harm hc, (Mach.cyc_fires hcc).trans (m.cyc_firedAt t),
      (Mach.fld_stat_fires hcc _).trans hfired, ?last, ?lateAt, (Mach.fld_stat_fires hcc _).trans hlate, fun hends => ?stops,
      fun hends => ?goesOn, fun k hk => (hsame k).trans (Mach.trig_firedAt_ne hk), fun e _ hst hw hi => Mach.e_fires_of_waiting hcc hst hw hi,
      fun e _ _ hi => Mach.e_fires_of_blind hcc (.inr hi), fun e hst => Mach.e_fires_of_blind hcc (.inl hst),
      Mach.ppsEnd_fires_of_src hcc, Mach.ppsEnd_fires_of_ne hcc, hkept.mem_eq, hkept.dev_eq, hkept.axis_eq⟩
    case last => rw [hsame, Mach.cyc_fires hcc, hlast]
    case lateAt => rw [hsame, hnone]
    case stops =>
      rw [hsame, Mach.trigRun_fires hcc]
      exact Mach.firedAt_stops hends
    case goesOn =>
      obtain ⟨hrun', harmed, htotal, hmissed⟩ := Mach.firedAt_goesOn (t := t) hends
      rw [hsame, Mach.trigRun_fires hcc, hrun', harmed]
      refine ⟨htrig, rfl, (m.firedAt t).trigSteps x per, Mach.trigSteps_pos _ _ _, fun hl => Mach.trigSteps_of_onTime (Classical.not_not.mp hl) _, htotal,
        (Mach.fld_stat_fires hcc _).trans hmissed, fun hl hle => ?_⟩
      rw [Mach.now_fires hcc] at hle ⊢
      exact Mach.trigSteps_of_late hl (Mach.counted_firedAt hrun t) (Nat.pos_of_ne_zero (fun hper => hends (.inl hper))) hle
  case carry =>
    obtain ⟨hn, hsec, hrest⟩ := DTime.after_toCarry h0 hi hns hfrac
    refine ⟨_, runsTo_secondCarry hrun, ?_, ?_, ?_, ?_, m.ppsEnd_secondCarried, m.trigs_secondCarried, m.secondCarried_frame.toTouches⟩
    · exact Nat.lt_of_lt_of_eq (Nat.lt_add_of_pos_right hn) m.cyc_secondCarried.symm
    all_goals rw [Mach.now_secondCarried hrun]
    · exact hsec
    · exact hrest
    · rw [DTime.total_after, Mach.cyc_secondCarried, Nat.add_sub_cancel_left]
  case pulseEnd =>
    exact ⟨_, runsTo_ppsOutPulseEnd hc, m.cyc_advanceTo c, rfl, Bool.false_xor _, m.trigs_advance _,
      (Frame.time (.mono rfl (m.advanceTo_frame c))).toTouches⟩
  case edge =>
    extract_lets c active t
    refine ⟨runsTo_edgeCapture_idle hn, fun hrun hactive => ⟨m.edged n t, runsTo_edgeCapture hn hrun hactive, fun hen => ?off, fun hen hv => ?missed,
      fun hen hv => ?takes, fun k hk => ?trigs, m.now_edged n t, (m.edged_frame n t).toTouches⟩⟩
    case off => rw [Mach.regs_edged, Mach.captured_off hen]
    case missed =>
      have hreg (a : Nat) : (m.edged n t).reg a = (m.satInc c fTIME_CAP_CTRL_MISSED).reg a :=
        congrArg (mapGet _ · a) (by rw [Mach.regs_edged, Mach.captured_missed hen hv])
      refine ⟨(congrArg fTIME_CAP_CTRL_MISSED.get (hreg c)).trans (m.fld_satAdd_same c _ 1 rfl), fun a ha => (hreg a).trans ?_⟩
      exact Mach.reg_setFld_ne _ _ _ (by simpa using ha)
    case takes =>
      have hreg (a : Nat) : (m.edged n t).reg a = (m.captured n t).reg a := congrArg (mapGet _ · a) (m.regs_edged n t)
      have hfld (a : Nat) (f : Fld) : (m.edged n t).fld a f = (m.captured n t).fld a f := congrArg f.get (hreg a)
      obtain ⟨hvalid, hstep, hsec, hns⟩ := Mach.captured_takes hen hv (DTime.counted_after _ _ _ : t.counted)
      simp only [hfld]
      exact ⟨hvalid, hstep, hsec, hns, fun a ha => (hreg a).trans (m.captured_regsBut n t a ha)⟩
    case trigs =>
      refine (m.trig_edged t hn hk).trans ?_
      unfold Mach.trigRealigned
      by_cases h : n = 1 <;> simp [h]
  case capRead =>
    have hr := runsTo_captureRead (s := s) hsrc hn
    refine ⟨fun hmay => ?refused, fun hmay => ?freed⟩
    case refused => rwa [if_neg hmay] at hr
    case freed =>
      rw [if_pos hmay] at hr
      exact ⟨_, hr, rfl, Mach.fld_setFld_same _ _ _ rfl _, Mach.fld_setFld_apart _ _ _ _ _ _ rfl rfl,
        fun a ha => Mach.reg_setFld_ne _ _ _ (by simpa using ha),
        (Frame.trans (.mono rfl (m.done_frame 0)) (.mono rfl (Mach.capRead_frame _ n))).toTouches⟩
  case nowRead =>
    have hr := runsTo_timeNowRead (s := s) hsrc
    refine ⟨fun hmay => ?refused, fun hmay => ?latched⟩
    case refused => rwa [if_neg hmay] at hr
    case latched =>
      rw [if_pos hmay] at hr
      obtain ⟨hNs, hSec, hFrac, hothers⟩ := Mach.latchNow_latches (m := m.done 0) ⟨hsec, hns, hfrac⟩
      exact ⟨_, hr, rfl, hNs, hSec, hFrac, hothers,
        (Frame.trans (.mono rfl (m.done_frame 0)) (.mono rfl (Mach.latchNow_frame _))).toTouches⟩

end Sys2Proof.Machine
end

section
namespace Sys2Proof.Machine

/-! ## What the guard's decision turns on (R202, R205) -/

/-- `m'` is `m` but for the levels and the instants of their last update. -/
structure Mach.LevelsOnly (m m' : Mach) : Prop extends Touches [.mem, .grd] m m' where
  grd   : m'.grd = { m.grd with updated := m'.grd.updated }
  below : ∀ k, k < grdLevels → m'.byte k = m.byte k

/-- The conditions of R202 that are judged before any level decays. -/
structure Mach.ClearedFor (m : Mach) (x : Shot) : Prop where
  hot     : m.hot = true
  active  : m.grdOn = true
  fault   : m.flag aGRD_STAT fGRD_STAT_FAULT = false
  cold    : m.flag aGRD_STAT fGRD_STAT_COLD = false
  matrix  : (m.gw 0x10).testBit 0 = m.matrix
  stalled : ∀ h, h < 2 → (m.head h).stalled = false
  entries : ∀ i, i ∈ m.entries x →
    m.motionOk (m.entryHead i) = true ∧ 0 ≤ m.entryEl i ∧ m.entryEl i ≤ 63 ∧ m.posOut (m.entryHead i) = false

/-- The conditions of R202 that are judged with the touched sectors decayed: modules, ROWMAX and the three windows of the energies `l`. -/
structure Mach.HasRoom (m : Mach) (x : Shot) (l : List (Nat × Option Nat)) : Prop where
  modules : ∀ k, k < 4 → (m.gw (0x80 + 8 * k)).testBit x.str = true → m.modBad k = false
  rowmax  : ∀ p ∈ l, p.2.getD 0 ≤ m.gw (0x1100 + 4 * (p.1 / 256))
  windows : ∀ p ∈ l, ∀ w, w < 3 → m.level p.1 w + p.2.getD 0 ≤ m.lim p.1 w / 2

/-! ## Sparse maps as lists -/

section
variable {β : Type} {d : β} {l : List (Nat × β)}

/-- A key below all keys of a map reads as the default. -/
theorem mapGet_eq_default {k : Nat} (h : ∀ p ∈ l, k < p.1) : mapGet d l k = d := by
  induction l with
  | nil => rfl
  | cons p t ih =>
    obtain ⟨hp, ht⟩ := List.forall_mem_cons.mp h
    exact (if_neg (Nat.ne_of_lt hp)).trans (ih ht)

variable [DecidableEq β]

/-- A canonical map lists just the keys that do not read as the default. -/
theorem mem_iff_mapGet (h : mapWf d l = true) (k : Nat) (v : β) : (k, v) ∈ l ↔ mapGet d l k = v ∧ v ≠ d := by
  induction l with
  | nil => simp [mapGet, eq_comm]
  | cons p t ih =>
    obtain ⟨k', v'⟩ := p
    obtain ⟨hv', hlt, ht⟩ := (mapWf_cons d k' v' t).mp h
    rw [List.mem_cons, Prod.mk.injEq, ih ht, mapGet]
    by_cases hk : k = k'
    case pos =>
      rw [if_pos hk, mapGet_eq_default (hk ▸ hlt)]
      constructor
      · rintro (⟨-, rfl⟩ | ⟨rfl, hv⟩)
        · exact ⟨rfl, hv'⟩
        · exact absurd rfl hv
      · rintro ⟨rfl, -⟩
        exact .inl ⟨hk, rfl⟩
    case neg => simp [hk]

theorem mem_mapPut {k : Nat} {v : β} {p : Nat × β} (h : p ∈ mapPut d l k v) : p = (k, v) ∨ p ∈ l := by
  unfold mapPut at h
  split at h
  · exact .inr (mem_mapErase l k p h).1
  · exact (mem_mapInsert _ k v p h).imp_right (fun h => (mem_mapErase l k p h).1)

end

/-! ## Numbers in memory -/

theorem leNat_lt (l : List Byte) : leNat l < 256 ^ l.length := by
  induction l with
  | nil => exact Nat.one_pos
  | cons b t ih =>
    have hb := b.isLt
    simp only [leNat, List.length_cons, Nat.pow_succ]
    omega

theorem Mach.mnat_lt (m : Mach) (a n : Nat) : m.mnat a n < 256 ^ n := by
  have h := leNat_lt (m.bytes a n)
  rwa [Mach.length_bytes] at h

/-- A number apart from the bytes written keeps its value. -/
theorem Mach.mnat_setMnat_out (m : Mach) {a n b k : Nat} (v : Nat) (h : b + k ≤ a ∨ a + n ≤ b) : (m.setMnat a n v).mnat b k = m.mnat b k :=
  congrArg leNat (Mach.bytes_congr _ _ _ _ (fun _ _ => m.byte_setMnat_out a n v _ (by omega)))

/-! ## The levels (R205) -/

/-- Δ: the guard cycles since the last update of a sector's levels (R205). -/
def Mach.sinceUpdate (m : Mach) (s : Nat) : Nat := m.gcyc - mapGet m.grd.base m.grd.updated s

/-- A_w(s) decayed to now (R205). -/
def Mach.decayed (m : Mach) (s w : Nat) : Nat := m.level s w - m.lim s w * m.sinceUpdate s / (2 * guardT w)

/-- The levels of a sector replaced by those of `d` guard cycles later. -/
def Mach.decayLevels (m : Mach) (s d : Nat) : Mach :=
  (List.range 3).foldl (fun m w => m.setLevel s w (m.level s w - m.lim s w * d / (2 * guardT w))) m

theorem Mach.decayLevels_frame (m : Mach) (s d : Nat) : Frame [.mem] m (m.decayLevels s d) :=
  .foldl (fun m w => m.setLevel_frame s w _) _

theorem Mach.mem_decay (m : Mach) (s : Nat) : (m.decay s).mem = (m.decayLevels s (m.sinceUpdate s)).mem := rfl

theorem Mach.grd_decay (m : Mach) (s : Nat) :
    (m.decay s).grd = { m.grd with updated := mapPut m.grd.base m.grd.updated s m.gcyc } := by
  have h := (m.decayLevels_frame s (m.sinceUpdate s)).toTouches
  have hdecay : (m.decay s).grd = { (m.decayLevels s (m.sinceUpdate s)).grd with
      updated := mapPut (m.decayLevels s (m.sinceUpdate s)).grd.base (m.decayLevels s (m.sinceUpdate s)).grd.updated s
        ((m.decayLevels s (m.sinceUpdate s)).cyc / 16) } := rfl
  rw [hdecay, h.grd_eq, h.cyc_eq]
  rfl

theorem Mach.level_lt (m : Mach) (s w : Nat) : m.level s w < 2 ^ 32 := m.mnat_lt _ 4

theorem Mach.level_setLevel (m : Mach) {s s' w w' : Nat} (v : Nat) (hw : w < 3) (hw' : w' < 3) :
    (m.setLevel s w v).level s' w' = if s' = s ∧ w' = w then v % 2 ^ 32 else m.level s' w' := by
  split
  case isTrue h => obtain ⟨rfl, rfl⟩ := h; exact m.mnat_setMnat _ 4 v
  case isFalse h => exact m.mnat_setMnat_out v (by omega)

namespace Mach.LevelsOnly

theorem refl (m : Mach) : m.LevelsOnly m := ⟨Frame.refl.toTouches, rfl, fun _ _ => rfl⟩

theorem trans {a b c : Mach} (h : a.LevelsOnly b) (h' : b.LevelsOnly c) : a.LevelsOnly c :=
  ⟨⟨fun p hp => Part.same_trans (h.same p hp) (h'.same p hp)⟩, h'.grd.trans (by rw [h.grd]), fun k hk => (h'.below k hk).trans (h.below k hk)⟩

theorem foldl {α : Type} {f : Mach → α → Mach} (h : ∀ m x, LevelsOnly m (f m x)) (l : List α) (m : Mach) : LevelsOnly m (l.foldl f m) := by
  induction l generalizing m with
  | nil => exact .refl m
  | cons x t ih => exact (h m x).trans (ih _)

theorem setLevel (m : Mach) (s w v : Nat) : m.LevelsOnly (m.setLevel s w v) :=
  have h := (m.setLevel_frame s w v).toTouches
  ⟨(Frame.mono rfl (m.setLevel_frame s w v)).toTouches, by rw [h.grd_eq], fun _ hk => m.byte_setMnat_out _ 4 v _ (.inl (by omega))⟩

theorem decay (m : Mach) (s : Nat) : m.LevelsOnly (m.decay s) := by
  have h := foldl (fun m' w => setLevel m' s w (m'.level s w - m'.lim s w * m.sinceUpdate s / (2 * guardT w))) (List.range 3) m
  exact ⟨(m.decay_frame s).toTouches, by rw [m.grd_decay], fun k hk => (congrArg (mapGet 0 · k) (m.mem_decay s)).trans (h.below k hk)⟩

variable {m m' : Mach} (h : m.LevelsOnly m')
include h

theorem base : m'.grd.base = m.grd.base := by rw [h.grd]

theorem matrix : m'.matrix = m.matrix := h.flag _ _

/-- A word of the image is not a level. -/
theorem gw {o : Nat} (ho : o + 4 ≤ 0x50000) : m'.gw o = m.gw o :=
  congrArg leNat (Mach.bytes_congr _ _ _ _ (fun _ hi => h.below _ (by
    show 0x1280000 + o + _ < 0x12D0000
    omega)))

theorem lim {s w : Nat} (hs : s < 16384) (hw : w < 3) : m'.lim s w = m.lim s w := h.gw (by omega)

theorem modBad {k : Nat} (hk : k < 4) : m'.modBad k = m.modBad k := by
  unfold Mach.modBad
  rw [h.grd, h.cyc_eq, h.gw (by omega)]

/-! A head record lies in the image, and so does an entry of the emitter map; what they place a shot at is as before. -/

theorem hw {n k : Nat} (hn : n < 2) (hk : k < 8) : m'.hw n k = m.hw n k := h.gw (by omega)

theorem gpos (a : Nat) : m'.gpos a = m.gpos a := by unfold Mach.gpos; rw [h.grd]

theorem head (n : Nat) : m'.head n = m.head n := by unfold Mach.head; rw [h.grd]

theorem gAz {n : Nat} (hn : n < 2) : m'.gAz n = m.gAz n := by
  unfold Mach.gAz Mach.azSrc Mach.azAxis Mach.cpr
  rw [h.head, h.gpos, h.hw hn (by decide), h.hw hn (by decide), h.hw hn (by decide), h.hw hn (by decide)]

theorem gEl {n : Nat} (hn : n < 2) : m'.gEl n = m.gEl n := by
  unfold Mach.gEl Mach.elSrc Mach.elAxis
  rw [h.gpos, h.hw hn (by decide), h.hw hn (by decide), h.hw hn (by decide)]

theorem entries (x : Shot) : m'.entries x = m.entries x := by unfold Mach.entries; rw [h.matrix]

end Mach.LevelsOnly

theorem Mach.entryHead_lt (m : Mach) (i : Nat) : m.entryHead i < 2 :=
  Nat.div_lt_of_lt_mul (m.mnat_lt _ 4)

namespace Mach.LevelsOnly
variable {m m' : Mach} (h : m.LevelsOnly m') {i : Nat} (hi : i < 1024)
include h hi

theorem entryWord : m'.gw (0x100 + 4 * i) = m.gw (0x100 + 4 * i) := h.gw (by omega)

theorem entryHead : m'.entryHead i = m.entryHead i := by unfold Mach.entryHead; rw [h.entryWord hi]

theorem entryEl : m'.entryEl i = m.entryEl i := by
  unfold Mach.entryEl
  rw [h.entryHead hi, h.entryWord hi, h.gEl (m.entryHead_lt i)]

theorem entryAz : m'.entryAz i = m.entryAz i := by
  unfold Mach.entryAz
  rw [h.entryHead hi, h.entryWord hi, h.gAz (m.entryHead_lt i)]

theorem entryE (x : Shot) : m'.entryE x i = m.entryE x i := by
  unfold Mach.entryE
  rw [h.entryWord hi, h.fld]

end Mach.LevelsOnly

/-- Two folds of a list agree whose steps agree on its members. -/
theorem foldl_congr {α β : Type} {f g : β → α → β} {l : List α} (h : ∀ b, ∀ a ∈ l, f b a = g b a) (b : β) : l.foldl f b = l.foldl g b := by
  induction l generalizing b with
  | nil => rfl
  | cons a t ih =>
    rw [List.foldl_cons, List.foldl_cons, h b a List.mem_cons_self]
    exact ih (fun b a ha => h b a (List.mem_cons_of_mem _ ha)) _

/-- The energies of a shot whose entries lie in the emitter map do not depend on the levels (R203, R204). -/
theorem Mach.LevelsOnly.shotEnergy {m m' : Mach} (h : m.LevelsOnly m') {x : Shot} (hmap : ∀ i ∈ m.entries x, i < 1024) :
    m'.shotEnergy x = m.shotEnergy x := by
  unfold Mach.shotEnergy
  rw [h.entries]
  refine foldl_congr (fun l i hi => ?_) []
  rw [h.entryEl (hmap i hi), h.entryAz (hmap i hi), h.entryE (hmap i hi)]

/-! ## Decay and charge of the touched sectors (R205) -/

/-- The three levels of one sector replaced, each by a number that the other two do not enter. -/
theorem Mach.level_setLevels (m : Mach) {s s' w : Nat} (f : Mach → Nat → Nat) (hw : w < 3)
    (hf : ∀ (m : Mach) (w w' v : Nat), w < 3 → w' < 3 → w' ≠ w → f (m.setLevel s w v) w' = f m w') :
    ((List.range 3).foldl (fun m w => m.setLevel s w (f m w)) m).level s' w = if s' = s then f m w % 2 ^ 32 else m.level s' w := by
  have h3 : List.range 3 = [0, 1, 2] := rfl
  simp only [h3, List.foldl_cons, List.foldl_nil]
  rw [hf _ 1 2 _ (by decide) (by decide) (by decide), hf _ 0 2 _ (by decide) (by decide) (by decide),
    hf _ 0 1 _ (by decide) (by decide) (by decide), Mach.level_setLevel _ _ (by decide) hw, Mach.level_setLevel _ _ (by decide) hw,
    Mach.level_setLevel _ _ (by decide) hw]
  by_cases hs : s' = s
  · simp only [hs, true_and, if_true]
    obtain rfl | rfl | rfl : w = 0 ∨ w = 1 ∨ w = 2 := by omega
    all_goals rfl
  · simp only [hs, false_and, if_false]

theorem Mach.level_decayLevels (m : Mach) {s s' w : Nat} (d : Nat) (hs : s < 16384) (hw : w < 3) :
    (m.decayLevels s d).level s' w = if s' = s then m.level s w - m.lim s w * d / (2 * guardT w) else m.level s' w := by
  unfold Mach.decayLevels
  rw [m.level_setLevels (fun m w => m.level s w - m.lim s w * d / (2 * guardT w)) hw,
    Nat.mod_eq_of_lt (Nat.lt_of_le_of_lt (Nat.sub_le _ _) (m.level_lt s w))]
  intro m w w' v hw hw' hne
  rw [m.level_setLevel v hw hw', if_neg (fun hc => hne hc.2), (LevelsOnly.setLevel m s w v).lim hs hw']

theorem Mach.level_decay (m : Mach) {s s' w : Nat} (hs : s < 16384) (hw : w < 3) :
    (m.decay s).level s' w = if s' = s then m.decayed s w else m.level s' w :=
  (Mach.mnat_of_mem (m.mem_decay s) _ 4).trans (m.level_decayLevels _ hs hw)

theorem Mach.decayed_decay_ne (m : Mach) {s s' w : Nat} (hs : s < 16384) (hs' : s' < 16384) (hw : w < 3) (hne : s' ≠ s) :
    (m.decay s).decayed s' w = m.decayed s' w := by
  have h := LevelsOnly.decay m s
  have hupd : (m.decay s).grd.updated = mapPut m.grd.base m.grd.updated s m.gcyc := by rw [m.grd_decay]
  unfold Mach.decayed Mach.sinceUpdate Mach.gcyc
  rw [m.level_decay hs hw, if_neg hne, h.lim hs' hw, h.cyc_eq, h.base, hupd, mapGet_mapPut_ne _ _ _ hne]

/-- The touched sectors decay once each (R205). -/
theorem Mach.level_decays {l : List (Nat × Option Nat)} (m : Mach) {s w : Nat} (hl : mapWf none l = true)
    (hs : ∀ p ∈ l, p.1 < 16384) (hw : w < 3) :
    (l.foldl (fun m p => m.decay p.1) m).level s w = if mapGet none l s = none then m.level s w else m.decayed s w := by
  induction l generalizing m with
  | nil => rfl
  | cons p t ih =>
    obtain ⟨k, v⟩ := p
    obtain ⟨hv, hlt, ht⟩ := (mapWf_cons none k v t).mp hl
    have hk : k < 16384 := hs _ List.mem_cons_self
    have hst : ∀ p ∈ t, p.1 < 16384 := fun p hp => hs p (List.mem_cons_of_mem _ hp)
    rw [List.foldl_cons, ih (m.decay k) ht hst, mapGet]
    by_cases hks : s = k
    case pos =>
      rw [if_pos hks, if_neg hv, hks, if_pos (mapGet_eq_default hlt), m.level_decay hk hw, if_pos rfl]
    case neg =>
      rw [if_neg hks, m.level_decay hk hw, if_neg hks]
      by_cases hg : mapGet none t s = none
      · rw [if_pos hg, if_pos hg]
      · have hs' : s < 16384 := hst _ ((mem_iff_mapGet ht s _).mpr ⟨rfl, hg⟩)
        rw [if_neg hg, if_neg hg, m.decayed_decay_ne hk hs' hw hks]

/-- Energy `e` added to the three levels of a sector. -/
def Mach.charge (m : Mach) (s e : Nat) : Mach := (List.range 3).foldl (fun m w => m.setLevel s w (m.level s w + e)) m

theorem Mach.level_charge (m : Mach) {s s' w : Nat} (e : Nat) (hw : w < 3) :
    (m.charge s e).level s' w = if s' = s then (m.level s w + e) % 2 ^ 32 else m.level s' w := by
  refine m.level_setLevels (fun m w => m.level s w + e) hw (fun m w w' v hw hw' hne => ?_)
  rw [m.level_setLevel v hw hw', if_neg (fun hc => hne hc.2)]

/-- Every sector is charged its energy in the shot, 0 where the shot does not touch it. -/
theorem Mach.level_charges {l : List (Nat × Option Nat)} (m : Mach) {s w : Nat} (hl : mapWf none l = true) (hw : w < 3) :
    (l.foldl (fun m p => m.charge p.1 (p.2.getD 0)) m).level s w = (m.level s w + (mapGet none l s).getD 0) % 2 ^ 32 := by
  induction l generalizing m with
  | nil => exact (Nat.mod_eq_of_lt (m.level_lt s w)).symm
  | cons p t ih =>
    obtain ⟨k, v⟩ := p
    obtain ⟨-, hlt, ht⟩ := (mapWf_cons none k v t).mp hl
    rw [List.foldl_cons, ih (m.charge k (v.getD 0)) ht, mapGet, m.level_charge _ hw]
    by_cases hks : s = k
    case pos =>
      rw [if_pos hks, if_pos hks, hks, mapGet_eq_default hlt]
      exact Nat.mod_mod _ _
    case neg => rw [if_neg hks, if_neg hks]

/-! ## The energies of a shot (R204) -/

theorem Mach.shotEnergy_wf (m : Mach) (x : Shot) : mapWf none (m.shotEnergy x) = true :=
  List.foldlRecOn (motive := fun l => mapWf none l = true) (m.entries x) _ rfl (fun _ h _ _ => mapWf_mapPut none _ _ _ h)

/-- A shot whose rows lie in the grid touches sectors of the grid (R203). -/
theorem Mach.ClearedFor.sector_lt {m : Mach} {x : Shot} (h : m.ClearedFor x) : ∀ p ∈ m.shotEnergy x, p.1 < 16384 := by
  refine List.foldlRecOn (motive := fun l : List (Nat × Option Nat) => ∀ p ∈ l, p.1 < 16384) (m.entries x) _
    (fun p hp => absurd hp List.not_mem_nil) (fun l hl i hi p hp => ?_)
  obtain rfl | hp := mem_mapPut hp
  · obtain ⟨-, hlo, hhi, -⟩ := h.entries i hi
    have haz : m.entryAz i < 256 := by unfold Mach.entryAz; omega
    show 256 * (m.entryEl i).toNat + m.entryAz i < 16384
    omega
  · exact hl p hp

/-! ## The verdict (R202, R209) -/

theorem failing_eq_none {l : List (Nat × Option Nat)} {t : Nat → Nat → Bool} (h : failing l t = none) :
    ∀ p ∈ l, t p.1 (p.2.getD 0) = false := by
  simpa [failing] using h

theorem mem_of_failing {l : List (Nat × Option Nat)} {t : Nat → Nat → Bool} {s : Nat} (h : failing l t = some s) : ∃ p ∈ l, p.1 = s := by
  obtain ⟨p, hp, rfl⟩ := Option.map_eq_some_iff.mp h
  exact ⟨p, List.mem_of_find?_eq_some hp, rfl⟩

/-- The machine with the sectors that a shot touches decayed to now. -/
def Mach.decayTouched (m : Mach) (x : Shot) : Mach := (m.shotEnergy x).foldl (fun m p => m.decay p.1) m

theorem Mach.LevelsOnly.decayTouched (m : Mach) (x : Shot) : m.LevelsOnly (m.decayTouched x) := by
  unfold Mach.decayTouched
  exact foldl (f := fun m (p : Nat × Option Nat) => m.decay p.1) (fun m p => decay m p.1) _ m

/-- A verdict falls before any level decays, and then for a reason that belongs to no sector; or else on the decayed levels of a shot that
all other conditions clear. -/
theorem Mach.guardJudge_cases (m : Mach) (x : Shot) :
    (∃ r, 0 < r ∧ r < 6 ∧ m.guardJudge x = ((r, 0), m)) ∨
    (m.ClearedFor x ∧ ∃ v, m.guardJudge x = (v, m.decayTouched x) ∧
      (v = (6, 0) ∨ (7 ≤ v.1 ∧ v.1 ≤ 10 ∧ ∃ p ∈ m.shotEnergy x, p.1 = v.2) ∨
        (v = (0, 0) ∧ (m.decayTouched x).HasRoom x (m.shotEnergy x)))) := by
  unfold Mach.guardJudge
  dsimp only
  rw [← Mach.decayTouched]
  split
  case isTrue => exact .inl ⟨2, by decide, by decide, rfl⟩
  case isFalse hfault =>
  split
  case isTrue => exact .inl ⟨1, by decide, by decide, rfl⟩
  case isFalse hstate =>
  split
  case isTrue => exact .inl ⟨3, by decide, by decide, rfl⟩
  case isFalse hcold =>
  split
  case isTrue => exact .inl ⟨4, by decide, by decide, rfl⟩
  case isFalse hmotion =>
  split
  case isTrue => exact .inl ⟨5, by decide, by decide, rfl⟩
  case isFalse hgrid =>
  refine .inr ⟨?cleared, ?_⟩
  case cleared =>
    simp only [Bool.or_eq_true, Bool.not_eq_true', bne_iff_ne, List.any_eq_true, decide_eq_true_eq, not_or, not_exists, not_and,
      Bool.not_eq_false, Bool.not_eq_true, Int.not_lt, ne_eq, Decidable.not_not] at hfault hstate hcold hmotion hgrid
    obtain ⟨⟨hhot, hon⟩, hmatrix⟩ := hstate
    obtain ⟨⟨hstall0, hstall1⟩, hmoves⟩ := hmotion
    refine ⟨hhot, hon, hfault, hcold, hmatrix, fun h hh => ?_, fun i hi => ?_⟩
    · obtain rfl | rfl : h = 0 ∨ h = 1 := by omega
      · exact hstall0
      · exact hstall1
    · obtain ⟨⟨hlo, hhi⟩, hpos⟩ := hgrid i hi
      exact ⟨hmoves i hi, hlo, hhi, hpos⟩
  have touched {r : Nat} {t : Nat → Nat → Bool} {s : Nat} {R : Prop} (hlo : 7 ≤ r) (hhi : r ≤ 10) (h : failing (m.shotEnergy x) t = some s) :
      (r, s) = (6, 0) ∨ (7 ≤ r ∧ r ≤ 10 ∧ ∃ p ∈ m.shotEnergy x, p.1 = s) ∨ R := .inr (.inl ⟨hlo, hhi, mem_of_failing h⟩)
  split
  case isTrue => exact ⟨_, rfl, .inl rfl⟩
  case isFalse hmod =>
  split
  case h_1 s hrow => exact ⟨_, rfl, touched (by decide) (by decide) hrow⟩
  case h_2 hrow =>
  split
  case h_1 s h0 => exact ⟨_, rfl, touched (by decide) (by decide) h0⟩
  case h_2 s h0 h1 => exact ⟨_, rfl, touched (by decide) (by decide) h1⟩
  case h_3 s h0 h1 h2 => exact ⟨_, rfl, touched (by decide) (by decide) h2⟩
  case h_4 h0 h1 h2 =>
    refine ⟨_, rfl, .inr (.inr ⟨rfl, ?_, ?_, ?_⟩)⟩
    · intro k hk hfeeds
      simp only [List.any_eq_true, List.mem_range, Bool.and_eq_true] at hmod
      exact Bool.eq_false_iff.mpr (fun hbad => hmod ⟨k, hk, hfeeds, hbad⟩)
    · intro p hp
      exact Nat.le_of_not_lt (of_decide_eq_false (failing_eq_none hrow p hp))
    · intro p hp w hw
      have hroom {w : Nat} (h : failing (m.shotEnergy x)
            (fun s e => decide ((m.decayTouched x).lim s w / 2 < (m.decayTouched x).level s w + e)) = none) :=
        Nat.le_of_not_lt (of_decide_eq_false (failing_eq_none h p hp))
      obtain rfl | rfl | rfl : w = 0 ∨ w = 1 ∨ w = 2 := by omega
      · exact hroom h0
      · exact hroom h1
      · exact hroom h2

/-- A decision grants a shot in time that is cleared and has room, and charges it; or it denies it, the levels decayed or not. -/
theorem Mach.guardDecide_cases (m : Mach) (x : Shot) (late : Bool) :
    (late = false ∧ m.ClearedFor x ∧ (m.decayTouched x).HasRoom x (m.shotEnergy x) ∧ m.guardDecide x late =
      (0, ((m.decayTouched x).shotEnergy x).foldl (fun m p => m.charge p.1 (p.2.getD 0)) (m.decayTouched x))) ∨
    ∃ r s m', m.guardDecide x late = (r, m'.guardDeny x r s) ∧ 0 < r ∧ r < 12 ∧ s < 16384 ∧ (r < 7 ∨ r = 11 → s = 0) ∧
      (m' = m ∨ (m.ClearedFor x ∧ m' = m.decayTouched x)) := by
  have denied {r s : Nat} {m' : Mach} (hr : 0 < r)
      (h : (if late && !m.flag aGRD_STAT fGRD_STAT_FAULT then ((11, 0), m) else m.guardJudge x) = ((r, s), m')) :
      m.guardDecide x late = (r, m'.guardDeny x r s) := by
    unfold Mach.guardDecide
    rw [h]
    exact if_neg (Nat.ne_of_gt hr)
  by_cases hlate : (late && !m.flag aGRD_STAT fGRD_STAT_FAULT) = true
  case pos => exact .inr ⟨11, 0, m, denied (by decide) (if_pos hlate), by decide, by decide, by decide, fun _ => rfl, .inl rfl⟩
  case neg =>
    obtain ⟨r, hr, hr6, hj⟩ | ⟨hclear, v, hj, rfl | ⟨hlo, hhi, p, hp, hs⟩ | ⟨rfl, hroom⟩⟩ := m.guardJudge_cases x
    · exact .inr ⟨r, 0, m, denied hr ((if_neg hlate).trans hj), hr, by omega, by decide, fun _ => rfl, .inl rfl⟩
    · exact .inr ⟨6, 0, _, denied (by decide) ((if_neg hlate).trans hj), by decide, by decide, by decide, fun _ => rfl, .inr ⟨hclear, rfl⟩⟩
    · exact .inr ⟨v.1, v.2, _, denied (by omega) ((if_neg hlate).trans hj), by omega, by omega, hs ▸ hclear.sector_lt p hp,
        fun h => absurd h (by omega), .inr ⟨hclear, rfl⟩⟩
    · have hintime : late = false := by simpa [hclear.fault] using hlate
      refine .inl ⟨hintime, hclear, hroom, ?_⟩
      unfold Mach.guardDecide
      rw [if_neg hlate, hj]
      rfl

/-! ## A denial (R209) -/

section
variable (m : Mach) (x : Shot) {r s : Nat}

theorem Mach.byte_guardDeny (k : Nat) : (m.guardDeny x r s).byte k =
    if k = grdDeny + s then BitVec.ofNat 8 (min 255 ((m.byte (grdDeny + s)).toNat + 1)) else m.byte k := by
  unfold Mach.guardDeny
  simp only [Mach.byte_setByte, Mach.byte_setFld, Mach.byte_satInc]

/-- The deny map lies below the levels. -/
theorem Mach.level_guardDeny (hs : s < 16384) (s' w : Nat) : (m.guardDeny x r s).level s' w = m.level s' w := by
  refine congrArg leNat (Mach.bytes_congr _ _ _ _ (fun i _ => ?_))
  rw [m.byte_guardDeny, if_neg]
  unfold grdDeny grdLevels
  omega

theorem Mach.reg_guardDeny_ne {a : Nat} (ha : a ≠ aGRD_LASTDENY) :
    (m.guardDeny x r s).reg a = (m.satInc (aGRD_DENY (r - 1)) fGRD_DENY_COUNT).reg a := by
  unfold Mach.guardDeny
  dsimp only
  rw [Mach.reg_setByte, Mach.reg_setFld_ne _ _ _ ha, Mach.reg_setFld_ne _ _ _ ha, Mach.reg_setFld_ne _ _ _ ha, Mach.reg_setFld_ne _ _ _ ha]

theorem Mach.guardDeny_regsBut : m.regsBut (m.guardDeny x r s) [aGRD_DENY (r - 1), aGRD_LASTDENY] := by
  intro a ha
  obtain ⟨hdeny, hlast⟩ : a ≠ aGRD_DENY (r - 1) ∧ a ≠ aGRD_LASTDENY := by simpa using ha
  rw [m.reg_guardDeny_ne x hlast]
  exact Mach.reg_setFld_ne _ _ _ hdeny

theorem Mach.deny_guardDeny : (m.guardDeny x r s).fld (aGRD_DENY (r - 1)) fGRD_DENY_COUNT =
    min 0xFFFFFFFF (m.fld (aGRD_DENY (r - 1)) fGRD_DENY_COUNT + 1) := by
  have ha : aGRD_DENY (r - 1) ≠ aGRD_LASTDENY := by unfold aGRD_DENY aGRD_LASTDENY; omega
  exact (congrArg fGRD_DENY_COUNT.get (m.reg_guardDeny_ne x ha)).trans (m.fld_satAdd_same _ _ 1 rfl)

theorem Mach.reason_guardDeny (hr : r < 16) : (m.guardDeny x r s).fld aGRD_LASTDENY fGRD_LASTDENY_REASON = r := by
  unfold Mach.guardDeny
  dsimp only
  rw [Mach.fld_setByte, Mach.fld_setFld_apart _ _ _ _ _ _ rfl rfl, Mach.fld_setFld_apart _ _ _ _ _ _ rfl rfl,
    Mach.fld_setFld_apart _ _ _ _ _ _ rfl rfl, Mach.fld_setFld_same _ _ _ rfl]
  exact Nat.mod_eq_of_lt hr

theorem Mach.sector_guardDeny (hs : s < 16384) : (m.guardDeny x r s).fld aGRD_LASTDENY fGRD_LASTDENY_SECTOR = s := by
  unfold Mach.guardDeny
  dsimp only
  rw [Mach.fld_setByte, Mach.fld_setFld_same _ _ _ rfl]
  exact Nat.mod_eq_of_lt hs

end

/-! ## The decision within the emitter map (R205, R209) -/

/-- The index of a fire, below 32, places every entry of the shot in the emitter map (R203). -/
theorem Mach.entries_lt (m : Mach) {x : Shot} (hx : x.index < 32) : ∀ i ∈ m.entries x, i < 1024 := by
  intro i hi
  unfold Mach.entries at hi
  split at hi
  all_goals
    obtain ⟨k, hk, rfl⟩ := List.mem_map.mp hi
    have hk := List.mem_range.mp (List.mem_filter.mp hk).1
    omega

theorem Mach.level_decayTouched {m : Mach} {x : Shot} (h : m.ClearedFor x) {s w : Nat} (hw : w < 3) :
    (m.decayTouched x).level s w = if mapGet none (m.shotEnergy x) s = none then m.level s w else m.decayed s w :=
  m.level_decays (m.shotEnergy_wf x) h.sector_lt hw

/-- What a grant means of a shot whose index is in range, so that its entries lie in the emitter map: the conditions of R202, room in every
window of every sector touched (R205), and levels that hold what was decayed and charged. -/
theorem Mach.guardDecide_grants {m : Mach} {x : Shot} {late : Bool} (hx : x.index < 32) (h : (m.guardDecide x late).1 = 0) :
    late = false ∧ m.ClearedFor x
    ∧ (∀ k, k < 4 → (m.gw (0x80 + 8 * k)).testBit x.str = true → m.modBad k = false)
    ∧ (∀ s n, mapGet none (m.shotEnergy x) s = some n → n ≤ m.gw (0x1100 + 4 * (s / 256)) ∧ ∀ w, w < 3 →
        (m.guardDecide x late).2.level s w = m.decayed s w + n ∧ (m.guardDecide x late).2.level s w ≤ m.lim s w / 2)
    ∧ (∀ s w, w < 3 → mapGet none (m.shotEnergy x) s = none → (m.guardDecide x late).2.level s w = m.level s w) := by
  have hold := LevelsOnly.decayTouched m x
  obtain ⟨hintime, hclear, hroom, hd⟩ | ⟨r, s, m', hd, hr, -⟩ := m.guardDecide_cases x late
  case inr => exact absurd ((congrArg Prod.fst hd).symm.trans h) (Nat.ne_of_gt hr)
  have hlevel {s w : Nat} (hw : w < 3) : (m.guardDecide x late).2.level s w =
      ((if mapGet none (m.shotEnergy x) s = none then m.level s w else m.decayed s w) + (mapGet none (m.shotEnergy x) s).getD 0) % 2 ^ 32 := by
    rw [hd, ← level_decayTouched hclear hw, hold.shotEnergy (m.entries_lt hx)]
    exact (m.decayTouched x).level_charges (m.shotEnergy_wf x) hw
  refine ⟨hintime, hclear, fun k hk hfeeds => ?modules, fun s n hn => ?touched, fun s w hw hn => ?others⟩
  case modules =>
    rw [← hold.modBad hk]
    exact hroom.modules k hk (by rwa [hold.gw (by omega)])
  case others =>
    rw [hlevel hw, if_pos hn, hn]
    exact Nat.mod_eq_of_lt (m.level_lt s w)
  case touched =>
    have hp : (s, some n) ∈ m.shotEnergy x := (mem_iff_mapGet (m.shotEnergy_wf x) s _).mpr ⟨hn, Option.some_ne_none n⟩
    have hs : s < 16384 := hclear.sector_lt _ hp
    refine ⟨?_, fun w hw => ?_⟩
    · rw [← hold.gw (by omega)]
      exact hroom.rowmax _ hp
    · have hfits : m.decayed s w + n ≤ m.lim s w / 2 := by
        have hwin := hroom.windows _ hp w hw
        rwa [level_decayTouched hclear hw, if_neg (by rw [hn]; exact Option.some_ne_none n), hold.lim hs hw] at hwin
      have hlim : m.lim s w < 2 ^ 32 := m.mnat_lt _ 4
      rw [hlevel hw, if_neg (by rw [hn]; exact Option.some_ne_none n), hn, Option.getD_some, Nat.mod_eq_of_lt (by omega)]
      exact ⟨rfl, hfits⟩

/-- What a denial means of any shot: no level rises, and the reason is counted, shown in the deny map and remembered (R209). -/
theorem Mach.guardDecide_denies {m : Mach} {x : Shot} {late : Bool} (h : (m.guardDecide x late).1 ≠ 0) :
    let r := m.guardDecide x late
    let s0 := r.2.fld aGRD_LASTDENY fGRD_LASTDENY_SECTOR
    (∀ s w, w < 3 → r.2.level s w = m.level s w ∨ r.2.level s w = m.decayed s w)
    ∧ r.2.fld (aGRD_DENY (r.1 - 1)) fGRD_DENY_COUNT = min 0xFFFFFFFF (m.fld (aGRD_DENY (r.1 - 1)) fGRD_DENY_COUNT + 1)
    ∧ r.2.fld aGRD_LASTDENY fGRD_LASTDENY_REASON = r.1 ∧ (r.1 < 7 ∨ r.1 = 11 → s0 = 0)
    ∧ (r.2.byte (grdDeny + s0)).toNat = min 255 ((m.byte (grdDeny + s0)).toNat + 1)
    ∧ m.regsBut r.2 [aGRD_DENY (r.1 - 1), aGRD_LASTDENY] := by
  obtain ⟨-, -, -, hd⟩ | ⟨r, s, m', hd, -, hr, hs, hnone, hm'⟩ := m.guardDecide_cases x late
  case inl => exact absurd (congrArg Prod.fst hd) h
  have hold : m.LevelsOnly m' := by
    obtain rfl | ⟨-, rfl⟩ := hm'
    · exact .refl _
    · exact .decayTouched m x
  have hlevel (s' w : Nat) (hw : w < 3) : m'.level s' w = m.level s' w ∨ m'.level s' w = m.decayed s' w := by
    obtain rfl | ⟨hclear, rfl⟩ := hm'
    · exact .inl rfl
    · rw [level_decayTouched hclear hw]
      split
      · exact .inl rfl
      · exact .inr rfl
  have hbyte : m'.byte (grdDeny + s) = m.byte (grdDeny + s) := hold.below _ (by unfold grdDeny grdLevels; omega)
  rw [hd]
  dsimp only
  rw [m'.sector_guardDeny x hs, m'.deny_guardDeny, hold.fld, m'.byte_guardDeny, if_pos rfl, hbyte]
  refine ⟨fun s' w hw => ?_, rfl, m'.reason_guardDeny x (by omega), hnone, ?_, fun a ha => ?_⟩
  · rw [m'.level_guardDeny x hs]
    exact hlevel s' w hw
  · rw [BitVec.toNat_ofNat]
    omega
  · exact (m'.guardDeny_regsBut x a ha).trans (hold.reg a)

end Sys2Proof.Machine
end

section
namespace Sys2Proof.Machine

/-! ## A shot whose entry lies outside the emitter map (R203, R205)

The index of a `Shot` is not bounded. Entry 81856 of an emitter map of 1024 entries is the word that holds the level of sector 0 in window 0:
as the level decays, so does the energy that the entry gives the shot, and the grant then charges less than it judged. Where the
index is below 32, as a fire's is, the entries lie in the map and the statement's grants hold (`Mach.guardDecide_grants`); its denials hold of
every shot (`Mach.guardDecide_denies`). -/

/-- An armed guard at guard cycle 2160. Sector 0 has limit 400 in every window, ROWMAX 100 in its row, and level 80 in window 0, last updated
at guard cycle 0; it has decayed to 0 by now. -/
def decayingGuard : Mach :=
  let m := State.reset.m
  let m := { m with cyc := 16 * 2160, dev := { m.dev with st := .armed } }.setFld aGRD_STAT fGRD_STAT_ACTIVE 1
  let m := (m.setMword (grdImg + 0x1100) 100).setMword (grdImg + 0x1200) 400
  ((m.setMword (grdImg + 0x1204) 400).setMword (grdImg + 0x1208) 400).setLevel 0 0 80

/-- A shot of emitter 0 of string 5116, 8192 times its entry's K_i / 65,536 in energy. -/
def shotOutsideMap : Shot := { Shot.blank with index := 5116, emit := 1, charge := 512, width := 16 }

theorem entry_shotOutsideMap_is_level : decayingGuard.entries shotOutsideMap = [81856] ∧ grdImg + (0x100 + 4 * 81856) = grdLevels := by
  decide +kernel

theorem decayed_decayingGuard : decayingGuard.decayed 0 0 = 0 := by
  decide +kernel

theorem shotEnergy_shotOutsideMap : mapGet none (decayingGuard.shotEnergy shotOutsideMap) 0 = some 10 := by
  decide +kernel

theorem guardDecide_shotOutsideMap :
    (decayingGuard.guardDecide shotOutsideMap false).1 = 0 ∧ (decayingGuard.guardDecide shotOutsideMap false).2.level 0 0 = 0 := by
  decide +kernel

/-- Refutes O37: the shot puts energy 10 into sector 0, whose level has decayed to 0, and is granted; the level then reads 0, not 10. Its entry
lies where the level itself is stored (`entry_shotOutsideMap_is_level`), so the energy charged after the decay is 0. -/
theorem not_guardGrantsWithinBudget : ¬ Obligations.GuardGrantsWithinBudget := by
  unfold Obligations.GuardGrantsWithinBudget
  intro h
  obtain ⟨hgranted, hlevel⟩ := guardDecide_shotOutsideMap
  obtain ⟨hgrant, -⟩ := h decayingGuard shotOutsideMap false
  obtain ⟨-, -, -, -, -, -, -, -, -, hcharged, -⟩ := hgrant hgranted
  obtain ⟨-, hroom⟩ := hcharged 0 10 shotEnergy_shotOutsideMap
  obtain ⟨hsum, -⟩ := hroom 0 (by decide)
  have hcharge : (0 : Nat) = 0 + 10 :=
    calc 0 = (decayingGuard.guardDecide shotOutsideMap false).2.level 0 0 := hlevel.symm
      _ = decayingGuard.decayed 0 0 + 10 := hsum
      _ = 0 + 10 := by rw [decayed_decayingGuard]
  exact absurd hcharge (by decide)

end Sys2Proof.Machine
end
